-- ==== Sys2Proof/Word.lean ====
section
/-!
DEFINITION. The word types of the machine and their plainest arithmetic (00_scope R13: little-endian, bit 0 is the
least significant).
-/
namespace Sys2Proof

/-- One byte of memory. -/
abbrev Byte := BitVec 8

/-- A 32-bit register element or instruction word (09_encoding R205, R224). -/
abbrev Word := BitVec 32

/-- A 64-bit value: a register pair, an address, CYC (10_isa_uniform_control R226, 00_scope R2). -/
abbrev DWord := BitVec 64

/-- One bit for each of the 64 lanes of a wave, bit i for lane i (07_execution R162). -/
abbrev Lanes := BitVec 64

/-- The all-ones lane mask. -/
def allLanes : Lanes := BitVec.allOnes 64

/-- The pair of a high and a low word (10_isa_uniform_control R226: the low half is the even register). -/
def pair (lo hi : Word) : DWord := hi ++ lo

/-- The low half of a 64-bit value. -/
def lowWord (d : DWord) : Word := d.extractLsb' 0 32

/-- The high half of a 64-bit value. -/
def highWord (d : DWord) : Word := d.extractLsb' 32 32

/-- The lane numbers 0 to 63, in ascending order. -/
def laneNumbers : List Nat := List.range 64

/-- A Bool as one bit. -/
def bitOf (b : Bool) : Nat := if b then 1 else 0

end Sys2Proof
end

