-- ==== Sys2Proof/Syntax.lean ====
section
/-!
DEFINITION. The instructions: one constructor for each row of spec/opcode_table.json. A word instruction carries the raw
fields of its 32-bit word (09_encoding R212); reserved fields and the chain bit are not carried (R208, R214). The operands
of a row that is a step of another agent, a Skolis command or a fabric-manager command stand in a Call, which the machine
latches before it runs the row, as it latches the issuing wave before it runs a word.
-/
namespace Sys2Proof

/-- What a CXL.mem exchange with a module was for (03_pod_memory R56). -/
inductive MemKind where
  /-- MemRd with MetaValue S: shared permission. -/
  | readShared
  /-- MemRd with MetaValue A: any-exclusive permission, with the data. -/
  | own
  /-- MemInv with MetaValue A: any-exclusive permission, when the package already holds the data. -/
  | ownHeld
  /-- MemWr with MetaValue I: the last copy, dirty, leaves. -/
  | writeInvalid
  /-- MemWr with MetaValue A: an O line whose S copies remain. -/
  | writeKeep
  /-- MemClnEvct with MetaValue I: the last copy, clean, leaves. -/
  | cleanEvict
deriving DecidableEq, Repr

/-- Which register space a write reaches (01_address_spaces R26, 15_partitions_host_startup R346, R356). -/
inductive RegSpace where
  /-- The register page of a dense partition (BAR 2 of its logical device, or the MMIO page). -/
  | page (part : Nat)
  /-- BAR 0 of logical device `mbx` (0-15), or of the FM-owned one (16). -/
  | mailbox (mbx : Nat)
deriving DecidableEq, Repr

/-- A Kweut request as it reaches the module (03_pod_memory R76). `lead` is the lead head of the head group that sent it,
`port` the attachment port index it came through, `ld` the logical device whose aperture it was written to: of a partition of the
package that sends it, by its number; 16 for a Runner's. -/
structure KReq where
  module : Nat
  ld : Nat
  lead : Nat
  port : Nat
  subop : Nat
  tag : Nat
  addr : Nat
  a : Nat
  b : Nat
  payload : List Byte
deriving DecidableEq, Repr

/-- A Kweut response as it reaches the package (03_pod_memory R76): through port `port` of attachment `att`. -/
structure KRsp where
  att : Nat
  port : Nat
  tag : Nat
  status : Nat
  value : Nat
  data : List Byte
deriving DecidableEq, Repr

/-- The types of a Runner packet (03_pod_memory R87). -/
inductive PacketType where
  | rwri | rrd | ratom | relayedRead | relayedWrite | relayedAtomic | ack | nak | fault | resume | resp
deriving DecidableEq, Repr

/-- A Runner packet: the header of 03_pod_memory R87 and its data bytes. `module` is the target module of a relayed
access (whose context is a system stream of the peer and the module); `poison` marks poisoned data bytes. -/
structure Packet where
  type : PacketType
  stream : Nat
  forwarded : Bool
  system : Bool
  reason : Nat
  seq : Nat
  src : Nat
  dst : Nat
  opsize : Nat
  keyPart : Nat
  keyAsid : Nat
  sndAsid : Nat
  imm : Nat
  addr : Nat
  len : Nat
  tag : Nat
  module : Nat
  data : List Byte
  poison : Nat
deriving DecidableEq, Repr

/-- A relay context (03_pod_memory R88): the local partition and ASID, the peer, the remote key; or, for relayed
accesses, the peer and the module of a system stream (R87). -/
structure CtxId where
  part : Nat
  asid : Nat
  peer : Nat
  keyPart : Nat
  keyAsid : Nat
  system : Bool
  module : Nat
deriving DecidableEq, Repr

/-- The common part of a Skolis command record (15_partitions_host_startup R354, R358): the mailbox it came through
(16 is the administrative one), the command's number in the ring, its tag, and the partition of byte 5. -/
structure Cmd where
  mbx : Nat
  slot : Nat
  tag : Nat
  part : Nat
deriving DecidableEq, Repr

/-- The instructions of the machine, one constructor for each row of the opcode table. -/
inductive Instr where
  /-- R216. A word of the hint region (majors 0x00-0x01) executes as a no-operation and reads, writes and raises nothing. -/
  | nop
  /-- R227. sd := (sa + sb) mod 2^32. -/
  | uadd (d : BitVec 6) (a : BitVec 6) (b : BitVec 6) (g : BitVec 3)
  /-- R227. sd := (sa - sb) mod 2^32. -/
  | usub (d : BitVec 6) (a : BitVec 6) (b : BitVec 6) (g : BitVec 3)
  /-- R227. sd := low 32 bits of sa × sb. -/
  | umul (d : BitVec 6) (a : BitVec 6) (b : BitVec 6) (g : BitVec 3)
  /-- R227. sd := high 32 bits of the signed 64-bit product. -/
  | umulh (d : BitVec 6) (a : BitVec 6) (b : BitVec 6) (g : BitVec 3)
  /-- R227. sd := high 32 bits of the unsigned 64-bit product. -/
  | umulhu (d : BitVec 6) (a : BitVec 6) (b : BitVec 6) (g : BitVec 3)
  /-- R227. sd := sa and sb. -/
  | uand (d : BitVec 6) (a : BitVec 6) (b : BitVec 6) (g : BitVec 3)
  /-- R227. sd := sa or sb. -/
  | uor (d : BitVec 6) (a : BitVec 6) (b : BitVec 6) (g : BitVec 3)
  /-- R227. sd := sa xor sb. -/
  | uxor (d : BitVec 6) (a : BitVec 6) (b : BitVec 6) (g : BitVec 3)
  /-- R227. sd := sa shifted left by sb[4:0]. -/
  | ushl (d : BitVec 6) (a : BitVec 6) (b : BitVec 6) (g : BitVec 3)
  /-- R227. sd := sa shifted right by sb[4:0] with zero fill. -/
  | ushr (d : BitVec 6) (a : BitVec 6) (b : BitVec 6) (g : BitVec 3)
  /-- R227. sd := sa shifted right by sb[4:0] with sign fill. -/
  | usar (d : BitVec 6) (a : BitVec 6) (b : BitVec 6) (g : BitVec 3)
  /-- R227. sd := signed minimum of sa and sb. -/
  | umin (d : BitVec 6) (a : BitVec 6) (b : BitVec 6) (g : BitVec 3)
  /-- R227. sd := signed maximum of sa and sb. -/
  | umax (d : BitVec 6) (a : BitVec 6) (b : BitVec 6) (g : BitVec 3)
  /-- R227. sd := unsigned minimum of sa and sb. -/
  | uminu (d : BitVec 6) (a : BitVec 6) (b : BitVec 6) (g : BitVec 3)
  /-- R227. sd := unsigned maximum of sa and sb. -/
  | umaxu (d : BitVec 6) (a : BitVec 6) (b : BitVec 6) (g : BitVec 3)
  /-- R227. sd := sa. -/
  | umov (d : BitVec 6) (a : BitVec 6) (g : BitVec 3)
  /-- R227. sd := (sa + imm) mod 2^32, the immediate sign-extended or taken from the literal. -/
  | uaddi (d : BitVec 6) (a : BitVec 6) (imm : BitVec 10)
  /-- R227. sd := (sa × imm) mod 2^32. -/
  | umuli (d : BitVec 6) (a : BitVec 6) (imm : BitVec 10)
  /-- R227. sd := sa and imm. -/
  | uandi (d : BitVec 6) (a : BitVec 6) (imm : BitVec 10)
  /-- R227. sd := sa or imm. -/
  | uori (d : BitVec 6) (a : BitVec 6) (imm : BitVec 10)
  /-- R227. sd := sa xor imm. -/
  | uxori (d : BitVec 6) (a : BitVec 6) (imm : BitVec 10)
  /-- R227. sd := sa shifted left by imm[4:0]. -/
  | ushli (d : BitVec 6) (a : BitVec 6) (imm : BitVec 10)
  /-- R227. sd := sa shifted right by imm[4:0] with zero fill. -/
  | ushri (d : BitVec 6) (a : BitVec 6) (imm : BitVec 10)
  /-- R227. sd := sa shifted right by imm[4:0] with sign fill. -/
  | usari (d : BitVec 6) (a : BitVec 6) (imm : BitVec 10)
  /-- R228. qd := 1 when the selected condition holds between sa and sb, else 0. -/
  | ucmp (cc : BitVec 4) (q : BitVec 6) (a : BitVec 6) (b : BitVec 6) (g : BitVec 3)
  /-- R228. qd := 1 when the selected condition holds between sa and the immediate, else 0. -/
  | ucmpi (cc : BitVec 3) (q : BitVec 6) (a : BitVec 6) (imm : BitVec 10)
  /-- R229. sd := count of leading zeros of sa. -/
  | uclz (d : BitVec 6) (a : BitVec 6) (g : BitVec 3)
  /-- R229. sd := count of 1 bits of sa. -/
  | upopc (d : BitVec 6) (a : BitVec 6) (g : BitVec 3)
  /-- R229. sd := sa with its bits reversed. -/
  | ubrev (d : BitVec 6) (a : BitVec 6) (g : BitVec 3)
  /-- R229. sd := the bit field of sa that the control word in sb selects, optionally sign-extended. -/
  | ubfx (d : BitVec 6) (a : BitVec 6) (b : BitVec 6) (g : BitVec 3)
  /-- R229. Inserts sa into the bit field of sd that the control word in sb selects. -/
  | ubfi (d : BitVec 6) (a : BitVec 6) (b : BitVec 6) (g : BitVec 3)
  /-- R229. sd := sa if qc = 1 else sb, with qc in bits [2:0]. -/
  | usel (d : BitVec 6) (a : BitVec 6) (b : BitVec 6) (q : BitVec 3)
  /-- R229. qd := the logical operation in bits [2:0] applied to qa and qb. -/
  | uqop (d : BitVec 6) (a : BitVec 6) (b : BitVec 6) (o : BitVec 3)
  /-- R229. sd := q7..q0 as bits [7:0], zero above. -/
  | uqmovTos (d : BitVec 6)
  /-- R229. q1..q7 := sa[7:1], leaving q0 unchanged. -/
  | uqmovFroms (a : BitVec 6)
  /-- R230. Loads a 32-bit word at a uniform pair plus immediate into sd as a relaxed WAVE-scope access. -/
  | uld32 (d : BitVec 6) (a : BitVec 6) (imm : BitVec 10)
  /-- R230. Loads a 64-bit value at a uniform pair plus immediate into sd:d+1. -/
  | uld64 (d : BitVec 6) (a : BitVec 6) (imm : BitVec 10)
  /-- R230. Stores sd as a 32-bit word at a uniform pair plus immediate. -/
  | ust32 (d : BitVec 6) (a : BitVec 6) (imm : BitVec 10)
  /-- R230. Stores sd:d+1 as a 64-bit value at a uniform pair plus immediate. -/
  | ust64 (d : BitVec 6) (a : BitVec 6) (imm : BitVec 10)
  /-- R231. sd receives the special register named by the index; a read of CYCLO captures CYC. -/
  | urds (d : BitVec 6) (n : BitVec 10)
  /-- R231. The special register named by the index receives s(sa). -/
  | uwrs (a : BitVec 6) (n : BitVec 10)
  /-- R231. FMT := (FMT and not MASK) or (VALUE and MASK). -/
  | setfmt (m : BitVec 8) (v : BitVec 8)
  /-- R232. Branches by a packet offset when qc is 1. -/
  | bra (q : BitVec 3) (o : BitVec 19)
  /-- R232. Branches by a packet offset when qc is 0. -/
  | bran (q : BitVec 3) (o : BitVec 19)
  /-- R236. When taken, advances WINBASE by the frame step in W3, spilling as needed, pushes a call record and branches. -/
  | call (q : BitVec 3) (o : BitVec 19)
  /-- R236. When taken, pops the call record, restores WINBASE with any fill from the spill area and returns. -/
  | ret (q : BitVec 3)
  /-- R232. When taken, jumps to CODE plus s(sa). -/
  | jmpi (q : BitVec 3) (a : BitVec 6)
  /-- R236. When taken, calls CODE plus s(sa) with the frame step in W3. -/
  | calli (q : BitVec 3) (a : BitVec 6)
  /-- R239. Divides the active lanes into a true and an else arm on a predicate and opens a divergence entry. -/
  | split (p : BitVec 6) (e : BitVec 16)
  /-- R240. An arm waits at the join; when both arms have arrived the entry closes, the lanes reunite and FMT is restored. -/
  | join
  /-- R241. Removes the active lanes whose p is 1 from the unit until the innermost join. -/
  | brkp (p : BitVec 6)
  /-- R242. Writes the issuing unit's active mask to a uniform pair. -/
  | pmask (d : BitVec 6)
  /-- R242. qd := 1 when some active lane has p = 1. -/
  | anyp (d : BitVec 6) (p : BitVec 6)
  /-- R242. qd := 1 when every active lane has p = 1. -/
  | allp (d : BitVec 6) (p : BitVec 6)
  /-- R244. Removes the issuing unit's lanes for good, halting the wave when no lane remains. -/
  | halt
  /-- R244. Resets the unit's selection wait and makes it youngest until its next issue. -/
  | yield
  /-- R245. Returns at once if the CYC in the pair has passed, otherwise puts the unit to sleep until it does. -/
  | sleepuntil (k : BitVec 5)
  /-- R246. Reads a word from the L2 and, if it equals the expected value, arms a line monitor and sleeps. -/
  | waitline (k : BitVec 5) (s : BitVec 6) (y : BitVec 6)
  /-- R247. Raises Software Trap with the code in TRAPCAUSE[15:8]. -/
  | trap (n : BitVec 8)
  /-- R247. Raises Breakpoint, or stops the wave when a debugger session is active. -/
  | bkpt (n : BitVec 8)
  /-- R247. Restores FMT, ends the handler state and resumes at CODE + TRAPPC. -/
  | rte
  /-- R249. Matches the shape registers against the dispatch table, sets BUCKET and BOUND0-7 and jumps to the bucket's entry. -/
  | dispatch (a : BitVec 6)
  /-- R177. Read-modify-writes the bucket entry to choose the variant for the next phase and sets PHASEVAR and the phase start. -/
  | phasesel
  /-- R176. Adds the cycles since the phase start to CNTg of the bucket entry. -/
  | phaseend (g : BitVec 2)
  /-- R254. Per lane, vd := (a + b) mod 2^32. -/
  | vadd (u : BitVec 1) (d : BitVec 6) (a : BitVec 6) (b : BitVec 6) (g : BitVec 3)
  /-- R254. Per lane, vd := (a - b) mod 2^32. -/
  | vsub (u : BitVec 1) (d : BitVec 6) (a : BitVec 6) (b : BitVec 6) (g : BitVec 3)
  /-- R254. Per lane, vd := (a × b) mod 2^32. -/
  | vmul (u : BitVec 1) (d : BitVec 6) (a : BitVec 6) (b : BitVec 6) (g : BitVec 3)
  /-- R254. Per lane, vd := high half of the signed product. -/
  | vmulh (u : BitVec 1) (d : BitVec 6) (a : BitVec 6) (b : BitVec 6) (g : BitVec 3)
  /-- R254. Per lane, vd := high half of the unsigned product. -/
  | vmulhu (u : BitVec 1) (d : BitVec 6) (a : BitVec 6) (b : BitVec 6) (g : BitVec 3)
  /-- R254. Per lane, vd := signed minimum. -/
  | vmin (u : BitVec 1) (d : BitVec 6) (a : BitVec 6) (b : BitVec 6) (g : BitVec 3)
  /-- R254. Per lane, vd := signed maximum. -/
  | vmax (u : BitVec 1) (d : BitVec 6) (a : BitVec 6) (b : BitVec 6) (g : BitVec 3)
  /-- R254. Per lane, vd := unsigned minimum. -/
  | vminu (u : BitVec 1) (d : BitVec 6) (a : BitVec 6) (b : BitVec 6) (g : BitVec 3)
  /-- R254. Per lane, vd := a and b. -/
  | vand (u : BitVec 1) (d : BitVec 6) (a : BitVec 6) (b : BitVec 6) (g : BitVec 3)
  /-- R254. Per lane, vd := a or b. -/
  | vor (u : BitVec 1) (d : BitVec 6) (a : BitVec 6) (b : BitVec 6) (g : BitVec 3)
  /-- R254. Per lane, vd := a xor b. -/
  | vxor (u : BitVec 1) (d : BitVec 6) (a : BitVec 6) (b : BitVec 6) (g : BitVec 3)
  /-- R254. Per lane, vd := a shifted left by b[4:0]. -/
  | vshl (u : BitVec 1) (d : BitVec 6) (a : BitVec 6) (b : BitVec 6) (g : BitVec 3)
  /-- R254. Per lane, vd := a shifted right by b[4:0] with zero fill. -/
  | vshr (u : BitVec 1) (d : BitVec 6) (a : BitVec 6) (b : BitVec 6) (g : BitVec 3)
  /-- R254. Per lane, vd := a shifted right by b[4:0] with sign fill. -/
  | vsar (u : BitVec 1) (d : BitVec 6) (a : BitVec 6) (b : BitVec 6) (g : BitVec 3)
  /-- R254. Per lane, vd := unsigned maximum. -/
  | vmaxu (u : BitVec 1) (d : BitVec 6) (a : BitVec 6) (b : BitVec 6) (g : BitVec 3)
  /-- R254. Per lane, vd := absolute signed difference mod 2^32. -/
  | vabsd (u : BitVec 1) (d : BitVec 6) (a : BitVec 6) (b : BitVec 6) (g : BitVec 3)
  /-- R255. Per active lane, vd := (a + imm) mod 2^32. -/
  | vaddi (d : BitVec 6) (a : BitVec 6) (imm : BitVec 10)
  /-- R255. Per active lane, vd := (a × imm) mod 2^32. -/
  | vmuli (d : BitVec 6) (a : BitVec 6) (imm : BitVec 10)
  /-- R255. Per active lane, vd := a and imm. -/
  | vandi (d : BitVec 6) (a : BitVec 6) (imm : BitVec 10)
  /-- R255. Per active lane, vd := a or imm. -/
  | vori (d : BitVec 6) (a : BitVec 6) (imm : BitVec 10)
  /-- R255. Per active lane, vd := a xor imm. -/
  | vxori (d : BitVec 6) (a : BitVec 6) (imm : BitVec 10)
  /-- R255. Per active lane, vd := a shifted left by imm[4:0]. -/
  | vshli (d : BitVec 6) (a : BitVec 6) (imm : BitVec 10)
  /-- R255. Per active lane, vd := a shifted right by imm[4:0] with zero fill. -/
  | vshri (d : BitVec 6) (a : BitVec 6) (imm : BitVec 10)
  /-- R255. Per active lane, vd := a shifted right by imm[4:0] with sign fill. -/
  | vsari (d : BitVec 6) (a : BitVec 6) (imm : BitVec 10)
  /-- R256. Per lane, pd := 1 when the integer condition holds between a and b. -/
  | vicmp (u : BitVec 1) (cc : BitVec 3) (d : BitVec 6) (a : BitVec 6) (b : BitVec 6) (g : BitVec 3)
  /-- R256. Per active lane, pd := 1 when the integer condition holds between a and the immediate. -/
  | vicmpi (cc : BitVec 3) (d : BitVec 6) (a : BitVec 6) (imm : BitVec 10)
  /-- R257. Per lane, vd := leading zeros of a. -/
  | vclz (u : BitVec 1) (d : BitVec 6) (a : BitVec 6) (g : BitVec 3)
  /-- R257. Per lane, vd := count of 1 bits of a. -/
  | vpopc (u : BitVec 1) (d : BitVec 6) (a : BitVec 6) (g : BitVec 3)
  /-- R257. Per lane, vd := a with its bits reversed. -/
  | vbrev (u : BitVec 1) (d : BitVec 6) (a : BitVec 6) (g : BitVec 3)
  /-- R257. Per lane, extracts the bit field of a controlled by b. -/
  | vbfx (u : BitVec 1) (d : BitVec 6) (a : BitVec 6) (b : BitVec 6) (g : BitVec 3)
  /-- R257. Per lane, inserts a into the bit field of vd controlled by b. -/
  | vbfi (u : BitVec 1) (d : BitVec 6) (a : BitVec 6) (b : BitVec 6) (g : BitVec 3)
  /-- R257. Per active lane, vd := a if the selector predicate is 1, else b. -/
  | vsel (u : BitVec 1) (d : BitVec 6) (a : BitVec 6) (b : BitVec 6) (p : BitVec 3)
  /-- R257. Per lane, vd := (a × b + vd) mod 2^32. -/
  | vmad (u : BitVec 1) (d : BitVec 6) (a : BitVec 6) (b : BitVec 6) (g : BitVec 3)
  /-- R257. Per lane, vd := the lane number. -/
  | vlane (u : BitVec 1) (d : BitVec 6) (g : BitVec 3)
  /-- R258. Per written lane, vd := va. -/
  | vmov (d : BitVec 6) (a : BitVec 6) (g : BitVec 3)
  /-- R258. Per written lane, vd := s(sa). -/
  | vmovs (d : BitVec 6) (s : BitVec 6) (g : BitVec 3)
  /-- R258. s(sd) := lane L of va. -/
  | vtos (s : BitVec 6) (a : BitVec 6) (l : BitVec 6) (g : BitVec 3)
  /-- R258. Lane L of vd := s(sa) when lane L is written. -/
  | vfroms (d : BitVec 6) (s : BitVec 6) (l : BitVec 6) (g : BitVec 3)
  /-- R259. Per lane, FP32 a + b rounded by FMT.RM. -/
  | fadd (u : BitVec 1) (d : BitVec 6) (a : BitVec 6) (b : BitVec 6) (g : BitVec 3)
  /-- R259. Per lane, FP32 a - b rounded by FMT.RM. -/
  | fsub (u : BitVec 1) (d : BitVec 6) (a : BitVec 6) (b : BitVec 6) (g : BitVec 3)
  /-- R259. Per lane, FP32 a × b rounded by FMT.RM. -/
  | fmul (u : BitVec 1) (d : BitVec 6) (a : BitVec 6) (b : BitVec 6) (g : BitVec 3)
  /-- R259. Per lane, FP32 a × b + vd with one rounding. -/
  | ffma (u : BitVec 1) (d : BitVec 6) (a : BitVec 6) (b : BitVec 6) (g : BitVec 3)
  /-- R259. Per lane, FP32 -(a × b) + vd with one rounding. -/
  | ffnma (u : BitVec 1) (d : BitVec 6) (a : BitVec 6) (b : BitVec 6) (g : BitVec 3)
  /-- R260. Per lane, FP32 minimum with -0 below +0 and NaN rules. -/
  | fmin (u : BitVec 1) (d : BitVec 6) (a : BitVec 6) (b : BitVec 6) (g : BitVec 3)
  /-- R260. Per lane, FP32 maximum with -0 below +0 and NaN rules. -/
  | fmax (u : BitVec 1) (d : BitVec 6) (a : BitVec 6) (b : BitVec 6) (g : BitVec 3)
  /-- R259. Per lane, a with its sign bit cleared. -/
  | fabs (u : BitVec 1) (d : BitVec 6) (a : BitVec 6) (g : BitVec 3)
  /-- R261. Per lane, pd := 1 when the floating-point condition holds between a and b. -/
  | vfcmp (u : BitVec 1) (cc : BitVec 3) (d : BitVec 6) (a : BitVec 6) (b : BitVec 6) (g : BitVec 3)
  /-- R262. Per lane, 1 / a correctly rounded. -/
  | frcp (u : BitVec 1) (d : BitVec 6) (a : BitVec 6) (g : BitVec 3)
  /-- R262. Per lane, 1 / sqrt(a) correctly rounded. -/
  | frsq (u : BitVec 1) (d : BitVec 6) (a : BitVec 6) (g : BitVec 3)
  /-- R262. Per lane, sqrt(a) correctly rounded. -/
  | fsqrt (u : BitVec 1) (d : BitVec 6) (a : BitVec 6) (g : BitVec 3)
  /-- R262. Per lane, a / b correctly rounded. -/
  | fdiv (u : BitVec 1) (d : BitVec 6) (a : BitVec 6) (b : BitVec 6) (g : BitVec 3)
  /-- R262. Per lane, 2^a correctly rounded. -/
  | fex2 (u : BitVec 1) (d : BitVec 6) (a : BitVec 6) (g : BitVec 3)
  /-- R262. Per lane, log2(a) correctly rounded. -/
  | flg2 (u : BitVec 1) (d : BitVec 6) (a : BitVec 6) (g : BitVec 3)
  /-- R262. Per lane, a rounded to an integral FP32 value by FMT.RM. -/
  | frint (u : BitVec 1) (d : BitVec 6) (a : BitVec 6) (g : BitVec 3)
  /-- R262. Per lane, writes a one-hot class mask of a. -/
  | fclass (u : BitVec 1) (d : BitVec 6) (a : BitVec 6) (g : BitVec 3)
  /-- R263. Per lane, adds two packed BF16 halves, RNE. -/
  | b2add (u : BitVec 1) (d : BitVec 6) (a : BitVec 6) (b : BitVec 6) (g : BitVec 3)
  /-- R263. Per lane, subtracts two packed BF16 halves, RNE. -/
  | b2sub (u : BitVec 1) (d : BitVec 6) (a : BitVec 6) (b : BitVec 6) (g : BitVec 3)
  /-- R263. Per lane, multiplies two packed BF16 halves, RNE. -/
  | b2mul (u : BitVec 1) (d : BitVec 6) (a : BitVec 6) (b : BitVec 6) (g : BitVec 3)
  /-- R263. Per lane, packed BF16 a × b + vd with one rounding. -/
  | b2fma (u : BitVec 1) (d : BitVec 6) (a : BitVec 6) (b : BitVec 6) (g : BitVec 3)
  /-- R263. Per lane, packed BF16 maximum. -/
  | b2max (u : BitVec 1) (d : BitVec 6) (a : BitVec 6) (b : BitVec 6) (g : BitVec 3)
  /-- R263. Per lane, packed BF16 minimum. -/
  | b2min (u : BitVec 1) (d : BitVec 6) (a : BitVec 6) (b : BitVec 6) (g : BitVec 3)
  /-- R265. Per lane, converts between floating-point formats named in the control field. -/
  | fcvt (d : BitVec 6) (a : BitVec 6) (dst : BitVec 3) (src : BitVec 3) (g : BitVec 3)
  /-- R266. Per lane, converts between floating-point and integer formats. -/
  | icvt (d : BitVec 6) (a : BitVec 6) (dst : BitVec 3) (src : BitVec 3) (g : BitVec 3)
  /-- R268. Quantises an FP32 scale tile from a register group into the packed narrow format and writes the scale to an s register. -/
  | qpk (d : BitVec 6) (a : BitVec 6) (s : BitVec 6) (g : BitVec 3)
  /-- R269. Decodes a packed scale tile and writes it as FP32 times the scale. -/
  | qunpk (d : BitVec 6) (a : BitVec 6) (s : BitVec 6) (g : BitVec 3)
  /-- R270. Per written lane, reads va from the lane indexed by vb. -/
  | shfl (d : BitVec 6) (a : BitVec 6) (b : BitVec 6) (g : BitVec 3)
  /-- R270. Per written lane i, reads va from lane i xor k. -/
  | shflx (d : BitVec 6) (a : BitVec 6) (k : BitVec 6) (g : BitVec 3)
  /-- R270. Per written lane i, reads va from lane i - k when it exists. -/
  | shflup (d : BitVec 6) (a : BitVec 6) (k : BitVec 6) (g : BitVec 3)
  /-- R270. Per written lane i, reads va from lane i + k when it exists. -/
  | shfldn (d : BitVec 6) (a : BitVec 6) (k : BitVec 6) (g : BitVec 3)
  /-- R270. Broadcasts lane k of va to every written lane. -/
  | lanebc (d : BitVec 6) (a : BitVec 6) (k : BitVec 6) (g : BitVec 3)
  /-- R271. Reduces FP32 lanes in the fixed tree of R204 and writes the result to every written lane. -/
  | vredf (d : BitVec 6) (a : BitVec 6) (o : BitVec 6) (g : BitVec 3)
  /-- R271. Reduces integer lanes exactly and writes the result to every written lane. -/
  | vredi (d : BitVec 6) (a : BitVec 6) (o : BitVec 6) (g : BitVec 3)
  /-- R271. Computes an inclusive FP32 scan in a fixed order. -/
  | vscanf (d : BitVec 6) (a : BitVec 6) (o : BitVec 6) (g : BitVec 3)
  /-- R273. Each active lane loads its element from the vector register indexed by va plus imm. -/
  | vldx (d : BitVec 6) (a : BitVec 6) (imm : BitVec 10)
  /-- R273. Each active lane stores its element of vd to the vector register indexed by va plus imm. -/
  | vstx (d : BitVec 6) (a : BitVec 6) (imm : BitVec 10)
  /-- R274. Per written lane, pd := pa and pb. -/
  | pand (d : BitVec 6) (a : BitVec 6) (b : BitVec 6) (g : BitVec 3)
  /-- R274. Per written lane, pd := pa or pb. -/
  | por (d : BitVec 6) (a : BitVec 6) (b : BitVec 6) (g : BitVec 3)
  /-- R274. Per written lane, pd := pa xor pb. -/
  | pxor (d : BitVec 6) (a : BitVec 6) (b : BitVec 6) (g : BitVec 3)
  /-- R274. Per written lane, pd := pa and not pb. -/
  | pandn (d : BitVec 6) (a : BitVec 6) (b : BitVec 6) (g : BitVec 3)
  /-- R274. Per written lane, pd := not pa. -/
  | pnot (d : BitVec 6) (a : BitVec 6) (g : BitVec 3)
  /-- R274. Per written lane, pd := pa. -/
  | pmov (d : BitVec 6) (a : BitVec 6) (g : BitVec 3)
  /-- R274. Per written lane, pd := the constant in bit 9 of the word. -/
  | pset (d : BitVec 6) (v : BitVec 1) (g : BitVec 3)
  /-- R274. Writes to a uniform pair a bit per lane that is written and has pa = 1. -/
  | vballot (s : BitVec 6) (a : BitVec 6) (g : BitVec 3)
  /-- R274. Per written lane, vd := count of lower written lanes with pa = 1. -/
  | vmcnt (d : BitVec 6) (a : BitVec 6) (g : BitVec 3)
  /-- R278. Loads each active lane's element from virtual memory through the tier's path, with the order and scope of the word. -/
  | ldg (z : BitVec 2) (s : BitVec 3) (r : BitVec 2) (d : BitVec 6) (o : BitVec 6) (k : BitVec 5) (n : BitVec 1)
  /-- R278. Stores each active lane's element to virtual memory, including Ladle aperture and DOOR stores. -/
  | stg (z : BitVec 2) (s : BitVec 3) (r : BitVec 2) (d : BitVec 6) (o : BitVec 6) (k : BitVec 5) (n : BitVec 1)
  /-- R279. Loads each active lane's element from the QSP window in row or column mode. -/
  | ldq (z : BitVec 2) (s : BitVec 3) (r : BitVec 2) (d : BitVec 6) (o : BitVec 6) (k : BitVec 5) (n : BitVec 1)
  /-- R279. Stores each active lane's element to the QSP window in row or column mode. -/
  | stq (z : BitVec 2) (s : BitVec 3) (r : BitVec 2) (d : BitVec 6) (o : BitVec 6) (k : BitVec 5) (n : BitVec 1)
  /-- R280. Loads lanes, sending tier 0 lanes as one packet per stack to the stack's home die. -/
  | gather (z : BitVec 2) (s : BitVec 3) (r : BitVec 2) (d : BitVec 6) (o : BitVec 6) (k : BitVec 5) (n : BitVec 1)
  /-- R280. Stores lanes as STG does but allocates no line on a miss. -/
  | scatter (z : BitVec 2) (s : BitVec 3) (r : BitVec 2) (d : BitVec 6) (o : BitVec 6) (k : BitVec 5) (n : BitVec 1)
  /-- R281. Performs the atomic operation per active lane at the L2 atomic unit, or relayed for tier 2, and returns the old values. -/
  | atomg (p : BitVec 3) (w : BitVec 1) (s : BitVec 3) (r : BitVec 2) (d : BitVec 6) (o : BitVec 6) (k : BitVec 4)
  /-- R283. Performs a 32-bit atomic per active lane on QSP words at the bank. -/
  | atomq (p : BitVec 3) (n : BitVec 1) (s : BitVec 3) (r : BitVec 2) (d : BitVec 6) (o : BitVec 6) (k : BitVec 4)
  /-- R108. Orders every earlier access of the wave before every later one at the scope. -/
  | fence (s : BitVec 3)
  /-- R108. Orders every earlier read before every later access at the scope. -/
  | fenceacq (s : BitVec 3)
  /-- R108. Orders every earlier access before every later write at the scope. -/
  | fencerel (s : BitVec 3)
  /-- R145. Waits for the wave's copies to land and its Crucible operations to complete, then acts as a FENCE. -/
  | fenceeng (s : BitVec 3)
  /-- R285. Fills each lane's sector into the L2, and with O = 1 into the L1, dropping refused lanes silently. -/
  | pref (o : BitVec 6) (k : BitVec 5) (n : BitVec 1)
  /-- R285. Merges each lane's line from the write queue and writes its dirty L1 bytes back to the L2. -/
  | wbl (o : BitVec 6) (k : BitVec 5) (n : BitVec 1)
  /-- R285. Discards each lane's line and write-queue entries from the L1. -/
  | invl (o : BitVec 6) (k : BitVec 5) (n : BitVec 1)
  /-- R285. Writes back and then invalidates each lane's line in the L1. -/
  | flushl (o : BitVec 6) (k : BitVec 5) (n : BitVec 1)
  /-- R287. Translates an address and asks the base die to hold its HBM row, returning a handle and a status. -/
  | rowpin (d : BitVec 6) (k : BitVec 5)
  /-- R288. Releases the hold named by a current handle, or reports it stale. -/
  | rowunpin (d : BitVec 6) (a : BitVec 6)
  /-- R288. Reports whether a hold handle is current, dropped or stale. -/
  | rowqry (d : BitVec 6) (a : BitVec 6)
  /-- R289. Sends a Kweut QPUT of a 64-byte entry from lanes 0-15 of a vector register and returns the status. -/
  | mqput (k : BitVec 5) (d : BitVec 6) (r : BitVec 6)
  /-- R289. Sends a Kweut QGET and writes the status and, on OK, the entry. -/
  | mqget (k : BitVec 5) (d : BitVec 6) (r : BitVec 6)
  /-- R289. Sends a Kweut RED contribution of 320 bytes and returns the status and generation. -/
  | mred (k : BitVec 5) (d : BitVec 6) (r : BitVec 6)
  /-- R289. Sends a Kweut REDRD for a generation and writes the status, generation and, on OK, the result area. -/
  | mredrd (k : BitVec 5) (d : BitVec 6) (r : BitVec 6)
  /-- R289. Sends a Kweut ATOM on a module word and returns the status and old value. -/
  | matom (k : BitVec 5) (d : BitVec 6) (r : BitVec 6) (w : BitVec 1) (p : BitVec 3)
  /-- R293. Sends a remote write of up to 256 bytes with a notification immediate to a peer under a key. -/
  | rwri (k : BitVec 5) (ctl : BitVec 5) (r : BitVec 6)
  /-- R294. Sends a remote read under a key and writes the returned bytes into a vector register. -/
  | rrd (k : BitVec 5) (ctl : BitVec 5) (r : BitVec 6)
  /-- R295. Sends a remote atomic under a key and returns the old value to lane 0 or lanes 0-1. -/
  | ratom (k : BitVec 5) (ctl : BitVec 5) (r : BitVec 6)
  /-- R296. Takes the next notification record of the launch ASID's queue, or sleeps until one is written or the timeout passes. -/
  | nqwait (d : BitVec 6) (y : BitVec 6)
  /-- R298. Initialises a transaction barrier with an arrival count and writes its OWNER. -/
  | tbinit (k : BitVec 5) (q : BitVec 1) (s : BitVec 3) (r : BitVec 6)
  /-- R298. Subtracts arrivals from the barrier as a release, completing the phase when nothing remains. -/
  | tbarrive (k : BitVec 5) (q : BitVec 1) (s : BitVec 3) (r : BitVec 6)
  /-- R298. Adds expected arrivals to the barrier. -/
  | tbexpect (k : BitVec 5) (q : BitVec 1) (s : BitVec 3) (r : BitVec 6)
  /-- R299. Returns when the barrier's phase differs from s(r), otherwise waits, parking the wave. -/
  | tbwait (k : BitVec 5) (q : BitVec 1) (s : BitVec 3) (r : BitVec 6)
  /-- R300. Reads the barrier's promise, phase, arrivals and sectors into four uniform registers. -/
  | tbquery (k : BitVec 5) (q : BitVec 1) (s : BitVec 3) (r : BitVec 6)
  /-- R302. Arrives at a scoped hardware barrier and waits for the generation it joined to complete. -/
  | barsync (s : BitVec 3) (imm : BitVec 4) (r : BitVec 6)
  /-- R302. Arrives at a scoped hardware barrier and returns the generation joined. -/
  | bararrive (s : BitVec 3) (imm : BitVec 4) (r : BitVec 6) (d : BitVec 6)
  /-- R302. Waits until a given generation of a scoped hardware barrier has completed. -/
  | barwait (s : BitVec 3) (imm : BitVec 4) (r : BitVec 6)
  /-- R305. Refills the gate's bucket and, if not saturated or throttled, consumes a token, increments the counter and wakes the oldest sleeper. -/
  | gatepost (d : BitVec 6) (a : BitVec 6)
  /-- R305. Decrements the gate counter if above 0, otherwise joins the waiter set and sleeps or returns empty. -/
  | gatetake (d : BitVec 6) (a : BitVec 6) (y : BitVec 6)
  /-- R305. Returns the gate's counter. -/
  | gatepoll (d : BitVec 6) (a : BitVec 6)
  /-- R312. Checks and enters a loop of K-steps of the Crucible engine on an accumulator into the reservation table. -/
  | mloop (a : BitVec 3) (t : BitVec 4) (u : BitVec 4) (o : BitVec 1) (p : BitVec 1) (s : BitVec 1) (n : BitVec 11)
  /-- R319. Enters one 16 × 16 block update of an accumulator from register fragments. -/
  | mstep (a : BitVec 3) (v : BitVec 6) (w : BitVec 6) (f : BitVec 2) (imm : BitVec 3) (j : BitVec 3) (g : BitVec 2)
  /-- R321. Enters a drain of an accumulator into a QSP tile, with an optional transposed copy and zeroing. -/
  | mdrain (a : BitVec 3) (d : BitVec 4) (t : BitVec 4) (r : BitVec 1) (z : BitVec 1)
  /-- R324. Enters a pass that sets every accumulator element to +0 and clears its bits. -/
  | mzero (a : BitVec 3)
  /-- R324. Stalls the unit until every operation of the wave on the slot has ended. -/
  | mwait (a : BitVec 3)
  /-- R324. Enters a pass that loads an accumulator from a QSP tile converted to FP32. -/
  | mload (a : BitVec 3) (t : BitVec 4)
  /-- R324. Reads an accumulator slot's remaining steps and status bits without waiting. -/
  | mqry (a : BitVec 3) (d : BitVec 6)
  /-- R311. Loads a tile descriptor from four uniform registers. -/
  | tset (t : BitVec 4) (a : BitVec 6)
  /-- R311. Copies a tile descriptor into four uniform registers. -/
  | tget (d : BitVec 6) (t : BitVec 4)
  /-- R311. Copies a tile descriptor and replaces its BASE from a uniform register. -/
  | tplset (d : BitVec 4) (t : BitVec 4) (a : BitVec 6)
  /-- R328. Selects a counter's event and clears its VALUE and OVF. -/
  | ctrsel (n : BitVec 4) (a : BitVec 6)
  /-- R328. Reads a counter's 48-bit VALUE into a uniform pair. -/
  | ctrrd (d : BitVec 6) (n : BitVec 4)
  /-- R329. Enables, disables, clears or sets interrupt enables of masked counters and returns OVF and EN. -/
  | ctrctl (d : BitVec 6) (a : BitVec 6)
  /-- R91. An error of a retired remote, relayed or engine request is taken by the wave at its next instruction boundary or posted to the host queue. -/
  | lateError
  /-- R167. A ready wave without an issue context takes a free, parked or displaced context. -/
  | contextTake
  /-- R245. A sleeping unit wakes when its target CYC has passed. -/
  | sleepuntilWake
  /-- R246. A WAITLINE sleeper wakes on a write, ownership request, atomic, snoop or directory eviction of its line, or pre-emption. -/
  | waitlineWake
  /-- R246. A WAITLINE sleeper wakes when its timeout expires. -/
  | waitlineTimeout
  /-- R297. An advance of TAIL wakes the oldest sleeper, which retries its take. -/
  | nqwaitWake
  /-- R296. An NQWAIT sleeper whose timeout passes returns the no-record pair. -/
  | nqwaitTimeout
  /-- R305. An accepted post wakes the oldest sleeping take, which retries. -/
  | gatetakeWake
  /-- R305. A sleeping take returns empty when its timeout passes. -/
  | gatetakeTimeout
  /-- R143. A wave in TBWAIT takes Missed Promise when its barrier's promise passes with sectors pending. -/
  | missedPromise
  /-- R188. A wave's progress counter reaches the limit and the wave takes Watchdog or is killed. -/
  | watchdog
  /-- R171. When every wave has halted or been killed and its operations completed, resources are freed and a completion event posted. -/
  | launchComplete
  /-- R277. A memory operation's response arrives, its data is written and it leaves OUTST. -/
  | accessComplete
  /-- R43. In a cycle each QSP bank serves one segment request in the order of R44, others waiting. -/
  | qspBankService
  /-- R49. A write-queue entry merges into the L1. -/
  | writeQueueMerge
  /-- R23. The die's walker starts a walk of the five-level tables for a coalesced miss. -/
  | pageWalk
  /-- R30. A walk ends, fills the quad and core TLBs of attached requests and releases them, or ends in a refusal. -/
  | walkComplete
  /-- R55. The home die's directory answers a read, write or ownership request from a die. -/
  | directoryRequest
  /-- R58. A slice's L2 atomic unit performs one ATOMG, RATOM or barrier operation on a line held in M. -/
  | atomicUnitOp
  /-- R67. The home die serves a GATHER packet's lanes from L2 copies or the base die and replies. -/
  | gatherPacket
  /-- R56. A module's completion of a MemRd, MemInv, MemWr or MemClnEvct updates the package's permission and data. -/
  | memCompletion
  /-- R57. A module's invalidation snoop (or its block form) invalidates every die copy with write-back and is answered BIRspI. -/
  | bisnpinv
  /-- R57. A module's data snoop (or its block form) writes back the M or O holder, leaves S copies and is answered BIRspS. -/
  | bisnpdata
  /-- R57. A module's current snoop (or its block form) acts as BISnpData. -/
  | bisnpcur
  /-- R57. A BIConflictAck from the module orders a conflicting snoop against the package's outstanding request. -/
  | biconflictack
  /-- R76. A module's response write to the response aperture completes the outstanding Kweut request of its tag. -/
  | kweutResponse
  /-- R92. A module request unanswered for the completion timeout takes its attachment down. -/
  | moduleCompletionTimeout
  /-- R92. No packet from a peer for RLYTIMEOUT cycles with a request outstanding sets its DEADPEER bit. -/
  | relayTimeout
  /-- R81. The module puts an entry into a queue atomically, or returns FULL. -/
  | qput
  /-- R81. The module takes an entry from a queue atomically, or returns EMPTY. -/
  | qget
  /-- R79. The module performs an atomic operation on a word and returns the old value. -/
  | atom
  /-- R83. The module adds a head group's contribution to a reduction cell's open round. -/
  | red
  /-- R83. The module returns NOTREADY, BROKEN or the result area of a reduction cell. -/
  | redrd
  /-- R75. A module losing a head group poisons its exclusive lines, drops it from sharer sets and breaks open rounds. -/
  | headGroupLost
  /-- R89. A receiving Runner handles an RWRI request packet by sequence number and performs it under its grant. -/
  | rwriPacket
  /-- R89. A receiving Runner handles an RRD request packet and returns its data. -/
  | rrdPacket
  /-- R89. A receiving Runner handles an RATOM request packet and delivers it to the L2 atomic unit. -/
  | ratomPacket
  /-- R85. A serving peer performs a relayed tier 2 read at POD scope through its attachment. -/
  | relayedRead
  /-- R85. A serving peer performs a relayed tier 2 write at POD scope. -/
  | relayedWrite
  /-- R85. A serving peer performs a relayed atomic at its L2 atomic unit. -/
  | relayedAtomic
  /-- R89. A sender receives a cumulative acknowledgement of performed requests. -/
  | ack
  /-- R89. A sender receives a gap or busy NAK and resends from the missing sequence, at once after a gap. -/
  | nak
  /-- R90. A sender receives a FAULT, holds the stream, and on a final fault completes the request with cause 0x11. -/
  | fault
  /-- R90. A sender receives RESUME and resends the stream from the next sequence. -/
  | resume
  /-- R87. A sender receives the response data of a remote or relayed read or atomic. -/
  | resp
  /-- R89. 512 cycles after a busy NAK the sender resends every unacknowledged packet from the NAK's sequence. -/
  | busyNakResend
  /-- R89. A receiver sends a cumulative ACK at least every 512 cycles while it holds unacknowledged accepted packets. -/
  | ackInterval
  /-- R86. A Runner put that returned FULL is retried after 256 cycles. -/
  | qputRetry
  /-- R88. A spilled relay context is fetched back from the backing table. -/
  | relayContextFetch
  /-- R19. A pod port goes down or comes up and the attachment's block rotation runs over the ports still up. -/
  | portDown
  /-- R73. A Viral indication from a module is handled as loss of that attachment. -/
  | viral
  /-- R96. A retrained and verified attachment serves again and routes return to the shared module. -/
  | attachmentUp
  /-- R68. A die-to-base-die transfer failing its CRC is replayed, and a fifth failure retrains the link. -/
  | linkCrcFailure
  /-- R68. A link retrain ends; three failures in a row mark the stack down and release its held rows. -/
  | retrainComplete
  /-- R64. Refresh closes and reopens held rows, counting each reopening. -/
  | refresh
  /-- R133. A Ladle channel translates and checks an aperture store, takes ownership of destination lines, counts sectors on the barrier and writes its promise, or refuses it. -/
  | copyAccept
  /-- R140. Sectors of a copy land in a cycle and the channel performs a land on the copy's barrier, possibly completing the phase. -/
  | land
  /-- R135. A write of 1s to CHSTAT.LASTERR clears the recorded engine subcode. -/
  | chstatClear
  /-- R186. At a pass boundary the Crucible engine grants the eligible reservation entry of highest effective priority. -/
  | engineGrant
  /-- R317. A Crucible pass ends, updating the accumulator or raising a late poison or sparsity fault. -/
  | passComplete
  /-- R327. A charged event is added to an enabled counter's VALUE, wrapping and posting an overflow event when IE is set. -/
  | counterAdd
  /-- R348. Every 2^20 cycles each L2 slice may move one way between partitions by shadow-tag estimates. -/
  | wayMove
  /-- R344. A partition's quantum ends and Skolis performs a world switch to the next partition of the set. -/
  | quantumExpiry
  /-- R338. After the drains end Skolis writes the outgoing save area, applies the hold policy and stops the counters. -/
  | switchSave
  /-- R357. Skolis writes a waiting event record to the host queue when there is room, advances HQTAIL and signals MSI-X vector 1. -/
  | hostQueuePost
  /-- R124. A host CXL.mem read of the logical device is served at PKG scope, or refused with poison. -/
  | hostMemRead
  /-- R124. A host CXL.mem write is performed at PKG scope, or dropped when refused. -/
  | hostMemWrite
  /-- R26. A write to a register that has no row of its own stores the covered bytes. -/
  | registerWrite
  /-- R88. A deferred write to RLYCTXSIZE takes effect once the partition has no request in flight in the Runner. -/
  | rlyctxsizeTakesEffect
  /-- R27. A GO write with KIND 0 removes the ASID's translations of one page from every structure. -/
  | xltinvcPage
  /-- R27. A GO write with KIND 1 removes every translation of the ASID. -/
  | xltinvcAsid
  /-- R27. A GO write with KIND 2 removes every translation of the partition. -/
  | xltinvcPartition
  /-- R27. GO reads 0 once no structure holds a covered entry and translated accesses are performed at PKG scope. -/
  | xltinvcComplete
  /-- R356. A write to MBXTAIL makes Skolis take commands from the ring while response slots remain. -/
  | mailboxDoorbell
  /-- R32. A revocation completes once every request it let through has been performed. -/
  | revokeComplete
  /-- R352. From reset release Skolis runs from ROM and begins stage 1. -/
  | resetRelease
  /-- R352. Skolis measures and enters the next start-up stage, or stays at the last on failure. -/
  | stageAdvance
  /-- R360. At the power limit or 95 °C Skolis gates issue on the affected dies in steps of 1/16. -/
  | thermalThrottle
  /-- R360. At 105 °C the package shuts down and records the trip. -/
  | thermalShutdown
  /-- R347. Fabric-manager command returning logical-device information. -/
  | getLdInfo
  /-- R347. Fabric-manager command returning logical-device allocations. -/
  | getLdAllocations
  /-- R347. Fabric-manager command setting logical-device allocations. -/
  | setLdAllocations
  /-- R347. Fabric-manager command returning QoS control. -/
  | getQosControl
  /-- R347. Fabric-manager command setting QoS control. -/
  | setQosControl
  /-- R347. Fabric-manager command returning QoS status. -/
  | getQosStatus
  /-- R358. Returns identity, certificate chain, stage reached and harvest map. -/
  | ident
  /-- R359. Returns a Falcon-signed report of the nonce, selected measurement registers, stage and CYC. -/
  | attest
  /-- R353. Returns one offered feature word. -/
  | featget
  /-- R353. Commits the accepted feature subset once for the device. -/
  | featset
  /-- R344. Creates a partition on a slice mask with an ASID block, logical device and quantum. -/
  | partcreate
  /-- R355. Kills every wave of a partition, releases its holds and grants and frees its ASIDs. -/
  | partdestroy
  /-- R65. Sets the partition's held-row policy to KEEP or DROP. -/
  | partsetHoldPolicy
  /-- R187. Sets the partition's watchdog limit. -/
  | partsetWatchdog
  /-- R344. Sets the partition's quantum. -/
  | partsetQuantum
  /-- R348. Sets the partition's L2 way floor and ceiling on a die. -/
  | partsetWays
  /-- R63. Sets the partition's held-row quota on a stack. -/
  | partsetQuota
  /-- R22. Sets or removes one of the partition's 32 granted physical ranges. -/
  | partsetGrant
  /-- R169. Checks a launch record, places its waves and starts them. -/
  | launch
  /-- R338. Starts a world switch between two partitions on a slice set with named save areas. -/
  | wswitch
  /-- R38. Makes the wave parked at a fault tag re-issue its instruction, or records the replay for a saved wave. -/
  | replay
  /-- R38. Declares a fault tag fatal so the wave takes cause 0x04. -/
  | fatal
  /-- R34. Sets the partition's error-log ring and returns the dropped count. -/
  | errlogSetRing
  /-- R70. Returns a stack's RAS registers. -/
  | errlogReadRas
  /-- R70. Clears a stack's RAS counts. -/
  | errlogClearRas
  /-- R357. Sets the partition's host queue base. -/
  | hqset
  /-- R31. Creates a region grant of a key with rights and a peer mask. -/
  | regreg
  /-- R32. Places a revocation marker for a grant in the Runner's acceptance order. -/
  | regrevoke
  /-- R349. Creates a gate at the lowest free index and returns its handle. -/
  | gatecreate
  /-- R351. Freezes a gate, ending sleeping takes with busy. -/
  | gatefreeze
  /-- R351. Returns the gate object and marks it exported. -/
  | gateexport
  /-- R351. Writes an exported gate object at the same index and GEN on the target package. -/
  | gateimport
  /-- R351. Makes an imported or frozen gate live. -/
  | gatethaw
  /-- R351. Frees the gate's index, increments its GEN and ends sleeping takes. -/
  | gatedestroy
  /-- R105. Binds partitions into pod-wide partition groups. -/
  | podconfigGroups
  /-- R348. Grants or removes the pod privilege. -/
  | podconfigPrivilege
  /-- R92. Sets the relay and module completion timeouts. -/
  | podconfigTimeouts
  /-- R95. Rebuilds the relay routes. -/
  | podconfigRoutes
  /-- R389. Reads the attachments' logical-device capacities and programs the window limits. -/
  | podconfigCapacities
  /-- R92. Clears the DEADPEER bit of a dense peer. -/
  | podctlClearDeadpeer
  /-- R94. Takes an attachment down by taking each of its ports down. -/
  | podctlDown
  /-- R96. Retrains an attachment and verifies it against the head rule. -/
  | podctlRetrain
  /-- R342. Opens a debugger session for the partition. -/
  | dbgopenOpen
  /-- R342. Closes the partition's debugger session. -/
  | dbgopenClose
  /-- R342. Stops a named wave. -/
  | dbgctlStop
  /-- R343. Single-steps one word or pair of a chosen unit and stops the wave. -/
  | dbgctlStep
  /-- R342. Restarts a stopped wave at its PCs. -/
  | dbgctlResume
  /-- R342. Stops every wave of a core. -/
  | dbgctlCoreStop
  /-- R342. Resumes every wave of a stopped core. -/
  | dbgctlCoreResume
  /-- R384. Writes one counter of the session's partition, live or saved, without posting an overflow event. -/
  | ctrwrite
  /-- R217. A word of an undefined major, or with a function code not assigned in its major, reaches decode and raises Illegal Instruction with its subcode. -/
  | illegalInstruction
  /-- R95. A third package X on a severed pair's relay route takes a packet marked forwarded that is not addressed to it and passes it on unchanged, in arrival order. -/
  | packetForward
  /-- R347. The switch's Bind vPPB command binds a logical device of the package to a host, so that it no longer returns Completer Abort. -/
  | bindVppb
  /-- R347. The switch's Unbind vPPB command unbinds a logical device, which then returns Completer Abort to every access while its partition runs on. -/
  | unbindVppb
  /-- R236. The spill engine finishes writing or reading call records, divergence entries or vector registers in the spill area, and the wave may issue again. -/
  | spillComplete
deriving DecidableEq, Repr

/-- The operands of a step that is not a word: one constructor for each such row of the opcode table. -/
inductive Call where
  /-- No step is latched. -/
  | none
  | lateError (seq wid : Nat) (e : Bool)
  | contextTake (seq wid : Nat)
  | sleepuntilWake (seq wid : Nat) (e : Bool)
  | waitlineWake (seq wid : Nat) (e : Bool)
  | waitlineTimeout (seq wid : Nat) (e : Bool)
  | nqwaitWake (seq wid : Nat) (e : Bool)
  | nqwaitTimeout (seq wid : Nat) (e : Bool)
  | gatetakeWake (gate : Nat)
  | gatetakeTimeout (seq wid : Nat) (e : Bool)
  | missedPromise (seq wid : Nat) (e : Bool)
  | watchdog (seq wid : Nat)
  | launchComplete (seq : Nat)
  | accessComplete (seq wid op : Nat)
  | qspBankService (quad : Nat)
  | writeQueueMerge (quad : Nat)
  | pageWalk (die : Nat)
  | walkComplete (die k : Nat)
  | directoryRequest (die sector : Nat) (own : Bool) (part : Nat)
  | atomicUnitOp (die slice : Nat)
  | gatherPacket (die : Nat)
  | memCompletion (module line : Nat) (kind : MemKind)
  | bisnpinv (module line count : Nat)
  | bisnpdata (module line count : Nat)
  | bisnpcur (module line count : Nat)
  | biconflictack (module line : Nat)
  | kweutResponse (r : KRsp)
  | moduleCompletionTimeout (att : Nat)
  | relayTimeout (peer : Nat)
  | qput (r : KReq)
  | qget (r : KReq)
  | atom (r : KReq)
  | red (r : KReq)
  | redrd (r : KReq)
  | headGroupLost (module lead : Nat)
  | rwriPacket (p : Packet)
  | rrdPacket (p : Packet)
  | ratomPacket (p : Packet)
  | relayedRead (p : Packet)
  | relayedWrite (p : Packet)
  | relayedAtomic (p : Packet)
  | ack (p : Packet)
  | nak (p : Packet)
  | fault (p : Packet)
  | resume (p : Packet)
  | resp (p : Packet)
  | busyNakResend (c : CtxId) (stream : Nat)
  | ackInterval (c : CtxId) (stream : Nat)
  | qputRetry (peer : Nat)
  | relayContextFetch (c : CtxId)
  | portDown (port : Nat) (up : Bool)
  | viral (att : Nat)
  | attachmentUp (att : Nat)
  | linkCrcFailure (stack : Nat)
  | retrainComplete (stack : Nat) (ok : Bool)
  | refresh (stack bank : Nat)
  | copyAccept (die ch : Nat)
  | land (die ch k : Nat)
  | chstatClear (die ch bits : Nat)
  | engineGrant (quad : Nat)
  | passComplete (quad : Nat)
  | counterAdd (part mask n : Nat)
  | wayMove (die slice : Nat)
  | quantumExpiry (set : Nat)
  | switchSave (set : Nat)
  | hostQueuePost (part : Nat)
  | hostMemRead (ld addr len : Nat)
  | hostMemWrite (ld addr : Nat) (data : List Byte)
  | registerWrite (space : RegSpace) (off size val : Nat)
  | rlyctxsizeTakesEffect (part : Nat)
  | xltinvcPage (part asid size : Nat)
  | xltinvcAsid (part asid : Nat)
  | xltinvcPartition (part : Nat)
  | xltinvcComplete (part : Nat)
  | mailboxDoorbell (mbx tail : Nat)
  | revokeComplete (part grant : Nat)
  | resetRelease
  | stageAdvance (ok : Bool) (failing : Nat)
  | thermalThrottle (die steps : Nat)
  | thermalShutdown
  | getLdInfo
  | getLdAllocations (start count : Nat)
  | setLdAllocations (target start : Nat) (sizes : List Nat)
  | getQosControl
  | setQosControl (ld val : Nat)
  | getQosStatus
  | ident (c : Cmd) (buf len : Nat)
  | attest (c : Cmd) (buf len mask nonce : Nat)
  | featget (c : Cmd) (idx : Nat)
  | featset (c : Cmd) (w0 w1 w2 w3 : Nat)
  | partcreate (c : Cmd) (slices ld asids quantum : Nat)
  | partdestroy (c : Cmd)
  | partsetHoldPolicy (c : Cmd) (val : Nat)
  | partsetWatchdog (c : Cmd) (val : Nat)
  | partsetQuantum (c : Cmd) (val : Nat)
  | partsetWays (c : Cmd) (die floor ceil : Nat)
  | partsetQuota (c : Cmd) (stack quota : Nat)
  | partsetGrant (c : Cmd) (idx base len : Nat)
  | launch (c : Cmd) (pa : Nat)
  | wswitch (c : Cmd) (out inn slices saveOut saveIn : Nat)
  | replay (c : Cmd) (ftag : Nat)
  | fatal (c : Cmd) (ftag : Nat)
  | errlogSetRing (c : Cmd) (base log2n : Nat)
  | errlogReadRas (c : Cmd) (stack : Nat)
  | errlogClearRas (c : Cmd) (stack : Nat)
  | hqset (c : Cmd) (base : Nat)
  | regreg (c : Cmd) (asid rights base len peers : Nat)
  | regrevoke (c : Cmd) (grant : Nat)
  | gatecreate (c : Cmd) (acl burst rate : Nat)
  | gatefreeze (c : Cmd) (handle : Nat)
  | gateexport (c : Cmd) (handle buf : Nat)
  | gateimport (c : Cmd) (handle buf : Nat)
  | gatethaw (c : Cmd) (handle : Nat)
  | gatedestroy (c : Cmd) (handle : Nat)
  | podconfigGroups (c : Cmd) (groups : Nat)
  | podconfigPrivilege (c : Cmd) (part : Nat)
  | podconfigTimeouts (c : Cmd) (rly completion : Nat)
  | podconfigRoutes (c : Cmd)
  | podconfigCapacities (c : Cmd)
  | podctlClearDeadpeer (c : Cmd) (peer : Nat)
  | podctlDown (c : Cmd) (att : Nat)
  | podctlRetrain (c : Cmd) (att : Nat)
  | dbgopenOpen (c : Cmd)
  | dbgopenClose (c : Cmd)
  | dbgctlStop (c : Cmd) (seq wid unit : Nat)
  | dbgctlStep (c : Cmd) (seq wid unit : Nat)
  | dbgctlResume (c : Cmd) (seq wid unit : Nat)
  | dbgctlCoreStop (c : Cmd) (core : Nat)
  | dbgctlCoreResume (c : Cmd) (core : Nat)
  | ctrwrite (c : Cmd) (n entry : Nat)
  | illegalInstruction (sub : Nat)
  | packetForward (p : Packet)
  | bindVppb (ld : Nat)
  | unbindVppb (ld : Nat)
  | spillComplete (seq wid : Nat)
deriving DecidableEq, Repr

/-- The row that a set of operands belongs to; operands of no row belong to the hint word. -/
def Call.row : Call → Instr
  | .none => .nop
  | .lateError .. => .lateError
  | .contextTake .. => .contextTake
  | .sleepuntilWake .. => .sleepuntilWake
  | .waitlineWake .. => .waitlineWake
  | .waitlineTimeout .. => .waitlineTimeout
  | .nqwaitWake .. => .nqwaitWake
  | .nqwaitTimeout .. => .nqwaitTimeout
  | .gatetakeWake .. => .gatetakeWake
  | .gatetakeTimeout .. => .gatetakeTimeout
  | .missedPromise .. => .missedPromise
  | .watchdog .. => .watchdog
  | .launchComplete .. => .launchComplete
  | .accessComplete .. => .accessComplete
  | .qspBankService .. => .qspBankService
  | .writeQueueMerge .. => .writeQueueMerge
  | .pageWalk .. => .pageWalk
  | .walkComplete .. => .walkComplete
  | .directoryRequest .. => .directoryRequest
  | .atomicUnitOp .. => .atomicUnitOp
  | .gatherPacket .. => .gatherPacket
  | .memCompletion .. => .memCompletion
  | .bisnpinv .. => .bisnpinv
  | .bisnpdata .. => .bisnpdata
  | .bisnpcur .. => .bisnpcur
  | .biconflictack .. => .biconflictack
  | .kweutResponse .. => .kweutResponse
  | .moduleCompletionTimeout .. => .moduleCompletionTimeout
  | .relayTimeout .. => .relayTimeout
  | .qput .. => .qput
  | .qget .. => .qget
  | .atom .. => .atom
  | .red .. => .red
  | .redrd .. => .redrd
  | .headGroupLost .. => .headGroupLost
  | .rwriPacket .. => .rwriPacket
  | .rrdPacket .. => .rrdPacket
  | .ratomPacket .. => .ratomPacket
  | .relayedRead .. => .relayedRead
  | .relayedWrite .. => .relayedWrite
  | .relayedAtomic .. => .relayedAtomic
  | .ack .. => .ack
  | .nak .. => .nak
  | .fault .. => .fault
  | .resume .. => .resume
  | .resp .. => .resp
  | .busyNakResend .. => .busyNakResend
  | .ackInterval .. => .ackInterval
  | .qputRetry .. => .qputRetry
  | .relayContextFetch .. => .relayContextFetch
  | .portDown .. => .portDown
  | .viral .. => .viral
  | .attachmentUp .. => .attachmentUp
  | .linkCrcFailure .. => .linkCrcFailure
  | .retrainComplete .. => .retrainComplete
  | .refresh .. => .refresh
  | .copyAccept .. => .copyAccept
  | .land .. => .land
  | .chstatClear .. => .chstatClear
  | .engineGrant .. => .engineGrant
  | .passComplete .. => .passComplete
  | .counterAdd .. => .counterAdd
  | .wayMove .. => .wayMove
  | .quantumExpiry .. => .quantumExpiry
  | .switchSave .. => .switchSave
  | .hostQueuePost .. => .hostQueuePost
  | .hostMemRead .. => .hostMemRead
  | .hostMemWrite .. => .hostMemWrite
  | .registerWrite .. => .registerWrite
  | .rlyctxsizeTakesEffect .. => .rlyctxsizeTakesEffect
  | .xltinvcPage .. => .xltinvcPage
  | .xltinvcAsid .. => .xltinvcAsid
  | .xltinvcPartition .. => .xltinvcPartition
  | .xltinvcComplete .. => .xltinvcComplete
  | .mailboxDoorbell .. => .mailboxDoorbell
  | .revokeComplete .. => .revokeComplete
  | .resetRelease => .resetRelease
  | .stageAdvance .. => .stageAdvance
  | .thermalThrottle .. => .thermalThrottle
  | .thermalShutdown => .thermalShutdown
  | .getLdInfo => .getLdInfo
  | .getLdAllocations .. => .getLdAllocations
  | .setLdAllocations .. => .setLdAllocations
  | .getQosControl => .getQosControl
  | .setQosControl .. => .setQosControl
  | .getQosStatus => .getQosStatus
  | .ident .. => .ident
  | .attest .. => .attest
  | .featget .. => .featget
  | .featset .. => .featset
  | .partcreate .. => .partcreate
  | .partdestroy .. => .partdestroy
  | .partsetHoldPolicy .. => .partsetHoldPolicy
  | .partsetWatchdog .. => .partsetWatchdog
  | .partsetQuantum .. => .partsetQuantum
  | .partsetWays .. => .partsetWays
  | .partsetQuota .. => .partsetQuota
  | .partsetGrant .. => .partsetGrant
  | .launch .. => .launch
  | .wswitch .. => .wswitch
  | .replay .. => .replay
  | .fatal .. => .fatal
  | .errlogSetRing .. => .errlogSetRing
  | .errlogReadRas .. => .errlogReadRas
  | .errlogClearRas .. => .errlogClearRas
  | .hqset .. => .hqset
  | .regreg .. => .regreg
  | .regrevoke .. => .regrevoke
  | .gatecreate .. => .gatecreate
  | .gatefreeze .. => .gatefreeze
  | .gateexport .. => .gateexport
  | .gateimport .. => .gateimport
  | .gatethaw .. => .gatethaw
  | .gatedestroy .. => .gatedestroy
  | .podconfigGroups .. => .podconfigGroups
  | .podconfigPrivilege .. => .podconfigPrivilege
  | .podconfigTimeouts .. => .podconfigTimeouts
  | .podconfigRoutes .. => .podconfigRoutes
  | .podconfigCapacities .. => .podconfigCapacities
  | .podctlClearDeadpeer .. => .podctlClearDeadpeer
  | .podctlDown .. => .podctlDown
  | .podctlRetrain .. => .podctlRetrain
  | .dbgopenOpen .. => .dbgopenOpen
  | .dbgopenClose .. => .dbgopenClose
  | .dbgctlStop .. => .dbgctlStop
  | .dbgctlStep .. => .dbgctlStep
  | .dbgctlResume .. => .dbgctlResume
  | .dbgctlCoreStop .. => .dbgctlCoreStop
  | .dbgctlCoreResume .. => .dbgctlCoreResume
  | .ctrwrite .. => .ctrwrite
  | .illegalInstruction .. => .illegalInstruction
  | .packetForward .. => .packetForward
  | .bindVppb .. => .bindVppb
  | .unbindVppb .. => .unbindVppb
  | .spillComplete .. => .spillComplete

end Sys2Proof
end

