-- ==== Sys2Proof/WellFormed.lean ====
section
/-!
DEFINITION. Which terms of Instr stand for something: the operand ranges the spec gives. A word instruction's fields are
bounded by their types, so only a condition code that R228 and R256 leave unassigned is ill-formed. An event's operands
are unit numbers of 00_scope R6 and field widths of 15_partitions_host_startup R358.
-/
namespace Sys2Proof

/-- The field widths of a Kweut request (03_pod_memory R76). -/
def KReq.wf (r : KReq) : Bool :=
  decide (r.module < 64) && decide (r.lead < 12) && decide (r.port < 4) && decide (r.subop < 256)
    && decide (r.tag < 128) && decide (r.addr < 2 ^ 64) && decide (r.a < 2 ^ 64) && decide (r.b < 2 ^ 64)
    && decide (r.payload.length ≤ 320) && decide (r.ld ≤ 16)

/-- The field widths of a Kweut response (03_pod_memory R76). -/
def KRsp.wf (r : KRsp) : Bool :=
  decide (r.att < 8) && decide (r.port < 4) && decide (r.tag < 65536) && decide (r.status < 256)
    && decide (r.value < 2 ^ 64) && decide (r.data.length ≤ 320)

/-- The field widths of a Runner packet (03_pod_memory R87). -/
def Packet.wf (p : Packet) : Bool :=
  decide (p.stream < 4) && decide (p.reason < 16) && decide (p.seq < 65536) && decide (p.src < 256) && decide (p.dst < 256)
    && decide (p.opsize < 256) && decide (p.keyPart < 16) && decide (p.keyAsid < 16384) && decide (p.sndAsid < 16384)
    && decide (p.imm < 2 ^ 32) && decide (p.addr < 2 ^ 64) && decide (p.len ≤ 256) && decide (p.tag < 65536)
    && decide (p.module < 64) && decide (p.data.length ≤ 288)

/-- The field widths of a relay context's name (03_pod_memory R88). -/
def CtxId.wf (c : CtxId) : Bool :=
  decide (c.part < 16) && decide (c.asid < 16384) && decide (c.peer < 64) && decide (c.keyPart < 17)
    && decide (c.keyAsid < 16384) && decide (c.module < 64)

/-- The field widths of a command record (15_partitions_host_startup R358). -/
def Cmd.wf (c : Cmd) : Bool :=
  decide (c.mbx < 17) && decide (c.slot < 2 ^ 32) && decide (c.tag < 65536) && decide (c.part < 256)

/-- A register space that exists. -/
def RegSpace.wf : RegSpace → Bool
  | .page p => decide (p < 16)
  | .mailbox m => decide (m < 17)

/-- The well-formed instructions. -/
def Instr.wf : Instr → Bool
  | .nop => true
  | .uadd _ _ _ _ => true
  | .usub _ _ _ _ => true
  | .umul _ _ _ _ => true
  | .umulh _ _ _ _ => true
  | .umulhu _ _ _ _ => true
  | .uand _ _ _ _ => true
  | .uor _ _ _ _ => true
  | .uxor _ _ _ _ => true
  | .ushl _ _ _ _ => true
  | .ushr _ _ _ _ => true
  | .usar _ _ _ _ => true
  | .umin _ _ _ _ => true
  | .umax _ _ _ _ => true
  | .uminu _ _ _ _ => true
  | .umaxu _ _ _ _ => true
  | .umov _ _ _ => true
  | .uaddi _ _ _ => true
  | .umuli _ _ _ => true
  | .uandi _ _ _ => true
  | .uori _ _ _ => true
  | .uxori _ _ _ => true
  | .ushli _ _ _ => true
  | .ushri _ _ _ => true
  | .usari _ _ _ => true
  | .ucmp cc _ _ _ _ => decide (cc.toNat < 6)
  | .ucmpi cc _ _ _ => decide (cc.toNat < 6)
  | .uclz _ _ _ => true
  | .upopc _ _ _ => true
  | .ubrev _ _ _ => true
  | .ubfx _ _ _ _ => true
  | .ubfi _ _ _ _ => true
  | .usel _ _ _ _ => true
  | .uqop _ _ _ _ => true
  | .uqmovTos _ => true
  | .uqmovFroms _ => true
  | .uld32 _ _ _ => true
  | .uld64 _ _ _ => true
  | .ust32 _ _ _ => true
  | .ust64 _ _ _ => true
  | .urds _ _ => true
  | .uwrs _ _ => true
  | .setfmt _ _ => true
  | .bra _ _ => true
  | .bran _ _ => true
  | .call _ _ => true
  | .ret _ => true
  | .jmpi _ _ => true
  | .calli _ _ => true
  | .split _ _ => true
  | .join => true
  | .brkp _ => true
  | .pmask _ => true
  | .anyp _ _ => true
  | .allp _ _ => true
  | .halt => true
  | .yield => true
  | .sleepuntil _ => true
  | .waitline _ _ _ => true
  | .trap _ => true
  | .bkpt _ => true
  | .rte => true
  | .dispatch _ => true
  | .phasesel => true
  | .phaseend _ => true
  | .vadd _ _ _ _ _ => true
  | .vsub _ _ _ _ _ => true
  | .vmul _ _ _ _ _ => true
  | .vmulh _ _ _ _ _ => true
  | .vmulhu _ _ _ _ _ => true
  | .vmin _ _ _ _ _ => true
  | .vmax _ _ _ _ _ => true
  | .vminu _ _ _ _ _ => true
  | .vand _ _ _ _ _ => true
  | .vor _ _ _ _ _ => true
  | .vxor _ _ _ _ _ => true
  | .vshl _ _ _ _ _ => true
  | .vshr _ _ _ _ _ => true
  | .vsar _ _ _ _ _ => true
  | .vmaxu _ _ _ _ _ => true
  | .vabsd _ _ _ _ _ => true
  | .vaddi _ _ _ => true
  | .vmuli _ _ _ => true
  | .vandi _ _ _ => true
  | .vori _ _ _ => true
  | .vxori _ _ _ => true
  | .vshli _ _ _ => true
  | .vshri _ _ _ => true
  | .vsari _ _ _ => true
  | .vicmp _ cc _ _ _ _ => decide (cc.toNat < 6)
  | .vicmpi cc _ _ _ => decide (cc.toNat < 6)
  | .vclz _ _ _ _ => true
  | .vpopc _ _ _ _ => true
  | .vbrev _ _ _ _ => true
  | .vbfx _ _ _ _ _ => true
  | .vbfi _ _ _ _ _ => true
  | .vsel _ _ _ _ _ => true
  | .vmad _ _ _ _ _ => true
  | .vlane _ _ _ => true
  | .vmov _ _ _ => true
  | .vmovs _ _ _ => true
  | .vtos _ _ _ _ => true
  | .vfroms _ _ _ _ => true
  | .fadd _ _ _ _ _ => true
  | .fsub _ _ _ _ _ => true
  | .fmul _ _ _ _ _ => true
  | .ffma _ _ _ _ _ => true
  | .ffnma _ _ _ _ _ => true
  | .fmin _ _ _ _ _ => true
  | .fmax _ _ _ _ _ => true
  | .fabs _ _ _ _ => true
  | .vfcmp _ _ _ _ _ _ => true
  | .frcp _ _ _ _ => true
  | .frsq _ _ _ _ => true
  | .fsqrt _ _ _ _ => true
  | .fdiv _ _ _ _ _ => true
  | .fex2 _ _ _ _ => true
  | .flg2 _ _ _ _ => true
  | .frint _ _ _ _ => true
  | .fclass _ _ _ _ => true
  | .b2add _ _ _ _ _ => true
  | .b2sub _ _ _ _ _ => true
  | .b2mul _ _ _ _ _ => true
  | .b2fma _ _ _ _ _ => true
  | .b2max _ _ _ _ _ => true
  | .b2min _ _ _ _ _ => true
  | .fcvt _ _ _ _ _ => true
  | .icvt _ _ _ _ _ => true
  | .qpk _ _ _ _ => true
  | .qunpk _ _ _ _ => true
  | .shfl _ _ _ _ => true
  | .shflx _ _ _ _ => true
  | .shflup _ _ _ _ => true
  | .shfldn _ _ _ _ => true
  | .lanebc _ _ _ _ => true
  | .vredf _ _ _ _ => true
  | .vredi _ _ _ _ => true
  | .vscanf _ _ _ _ => true
  | .vldx _ _ _ => true
  | .vstx _ _ _ => true
  | .pand _ _ _ _ => true
  | .por _ _ _ _ => true
  | .pxor _ _ _ _ => true
  | .pandn _ _ _ _ => true
  | .pnot _ _ _ => true
  | .pmov _ _ _ => true
  | .pset _ _ _ => true
  | .vballot _ _ _ => true
  | .vmcnt _ _ _ => true
  | .ldg _ _ _ _ _ _ _ => true
  | .stg _ _ _ _ _ _ _ => true
  | .ldq _ _ _ _ _ _ _ => true
  | .stq _ _ _ _ _ _ _ => true
  | .gather _ _ _ _ _ _ _ => true
  | .scatter _ _ _ _ _ _ _ => true
  | .atomg _ _ _ _ _ _ _ => true
  | .atomq _ _ _ _ _ _ _ => true
  | .fence _ => true
  | .fenceacq _ => true
  | .fencerel _ => true
  | .fenceeng _ => true
  | .pref _ _ _ => true
  | .wbl _ _ _ => true
  | .invl _ _ _ => true
  | .flushl _ _ _ => true
  | .rowpin _ _ => true
  | .rowunpin _ _ => true
  | .rowqry _ _ => true
  | .mqput _ _ _ => true
  | .mqget _ _ _ => true
  | .mred _ _ _ => true
  | .mredrd _ _ _ => true
  | .matom _ _ _ _ _ => true
  | .rwri _ _ _ => true
  | .rrd _ _ _ => true
  | .ratom _ _ _ => true
  | .nqwait _ _ => true
  | .tbinit _ _ _ _ => true
  | .tbarrive _ _ _ _ => true
  | .tbexpect _ _ _ _ => true
  | .tbwait _ _ _ _ => true
  | .tbquery _ _ _ _ => true
  | .barsync _ _ _ => true
  | .bararrive _ _ _ _ => true
  | .barwait _ _ _ => true
  | .gatepost _ _ => true
  | .gatetake _ _ _ => true
  | .gatepoll _ _ => true
  | .mloop _ _ _ _ _ _ _ => true
  | .mstep _ _ _ _ _ _ _ => true
  | .mdrain _ _ _ _ _ => true
  | .mzero _ => true
  | .mwait _ => true
  | .mload _ _ => true
  | .mqry _ _ => true
  | .tset _ _ => true
  | .tget _ _ => true
  | .tplset _ _ _ => true
  | .ctrsel _ _ => true
  | .ctrrd _ _ => true
  | .ctrctl _ _ => true
  | .lateError => true
  | .contextTake => true
  | .sleepuntilWake => true
  | .waitlineWake => true
  | .waitlineTimeout => true
  | .nqwaitWake => true
  | .nqwaitTimeout => true
  | .gatetakeWake => true
  | .gatetakeTimeout => true
  | .missedPromise => true
  | .watchdog => true
  | .launchComplete => true
  | .accessComplete => true
  | .qspBankService => true
  | .writeQueueMerge => true
  | .pageWalk => true
  | .walkComplete => true
  | .directoryRequest => true
  | .atomicUnitOp => true
  | .gatherPacket => true
  | .memCompletion => true
  | .bisnpinv => true
  | .bisnpdata => true
  | .bisnpcur => true
  | .biconflictack => true
  | .kweutResponse => true
  | .moduleCompletionTimeout => true
  | .relayTimeout => true
  | .qput => true
  | .qget => true
  | .atom => true
  | .red => true
  | .redrd => true
  | .headGroupLost => true
  | .rwriPacket => true
  | .rrdPacket => true
  | .ratomPacket => true
  | .relayedRead => true
  | .relayedWrite => true
  | .relayedAtomic => true
  | .ack => true
  | .nak => true
  | .fault => true
  | .resume => true
  | .resp => true
  | .busyNakResend => true
  | .ackInterval => true
  | .qputRetry => true
  | .relayContextFetch => true
  | .portDown => true
  | .viral => true
  | .attachmentUp => true
  | .linkCrcFailure => true
  | .retrainComplete => true
  | .refresh => true
  | .copyAccept => true
  | .land => true
  | .chstatClear => true
  | .engineGrant => true
  | .passComplete => true
  | .counterAdd => true
  | .wayMove => true
  | .quantumExpiry => true
  | .switchSave => true
  | .hostQueuePost => true
  | .hostMemRead => true
  | .hostMemWrite => true
  | .registerWrite => true
  | .rlyctxsizeTakesEffect => true
  | .xltinvcPage => true
  | .xltinvcAsid => true
  | .xltinvcPartition => true
  | .xltinvcComplete => true
  | .mailboxDoorbell => true
  | .revokeComplete => true
  | .resetRelease => true
  | .stageAdvance => true
  | .thermalThrottle => true
  | .thermalShutdown => true
  | .getLdInfo => true
  | .getLdAllocations => true
  | .setLdAllocations => true
  | .getQosControl => true
  | .setQosControl => true
  | .getQosStatus => true
  | .ident => true
  | .attest => true
  | .featget => true
  | .featset => true
  | .partcreate => true
  | .partdestroy => true
  | .partsetHoldPolicy => true
  | .partsetWatchdog => true
  | .partsetQuantum => true
  | .partsetWays => true
  | .partsetQuota => true
  | .partsetGrant => true
  | .launch => true
  | .wswitch => true
  | .replay => true
  | .fatal => true
  | .errlogSetRing => true
  | .errlogReadRas => true
  | .errlogClearRas => true
  | .hqset => true
  | .regreg => true
  | .regrevoke => true
  | .gatecreate => true
  | .gatefreeze => true
  | .gateexport => true
  | .gateimport => true
  | .gatethaw => true
  | .gatedestroy => true
  | .podconfigGroups => true
  | .podconfigPrivilege => true
  | .podconfigTimeouts => true
  | .podconfigRoutes => true
  | .podconfigCapacities => true
  | .podctlClearDeadpeer => true
  | .podctlDown => true
  | .podctlRetrain => true
  | .dbgopenOpen => true
  | .dbgopenClose => true
  | .dbgctlStop => true
  | .dbgctlStep => true
  | .dbgctlResume => true
  | .dbgctlCoreStop => true
  | .dbgctlCoreResume => true
  | .ctrwrite => true
  | .illegalInstruction => true
  | .packetForward => true
  | .bindVppb => true
  | .unbindVppb => true
  | .spillComplete => true

/-- The well-formed operands of a step that is not a word. -/
def Call.wf : Call → Bool
  | .none => true
  | .lateError seq wid _ => decide (seq < 2 ^ 32) && decide (wid < 24576)
  | .contextTake seq wid => decide (seq < 2 ^ 32) && decide (wid < 24576)
  | .sleepuntilWake seq wid _ => decide (seq < 2 ^ 32) && decide (wid < 24576)
  | .waitlineWake seq wid _ => decide (seq < 2 ^ 32) && decide (wid < 24576)
  | .waitlineTimeout seq wid _ => decide (seq < 2 ^ 32) && decide (wid < 24576)
  | .nqwaitWake seq wid _ => decide (seq < 2 ^ 32) && decide (wid < 24576)
  | .nqwaitTimeout seq wid _ => decide (seq < 2 ^ 32) && decide (wid < 24576)
  | .gatetakeWake gate => decide (gate < 4096)
  | .gatetakeTimeout seq wid _ => decide (seq < 2 ^ 32) && decide (wid < 24576)
  | .missedPromise seq wid _ => decide (seq < 2 ^ 32) && decide (wid < 24576)
  | .watchdog seq wid => decide (seq < 2 ^ 32) && decide (wid < 24576)
  | .launchComplete seq => decide (seq < 2 ^ 32)
  | .accessComplete seq wid _ => decide (seq < 2 ^ 32) && decide (wid < 24576)
  | .qspBankService quad => decide (quad < 256)
  | .writeQueueMerge quad => decide (quad < 256)
  | .pageWalk die => decide (die < 9)
  | .walkComplete die k => decide (die < 9) && decide (k < 1024)
  | .directoryRequest die sector _ part => decide (die < 8) && decide (sector < 2 ^ 46) && decide (part < 16)
  | .atomicUnitOp die slice => decide (die < 8) && decide (slice < 16)
  | .gatherPacket die => decide (die < 8)
  | .memCompletion module line _ => decide (module < 64) && decide (line < 2 ^ 35)
  | .bisnpinv module line count => decide (module < 64) && decide (line < 2 ^ 35) && decide (0 < count)
  | .bisnpdata module line count => decide (module < 64) && decide (line < 2 ^ 35) && decide (0 < count)
  | .bisnpcur module line count => decide (module < 64) && decide (line < 2 ^ 35) && decide (0 < count)
  | .biconflictack module line => decide (module < 64) && decide (line < 2 ^ 35)
  | .kweutResponse r => r.wf
  | .moduleCompletionTimeout att => decide (att < 8)
  | .relayTimeout peer => decide (peer < 64)
  | .qput r => r.wf
  | .qget r => r.wf
  | .atom r => r.wf
  | .red r => r.wf
  | .redrd r => r.wf
  | .headGroupLost module lead => decide (module < 64) && decide (lead < 12)
  | .rwriPacket p => p.wf
  | .rrdPacket p => p.wf
  | .ratomPacket p => p.wf
  | .relayedRead p => p.wf
  | .relayedWrite p => p.wf
  | .relayedAtomic p => p.wf
  | .ack p => p.wf
  | .nak p => p.wf
  | .fault p => p.wf
  | .resume p => p.wf
  | .resp p => p.wf
  | .busyNakResend c stream => c.wf && decide (stream < 4)
  | .ackInterval c stream => c.wf && decide (stream < 4)
  | .qputRetry peer => decide (peer < 64)
  | .relayContextFetch c => c.wf
  | .portDown port _ => decide (port < 12)
  | .viral att => decide (att < 8)
  | .attachmentUp att => decide (att < 8)
  | .linkCrcFailure stack => decide (stack < 8)
  | .retrainComplete stack _ => decide (stack < 8)
  | .refresh stack bank => decide (stack < 8) && decide (bank < 512)
  | .copyAccept die ch => decide (die < 8) && decide (ch < 16)
  | .land die ch k => decide (die < 8) && decide (ch < 16) && 0 < k && k < 5
  | .chstatClear die ch bits => decide (die < 8) && decide (ch < 16) && decide (bits < 256)
  | .engineGrant quad => decide (quad < 256)
  | .passComplete quad => decide (quad < 256)
  | .counterAdd part mask n => decide (part < 16) && decide (mask < 65536) && decide (n < 2 ^ 48)
  | .wayMove die slice => decide (die < 8) && decide (slice < 16)
  | .quantumExpiry set => decide (set < 16)
  | .switchSave set => decide (set < 16)
  | .hostQueuePost part => decide (part < 16)
  | .hostMemRead ld addr len => decide (ld < 16) && decide (addr < 2 ^ 64) && decide (len < 2 ^ 32)
  | .hostMemWrite ld addr _ => decide (ld < 16) && decide (addr < 2 ^ 64)
  | .registerWrite space off size val => space.wf && decide (off < 4096) && (size = 1 || size = 2 || size = 4 || size = 8) && decide (val < 2 ^ 64)
  | .rlyctxsizeTakesEffect part => decide (part < 16)
  | .xltinvcPage part asid size => decide (part < 16) && decide (asid < 16384) && decide (size < 4)
  | .xltinvcAsid part asid => decide (part < 16) && decide (asid < 16384)
  | .xltinvcPartition part => decide (part < 16)
  | .xltinvcComplete part => decide (part < 16)
  | .mailboxDoorbell mbx tail => decide (mbx < 17) && decide (tail < 2 ^ 32)
  | .revokeComplete part grant => decide (part < 16) && decide (grant < 2 ^ 32)
  | .resetRelease => true
  | .stageAdvance _ failing => decide (failing < 256)
  | .thermalThrottle die steps => decide (die < 8) && decide (steps < 17)
  | .thermalShutdown => true
  | .getLdInfo => true
  | .getLdAllocations start count => decide (start < 256) && decide (count < 256)
  | .setLdAllocations target start sizes => decide (target < 9) && decide (start < 256) && sizes.all fun x => decide (x < 2 ^ 64)
  | .getQosControl => true
  | .setQosControl ld val => decide (ld < 16) && decide (val < 256)
  | .getQosStatus => true
  | .ident c buf len => c.wf && decide (buf < 2 ^ 64) && decide (len < 2 ^ 32)
  | .attest c buf len mask nonce => c.wf && decide (buf < 2 ^ 64) && decide (len < 2 ^ 32) && decide (mask < 256) && decide (nonce < 2 ^ 256)
  | .featget c idx => c.wf && decide (idx < 256)
  | .featset c w0 w1 w2 w3 => c.wf && decide (w0 < 2 ^ 64) && decide (w1 < 2 ^ 64) && decide (w2 < 2 ^ 64) && decide (w3 < 2 ^ 64)
  | .partcreate c slices ld asids quantum => c.wf && decide (slices < 2 ^ 32) && decide (ld < 256) && decide (asids < 65536) && decide (quantum < 256)
  | .partdestroy c => c.wf
  | .partsetHoldPolicy c val => c.wf && decide (val < 2 ^ 64)
  | .partsetWatchdog c val => c.wf && decide (val < 2 ^ 64)
  | .partsetQuantum c val => c.wf && decide (val < 2 ^ 64)
  | .partsetWays c die floor ceil => c.wf && decide (die < 256) && decide (floor < 256) && decide (ceil < 256)
  | .partsetQuota c stack quota => c.wf && decide (stack < 256) && decide (quota < 65536)
  | .partsetGrant c idx base len => c.wf && decide (idx < 256) && decide (base < 2 ^ 64) && decide (len < 2 ^ 64)
  | .launch c pa => c.wf && decide (pa < 2 ^ 64)
  | .wswitch c out inn slices saveOut saveIn => c.wf && decide (out < 256) && decide (inn < 256) && decide (slices < 2 ^ 32) && decide (saveOut < 2 ^ 64) && decide (saveIn < 2 ^ 64)
  | .replay c ftag => c.wf && decide (ftag < 2 ^ 32)
  | .fatal c ftag => c.wf && decide (ftag < 2 ^ 32)
  | .errlogSetRing c base log2n => c.wf && decide (base < 2 ^ 64) && decide (log2n < 256)
  | .errlogReadRas c stack => c.wf && decide (stack < 256)
  | .errlogClearRas c stack => c.wf && decide (stack < 256)
  | .hqset c base => c.wf && decide (base < 2 ^ 64)
  | .regreg c asid rights base len peers => c.wf && decide (asid < 65536) && decide (rights < 256) && decide (base < 2 ^ 64) && decide (len < 2 ^ 64) && decide (peers < 2 ^ 64)
  | .regrevoke c grant => c.wf && decide (grant < 2 ^ 32)
  | .gatecreate c acl burst rate => c.wf && decide (acl < 2 ^ 32) && decide (burst < 65536) && decide (rate < 65536)
  | .gatefreeze c handle => c.wf && decide (handle < 2 ^ 32)
  | .gateexport c handle buf => c.wf && decide (handle < 2 ^ 32) && decide (buf < 2 ^ 64)
  | .gateimport c handle buf => c.wf && decide (handle < 2 ^ 32) && decide (buf < 2 ^ 64)
  | .gatethaw c handle => c.wf && decide (handle < 2 ^ 32)
  | .gatedestroy c handle => c.wf && decide (handle < 2 ^ 32)
  | .podconfigGroups c groups => c.wf && decide (groups < 2 ^ 128)
  | .podconfigPrivilege c part => c.wf && decide (part < 256)
  | .podconfigTimeouts c rly completion => c.wf && decide (rly < 256) && decide (completion < 256)
  | .podconfigRoutes c => c.wf
  | .podconfigCapacities c => c.wf
  | .podctlClearDeadpeer c peer => c.wf && decide (peer < 256)
  | .podctlDown c att => c.wf && decide (att < 256)
  | .podctlRetrain c att => c.wf && decide (att < 256)
  | .dbgopenOpen c => c.wf
  | .dbgopenClose c => c.wf
  | .dbgctlStop c seq wid unit => c.wf && decide (seq < 2 ^ 32) && decide (wid < 2 ^ 32) && decide (unit < 256)
  | .dbgctlStep c seq wid unit => c.wf && decide (seq < 2 ^ 32) && decide (wid < 2 ^ 32) && decide (unit < 256)
  | .dbgctlResume c seq wid unit => c.wf && decide (seq < 2 ^ 32) && decide (wid < 2 ^ 32) && decide (unit < 256)
  | .dbgctlCoreStop c core => c.wf && decide (core < 65536)
  | .dbgctlCoreResume c core => c.wf && decide (core < 65536)
  | .ctrwrite c n entry => c.wf && decide (n < 256) && decide (entry < 2 ^ 64)
  | .illegalInstruction sub => (sub = 1 || sub = 2)
  | .packetForward p => p.wf
  | .bindVppb ld => decide (ld < 16)
  | .unbindVppb ld => decide (ld < 16)
  | .spillComplete seq wid => decide (seq < 2 ^ 32) && decide (wid < 24576)

/-- The well-formed instructions, as a proposition. -/
abbrev Instr.WellFormed (i : Instr) : Prop := i.wf = true

end Sys2Proof
end

