-- ==== Sys2Proof/Decode.lean ====
section
/-!
DEFINITION. The decoder of one 32-bit instruction word (09_encoding R208 to R217), total on any bits and rejecting by
name; and, after it, the encoder written from the same tables.
-/
namespace Sys2Proof

/-- Why a word is no instruction (09_encoding R217). -/
inductive DecodeErr where
  /-- Subcode 0x01: undefined major. -/
  | undefinedMajor
  /-- Subcode 0x02: function code not assigned in its major (R215). -/
  | unassignedFunction
  /-- Subcode 0x04: a field value that selects no instruction (R229, R264). -/
  | illegalField
deriving DecidableEq, Repr

/-- The subcode of Illegal Instruction that R217 gives. -/
def DecodeErr.subcode : DecodeErr → Nat
  | .undefinedMajor => 1
  | .unassignedFunction => 2
  | .illegalField => 4

/-- The `n` bits of the word `w` from bit `lo` up. -/
def field (w lo n : Nat) : BitVec n := BitVec.ofNat n (w / 2 ^ lo)

/-- The `n`-bit number of the word `w` from bit `lo` up. -/
def fieldNat (w lo n : Nat) : Nat := w / 2 ^ lo % 2 ^ n

/-- The major opcode, bits [30:25] (09_encoding R212). -/
def majorOf (w : Nat) : Nat := fieldNat w 25 6

/-- The chain bit C (09_encoding R208). -/
def chainBit (w : Nat) : Bool := fieldNat w 31 1 = 1

/-- A word of the hint region (09_encoding R216). -/
def isHint (w : Nat) : Bool := majorOf w < 2

/-- The U-format condition code or the UI-format one, when R228 and R256 assign it. -/
def ifAssigned (cc : Nat) (i : Instr) : Except DecodeErr Instr :=
  if cc < 6 then .ok i else .error .unassignedFunction

/-- Major 0x02 UALU (09_encoding R215). -/
def decodeUalu (w : Nat) : Except DecodeErr Instr :=
  match fieldNat w 21 4 with
  | 0 => .ok (.uadd (field w 15 6) (field w 9 6) (field w 3 6) (field w 0 3))
  | 1 => .ok (.usub (field w 15 6) (field w 9 6) (field w 3 6) (field w 0 3))
  | 2 => .ok (.umul (field w 15 6) (field w 9 6) (field w 3 6) (field w 0 3))
  | 3 => .ok (.umulh (field w 15 6) (field w 9 6) (field w 3 6) (field w 0 3))
  | 4 => .ok (.umulhu (field w 15 6) (field w 9 6) (field w 3 6) (field w 0 3))
  | 5 => .ok (.uand (field w 15 6) (field w 9 6) (field w 3 6) (field w 0 3))
  | 6 => .ok (.uor (field w 15 6) (field w 9 6) (field w 3 6) (field w 0 3))
  | 7 => .ok (.uxor (field w 15 6) (field w 9 6) (field w 3 6) (field w 0 3))
  | 8 => .ok (.ushl (field w 15 6) (field w 9 6) (field w 3 6) (field w 0 3))
  | 9 => .ok (.ushr (field w 15 6) (field w 9 6) (field w 3 6) (field w 0 3))
  | 10 => .ok (.usar (field w 15 6) (field w 9 6) (field w 3 6) (field w 0 3))
  | 11 => .ok (.umin (field w 15 6) (field w 9 6) (field w 3 6) (field w 0 3))
  | 12 => .ok (.umax (field w 15 6) (field w 9 6) (field w 3 6) (field w 0 3))
  | 13 => .ok (.uminu (field w 15 6) (field w 9 6) (field w 3 6) (field w 0 3))
  | 14 => .ok (.umaxu (field w 15 6) (field w 9 6) (field w 3 6) (field w 0 3))
  | 15 => .ok (.umov (field w 15 6) (field w 9 6) (field w 0 3))
  | _ => .error .unassignedFunction

/-- Major 0x03 UALUI (09_encoding R215). -/
def decodeUalui (w : Nat) : Except DecodeErr Instr :=
  match fieldNat w 22 3 with
  | 0 => .ok (.uaddi (field w 16 6) (field w 10 6) (field w 0 10))
  | 1 => .ok (.umuli (field w 16 6) (field w 10 6) (field w 0 10))
  | 2 => .ok (.uandi (field w 16 6) (field w 10 6) (field w 0 10))
  | 3 => .ok (.uori (field w 16 6) (field w 10 6) (field w 0 10))
  | 4 => .ok (.uxori (field w 16 6) (field w 10 6) (field w 0 10))
  | 5 => .ok (.ushli (field w 16 6) (field w 10 6) (field w 0 10))
  | 6 => .ok (.ushri (field w 16 6) (field w 10 6) (field w 0 10))
  | 7 => .ok (.usari (field w 16 6) (field w 10 6) (field w 0 10))
  | _ => .error .unassignedFunction

/-- Major 0x04 UCMP (09_encoding R215). -/
def decodeUcmp (w : Nat) : Except DecodeErr Instr :=
  ifAssigned (fieldNat w 21 4) (.ucmp (field w 21 4) (field w 15 6) (field w 9 6) (field w 3 6) (field w 0 3))

/-- Major 0x05 UCMPI (09_encoding R215). -/
def decodeUcmpi (w : Nat) : Except DecodeErr Instr :=
  ifAssigned (fieldNat w 22 3) (.ucmpi (field w 22 3) (field w 16 6) (field w 10 6) (field w 0 10))

/-- Major 0x06 UBIT (09_encoding R215). -/
def decodeUbit (w : Nat) : Except DecodeErr Instr :=
  match fieldNat w 21 4 with
  | 0 => .ok (.uclz (field w 15 6) (field w 9 6) (field w 0 3))
  | 1 => .ok (.upopc (field w 15 6) (field w 9 6) (field w 0 3))
  | 2 => .ok (.ubrev (field w 15 6) (field w 9 6) (field w 0 3))
  | 3 => .ok (.ubfx (field w 15 6) (field w 9 6) (field w 3 6) (field w 0 3))
  | 4 => .ok (.ubfi (field w 15 6) (field w 9 6) (field w 3 6) (field w 0 3))
  | 5 => .ok (.usel (field w 15 6) (field w 9 6) (field w 3 6) (field w 0 3))
  | 6 => .ok (.uqop (field w 15 6) (field w 9 6) (field w 3 6) (field w 0 3))
  | 7 =>
    match fieldNat w 0 3 with
    | 0 => .ok (.uqmovTos (field w 15 6))
    | 1 => .ok (.uqmovFroms (field w 9 6))
    | _ => .error .illegalField
  | _ => .error .unassignedFunction

/-- Major 0x07 ULDST (09_encoding R215). -/
def decodeUldst (w : Nat) : Except DecodeErr Instr :=
  match fieldNat w 22 3 with
  | 0 => .ok (.uld32 (field w 16 6) (field w 10 6) (field w 0 10))
  | 1 => .ok (.uld64 (field w 16 6) (field w 10 6) (field w 0 10))
  | 2 => .ok (.ust32 (field w 16 6) (field w 10 6) (field w 0 10))
  | 3 => .ok (.ust64 (field w 16 6) (field w 10 6) (field w 0 10))
  | _ => .error .unassignedFunction

/-- Major 0x08 SREG (09_encoding R215). -/
def decodeSreg (w : Nat) : Except DecodeErr Instr :=
  match fieldNat w 22 3 with
  | 0 => .ok (.urds (field w 16 6) (field w 0 10))
  | 1 => .ok (.uwrs (field w 16 6) (field w 0 10))
  | 2 => .ok (.setfmt (field w 8 8) (field w 0 8))
  | _ => .error .unassignedFunction

/-- Major 0x09 BRANCH (09_encoding R215). -/
def decodeBranch (w : Nat) : Except DecodeErr Instr :=
  match fieldNat w 22 3 with
  | 0 => .ok (.bra (field w 19 3) (field w 0 19))
  | 1 => .ok (.bran (field w 19 3) (field w 0 19))
  | 2 => .ok (.call (field w 19 3) (field w 0 19))
  | 3 => .ok (.ret (field w 19 3))
  | 4 => .ok (.jmpi (field w 19 3) (field w 0 6))
  | 5 => .ok (.calli (field w 19 3) (field w 0 6))
  | _ => .error .unassignedFunction

/-- Major 0x0A DIVERGE (09_encoding R215). -/
def decodeDiverge (w : Nat) : Except DecodeErr Instr :=
  match fieldNat w 22 3 with
  | 0 => .ok (.split (field w 16 6) (field w 0 16))
  | 1 => .ok (.join)
  | 2 => .ok (.brkp (field w 16 6))
  | 3 => .ok (.pmask (field w 16 6))
  | 4 => .ok (.anyp (field w 16 6) (field w 10 6))
  | 5 => .ok (.allp (field w 16 6) (field w 10 6))
  | _ => .error .unassignedFunction

/-- Major 0x0B WAVECTL (09_encoding R215). -/
def decodeWavectl (w : Nat) : Except DecodeErr Instr :=
  match fieldNat w 22 3 with
  | 0 => .ok (.halt)
  | 1 => .ok (.yield)
  | 2 => .ok (.sleepuntil (field w 17 5))
  | 3 => .ok (.waitline (field w 17 5) (field w 11 6) (field w 5 6))
  | 4 => .ok (.trap (field w 0 8))
  | 5 => .ok (.bkpt (field w 0 8))
  | 6 => .ok (.rte)
  | _ => .error .unassignedFunction

/-- Major 0x0C LAUNCHCTL (09_encoding R215). -/
def decodeLaunchctl (w : Nat) : Except DecodeErr Instr :=
  match fieldNat w 22 3 with
  | 0 => .ok (.dispatch (field w 16 6))
  | 1 => .ok (.phasesel)
  | 2 => .ok (.phaseend (field w 0 2))
  | _ => .error .unassignedFunction

/-- Major 0x10 VIADD (09_encoding R215). -/
def decodeViadd (w : Nat) : Except DecodeErr Instr :=
  match fieldNat w 21 3 with
  | 0 => .ok (.vadd (field w 24 1) (field w 15 6) (field w 9 6) (field w 3 6) (field w 0 3))
  | 1 => .ok (.vsub (field w 24 1) (field w 15 6) (field w 9 6) (field w 3 6) (field w 0 3))
  | 2 => .ok (.vmul (field w 24 1) (field w 15 6) (field w 9 6) (field w 3 6) (field w 0 3))
  | 3 => .ok (.vmulh (field w 24 1) (field w 15 6) (field w 9 6) (field w 3 6) (field w 0 3))
  | 4 => .ok (.vmulhu (field w 24 1) (field w 15 6) (field w 9 6) (field w 3 6) (field w 0 3))
  | 5 => .ok (.vmin (field w 24 1) (field w 15 6) (field w 9 6) (field w 3 6) (field w 0 3))
  | 6 => .ok (.vmax (field w 24 1) (field w 15 6) (field w 9 6) (field w 3 6) (field w 0 3))
  | 7 => .ok (.vminu (field w 24 1) (field w 15 6) (field w 9 6) (field w 3 6) (field w 0 3))
  | _ => .error .unassignedFunction

/-- Major 0x11 VILOG (09_encoding R215). -/
def decodeVilog (w : Nat) : Except DecodeErr Instr :=
  match fieldNat w 21 3 with
  | 0 => .ok (.vand (field w 24 1) (field w 15 6) (field w 9 6) (field w 3 6) (field w 0 3))
  | 1 => .ok (.vor (field w 24 1) (field w 15 6) (field w 9 6) (field w 3 6) (field w 0 3))
  | 2 => .ok (.vxor (field w 24 1) (field w 15 6) (field w 9 6) (field w 3 6) (field w 0 3))
  | 3 => .ok (.vshl (field w 24 1) (field w 15 6) (field w 9 6) (field w 3 6) (field w 0 3))
  | 4 => .ok (.vshr (field w 24 1) (field w 15 6) (field w 9 6) (field w 3 6) (field w 0 3))
  | 5 => .ok (.vsar (field w 24 1) (field w 15 6) (field w 9 6) (field w 3 6) (field w 0 3))
  | 6 => .ok (.vmaxu (field w 24 1) (field w 15 6) (field w 9 6) (field w 3 6) (field w 0 3))
  | 7 => .ok (.vabsd (field w 24 1) (field w 15 6) (field w 9 6) (field w 3 6) (field w 0 3))
  | _ => .error .unassignedFunction

/-- Major 0x12 VIALUI (09_encoding R215). -/
def decodeVialui (w : Nat) : Except DecodeErr Instr :=
  match fieldNat w 22 3 with
  | 0 => .ok (.vaddi (field w 16 6) (field w 10 6) (field w 0 10))
  | 1 => .ok (.vmuli (field w 16 6) (field w 10 6) (field w 0 10))
  | 2 => .ok (.vandi (field w 16 6) (field w 10 6) (field w 0 10))
  | 3 => .ok (.vori (field w 16 6) (field w 10 6) (field w 0 10))
  | 4 => .ok (.vxori (field w 16 6) (field w 10 6) (field w 0 10))
  | 5 => .ok (.vshli (field w 16 6) (field w 10 6) (field w 0 10))
  | 6 => .ok (.vshri (field w 16 6) (field w 10 6) (field w 0 10))
  | 7 => .ok (.vsari (field w 16 6) (field w 10 6) (field w 0 10))
  | _ => .error .unassignedFunction

/-- Major 0x13 VICMP (09_encoding R215). -/
def decodeVicmp (w : Nat) : Except DecodeErr Instr :=
  ifAssigned (fieldNat w 21 3) (.vicmp (field w 24 1) (field w 21 3) (field w 15 6) (field w 9 6) (field w 3 6) (field w 0 3))

/-- Major 0x14 VICMPI (09_encoding R215). -/
def decodeVicmpi (w : Nat) : Except DecodeErr Instr :=
  ifAssigned (fieldNat w 22 3) (.vicmpi (field w 22 3) (field w 16 6) (field w 10 6) (field w 0 10))

/-- Major 0x15 VIMISC (09_encoding R215). -/
def decodeVimisc (w : Nat) : Except DecodeErr Instr :=
  match fieldNat w 21 3 with
  | 0 => .ok (.vclz (field w 24 1) (field w 15 6) (field w 9 6) (field w 0 3))
  | 1 => .ok (.vpopc (field w 24 1) (field w 15 6) (field w 9 6) (field w 0 3))
  | 2 => .ok (.vbrev (field w 24 1) (field w 15 6) (field w 9 6) (field w 0 3))
  | 3 => .ok (.vbfx (field w 24 1) (field w 15 6) (field w 9 6) (field w 3 6) (field w 0 3))
  | 4 => .ok (.vbfi (field w 24 1) (field w 15 6) (field w 9 6) (field w 3 6) (field w 0 3))
  | 5 => .ok (.vsel (field w 24 1) (field w 15 6) (field w 9 6) (field w 3 6) (field w 0 3))
  | 6 => .ok (.vmad (field w 24 1) (field w 15 6) (field w 9 6) (field w 3 6) (field w 0 3))
  | 7 => .ok (.vlane (field w 24 1) (field w 15 6) (field w 0 3))
  | _ => .error .unassignedFunction

/-- Major 0x16 VMOV (09_encoding R215). -/
def decodeVmov (w : Nat) : Except DecodeErr Instr :=
  match fieldNat w 21 4 with
  | 0 => .ok (.vmov (field w 15 6) (field w 9 6) (field w 0 3))
  | 1 => .ok (.vmovs (field w 15 6) (field w 9 6) (field w 0 3))
  | 2 => .ok (.vtos (field w 15 6) (field w 9 6) (field w 3 6) (field w 0 3))
  | 3 => .ok (.vfroms (field w 15 6) (field w 9 6) (field w 3 6) (field w 0 3))
  | _ => .error .unassignedFunction

/-- Major 0x18 VFARITH (09_encoding R215). -/
def decodeVfarith (w : Nat) : Except DecodeErr Instr :=
  match fieldNat w 21 3 with
  | 0 => .ok (.fadd (field w 24 1) (field w 15 6) (field w 9 6) (field w 3 6) (field w 0 3))
  | 1 => .ok (.fsub (field w 24 1) (field w 15 6) (field w 9 6) (field w 3 6) (field w 0 3))
  | 2 => .ok (.fmul (field w 24 1) (field w 15 6) (field w 9 6) (field w 3 6) (field w 0 3))
  | 3 => .ok (.ffma (field w 24 1) (field w 15 6) (field w 9 6) (field w 3 6) (field w 0 3))
  | 4 => .ok (.ffnma (field w 24 1) (field w 15 6) (field w 9 6) (field w 3 6) (field w 0 3))
  | 5 => .ok (.fmin (field w 24 1) (field w 15 6) (field w 9 6) (field w 3 6) (field w 0 3))
  | 6 => .ok (.fmax (field w 24 1) (field w 15 6) (field w 9 6) (field w 3 6) (field w 0 3))
  | 7 => .ok (.fabs (field w 24 1) (field w 15 6) (field w 9 6) (field w 0 3))
  | _ => .error .unassignedFunction

/-- Major 0x19 VFCMP (09_encoding R215). -/
def decodeVfcmp (w : Nat) : Except DecodeErr Instr :=
  .ok (.vfcmp (field w 24 1) (field w 21 3) (field w 15 6) (field w 9 6) (field w 3 6) (field w 0 3))

/-- Major 0x1A VFSPEC (09_encoding R215). -/
def decodeVfspec (w : Nat) : Except DecodeErr Instr :=
  match fieldNat w 21 3 with
  | 0 => .ok (.frcp (field w 24 1) (field w 15 6) (field w 9 6) (field w 0 3))
  | 1 => .ok (.frsq (field w 24 1) (field w 15 6) (field w 9 6) (field w 0 3))
  | 2 => .ok (.fsqrt (field w 24 1) (field w 15 6) (field w 9 6) (field w 0 3))
  | 3 => .ok (.fdiv (field w 24 1) (field w 15 6) (field w 9 6) (field w 3 6) (field w 0 3))
  | 4 => .ok (.fex2 (field w 24 1) (field w 15 6) (field w 9 6) (field w 0 3))
  | 5 => .ok (.flg2 (field w 24 1) (field w 15 6) (field w 9 6) (field w 0 3))
  | 6 => .ok (.frint (field w 24 1) (field w 15 6) (field w 9 6) (field w 0 3))
  | 7 => .ok (.fclass (field w 24 1) (field w 15 6) (field w 9 6) (field w 0 3))
  | _ => .error .unassignedFunction

/-- Major 0x1B VBPACK (09_encoding R215). -/
def decodeVbpack (w : Nat) : Except DecodeErr Instr :=
  match fieldNat w 21 3 with
  | 0 => .ok (.b2add (field w 24 1) (field w 15 6) (field w 9 6) (field w 3 6) (field w 0 3))
  | 1 => .ok (.b2sub (field w 24 1) (field w 15 6) (field w 9 6) (field w 3 6) (field w 0 3))
  | 2 => .ok (.b2mul (field w 24 1) (field w 15 6) (field w 9 6) (field w 3 6) (field w 0 3))
  | 3 => .ok (.b2fma (field w 24 1) (field w 15 6) (field w 9 6) (field w 3 6) (field w 0 3))
  | 4 => .ok (.b2max (field w 24 1) (field w 15 6) (field w 9 6) (field w 3 6) (field w 0 3))
  | 5 => .ok (.b2min (field w 24 1) (field w 15 6) (field w 9 6) (field w 3 6) (field w 0 3))
  | _ => .error .unassignedFunction

/-- Major 0x1C VCVT (09_encoding R215). -/
def decodeVcvt (w : Nat) : Except DecodeErr Instr :=
  match fieldNat w 21 4 with
  | 0 => .ok (.fcvt (field w 15 6) (field w 9 6) (field w 6 3) (field w 3 3) (field w 0 3))
  | 1 => .ok (.icvt (field w 15 6) (field w 9 6) (field w 6 3) (field w 3 3) (field w 0 3))
  | 10 => .ok (.qpk (field w 15 6) (field w 9 6) (field w 3 6) (field w 0 3))
  | 11 => .ok (.qunpk (field w 15 6) (field w 9 6) (field w 3 6) (field w 0 3))
  | 2 | 3 | 8 | 9 => .error .illegalField
  | _ => .error .unassignedFunction

/-- Major 0x20 VXLANE (09_encoding R215). -/
def decodeVxlane (w : Nat) : Except DecodeErr Instr :=
  match fieldNat w 21 4 with
  | 0 => .ok (.shfl (field w 15 6) (field w 9 6) (field w 3 6) (field w 0 3))
  | 1 => .ok (.shflx (field w 15 6) (field w 9 6) (field w 3 6) (field w 0 3))
  | 2 => .ok (.shflup (field w 15 6) (field w 9 6) (field w 3 6) (field w 0 3))
  | 3 => .ok (.shfldn (field w 15 6) (field w 9 6) (field w 3 6) (field w 0 3))
  | 4 => .ok (.lanebc (field w 15 6) (field w 9 6) (field w 3 6) (field w 0 3))
  | 5 => .ok (.vredf (field w 15 6) (field w 9 6) (field w 3 6) (field w 0 3))
  | 6 => .ok (.vredi (field w 15 6) (field w 9 6) (field w 3 6) (field w 0 3))
  | 7 => .ok (.vscanf (field w 15 6) (field w 9 6) (field w 3 6) (field w 0 3))
  | _ => .error .unassignedFunction

/-- Major 0x21 VIX (09_encoding R215). -/
def decodeVix (w : Nat) : Except DecodeErr Instr :=
  match fieldNat w 22 3 with
  | 0 => .ok (.vldx (field w 16 6) (field w 10 6) (field w 0 10))
  | 1 => .ok (.vstx (field w 16 6) (field w 10 6) (field w 0 10))
  | _ => .error .unassignedFunction

/-- Major 0x22 PREDOP (09_encoding R215). -/
def decodePredop (w : Nat) : Except DecodeErr Instr :=
  match fieldNat w 21 4 with
  | 0 => .ok (.pand (field w 15 6) (field w 9 6) (field w 3 6) (field w 0 3))
  | 1 => .ok (.por (field w 15 6) (field w 9 6) (field w 3 6) (field w 0 3))
  | 2 => .ok (.pxor (field w 15 6) (field w 9 6) (field w 3 6) (field w 0 3))
  | 3 => .ok (.pandn (field w 15 6) (field w 9 6) (field w 3 6) (field w 0 3))
  | 4 => .ok (.pnot (field w 15 6) (field w 9 6) (field w 0 3))
  | 5 => .ok (.pmov (field w 15 6) (field w 9 6) (field w 0 3))
  | 6 => .ok (.pset (field w 15 6) (field w 9 1) (field w 0 3))
  | 7 => .ok (.vballot (field w 15 6) (field w 9 6) (field w 0 3))
  | 8 => .ok (.vmcnt (field w 15 6) (field w 9 6) (field w 0 3))
  | _ => .error .unassignedFunction

/-- Major 0x28 LDG (09_encoding R215). -/
def decodeLdg (w : Nat) : Except DecodeErr Instr :=
  .ok (.ldg (field w 23 2) (field w 20 3) (field w 18 2) (field w 12 6) (field w 6 6) (field w 1 5) (field w 0 1))

/-- Major 0x29 STG (09_encoding R215). -/
def decodeStg (w : Nat) : Except DecodeErr Instr :=
  .ok (.stg (field w 23 2) (field w 20 3) (field w 18 2) (field w 12 6) (field w 6 6) (field w 1 5) (field w 0 1))

/-- Major 0x2A LDQ (09_encoding R215). -/
def decodeLdq (w : Nat) : Except DecodeErr Instr :=
  .ok (.ldq (field w 23 2) (field w 20 3) (field w 18 2) (field w 12 6) (field w 6 6) (field w 1 5) (field w 0 1))

/-- Major 0x2B STQ (09_encoding R215). -/
def decodeStq (w : Nat) : Except DecodeErr Instr :=
  .ok (.stq (field w 23 2) (field w 20 3) (field w 18 2) (field w 12 6) (field w 6 6) (field w 1 5) (field w 0 1))

/-- Major 0x2C GATHER (09_encoding R215). -/
def decodeGather (w : Nat) : Except DecodeErr Instr :=
  .ok (.gather (field w 23 2) (field w 20 3) (field w 18 2) (field w 12 6) (field w 6 6) (field w 1 5) (field w 0 1))

/-- Major 0x2D SCATTER (09_encoding R215). -/
def decodeScatter (w : Nat) : Except DecodeErr Instr :=
  .ok (.scatter (field w 23 2) (field w 20 3) (field w 18 2) (field w 12 6) (field w 6 6) (field w 1 5) (field w 0 1))

/-- Major 0x2E ATOMG (09_encoding R215). -/
def decodeAtomg (w : Nat) : Except DecodeErr Instr :=
  .ok (.atomg (field w 22 3) (field w 21 1) (field w 18 3) (field w 16 2) (field w 10 6) (field w 4 6) (field w 0 4))

/-- Major 0x2F ATOMQ (09_encoding R215). -/
def decodeAtomq (w : Nat) : Except DecodeErr Instr :=
  .ok (.atomq (field w 22 3) (field w 21 1) (field w 18 3) (field w 16 2) (field w 10 6) (field w 4 6) (field w 0 4))

/-- Major 0x30 FENCE (09_encoding R215). -/
def decodeFence (w : Nat) : Except DecodeErr Instr :=
  match fieldNat w 22 3 with
  | 0 => .ok (.fence (field w 19 3))
  | 1 => .ok (.fenceacq (field w 19 3))
  | 2 => .ok (.fencerel (field w 19 3))
  | 3 => .ok (.fenceeng (field w 19 3))
  | _ => .error .unassignedFunction

/-- Major 0x31 CACHEOP (09_encoding R215). -/
def decodeCacheop (w : Nat) : Except DecodeErr Instr :=
  match fieldNat w 23 2 with
  | 0 => .ok (.pref (field w 6 6) (field w 1 5) (field w 0 1))
  | 1 => .ok (.wbl (field w 6 6) (field w 1 5) (field w 0 1))
  | 2 => .ok (.invl (field w 6 6) (field w 1 5) (field w 0 1))
  | 3 => .ok (.flushl (field w 6 6) (field w 1 5) (field w 0 1))
  | _ => .error .unassignedFunction

/-- Major 0x32 ROWOP (09_encoding R215). -/
def decodeRowop (w : Nat) : Except DecodeErr Instr :=
  match fieldNat w 22 3 with
  | 0 => .ok (.rowpin (field w 16 6) (field w 11 5))
  | 1 => .ok (.rowunpin (field w 16 6) (field w 10 6))
  | 2 => .ok (.rowqry (field w 16 6) (field w 10 6))
  | _ => .error .unassignedFunction

/-- Major 0x33 MODSVC (09_encoding R215). -/
def decodeModsvc (w : Nat) : Except DecodeErr Instr :=
  match fieldNat w 22 3 with
  | 0 => .ok (.mqput (field w 17 5) (field w 11 6) (field w 5 6))
  | 1 => .ok (.mqget (field w 17 5) (field w 11 6) (field w 5 6))
  | 2 => .ok (.mred (field w 17 5) (field w 11 6) (field w 5 6))
  | 3 => .ok (.mredrd (field w 17 5) (field w 11 6) (field w 5 6))
  | 4 => .ok (.matom (field w 17 5) (field w 11 6) (field w 5 6) (field w 4 1) (field w 0 3))
  | _ => .error .unassignedFunction

/-- Major 0x34 RELAY (09_encoding R215). -/
def decodeRelay (w : Nat) : Except DecodeErr Instr :=
  match fieldNat w 22 3 with
  | 0 => .ok (.rwri (field w 17 5) (field w 12 5) (field w 6 6))
  | 1 => .ok (.rrd (field w 17 5) (field w 12 5) (field w 6 6))
  | 2 => .ok (.ratom (field w 17 5) (field w 12 5) (field w 6 6))
  | 3 => .ok (.nqwait (field w 16 6) (field w 10 6))
  | _ => .error .unassignedFunction

/-- Major 0x35 TBAR (09_encoding R215). -/
def decodeTbar (w : Nat) : Except DecodeErr Instr :=
  match fieldNat w 22 3 with
  | 0 => .ok (.tbinit (field w 17 5) (field w 16 1) (field w 13 3) (field w 7 6))
  | 1 => .ok (.tbarrive (field w 17 5) (field w 16 1) (field w 13 3) (field w 7 6))
  | 2 => .ok (.tbexpect (field w 17 5) (field w 16 1) (field w 13 3) (field w 7 6))
  | 3 => .ok (.tbwait (field w 17 5) (field w 16 1) (field w 13 3) (field w 7 6))
  | 4 => .ok (.tbquery (field w 17 5) (field w 16 1) (field w 13 3) (field w 7 6))
  | _ => .error .unassignedFunction

/-- Major 0x36 BAR (09_encoding R215). -/
def decodeBar (w : Nat) : Except DecodeErr Instr :=
  match fieldNat w 22 3 with
  | 0 => .ok (.barsync (field w 19 3) (field w 15 4) (field w 9 6))
  | 1 => .ok (.bararrive (field w 19 3) (field w 15 4) (field w 9 6) (field w 3 6))
  | 2 => .ok (.barwait (field w 19 3) (field w 15 4) (field w 9 6))
  | _ => .error .unassignedFunction

/-- Major 0x37 GATE (09_encoding R215). -/
def decodeGate (w : Nat) : Except DecodeErr Instr :=
  match fieldNat w 22 3 with
  | 0 => .ok (.gatepost (field w 16 6) (field w 10 6))
  | 1 => .ok (.gatetake (field w 16 6) (field w 10 6) (field w 4 6))
  | 2 => .ok (.gatepoll (field w 16 6) (field w 10 6))
  | _ => .error .unassignedFunction

/-- Major 0x38 MLOOP (09_encoding R215). -/
def decodeMloop (w : Nat) : Except DecodeErr Instr :=
  .ok (.mloop (field w 22 3) (field w 18 4) (field w 14 4) (field w 13 1) (field w 12 1) (field w 11 1) (field w 0 11))

/-- Major 0x39 MSTEP (09_encoding R215). -/
def decodeMstep (w : Nat) : Except DecodeErr Instr :=
  .ok (.mstep (field w 22 3) (field w 16 6) (field w 10 6) (field w 8 2) (field w 5 3) (field w 2 3) (field w 0 2))

/-- Major 0x3A MDRAIN (09_encoding R215). -/
def decodeMdrain (w : Nat) : Except DecodeErr Instr :=
  .ok (.mdrain (field w 22 3) (field w 18 4) (field w 14 4) (field w 13 1) (field w 12 1))

/-- Major 0x3B MACC (09_encoding R215). -/
def decodeMacc (w : Nat) : Except DecodeErr Instr :=
  match fieldNat w 22 3 with
  | 0 => .ok (.mzero (field w 19 3))
  | 1 => .ok (.mwait (field w 19 3))
  | 2 => .ok (.mload (field w 19 3) (field w 15 4))
  | 3 => .ok (.mqry (field w 19 3) (field w 13 6))
  | _ => .error .unassignedFunction

/-- Major 0x3C TDESC (09_encoding R215). -/
def decodeTdesc (w : Nat) : Except DecodeErr Instr :=
  match fieldNat w 22 3 with
  | 0 => .ok (.tset (field w 18 4) (field w 12 6))
  | 1 => .ok (.tget (field w 16 6) (field w 12 4))
  | 2 => .ok (.tplset (field w 18 4) (field w 14 4) (field w 8 6))
  | _ => .error .unassignedFunction

/-- Major 0x3D PERFCTR (09_encoding R215). -/
def decodePerfctr (w : Nat) : Except DecodeErr Instr :=
  match fieldNat w 22 3 with
  | 0 => .ok (.ctrsel (field w 18 4) (field w 12 6))
  | 1 => .ok (.ctrrd (field w 16 6) (field w 12 4))
  | 2 => .ok (.ctrctl (field w 16 6) (field w 10 6))
  | _ => .error .unassignedFunction

/-- The instruction a word stands for, or why it stands for none. -/
def decodeWord (w : Nat) : Except DecodeErr Instr :=
  match majorOf w with
  | 0 | 1 => .ok .nop
  | 2 => decodeUalu w
  | 3 => decodeUalui w
  | 4 => decodeUcmp w
  | 5 => decodeUcmpi w
  | 6 => decodeUbit w
  | 7 => decodeUldst w
  | 8 => decodeSreg w
  | 9 => decodeBranch w
  | 10 => decodeDiverge w
  | 11 => decodeWavectl w
  | 12 => decodeLaunchctl w
  | 16 => decodeViadd w
  | 17 => decodeVilog w
  | 18 => decodeVialui w
  | 19 => decodeVicmp w
  | 20 => decodeVicmpi w
  | 21 => decodeVimisc w
  | 22 => decodeVmov w
  | 24 => decodeVfarith w
  | 25 => decodeVfcmp w
  | 26 => decodeVfspec w
  | 27 => decodeVbpack w
  | 28 => decodeVcvt w
  | 32 => decodeVxlane w
  | 33 => decodeVix w
  | 34 => decodePredop w
  | 40 => decodeLdg w
  | 41 => decodeStg w
  | 42 => decodeLdq w
  | 43 => decodeStq w
  | 44 => decodeGather w
  | 45 => decodeScatter w
  | 46 => decodeAtomg w
  | 47 => decodeAtomq w
  | 48 => decodeFence w
  | 49 => decodeCacheop w
  | 50 => decodeRowop w
  | 51 => decodeModsvc w
  | 52 => decodeRelay w
  | 53 => decodeTbar w
  | 54 => decodeBar w
  | 55 => decodeGate w
  | 56 => decodeMloop w
  | 57 => decodeMstep w
  | 58 => decodeMdrain w
  | 59 => decodeMacc w
  | 60 => decodeTdesc w
  | 61 => decodePerfctr w
  | _ => .error .undefinedMajor

/-- A little-endian number from bytes (00_scope R13). -/
def bytesToNat : List Byte → Nat
  | [] => 0
  | b :: bs => b.toNat + 256 * bytesToNat bs

/-- The `n` little-endian bytes of a number (00_scope R13). -/
def natToBytes : Nat → Nat → List Byte
  | 0, _ => []
  | n + 1, x => BitVec.ofNat 8 x :: natToBytes n (x / 256)

/-- The decoder on the bytes that memory holds: the first word of four little-endian bytes, and the rest. -/
def decodeBytes (bs : List Byte) : Except DecodeErr (Instr × List Byte) :=
  match decodeWord (bytesToNat (bs.take 4)) with
  | .ok i => .ok (i, bs.drop 4)
  | .error e => .error e

/-- The instruction read from a word whose bits are numbered as the opcode table numbers them. -/
def decodeTableWord (nbits w : Nat) : Option Instr :=
  match decodeBytes (natToBytes 4 (w % 2 ^ nbits)) with
  | .ok (i, _) => some i
  | .error _ => none

/-- A field's value at its place in the word. -/
def put {n : Nat} (x : BitVec n) (lo : Nat) : Nat := x.toNat * 2 ^ lo

/-- A word from its fixed bits and its fields. -/
def wordOf (fixed : Nat) : List Nat → Nat
  | [] => fixed
  | f :: fs => f + wordOf fixed fs

/-- The word of an instruction, reserved fields and the chain bit zero (09_encoding R208, R212, R214); none for a step
that is not a word. -/
def encode : Instr → Option Nat
  | .nop => some (wordOf 0x00000000 [])
  | .uadd d a b g => some (wordOf 0x04000000 [put d 15, put a 9, put b 3, put g 0])
  | .usub d a b g => some (wordOf 0x04200000 [put d 15, put a 9, put b 3, put g 0])
  | .umul d a b g => some (wordOf 0x04400000 [put d 15, put a 9, put b 3, put g 0])
  | .umulh d a b g => some (wordOf 0x04600000 [put d 15, put a 9, put b 3, put g 0])
  | .umulhu d a b g => some (wordOf 0x04800000 [put d 15, put a 9, put b 3, put g 0])
  | .uand d a b g => some (wordOf 0x04A00000 [put d 15, put a 9, put b 3, put g 0])
  | .uor d a b g => some (wordOf 0x04C00000 [put d 15, put a 9, put b 3, put g 0])
  | .uxor d a b g => some (wordOf 0x04E00000 [put d 15, put a 9, put b 3, put g 0])
  | .ushl d a b g => some (wordOf 0x05000000 [put d 15, put a 9, put b 3, put g 0])
  | .ushr d a b g => some (wordOf 0x05200000 [put d 15, put a 9, put b 3, put g 0])
  | .usar d a b g => some (wordOf 0x05400000 [put d 15, put a 9, put b 3, put g 0])
  | .umin d a b g => some (wordOf 0x05600000 [put d 15, put a 9, put b 3, put g 0])
  | .umax d a b g => some (wordOf 0x05800000 [put d 15, put a 9, put b 3, put g 0])
  | .uminu d a b g => some (wordOf 0x05A00000 [put d 15, put a 9, put b 3, put g 0])
  | .umaxu d a b g => some (wordOf 0x05C00000 [put d 15, put a 9, put b 3, put g 0])
  | .umov d a g => some (wordOf 0x05E00000 [put d 15, put a 9, put g 0])
  | .uaddi d a imm => some (wordOf 0x06000000 [put d 16, put a 10, put imm 0])
  | .umuli d a imm => some (wordOf 0x06400000 [put d 16, put a 10, put imm 0])
  | .uandi d a imm => some (wordOf 0x06800000 [put d 16, put a 10, put imm 0])
  | .uori d a imm => some (wordOf 0x06C00000 [put d 16, put a 10, put imm 0])
  | .uxori d a imm => some (wordOf 0x07000000 [put d 16, put a 10, put imm 0])
  | .ushli d a imm => some (wordOf 0x07400000 [put d 16, put a 10, put imm 0])
  | .ushri d a imm => some (wordOf 0x07800000 [put d 16, put a 10, put imm 0])
  | .usari d a imm => some (wordOf 0x07C00000 [put d 16, put a 10, put imm 0])
  | .ucmp cc q a b g => some (wordOf 0x08000000 [put cc 21, put q 15, put a 9, put b 3, put g 0])
  | .ucmpi cc q a imm => some (wordOf 0x0A000000 [put cc 22, put q 16, put a 10, put imm 0])
  | .uclz d a g => some (wordOf 0x0C000000 [put d 15, put a 9, put g 0])
  | .upopc d a g => some (wordOf 0x0C200000 [put d 15, put a 9, put g 0])
  | .ubrev d a g => some (wordOf 0x0C400000 [put d 15, put a 9, put g 0])
  | .ubfx d a b g => some (wordOf 0x0C600000 [put d 15, put a 9, put b 3, put g 0])
  | .ubfi d a b g => some (wordOf 0x0C800000 [put d 15, put a 9, put b 3, put g 0])
  | .usel d a b q => some (wordOf 0x0CA00000 [put d 15, put a 9, put b 3, put q 0])
  | .uqop d a b o => some (wordOf 0x0CC00000 [put d 15, put a 9, put b 3, put o 0])
  | .uqmovTos d => some (wordOf 0x0CE00000 [put d 15])
  | .uqmovFroms a => some (wordOf 0x0CE00001 [put a 9])
  | .uld32 d a imm => some (wordOf 0x0E000000 [put d 16, put a 10, put imm 0])
  | .uld64 d a imm => some (wordOf 0x0E400000 [put d 16, put a 10, put imm 0])
  | .ust32 d a imm => some (wordOf 0x0E800000 [put d 16, put a 10, put imm 0])
  | .ust64 d a imm => some (wordOf 0x0EC00000 [put d 16, put a 10, put imm 0])
  | .urds d n => some (wordOf 0x10000000 [put d 16, put n 0])
  | .uwrs a n => some (wordOf 0x10400000 [put a 16, put n 0])
  | .setfmt m v => some (wordOf 0x10800000 [put m 8, put v 0])
  | .bra q o => some (wordOf 0x12000000 [put q 19, put o 0])
  | .bran q o => some (wordOf 0x12400000 [put q 19, put o 0])
  | .call q o => some (wordOf 0x12800000 [put q 19, put o 0])
  | .ret q => some (wordOf 0x12C00000 [put q 19])
  | .jmpi q a => some (wordOf 0x13000000 [put q 19, put a 0])
  | .calli q a => some (wordOf 0x13400000 [put q 19, put a 0])
  | .split p e => some (wordOf 0x14000000 [put p 16, put e 0])
  | .join => some (wordOf 0x14400000 [])
  | .brkp p => some (wordOf 0x14800000 [put p 16])
  | .pmask d => some (wordOf 0x14C00000 [put d 16])
  | .anyp d p => some (wordOf 0x15000000 [put d 16, put p 10])
  | .allp d p => some (wordOf 0x15400000 [put d 16, put p 10])
  | .halt => some (wordOf 0x16000000 [])
  | .yield => some (wordOf 0x16400000 [])
  | .sleepuntil k => some (wordOf 0x16800000 [put k 17])
  | .waitline k s y => some (wordOf 0x16C00000 [put k 17, put s 11, put y 5])
  | .trap n => some (wordOf 0x17000000 [put n 0])
  | .bkpt n => some (wordOf 0x17400000 [put n 0])
  | .rte => some (wordOf 0x17800000 [])
  | .dispatch a => some (wordOf 0x18000000 [put a 16])
  | .phasesel => some (wordOf 0x18400000 [])
  | .phaseend g => some (wordOf 0x18800000 [put g 0])
  | .vadd u d a b g => some (wordOf 0x20000000 [put u 24, put d 15, put a 9, put b 3, put g 0])
  | .vsub u d a b g => some (wordOf 0x20200000 [put u 24, put d 15, put a 9, put b 3, put g 0])
  | .vmul u d a b g => some (wordOf 0x20400000 [put u 24, put d 15, put a 9, put b 3, put g 0])
  | .vmulh u d a b g => some (wordOf 0x20600000 [put u 24, put d 15, put a 9, put b 3, put g 0])
  | .vmulhu u d a b g => some (wordOf 0x20800000 [put u 24, put d 15, put a 9, put b 3, put g 0])
  | .vmin u d a b g => some (wordOf 0x20A00000 [put u 24, put d 15, put a 9, put b 3, put g 0])
  | .vmax u d a b g => some (wordOf 0x20C00000 [put u 24, put d 15, put a 9, put b 3, put g 0])
  | .vminu u d a b g => some (wordOf 0x20E00000 [put u 24, put d 15, put a 9, put b 3, put g 0])
  | .vand u d a b g => some (wordOf 0x22000000 [put u 24, put d 15, put a 9, put b 3, put g 0])
  | .vor u d a b g => some (wordOf 0x22200000 [put u 24, put d 15, put a 9, put b 3, put g 0])
  | .vxor u d a b g => some (wordOf 0x22400000 [put u 24, put d 15, put a 9, put b 3, put g 0])
  | .vshl u d a b g => some (wordOf 0x22600000 [put u 24, put d 15, put a 9, put b 3, put g 0])
  | .vshr u d a b g => some (wordOf 0x22800000 [put u 24, put d 15, put a 9, put b 3, put g 0])
  | .vsar u d a b g => some (wordOf 0x22A00000 [put u 24, put d 15, put a 9, put b 3, put g 0])
  | .vmaxu u d a b g => some (wordOf 0x22C00000 [put u 24, put d 15, put a 9, put b 3, put g 0])
  | .vabsd u d a b g => some (wordOf 0x22E00000 [put u 24, put d 15, put a 9, put b 3, put g 0])
  | .vaddi d a imm => some (wordOf 0x24000000 [put d 16, put a 10, put imm 0])
  | .vmuli d a imm => some (wordOf 0x24400000 [put d 16, put a 10, put imm 0])
  | .vandi d a imm => some (wordOf 0x24800000 [put d 16, put a 10, put imm 0])
  | .vori d a imm => some (wordOf 0x24C00000 [put d 16, put a 10, put imm 0])
  | .vxori d a imm => some (wordOf 0x25000000 [put d 16, put a 10, put imm 0])
  | .vshli d a imm => some (wordOf 0x25400000 [put d 16, put a 10, put imm 0])
  | .vshri d a imm => some (wordOf 0x25800000 [put d 16, put a 10, put imm 0])
  | .vsari d a imm => some (wordOf 0x25C00000 [put d 16, put a 10, put imm 0])
  | .vicmp u cc d a b g => some (wordOf 0x26000000 [put u 24, put cc 21, put d 15, put a 9, put b 3, put g 0])
  | .vicmpi cc d a imm => some (wordOf 0x28000000 [put cc 22, put d 16, put a 10, put imm 0])
  | .vclz u d a g => some (wordOf 0x2A000000 [put u 24, put d 15, put a 9, put g 0])
  | .vpopc u d a g => some (wordOf 0x2A200000 [put u 24, put d 15, put a 9, put g 0])
  | .vbrev u d a g => some (wordOf 0x2A400000 [put u 24, put d 15, put a 9, put g 0])
  | .vbfx u d a b g => some (wordOf 0x2A600000 [put u 24, put d 15, put a 9, put b 3, put g 0])
  | .vbfi u d a b g => some (wordOf 0x2A800000 [put u 24, put d 15, put a 9, put b 3, put g 0])
  | .vsel u d a b p => some (wordOf 0x2AA00000 [put u 24, put d 15, put a 9, put b 3, put p 0])
  | .vmad u d a b g => some (wordOf 0x2AC00000 [put u 24, put d 15, put a 9, put b 3, put g 0])
  | .vlane u d g => some (wordOf 0x2AE00000 [put u 24, put d 15, put g 0])
  | .vmov d a g => some (wordOf 0x2C000000 [put d 15, put a 9, put g 0])
  | .vmovs d s g => some (wordOf 0x2C200000 [put d 15, put s 9, put g 0])
  | .vtos s a l g => some (wordOf 0x2C400000 [put s 15, put a 9, put l 3, put g 0])
  | .vfroms d s l g => some (wordOf 0x2C600000 [put d 15, put s 9, put l 3, put g 0])
  | .fadd u d a b g => some (wordOf 0x30000000 [put u 24, put d 15, put a 9, put b 3, put g 0])
  | .fsub u d a b g => some (wordOf 0x30200000 [put u 24, put d 15, put a 9, put b 3, put g 0])
  | .fmul u d a b g => some (wordOf 0x30400000 [put u 24, put d 15, put a 9, put b 3, put g 0])
  | .ffma u d a b g => some (wordOf 0x30600000 [put u 24, put d 15, put a 9, put b 3, put g 0])
  | .ffnma u d a b g => some (wordOf 0x30800000 [put u 24, put d 15, put a 9, put b 3, put g 0])
  | .fmin u d a b g => some (wordOf 0x30A00000 [put u 24, put d 15, put a 9, put b 3, put g 0])
  | .fmax u d a b g => some (wordOf 0x30C00000 [put u 24, put d 15, put a 9, put b 3, put g 0])
  | .fabs u d a g => some (wordOf 0x30E00000 [put u 24, put d 15, put a 9, put g 0])
  | .vfcmp u cc d a b g => some (wordOf 0x32000000 [put u 24, put cc 21, put d 15, put a 9, put b 3, put g 0])
  | .frcp u d a g => some (wordOf 0x34000000 [put u 24, put d 15, put a 9, put g 0])
  | .frsq u d a g => some (wordOf 0x34200000 [put u 24, put d 15, put a 9, put g 0])
  | .fsqrt u d a g => some (wordOf 0x34400000 [put u 24, put d 15, put a 9, put g 0])
  | .fdiv u d a b g => some (wordOf 0x34600000 [put u 24, put d 15, put a 9, put b 3, put g 0])
  | .fex2 u d a g => some (wordOf 0x34800000 [put u 24, put d 15, put a 9, put g 0])
  | .flg2 u d a g => some (wordOf 0x34A00000 [put u 24, put d 15, put a 9, put g 0])
  | .frint u d a g => some (wordOf 0x34C00000 [put u 24, put d 15, put a 9, put g 0])
  | .fclass u d a g => some (wordOf 0x34E00000 [put u 24, put d 15, put a 9, put g 0])
  | .b2add u d a b g => some (wordOf 0x36000000 [put u 24, put d 15, put a 9, put b 3, put g 0])
  | .b2sub u d a b g => some (wordOf 0x36200000 [put u 24, put d 15, put a 9, put b 3, put g 0])
  | .b2mul u d a b g => some (wordOf 0x36400000 [put u 24, put d 15, put a 9, put b 3, put g 0])
  | .b2fma u d a b g => some (wordOf 0x36600000 [put u 24, put d 15, put a 9, put b 3, put g 0])
  | .b2max u d a b g => some (wordOf 0x36800000 [put u 24, put d 15, put a 9, put b 3, put g 0])
  | .b2min u d a b g => some (wordOf 0x36A00000 [put u 24, put d 15, put a 9, put b 3, put g 0])
  | .fcvt d a dst src g => some (wordOf 0x38000000 [put d 15, put a 9, put dst 6, put src 3, put g 0])
  | .icvt d a dst src g => some (wordOf 0x38200000 [put d 15, put a 9, put dst 6, put src 3, put g 0])
  | .qpk d a s g => some (wordOf 0x39400000 [put d 15, put a 9, put s 3, put g 0])
  | .qunpk d a s g => some (wordOf 0x39600000 [put d 15, put a 9, put s 3, put g 0])
  | .shfl d a b g => some (wordOf 0x40000000 [put d 15, put a 9, put b 3, put g 0])
  | .shflx d a k g => some (wordOf 0x40200000 [put d 15, put a 9, put k 3, put g 0])
  | .shflup d a k g => some (wordOf 0x40400000 [put d 15, put a 9, put k 3, put g 0])
  | .shfldn d a k g => some (wordOf 0x40600000 [put d 15, put a 9, put k 3, put g 0])
  | .lanebc d a k g => some (wordOf 0x40800000 [put d 15, put a 9, put k 3, put g 0])
  | .vredf d a o g => some (wordOf 0x40A00000 [put d 15, put a 9, put o 3, put g 0])
  | .vredi d a o g => some (wordOf 0x40C00000 [put d 15, put a 9, put o 3, put g 0])
  | .vscanf d a o g => some (wordOf 0x40E00000 [put d 15, put a 9, put o 3, put g 0])
  | .vldx d a imm => some (wordOf 0x42000000 [put d 16, put a 10, put imm 0])
  | .vstx d a imm => some (wordOf 0x42400000 [put d 16, put a 10, put imm 0])
  | .pand d a b g => some (wordOf 0x44000000 [put d 15, put a 9, put b 3, put g 0])
  | .por d a b g => some (wordOf 0x44200000 [put d 15, put a 9, put b 3, put g 0])
  | .pxor d a b g => some (wordOf 0x44400000 [put d 15, put a 9, put b 3, put g 0])
  | .pandn d a b g => some (wordOf 0x44600000 [put d 15, put a 9, put b 3, put g 0])
  | .pnot d a g => some (wordOf 0x44800000 [put d 15, put a 9, put g 0])
  | .pmov d a g => some (wordOf 0x44A00000 [put d 15, put a 9, put g 0])
  | .pset d v g => some (wordOf 0x44C00000 [put d 15, put v 9, put g 0])
  | .vballot s a g => some (wordOf 0x44E00000 [put s 15, put a 9, put g 0])
  | .vmcnt d a g => some (wordOf 0x45000000 [put d 15, put a 9, put g 0])
  | .ldg z s r d o k n => some (wordOf 0x50000000 [put z 23, put s 20, put r 18, put d 12, put o 6, put k 1, put n 0])
  | .stg z s r d o k n => some (wordOf 0x52000000 [put z 23, put s 20, put r 18, put d 12, put o 6, put k 1, put n 0])
  | .ldq z s r d o k n => some (wordOf 0x54000000 [put z 23, put s 20, put r 18, put d 12, put o 6, put k 1, put n 0])
  | .stq z s r d o k n => some (wordOf 0x56000000 [put z 23, put s 20, put r 18, put d 12, put o 6, put k 1, put n 0])
  | .gather z s r d o k n => some (wordOf 0x58000000 [put z 23, put s 20, put r 18, put d 12, put o 6, put k 1, put n 0])
  | .scatter z s r d o k n => some (wordOf 0x5A000000 [put z 23, put s 20, put r 18, put d 12, put o 6, put k 1, put n 0])
  | .atomg p w s r d o k => some (wordOf 0x5C000000 [put p 22, put w 21, put s 18, put r 16, put d 10, put o 4, put k 0])
  | .atomq p n s r d o k => some (wordOf 0x5E000000 [put p 22, put n 21, put s 18, put r 16, put d 10, put o 4, put k 0])
  | .fence s => some (wordOf 0x60000000 [put s 19])
  | .fenceacq s => some (wordOf 0x60400000 [put s 19])
  | .fencerel s => some (wordOf 0x60800000 [put s 19])
  | .fenceeng s => some (wordOf 0x60C00000 [put s 19])
  | .pref o k n => some (wordOf 0x62000000 [put o 6, put k 1, put n 0])
  | .wbl o k n => some (wordOf 0x62800000 [put o 6, put k 1, put n 0])
  | .invl o k n => some (wordOf 0x63000000 [put o 6, put k 1, put n 0])
  | .flushl o k n => some (wordOf 0x63800000 [put o 6, put k 1, put n 0])
  | .rowpin d k => some (wordOf 0x64000000 [put d 16, put k 11])
  | .rowunpin d a => some (wordOf 0x64400000 [put d 16, put a 10])
  | .rowqry d a => some (wordOf 0x64800000 [put d 16, put a 10])
  | .mqput k d r => some (wordOf 0x66000000 [put k 17, put d 11, put r 5])
  | .mqget k d r => some (wordOf 0x66400000 [put k 17, put d 11, put r 5])
  | .mred k d r => some (wordOf 0x66800000 [put k 17, put d 11, put r 5])
  | .mredrd k d r => some (wordOf 0x66C00000 [put k 17, put d 11, put r 5])
  | .matom k d r w p => some (wordOf 0x67000000 [put k 17, put d 11, put r 5, put w 4, put p 0])
  | .rwri k ctl r => some (wordOf 0x68000000 [put k 17, put ctl 12, put r 6])
  | .rrd k ctl r => some (wordOf 0x68400000 [put k 17, put ctl 12, put r 6])
  | .ratom k ctl r => some (wordOf 0x68800000 [put k 17, put ctl 12, put r 6])
  | .nqwait d y => some (wordOf 0x68C00000 [put d 16, put y 10])
  | .tbinit k q s r => some (wordOf 0x6A000000 [put k 17, put q 16, put s 13, put r 7])
  | .tbarrive k q s r => some (wordOf 0x6A400000 [put k 17, put q 16, put s 13, put r 7])
  | .tbexpect k q s r => some (wordOf 0x6A800000 [put k 17, put q 16, put s 13, put r 7])
  | .tbwait k q s r => some (wordOf 0x6AC00000 [put k 17, put q 16, put s 13, put r 7])
  | .tbquery k q s r => some (wordOf 0x6B000000 [put k 17, put q 16, put s 13, put r 7])
  | .barsync s imm r => some (wordOf 0x6C000000 [put s 19, put imm 15, put r 9])
  | .bararrive s imm r d => some (wordOf 0x6C400000 [put s 19, put imm 15, put r 9, put d 3])
  | .barwait s imm r => some (wordOf 0x6C800000 [put s 19, put imm 15, put r 9])
  | .gatepost d a => some (wordOf 0x6E000000 [put d 16, put a 10])
  | .gatetake d a y => some (wordOf 0x6E400000 [put d 16, put a 10, put y 4])
  | .gatepoll d a => some (wordOf 0x6E800000 [put d 16, put a 10])
  | .mloop a t u o p s n => some (wordOf 0x70000000 [put a 22, put t 18, put u 14, put o 13, put p 12, put s 11, put n 0])
  | .mstep a v w f imm j g => some (wordOf 0x72000000 [put a 22, put v 16, put w 10, put f 8, put imm 5, put j 2, put g 0])
  | .mdrain a d t r z => some (wordOf 0x74000000 [put a 22, put d 18, put t 14, put r 13, put z 12])
  | .mzero a => some (wordOf 0x76000000 [put a 19])
  | .mwait a => some (wordOf 0x76400000 [put a 19])
  | .mload a t => some (wordOf 0x76800000 [put a 19, put t 15])
  | .mqry a d => some (wordOf 0x76C00000 [put a 19, put d 13])
  | .tset t a => some (wordOf 0x78000000 [put t 18, put a 12])
  | .tget d t => some (wordOf 0x78400000 [put d 16, put t 12])
  | .tplset d t a => some (wordOf 0x78800000 [put d 18, put t 14, put a 8])
  | .ctrsel n a => some (wordOf 0x7A000000 [put n 18, put a 12])
  | .ctrrd d n => some (wordOf 0x7A400000 [put d 16, put n 12])
  | .ctrctl d a => some (wordOf 0x7A800000 [put d 16, put a 10])
  | .lateError => none
  | .contextTake => none
  | .sleepuntilWake => none
  | .waitlineWake => none
  | .waitlineTimeout => none
  | .nqwaitWake => none
  | .nqwaitTimeout => none
  | .gatetakeWake => none
  | .gatetakeTimeout => none
  | .missedPromise => none
  | .watchdog => none
  | .launchComplete => none
  | .accessComplete => none
  | .qspBankService => none
  | .writeQueueMerge => none
  | .pageWalk => none
  | .walkComplete => none
  | .directoryRequest => none
  | .atomicUnitOp => none
  | .gatherPacket => none
  | .memCompletion => none
  | .bisnpinv => none
  | .bisnpdata => none
  | .bisnpcur => none
  | .biconflictack => none
  | .kweutResponse => none
  | .moduleCompletionTimeout => none
  | .relayTimeout => none
  | .qput => none
  | .qget => none
  | .atom => none
  | .red => none
  | .redrd => none
  | .headGroupLost => none
  | .rwriPacket => none
  | .rrdPacket => none
  | .ratomPacket => none
  | .relayedRead => none
  | .relayedWrite => none
  | .relayedAtomic => none
  | .ack => none
  | .nak => none
  | .fault => none
  | .resume => none
  | .resp => none
  | .busyNakResend => none
  | .ackInterval => none
  | .qputRetry => none
  | .relayContextFetch => none
  | .portDown => none
  | .viral => none
  | .attachmentUp => none
  | .linkCrcFailure => none
  | .retrainComplete => none
  | .refresh => none
  | .copyAccept => none
  | .land => none
  | .chstatClear => none
  | .engineGrant => none
  | .passComplete => none
  | .counterAdd => none
  | .wayMove => none
  | .quantumExpiry => none
  | .switchSave => none
  | .hostQueuePost => none
  | .hostMemRead => none
  | .hostMemWrite => none
  | .registerWrite => none
  | .rlyctxsizeTakesEffect => none
  | .xltinvcPage => none
  | .xltinvcAsid => none
  | .xltinvcPartition => none
  | .xltinvcComplete => none
  | .mailboxDoorbell => none
  | .revokeComplete => none
  | .resetRelease => none
  | .stageAdvance => none
  | .thermalThrottle => none
  | .thermalShutdown => none
  | .getLdInfo => none
  | .getLdAllocations => none
  | .setLdAllocations => none
  | .getQosControl => none
  | .setQosControl => none
  | .getQosStatus => none
  | .ident => none
  | .attest => none
  | .featget => none
  | .featset => none
  | .partcreate => none
  | .partdestroy => none
  | .partsetHoldPolicy => none
  | .partsetWatchdog => none
  | .partsetQuantum => none
  | .partsetWays => none
  | .partsetQuota => none
  | .partsetGrant => none
  | .launch => none
  | .wswitch => none
  | .replay => none
  | .fatal => none
  | .errlogSetRing => none
  | .errlogReadRas => none
  | .errlogClearRas => none
  | .hqset => none
  | .regreg => none
  | .regrevoke => none
  | .gatecreate => none
  | .gatefreeze => none
  | .gateexport => none
  | .gateimport => none
  | .gatethaw => none
  | .gatedestroy => none
  | .podconfigGroups => none
  | .podconfigPrivilege => none
  | .podconfigTimeouts => none
  | .podconfigRoutes => none
  | .podconfigCapacities => none
  | .podctlClearDeadpeer => none
  | .podctlDown => none
  | .podctlRetrain => none
  | .dbgopenOpen => none
  | .dbgopenClose => none
  | .dbgctlStop => none
  | .dbgctlStep => none
  | .dbgctlResume => none
  | .dbgctlCoreStop => none
  | .dbgctlCoreResume => none
  | .ctrwrite => none
  | .illegalInstruction => none
  | .packetForward => none
  | .bindVppb => none
  | .unbindVppb => none
  | .spillComplete => none

/-- The instruction is a 32-bit word. -/
def Instr.isWord (i : Instr) : Bool := (encode i).isSome

end Sys2Proof
end

