-- ==== Sys2Proof/Config.lean ====
section
/-!
DEFINITION. What is fixed for the machine (00_scope, 01_address_spaces, 02_on_package_memory), and the values the spec
leaves open, as constants without a body.
-/
namespace Sys2Proof.Config

/-- Compute dies (00_scope R1). -/
abbrev dies : Nat := 8
/-- Quads of a die (00_scope R3). -/
abbrev quadsPerDie : Nat := 32
/-- Quads of the package (00_scope R3). -/
abbrev quads : Nat := 256
/-- Cores of a quad (00_scope R3). -/
abbrev coresPerQuad : Nat := 4
/-- Issue contexts of a core (00_scope R3, 07_execution R166). -/
abbrev contextsPerCore : Nat := 16
/-- Resident places of a core (00_scope R3, 07_execution R166). -/
abbrev placesPerCore : Nat := 24
/-- Physical vector registers of a core (00_scope R3). -/
abbrev vregsPerCore : Nat := 1536
/-- Accumulator slots of a quad (00_scope R3). -/
abbrev accPerQuad : Nat := 8
/-- QSP banks of a quad (02_on_package_memory R39). -/
abbrev banksPerQuad : Nat := 32
/-- Populated bytes of one HBM stack (01_address_spaces R18): 64 GB. -/
abbrev hbmPopulated : Nat := 0xEE6B28000
/-- Spacing of the stack windows (01_address_spaces R18). -/
abbrev hbmWindow : Nat := 0x1000000000
/-- First address of the attachment windows (01_address_spaces R18). -/
abbrev attachBase : Nat := 0x10000000000
/-- Spacing of the attachment and relay windows (01_address_spaces R18): 4 TiB. -/
abbrev attachWindow : Nat := 0x40000000000
/-- First address of the relay windows (01_address_spaces R18). -/
abbrev relayBase : Nat := 0x400000000000
/-- First address of the Ladle apertures (01_address_spaces R18). -/
abbrev ladleBase : Nat := 0xFE00000000000
/-- First address of the MMIO range (01_address_spaces R18). -/
abbrev mmioBase : Nat := 0xFF00000000000
/-- First address of the partition register pages (01_address_spaces R26). -/
abbrev pageBase : Nat := 0xFF00000100000
/-- First address of the stack RAS blocks (02_on_package_memory R70). -/
abbrev rasBase : Nat := 0xFF00000300000
/-- Longest count of outstanding operations (07_execution R165). -/
abbrev outstMax : Nat := 63
/-- Entries of the write queue (02_on_package_memory R49). -/
abbrev writeQueueSize : Nat := 32
/-- Entries of the core TLB, the quad TLB, the Runner's TLB and a Ladle channel's (01_address_spaces R29). -/
abbrev coreTlbSize : Nat := 192
/-- Entries of the quad TLB (01_address_spaces R29). -/
abbrev quadTlbSize : Nat := 2048
/-- Entries of a Ladle channel's TLB (01_address_spaces R29). -/
abbrev ladleTlbSize : Nat := 16
/-- Entries of the Runner's TLB (01_address_spaces R29). -/
abbrev runnerTlbSize : Nat := 1024
/-- Entries of a die's walk cache (01_address_spaces R29). -/
abbrev walkCacheSize : Nat := 512
/-- Entries of the engine's reservation table (07_execution R185). -/
abbrev reservationSize : Nat := 16

/-- FREE VALUE (log 11): whether UF's tininess is judged before rounding (08_number_formats R195 says "tiny" only). -/
opaque tinyBeforeRounding : Bool

/-- FREE VALUE (log 14): which of `n` entries a full cache, TLB or directory set gives up, by a fresh number. -/
opaque victim : Nat → Nat → Nat

/-- FREE VALUE (log 49): the set of a home die's directory that a line's number selects (02 R53 gives 1,048,576 entries in 16
ways, and no index), modulo 65,536. -/
opaque directorySet : Nat → Nat

/-- FREE VALUE (log 49): the set of a quad TLB that an entry's first page and size select (01 R29 gives 2,048 entries in 8 ways,
and no index), modulo 256. -/
opaque quadTlbIndex : Nat → Nat → Nat

/-- FREE VALUE (log 12): a result computed with a scale that is not a positive finite BF16 (08_number_formats R197). -/
opaque scaleless : Nat → Word

/-- FREE VALUE (log 13): the bytes of the identity block, its certificate chain and harvest map (15 R355), by whether a thermal
trip is to be reported (R360). -/
opaque identByte : Bool → Nat → Byte

/-- FREE VALUE (log 13): the length of the identity block (15 R358). -/
opaque identLength : Nat

/-- FREE VALUE (log 13): the bytes of a Falcon-1024 signature (15 R359), by a fresh number and the byte's index. -/
opaque signatureByte : Nat → Nat → Byte

/-- FREE VALUE (log 13): the length of an attestation report's signature (15 R359). -/
opaque signatureLength : Nat

/-- FREE VALUE (log 13): the digest that a measurement register is extended with (15 R352, R359), as a number below 2^512: of
the register, and of what is measured (the committed features, a fresh number for a pod configuration, else 0). -/
opaque stageDigest : Nat → Nat → Nat

/-- FREE VALUE (log 15): a byte of a fabric-manager answer that CXL defines (15 R347), by command and index. -/
opaque fabricByte : Nat → Nat → Byte

/-- FREE VALUE (log 15): the bytes of a fabric-manager answer before the values that State holds, by command. -/
opaque fabricLength : Nat → Nat

/-- FREE VALUE (log 16): a shadow-tag estimate of a partition's misses at a way count (15 R348), by a fresh number, the
partition and the way count. -/
opaque missEstimate : Nat → Nat → Nat → Nat

/-- FREE VALUE (log 17): the packages of the pod, as a mask, on which a partition of a partition group exists (04 R105
binds partitions of different packages; how Skolis learns of the others is not described), by a fresh number and the group. -/
opaque groupPeers : Nat → Nat → Nat

/-- FREE VALUE (log 19): the VALUE of a Kweut response whose status leaves it unstated (03 R76, R78), by a fresh number. -/
opaque kweutValue : Nat → Nat

/-- FREE VALUE (log 19): open reduction rounds that a module holds beyond the 4,096 of 03 R83. -/
opaque extraRounds : Nat

/-- FREE VALUE (log 21): the module address of the Runner queue from one package to another (03 R86: Skolis creates it, no rule
says where). -/
opaque runnerQueueAddr : Nat → Nat → Nat

/-- FREE VALUE (log 51): the 256-byte flits (00_scope R9) that a message of so many bytes takes on a pod port (13 R330 counts
flits, and no rule says how messages are packed into them). -/
opaque flitsOf : Nat → Nat

/-- FREE VALUE (log 43): of the vector registers that a word writes in fewer than 64 lanes, how many are expanded first (11 R253
leaves the form of a register open), by a fresh number. -/
opaque expansions : Nat → Nat

/-- FREE VALUE (log 22): the length less 1, below 256, that a LENM1 above 255 gives (12 R291 has 9 bits for the lengths 1 to
256). -/
opaque longLength : Nat → Nat

/-- FREE VALUE (log 9): the quads that the harvest fuses retire (15 R345, R352). -/
opaque harvested : Nat → Bool

/-- FREE VALUE (log 24): the pod's order as the cabling gives it, when it is one of 00_scope R9's designs. -/
opaque podOrder : Nat
/-- FREE VALUE (log 24): this package's number in the pod. -/
opaque podSelf : Nat
/-- FREE VALUE (log 24): the packages of the pod that are disabled (03 R92), as a mask. -/
opaque podDisabled : Nat
/-- FREE VALUE (log 24): the capacity of a partition's logical device on the module of an attachment (03 R389). -/
opaque ldCapacity : Nat → Nat → Nat
/-- FREE VALUE (log 24): bits [63:16] of KRSPBASE of a head of an attachment (03 R77). -/
opaque krspBase : Nat → Nat → Nat

/-- FREE VALUE (log 25): the host physical address at which the host has placed a logical device's HDM decoder (15 R346). -/
opaque hdmBase : Nat → Nat

/-- FREE VALUE (log 25): the bytes under the poison of a refused host read (01 R34), by a fresh number. -/
opaque refusedByte : Nat → Nat → Byte

/-- FREE VALUE (log 28): the save area of a partition that no WSWITCH has named one for (14 R340, 15 R344). -/
opaque saveArea : Nat → Nat

end Sys2Proof.Config
end

