-- ==== Sys2Proof/Machine/State.lean ====
section
/-!
DEFINITION. The state of the machine as plain data: everything spec/ gives the package, and the few fields of the model's
own (which agent moves next, messages under way, a counter of free values). INVENTORY.md lists each with its rule.
-/
namespace Sys2Proof.Machine

/-! ## Memory -/

/-- Memory: byte cells in strictly rising address order, no cell equal to what an unlisted address reads as. -/
abbrev Memory := List Host.Cell

/-- What a byte that nothing has written reads as (DESIGN CHOICE, log 5: zero). -/
def Memory.background : Byte := 0

/-- Strictly rising addresses from `lo` up, and no cell equal to the background. -/
def Memory.wfFrom (lo : Nat) : Memory → Bool
  | [] => true
  | (a, b) :: rest => decide (lo ≤ a) && decide (b ≠ Memory.background) && Memory.wfFrom (a + 1) rest

/-- The canonical form of memory. -/
def Memory.wf (m : Memory) : Bool := Memory.wfFrom 0 m

/-! ## Small names -/

/-- Scopes (04_ordering R103). -/
inductive Scope where
  | wave | core | quad | die | pkg | part | pod
deriving DecidableEq, Repr

/-- Tiers of memory (01_address_spaces R18). -/
inductive Tier where
  | hbm | module | relay | aperture
deriving DecidableEq, Repr

/-- The kind of an access in an error-log record (01_address_spaces R35). -/
inductive AccKind where
  | read | write | atomic | fetch | walk
deriving DecidableEq, Repr

/-- The units of a divergent wave: the true arm (also the converged wave) and the else arm (07_execution R178). -/
inductive Arm where
  | t | e
deriving DecidableEq, Repr

/-- Line states of an L2 (02_on_package_memory R54); an invalid line is not listed. -/
inductive LineState where
  | m | o | e | s
deriving DecidableEq, Repr

/-- A package's permission for a module line (02_on_package_memory R56); none is not listed. -/
inductive Perm where
  | shared | exclusive
deriving DecidableEq, Repr

/-! ## Registers of a wave -/

/-- A vector register: 64 elements and their poison bits (03_pod_memory R97). -/
structure VReg where
  lanes : List Word
  poison : Lanes
deriving DecidableEq, Repr

/-- A predicate register: one bit for each lane, and poison (09_encoding R224). -/
structure PReg where
  bits : Lanes
  poison : Lanes
deriving DecidableEq, Repr

/-- An accumulator slot bound to a wave: 128 × 128 FP32 elements, row by row, and its two bits (13 R307). -/
structure AccSlot where
  slot : Nat
  elems : List Word
  poison : Bool
  faulted : Bool
deriving DecidableEq, Repr

/-- A divergence entry (10 R239, 14 R341). Targets are in packets from CODE. `inElse` says that a serialised entry's else
arm is running (07_execution R179). -/
structure DivEntry where
  trueLanes : Lanes
  elseLanes : Lanes
  brk : Lanes
  elseTarget : Nat
  joinTarget : Nat
  fmt : BitVec 8
  inElse : Bool
deriving DecidableEq, Repr

/-- A call record (10 R236): the return offset from CODE, the frame step and the open entries at the call. -/
structure CallRec where
  ret : Nat
  step : Nat
  ddepth : Nat
deriving DecidableEq, Repr

/-- A pending late error (14 R333): cause, subcode, address. -/
structure LateError where
  cause : Nat
  sub : Nat
  addr : Nat
deriving DecidableEq, Repr

/-- Where a transaction barrier lies (05 R138): its first byte's memory key, the address as the pair gives it, and
whether it lies in the QSP. -/
structure BarrierRef where
  key : Nat
  va : Nat
  qsp : Bool
deriving DecidableEq, Repr

/-- The network instance of a scoped barrier (12 R302): the scope and the core, quad, die, partition group (PART) or
partition (PKG) it belongs to; `part` is 16 in the POD network, which partitions share. -/
structure BarKey where
  scope : Scope
  inst : Nat
  part : Nat
deriving DecidableEq, Repr

/-- What a unit waits for. In a walk or a translation fault the pc stays at the word, which issues again; in every other
wait it already names the next word. -/
inductive Wait where
  /-- Nothing: the unit can issue. -/
  | none
  /-- SLEEPUNTIL of CYC[47:0] value `t` (10 R245). -/
  | sleepUntil (t : Nat)
  /-- WAITLINE on the line of memory key `line`; `deadline` 0 means no timeout; `woken` by an event of the line (R246). -/
  | line (line : Nat) (deadline : Nat) (woken : Bool)
  /-- NQWAIT on the descriptor at `desc` into s(sd); asleep since `began`; `woken` by an advance of TAIL (12 R296, R297). -/
  | nq (desc : Nat) (sd : Nat) (deadline : Nat) (began : Nat) (woken : Bool)
  /-- GATETAKE of a handle into s(sd) (12 R305); `wordAt` is the offset that a Gate Fault on a retry names (15 R351), its pair's
  first word's when `second` (09 R206). -/
  | gate (handle : Nat) (sd : Nat) (deadline : Nat) (began : Nat) (woken : Bool) (wordAt : Nat) (second : Bool)
  /-- TBWAIT on a barrier for a phase (12 R299); `wordAt` and `second` as in `gate`. -/
  | tbar (b : BarrierRef) (phase : Nat) (scope : Scope) (wordAt : Nat) (second : Bool)
  /-- BARWAIT or BARSYNC on a generation (12 R302). -/
  | bar (k : BarKey) (id : Nat) (gen : Nat) (scope : Scope)
  /-- Parked at a translation fault with a tag (01_address_spaces R38): the page's address, ASID, subcode, level and kind;
  `posted` once the event has been queued; `answer` 0 none, 1 REPLAY recorded, 2 FATAL recorded while saved (14 R337); the
word that a fatal trap names, and whether it is the second of its pair. -/
  | fault (ftag : Nat) (va : Nat) (asid : Nat) (sub : Nat) (kind : AccKind) (posted : Bool) (answer : Nat) (wordAt : Nat)
      (second : Bool)
  /-- Waits for walks of 4 KiB pages (01_address_spaces R30). -/
  | walk (pages : List Nat)
  /-- Waits for one of its outstanding operations, which orders later accesses (04_ordering R107). -/
  | op (id : Nat)
  /-- The spill engine is at work, and the wave does not issue (10 R236). -/
  | spill
deriving DecidableEq, Repr

/-- A fetched packet: its offset from CODE, its four words and whether any byte was poisoned (09_encoding R205). -/
structure FetchedPacket where
  off : Nat
  words : List Word
  poison : Bool
deriving DecidableEq, Repr

/-- How a walk was refused (01_address_spaces R33): the 4 KiB page, the subcode and the level; `ras` for the page of the RAS
registers, whose undecoded addresses have a subcode of their own (R18). -/
structure WalkRefusal where
  page : Nat
  sub : Nat
  level : Nat
  ras : Bool
deriving DecidableEq, Repr

/-- A piece of a table in a relay window as its serving peer has answered (01 R21): its first byte's key, its bytes as a number, and
a mask of the poisoned ones. -/
structure TableRead where
  key : Nat
  size : Nat
  val : Nat
  bad : Nat
deriving DecidableEq, Repr

/-- One issuing unit of a wave (07_execution R178): pc as a byte offset from CODE, active lanes, FMT, the divergence
entries (innermost first, the outermost divergence's last, with at most 8 of the arm's own above it in hardware) with the
count and running arm of those in the spill area (10 R234). `looked` once the word at the pc has counted its lookups (20
R385); `atBank` while it presents a barrier of the QSP to its bank: the barrier's key, and since when (02 R44, 05 R138); `hidden` lists the registers of a wait's result that a later word has written (07 R180); `skip` is the offset of a chained pair's
first word whose second, which had to wait, has performed before it (09 R206); `table` what the word at the pc has read of a table in a
relay window (01 R21). -/
structure UnitSt where
  pc : Nat
  mask : Lanes
  fmt : BitVec 8
  entries : List DivEntry
  spilled : List Bool
  atJoin : Bool
  wait : Wait
  ibuf : Option FetchedPacket
  refusals : List WalkRefusal
  lastIssue : Nat
  ready : Nat
  yielded : Bool
  looked : Bool
  atBank : Option (Nat × Nat)
  hidden : List Nat
  skip : Option Nat
  table : List TableRead
deriving DecidableEq, Repr

/-! ## Outstanding operations -/

/-- What one part of an operation does to memory. -/
inductive PartAct where
  /-- Read `n` bytes. -/
  | read
  /-- Write the value. -/
  | write (val : Nat)
  /-- The atomic operation of 12 R281 with operands A and B. -/
  | atomic (op : Nat) (a : Nat) (b : Nat)
  /-- Fill the sector into the L2, and with `l1` into the quad's L1 (12 R285). -/
  | prefetch (l1 : Bool)
deriving DecidableEq, Repr

/-- Who serves one part of an operation. -/
inductive Route where
  /-- The quad and its L2 path, when ownership and permission allow. -/
  | cache
  /-- The QSP bank of the key (02 R43). -/
  | qsp (bank : Nat)
  /-- The L2 atomic unit of the line's home slice (02 R58). -/
  | atomicUnit
  /-- A gather packet to a die (02 R66). -/
  | gather (die : Nat)
  /-- The Runner, as a relayed access (03 R85). -/
  | runner
deriving DecidableEq, Repr

/-- One lane's share of an operation: memory key, bytes, what it does, who serves it, and the result once done. `nt` is the
non-temporal hint, `col` the column orientation of a QSP access; `na` the page's NA, which `noAlloc` adds SCATTER to (12 R280). -/
structure OpPart where
  lane : Nat
  key : Nat
  va : Nat
  size : Nat
  act : PartAct
  route : Route
  age : Nat
  noAlloc : Bool
  na : Bool
  nt : Bool
  col : Bool
  done : Bool
  val : Nat
  poison : Bool
deriving DecidableEq, Repr

/-- Where an operation's results go when it completes. -/
inductive Dest where
  | none
  /-- v(vd), or v(vd), v(vd + 1) for 64 bits; logical register `base` = WINBASE + vd at issue. -/
  | vec (base : Nat) (wide : Bool)
  /-- s(sd), or the pair. -/
  | uni (sd : Nat) (wide : Bool)
  /-- s(sd) := status, s(sd + 1) := VALUE of a Kweut response; the entry or result into v. `kind` is the OP of R76. -/
  | kweut (kind : Nat) (sd : Nat) (base : Nat) (wide : Bool)
  /-- The bytes of an RRD into logical register `base`. -/
  | bytes (base : Nat) (len : Nat)
  /-- The old value of an RATOM into lanes 0 (and 1). -/
  | ratom (base : Nat) (wide : Bool)
  /-- The `table` of the unit that reads it (01 R21). -/
  | table
deriving DecidableEq, Repr

/-- The kind of an outstanding operation (07_execution R165). -/
inductive OpKind where
  | load | store | atomic | cache | row | service | rwri | rrd | ratom | aperture | barrier
deriving DecidableEq, Repr

/-- One outstanding memory operation of a wave (07_execution R165): it counts in OUTST until it completes. `acquire` is
the scope of an acquire it still owes (04 R107). `port` and `ktag` name a Kweut request (03 R76). `shared` when the wave was
converged at issue, or has been since, so that both arms wait for it (07 R180). `hidden` lists the registers of its result that
a later word has written, whose write remains (07 R180). `word` is its instruction word, `slot` the issue slot it came from (02 R44);
`left` once it has left the quad at a world switch, when it counts in OUTST no more (14 R338). -/
structure PendOp where
  id : Nat
  arm : Arm
  shared : Bool
  kind : OpKind
  pc : Nat
  scope : Scope
  acquire : Bool
  parts : List OpPart
  dest : Dest
  att : Nat
  port : Nat
  ktag : Nat
  sent : Nat
  answered : Bool
  data : List Byte
  dataPoison : Nat
  status : Nat
  value : Nat
  hidden : List Nat
  word : Nat
  slot : Nat
  left : Bool
deriving DecidableEq, Repr

/-- A memory operation withdrawn at a world switch (14 R338, R341): the die and channel of an aperture store, or none for a barrier
word held behind one; the operation of the store, which stays outstanding (05 R148); its arm, its data, its address, its word's
offset and the word, and whether its doorbell was malformed. -/
structure Withdrawn where
  op : Nat
  door : Option (Nat × Nat)
  arm : Arm
  data : Nat
  va : Nat
  pc : Nat
  word : Nat
  bad : Bool
deriving DecidableEq, Repr

/-- How a wave stands (07_execution R171, R188; 14 R331). -/
inductive WaveStatus where
  | running | halted | killed
deriving DecidableEq, Repr

/-- The handler state (14 R331, R334): the trapping unit, the entries open when it was entered, the
wait that a trap interrupted, which goes on after the RTE, and the trapping unit's `skip`. -/
structure HandlerSt where
  arm : Arm
  depth : Nat
  wait : Wait
  skip : Option Nat
deriving DecidableEq, Repr

/-- A resident (or saved) wave. -/
structure Wave where
  seq : Nat
  wid : Nat
  part : Nat
  core : Nat
  place : Nat
  status : WaveStatus
  saved : Bool
  started : Bool
  ctx : Option Nat
  parkedAt : Nat
  readyAt : Nat
  ctxAt : Nat
  vregs : List VReg
  lo : Nat
  winBase : Nat
  sregs : Vector Word 64
  spoison : Lanes
  pregs : Vector PReg 64
  qregs : BitVec 8
  qpoison : BitVec 8
  tiles : Vector (BitVec 128) 16
  accs : List AccSlot
  fpFlags : BitVec 5
  trapCause : Word
  trapAddr : DWord
  trapPc : Word
  trapBase : Word
  savedFmt : BitVec 8
  handler : Option HandlerSt
  bucket : Word
  bounds : List Word
  phaseVar : Word
  phaseStart : Nat
  cycCapture : DWord
  progress : Nat
  watchdogFired : Bool
  missed : Option Nat
  late : List LateError
  calls : List CallRec
  spilledCalls : Nat
  callArm : Option (Arm × Nat)
  spillBase : Nat
  spillSize : Nat
  spillPoison : List (Nat × Lanes)
  haltedLanes : Lanes
  divergent : Bool
  unitT : UnitSt
  unitE : UnitSt
  pend : List PendOp
  nextOp : Nat
  withdrawn : List Withdrawn
  dbgStop : Bool
  dbgStep : Option (Option Arm)
deriving DecidableEq, Repr

/-- A launch (07_execution R168): its record's fields, the first bank of its QSP window on each quad it uses. -/
structure Launch where
  seq : Nat
  part : Nat
  asid : Nat
  code : Nat
  slices : Nat
  nwaves : Nat
  vstack : Nat
  acc : Nat
  qsp : Nat
  prio : Nat
  dtab : Nat
  args : List Word
  windows : List (Nat × Nat)
deriving DecidableEq, Repr

/-! ## Translation and caches -/

/-- Who holds a translation (01_address_spaces R29). -/
inductive TlbPlace where
  | core (c : Nat)
  | quad (q : Nat)
  | ladle (die ch : Nat)
  | runner
deriving DecidableEq, Repr

/-- A translation (01_address_spaces R24, R29): the first 4 KiB page and the count of 4 KiB pages it covers. -/
structure TlbEntry where
  place : TlbPlace
  part : Nat
  asid : Nat
  page : Nat
  pages : Nat
  frame : Nat
  w : Bool
  x : Bool
  na : Bool
  tier : Tier
deriving DecidableEq, Repr

/-- A table entry that a die's walk cache holds: the physical address of the entry and its value (01 R28, R29). -/
structure WalkCacheEntry where
  die : Nat
  part : Nat
  asid : Nat
  addr : Nat
  val : Nat
deriving DecidableEq, Repr

/-- Who asked for a walk (01_address_spaces R29, R30): a unit of a wave, with its core; a Ladle channel for the doorbell at its
head; a stream of the Runner for the request in its hand. -/
inductive WalkClient where
  | wave (seq wid : Nat) (arm : Arm) (core : Nat)
  | chan (die ch : Nat)
  | runner (c : CtxId) (stream : Nat)
deriving DecidableEq, Repr

/-- A walk, in flight once it has started (01_address_spaces R30); the Runner's walker is numbered 8, after the dies'. -/
structure Walk where
  die : Nat
  part : Nat
  asid : Nat
  page : Nat
  started : Bool
  root : Nat
  clients : List WalkClient
deriving DecidableEq, Repr

/-- A packet in a quad's instruction cache (09_encoding R225). -/
structure ICacheEntry where
  quad : Nat
  key : Nat
  words : List Word
  poison : Bool
deriving DecidableEq, Repr

/-- A sector of an L1 line (02 R47): valid, its bytes, which are present and which dirty, and poison. -/
structure L1Sector where
  valid : Bool
  data : List Byte
  present : Lanes
  dirty : Lanes
  poison : Bool
deriving DecidableEq, Repr

/-- A line of a quad's L1 (02 R47), `key` its first byte's memory key, `part` the partition that filled it. -/
structure L1Line where
  quad : Nat
  key : Nat
  part : Nat
  s0 : L1Sector
  s1 : L1Sector
deriving DecidableEq, Repr

/-- An entry of a quad's write queue (02 R49): one sector's bytes and byte mask. -/
structure WqEntry where
  quad : Nat
  key : Nat
  part : Nat
  nt : Bool
  data : List Byte
  mask : Lanes
deriving DecidableEq, Repr

/-- A line of a die's L2 (02 R52, R54); its sectors are valid, and dirty with respect to memory, each by itself (00 R4). -/
structure L2Line where
  die : Nat
  key : Nat
  state : LineState
  tag : Nat
  way : Nat
  valid0 : Bool
  valid1 : Bool
  dirty0 : Bool
  dirty1 : Bool
deriving DecidableEq, Repr

/-- A fill of a sector on its way to a die's L2, from the lookup that missed to its arrival, and the partition that the line's
tag will name (02 R52, 20 R385). -/
structure Fill where
  die : Nat
  sector : Nat
  tag : Nat
deriving DecidableEq, Repr

/-- The package's permission for a module line (02 R53, R56). -/
structure PermEntry where
  key : Nat
  perm : Perm
deriving DecidableEq, Repr

/-- A request outstanding to a module for a line (02 R56, R57): since `sent`; a snoop that met it waits in `snoop`
(0 none, 1 BISnpInv, 2 BISnpData). -/
structure MemReq where
  key : Nat
  kind : MemKind
  die : Nat
  part : Nat
  sent : Nat
  snoop : Nat
deriving DecidableEq, Repr

/-- A back-invalidation snoop with lines of its block left to apply (02 R57): its first line, the next to apply, how many are
left; `inv` for BISnpInv; `held` while its next line waits for a request of the package to the module. -/
structure Snoop where
  module : Nat
  first : Nat
  next : Nat
  left : Nat
  block : Bool
  inv : Bool
  held : Bool
deriving DecidableEq, Repr

/-- An answer of the package to a snoop (02 R57): BIRspI when `inv`, else BIRspS; one for a whole block when `block`. -/
structure SnoopAnswer where
  module : Nat
  line : Nat
  block : Bool
  inv : Bool
deriving DecidableEq, Repr

/-- An operation waiting at an L2 atomic unit (02 R58): a remote one has no wave; `order` is its arrival, `na` its
page's NA. -/
structure AtomReq where
  key : Nat
  size : Nat
  op : Nat
  a : Nat
  b : Nat
  order : Nat
  na : Bool
  packet : Packet
deriving DecidableEq, Repr

/-- A bank's hold slot (02 R62, R63): GEN, and the hold if there is one; `lastPart` and `dropped` for ROWQRY (12 R288). -/
structure RowSlot where
  stack : Nat
  bank : Nat
  gen : Nat
  held : Bool
  part : Nat
  row : Nat
  recorded : Bool
  dropped : Bool
deriving DecidableEq, Repr

/-- A stack's link and RAS registers (02 R68, R70). -/
structure StackLink where
  down : Bool
  retraining : Bool
  replays : Nat
  failedRetrains : Nat
  retrainCount : Nat
  replayCount : Nat
  corr : Nat
  uncorr : Nat
  addr : Nat
deriving DecidableEq, Repr

/-! ## Engines -/

/-- The operations of the Crucible engine (07_execution R185). -/
inductive EngOp where
  | mloop | mstep | mdrain | mzero | mload
deriving DecidableEq, Repr

/-- A reservation-table entry (07_execution R185, 14 R341): the captured descriptors, word fields, literal and FMT.SAT; the
captured registers of an MSTEP in `regs`; `id` tells entries of a table apart. -/
structure EngEntry where
  seq : Nat
  wid : Nat
  acc : Nat
  op : EngOp
  d1 : BitVec 128
  d2 : BitVec 128
  word : Nat
  lit : Word
  remaining : Nat
  nextStep : Nat
  sat : Bool
  regs : List Byte
  prio : Nat
  age : Nat
  lastGrant : Nat
  granted : Bool
  id : Nat
deriving DecidableEq, Repr

/-- A segment that the engine presents to a bank (02 R43, R44, R46): its requester class, the group it is presented with, its
first byte's key (of the top row for a column), its mode, and for a write its bytes and their mask. -/
structure EngSeg where
  cls : Nat
  turn : Nat
  key : Nat
  col : Bool
  write : Option (List Byte × Lanes)
deriving DecidableEq, Repr

/-- A segment as a bank gave it to the engine: its 64 bytes, and the key of the first poisoned one. -/
structure SegData where
  key : Nat
  col : Bool
  data : List Byte
  bad : Option Nat
deriving DecidableEq, Repr

/-- A quad's engine (07_execution R186): its table, oldest entry first, one of which may be the granted one; whether its pass
is running, and the consecutive K-steps it has run; the segments of the pass that the banks have not served, since when the
group at their head is presented, and what the banks have given it (02 R43, R46). -/
structure Engine where
  quad : Nat
  entries : List EngEntry
  running : Bool
  stepsRun : Nat
  nextId : Nat
  segs : List EngSeg
  since : Nat
  got : List SegData
deriving DecidableEq, Repr

/-- A doorbell waiting at a Ladle channel (05 R129, R133): the wave's operation, the descriptor, DOOR's virtual address; the
translations that the channel has gathered for it and those that were refused (01 R30); the QSP barrier to whose
bank its acceptance is presented, and since when (05 R138). -/
structure Doorbell where
  seq : Nat
  wid : Nat
  op : Nat
  desc : Nat
  va : Nat
  malformed : Bool
  pages : List TlbEntry
  refusals : List WalkRefusal
  presented : Option (Nat × Nat)
deriving DecidableEq, Repr

/-- How far a sector of a copy is that reads or writes the QSP (02 R44, 05 R132): presented for its read, read with the poison of
its bytes, presented for its write, or written. -/
inductive MoveSt where
  | reading (age : Nat)
  | held (data : List Byte) (bad : Nat)
  | writing (age : Nat) (data : List Byte) (bad : Nat)
  | written
deriving DecidableEq, Repr

/-- A sector under way between its source and its destination. -/
structure Move where
  src : Nat
  dst : Nat
  st : MoveSt
deriving DecidableEq, Repr

/-- An accepted copy with sectors unlanded (05 R133): the barrier, DOOR's virtual address, the sectors still to land, as
(source key, destination key), the promise, the CYC of acceptance, and whether its loss of a destination has been reported
(05 R137); the sectors under way, the lands presented to the bank of a QSP barrier (since when, how many sectors), and the
modules lost since the acceptance while the channel owned lines of them. -/
structure Copy where
  seq : Nat
  wid : Nat
  part : Nat
  barrier : Option BarrierRef
  door : Nat
  sectors : List (Nat × Nat)
  promise : Nat
  accepted : Nat
  lost : Bool
  moves : List Move
  lands : List (Nat × Nat)
  lostMods : List Nat
deriving DecidableEq, Repr

/-- A Ladle channel (05 R128, R135): TMPL0-31, LASTERR, waiting doorbells, accepted copies. -/
structure Chan where
  die : Nat
  ch : Nat
  tmpl : List (BitVec 512)
  lastErr : Nat
  doors : List Doorbell
  copies : List Copy
deriving DecidableEq, Repr

/-- A scoped barrier (12 R302): generation, latched count, arrival total. -/
structure Bar where
  key : BarKey
  id : Nat
  gen : Nat
  count : Nat
  total : Nat
deriving DecidableEq, Repr

/-- A gate's state (15 R349). -/
inductive GateState where
  | live | frozen | exported
deriving DecidableEq, Repr

/-- A gate index's object (15 R349); `used` while the index holds a gate. -/
structure Gate where
  index : Nat
  used : Bool
  gen : Nat
  counter : Nat
  state : GateState
  acl : BitVec 32
  burst : Nat
  rate : Nat
  tokens : Nat
  lastFill : Nat
deriving DecidableEq, Repr

/-! ## The pod -/

/-- An attachment of this package (00_scope R9, 03 R72): whether it has been verified, its ports' state, KRSPBASE of
each head, the capacity a partition's logical device has at the module, and that capacity when Skolis last read it (R389). -/
structure Att where
  verified : Bool
  portsUp : List Bool
  krspBase : List Nat
  fabricCap : List Nat
  readCap : List Nat
deriving DecidableEq, Repr

/-- An open reduction round at a module (03 R82, R83): the logical device of its first contribution, the round's GEN, whether the
last closed round was broken, the latched header and the contributions by lead head. -/
structure Round where
  module : Nat
  ld : Nat
  cell : Nat
  gen : Nat
  broken : Bool
  op : Nat
  fmt : Nat
  nelem : Nat
  mask : Nat
  arrived : List (Nat × List Byte)
deriving DecidableEq, Repr

/-- Lines that head groups of other packages hold any-exclusive at a module, as the module records (03 R74, R75). -/
structure ModHolder where
  module : Nat
  line : Nat
  lead : Nat
  exclusive : Bool
deriving DecidableEq, Repr

/-- A request a Runner has sent and that is not acknowledged (03 R89): the packet, and the wave's operation. -/
structure Unacked where
  packet : Packet
  seq : Nat
  wid : Nat
  op : Nat
  lane : Nat
deriving DecidableEq, Repr

/-- One stream of a relay context (03 R88, R89). As a sender: the next sequence number, the highest acknowledged, whether a
FAULT holds it, what is unacknowledged and what waits unsent, the time and sequence of a busy NAK. As a receiver: the next
sequence expected, frozen, the last 256 responses, the time (plus one; 0 for none) of the first acceptance not yet
acknowledged, the sequence and time of the last NAK, the refused request, its fault tag and its subcode; the accepted request
that waits for a walk of the Runner, and the refusals of such walks (01 R30). -/
structure Stream where
  next : Nat
  acked : Nat
  held : Bool
  unacked : List Unacked
  waiting : List Unacked
  busyAt : Option Nat
  busySeq : Nat
  expected : Nat
  frozen : Bool
  responses : List Packet
  ackDue : Nat
  lastNak : Option Nat
  nakAt : Nat
  faultPacket : Option Packet
  faultTag : Nat
  faultSub : Nat
  inHand : Option Packet
  refusals : List WalkRefusal
deriving DecidableEq, Repr

/-- A relay context (03 R88); `spilled` while it stands in the backing table at entry `slot`, `wanted` when it is to be
fetched back. -/
structure Rctx where
  id : CtxId
  streams : List Stream
  spilled : Bool
  wanted : Bool
  slot : Option Nat
  lastUse : Nat
deriving DecidableEq, Repr

/-- A packet in the Runner's send buffer (03 R86), for the queue of package `via`: not put before `notBefore`; the entries of
it still to be put (R87). -/
structure Sending where
  via : Nat
  packet : Packet
  notBefore : Nat
  left : Nat
deriving DecidableEq, Repr

/-- The package in its pod (00_scope R9, R10; 03 R92). -/
structure Pod where
  order : Option Nat
  groups : List Nat
  self : Nat
  disabled : Nat
  atts : List Att
  rlyTimeout : Nat
  modTimeout : Nat
  lastPacket : List (Nat × Nat)
  privilege : Option Nat
deriving DecidableEq, Repr

/-- A request of the Runner to a module (03 R76, R86): its attachment, port and tag, the package whose queue it is (of a put,
that receives; of a get, that sends), and when it was sent. -/
structure RTag where
  att : Nat
  port : Nat
  tag : Nat
  peer : Nat
  get : Bool
  sent : Nat
deriving DecidableEq, Repr

/-- An incoming Runner queue, as the pair's common module holds it (03 R86), oldest entry first, and what this Runner does with
it: it holds the tail line in shared permission, a doorbell has rung that it has yet to answer, and the entries of a packet that it
has taken so far (R87). -/
structure RQueue where
  peer : Nat
  entries : List (List Byte)
  tailShared : Bool
  bell : Bool
  taken : List (List Byte)
deriving DecidableEq, Repr

/-- The Runner (03 R85 to R89): contexts, send buffer, the requests outstanding at modules, and its incoming queues. -/
structure Runner where
  ctxs : List Rctx
  sending : List Sending
  tags : List RTag
  queues : List RQueue
deriving DecidableEq, Repr

/-! ## Partitions and the host -/

/-- A performance counter (13 R327). -/
structure Counter where
  value : Nat
  event : Nat
  en : Bool
  ie : Bool
  ovf : Bool
deriving DecidableEq, Repr

/-- An addition under way to the counters of a partition that a mask names (13 R327), since it was charged. -/
structure Charge where
  part : Nat
  mask : Nat
  n : Nat
  since : Nat
deriving DecidableEq, Repr

/-- A region grant (01 R31, R32): revoked ones stay until no request they let through remains, with the REGREVOKE that is
then answered. -/
structure Grant where
  idx : Nat
  asid : Nat
  base : Nat
  len : Nat
  rights : Nat
  peers : Nat
  revoked : Bool
  revoker : Option Cmd
deriving DecidableEq, Repr

/-- A host-queue event record (15 R357): TYPE, the launch sequence, CYC and bytes 16-63. -/
structure Event where
  type : Nat
  seq : Nat
  cyc : Nat
  body : List Byte
deriving DecidableEq, Repr

/-- An L2 way's allotment of a partition on a die (15 R348). -/
structure WayLimit where
  die : Nat
  floor : Nat
  ceil : Nat
deriving DecidableEq, Repr

/-- Which partition owns each of the 16 ways of a die's L2 (15 R348), 16 for none; of one slice, or of every slice that has
no row of its own; and the period of 2^20 cycles of the slice's last move. -/
structure WayRow where
  die : Nat
  slice : Option Nat
  owners : List Nat
  moved : Option Nat
deriving DecidableEq, Repr

/-- A module line that a die holds dirty (02 R54): the 128 bytes that the module itself holds beneath, and whether they
are poisoned there. -/
structure StaleLine where
  key : Nat
  data : List Byte
  poison : Bool
deriving DecidableEq, Repr

/-- A partition (15 R344, R358) with its register page (01 R26, 03 R88, 10 R234); while it is saved, what a restore takes, its save
area with the area's size in 64 KiB units and the CYC of the save (14 R340), and `resave` while something saved has changed since the
area was written. -/
structure Part where
  num : Nat
  sliceMask : Nat
  ld : Option Nat
  asidCount : Nat
  quantum : Nat
  holdDrop : Bool
  watchdog : Nat
  ways : List WayLimit
  quotas : List Nat
  ranges : List (Nat × Nat × Nat)
  group : Nat
  peerGroups : List Nat
  dead : Nat
  windowLimit : List Nat
  xltBase : Nat
  xltInvaVa : Nat
  xltGo : Bool
  xltErr : Bool
  xltAsid : Nat
  xltSize : Nat
  xltKind : Nat
  ctxBase : Nat
  ctxSize : Nat
  ctxSizeNext : Option Nat
  nqBase : Nat
  spillBase : Nat
  spillSize : Nat
  elBase : Option Nat
  elLog2 : Nat
  dropped : Nat
  hqBase : Option Nat
  events : List Event
  counters : Vector Counter 16
  grants : List Grant
  debug : Bool
  stoppedCores : List Nat
  savedTmpl : List Chan
  savedEng : List EngEntry
  savedQsp : List (Nat × Nat × Nat)
  saveArea : Option Nat
  areaUnits : Nat
  savedAt : Nat
  resave : Bool
deriving DecidableEq, Repr

/-- A mailbox (15 R356): its registers, the last response it wrote (tag, status, results), and the responses that wait for one
of an earlier command, as (command number, record). -/
structure Mbox where
  num : Nat
  cmdBase : Nat
  rspBase : Nat
  en : Bool
  log2n : Nat
  tail : Nat
  head : Nat
  rtail : Nat
  hqHead : Nat
  hqTail : Nat
  elHead : Nat
  elTail : Nat
  last : Option (Nat × Nat × List Byte)
  held : List (Nat × List Byte)
deriving DecidableEq, Repr

/-- A logical device of the host port (15 R346, R347); the host enables CXL.cache for it and assigns its CacheID. -/
structure LogDev where
  num : Nat
  bound : Bool
  cacheEnabled : Bool
  cacheId : Nat
  allocation : Nat
  qos : Nat
deriving DecidableEq, Repr

/-- A slice set (15 R344): its slices, its partitions in rotation order, the one that holds it and since when. -/
structure SliceSet where
  num : Nat
  slices : Nat
  members : List Nat
  holder : Option Nat
  since : Nat
deriving DecidableEq, Repr

/-- A world switch under way (14 R338). `cmd` is the WSWITCH that started it, if one did. -/
structure Switch where
  set : Nat
  out : Nat
  inn : Option Nat
  saveOut : Nat
  saveIn : Nat
  cmd : Option Cmd
deriving DecidableEq, Repr

/-- The package's own state (15 R352 to R360). -/
structure Dev where
  running : Bool
  stage : Nat
  failing : Nat
  failDie : Nat
  retired : List Nat
  offered : BitVec 64
  accepted : BitVec 64
  committed : Bool
  measures : List (BitVec 512)
  throttle : List Nat
  off : Bool
  tripped : Bool
deriving DecidableEq, Repr

/-! ## The machine -/

/-- What comes from outside the package and is no row of the opcode table (log 48): errors in arrays, memories and registers
(02 R69 to R71), the bytes that another package has stored at a module (03 R74), arrivals of other packages at a scoped barrier
(12 R302), a module's notice that a head group is back (03 R96), the host's digests for the measurement registers 6 and 7 (15
R359), and the host's choice of CXL.cache for a logical device (15 R347). -/
inductive Outside where
  | arrayCorrected (key : Nat)
  | arrayUncorrectable (key : Nat)
  | qspSoft (key : Nat) (fatal : Bool)
  | l1Soft (quad key : Nat) (fatal : Bool)
  | l2Soft (die key : Nat) (fatal : Bool)
  | tagSoft (die key : Nat) (fatal : Bool)
  | vregSoft (seq wid reg lane : Nat) (fatal : Bool)
  | moduleStore (module addr lead : Nat) (data : List Byte)
  | barArrive (k : BarKey) (id n : Nat)
  | headGroupBack (module lead : Nat)
  | hostDigest (reg digest : Nat)
  | hostCache (ld : Nat) (enable : Bool) (cacheId : Nat)
deriving DecidableEq, Repr

/-- Who moves next (the model's own, log 1). -/
inductive Turn where
  /-- A unit of a wave issues its next word or chained pair. -/
  | unit (seq wid : Nat) (arm : Arm)
  /-- An event of another agent, or from outside the package. -/
  | event (c : Call)
  /-- The k-th message under way is delivered. -/
  | message (k : Nat)
  /-- Something happens outside the package that no row of the table names. -/
  | outside (x : Outside)
deriving DecidableEq, Repr

/-- What step has latched for exec of a word: the wave, the unit, the offset of the packet from CODE, the word's index,
the packet's literal, whether it is the second word of a chained pair, and the first word's offset. The flags say what the
word did: trapped, or stalled without an effect. -/
structure Issue where
  seq : Nat
  wid : Nat
  arm : Arm
  off : Nat
  idx : Nat
  lit : Word
  second : Bool
  trapped : Bool
  stalled : Bool
deriving DecidableEq, Repr

/-- The state of the machine. `snoopAnswers` are those of the last step that applied a snoop. `softErrors` counts the corrections and the poisonings of each error class of 02 R71: the QSP,
L1 data, L2 data, L2 tags and directory, vector registers. -/
structure State where
  cyc : BitVec 64
  free : Nat
  turn : List Turn
  agenda : List Call
  issue : Option Issue
  call : Call
  dev : Dev
  parts : List Part
  sets : List SliceSet
  switches : List Switch
  launches : List Launch
  waves : List Wave
  nextSeq : Nat
  nextTag : Nat
  mem : Memory
  poison : List Nat
  stale : List StaleLine
  l1 : List L1Line
  wq : List WqEntry
  l2 : List L2Line
  fills : List Fill
  ways : List WayRow
  perms : List PermEntry
  memReqs : List MemReq
  snoops : List Snoop
  snoopAnswers : List SnoopAnswer
  tlb : List TlbEntry
  walkCache : List WalkCacheEntry
  walks : List Walk
  icache : List ICacheEntry
  atomQ : List AtomReq
  rows : List RowSlot
  links : List StackLink
  charges : List Charge
  softErrors : List (Nat × Nat)
  engines : List Engine
  chans : List Chan
  bars : List Bar
  gates : List Gate
  pod : Pod
  rounds : List Round
  holders : List ModHolder
  lostHeads : List (Nat × Nat)
  runner : Runner
  mboxes : List Mbox
  lds : List LogDev
  fabricAnswer : List Byte
  hostAnswer : List Byte
  hostPoison : Nat
  msix : List (Nat × Nat)
deriving DecidableEq, Repr

/-! ## How a step can stop -/

/-- The faults of the machine. No instruction of the spec stops the machine: traps and refusals of accesses are next
states. -/
inductive Fault where
  /-- Raised by exec of a word when step has latched no issuing wave (the outside asked for a word without a wave to
  issue it). SAFE: a word has no meaning without its wave, and step never asks for one. -/
  | noIssuingUnit
deriving DecidableEq, Repr

/-- The refusals of the machine. -/
inductive Refusal where
  /-- An instruction whose meaning is not written yet, by its mnemonic. SAFE. -/
  | notModelled (mnemonic : String)
  /-- A turn named a term that stands for no instruction (Instr.wf fails). SAFE: nothing such can be asked of the
  hardware. -/
  | illFormed
deriving DecidableEq, Repr

/-! ## Reset -/

/-- A unit with nothing in it. -/
def UnitSt.empty : UnitSt :=
  { pc := 0, mask := 0, fmt := 0, entries := [], spilled := [], atJoin := false, wait := .none, ibuf := none,
    refusals := [], lastIssue := 0, ready := 0, yielded := false, looked := false, atBank := none, hidden := [],
    skip := none, table := [] }

/-- A stack's link right after reset: up, its counts zero (02 R70). -/
def StackLink.reset : StackLink :=
  { down := false, retraining := false, replays := 0, failedRetrains := 0, retrainCount := 0, replayCount := 0,
    corr := 0, uncorr := 0, addr := 0 }

/-- A mailbox right after reset (log 4: zero). -/
def Mbox.reset (n : Nat) : Mbox :=
  { num := n, cmdBase := 0, rspBase := 0, en := false, log2n := 0, tail := 0, head := 0, rtail := 0, hqHead := 0,
    hqTail := 0, elHead := 0, elTail := 0, last := none, held := [] }

/-- A logical device right after reset: unbound (15 R346). -/
def LogDev.reset (n : Nat) : LogDev :=
  { num := n, bound := false, cacheEnabled := false, cacheId := 0, allocation := 0, qos := 0 }

/-- The package right after reset release: before stage 1, nothing offered or committed, the measurement registers zero
(15 R352, R353, R359). -/
def Dev.reset : Dev :=
  { running := false, stage := 0, failing := 0, failDie := 0xFF, retired := [], offered := 0, accepted := 0, committed := false,
    measures := List.replicate 8 0, throttle := List.replicate 8 0, off := false, tripped := false }

/-- The pod before it is configured: no order, no attachment; the timeouts at their defaults (03 R92). -/
def Pod.reset : Pod :=
  { order := none, groups := [], self := 0, disabled := 0, atts := [], rlyTimeout := 2 ^ 24, modTimeout := 2 ^ 22, lastPacket := [],
    privilege := none }

/-- The machine right after reset (15 R352): Skolis has not begun stage 1; no partition, launch or wave exists. -/
def State.reset : State :=
  { cyc := 0, free := 0, turn := [], agenda := [], issue := none, call := .none, dev := Dev.reset, parts := [], sets := [],
    switches := [], launches := [], waves := [], nextSeq := 1, nextTag := 1, mem := [], poison := [], stale := [],
    l1 := [], wq := [], l2 := [], fills := [], ways := [], perms := [], memReqs := [], snoops := [], snoopAnswers := [], tlb := [], walkCache := [], walks := [], icache := [],
    atomQ := [], rows := [], links := List.replicate 8 StackLink.reset, charges := [],
    softErrors := List.replicate 5 (0, 0), engines := [], chans := [], bars := [],
    gates := [], pod := Pod.reset, rounds := [], holders := [], lostHeads := [],
    runner := { ctxs := [], sending := [], tags := [], queues := [] },
    mboxes := (List.range 17).map Mbox.reset, lds := (List.range 16).map LogDev.reset, fabricAnswer := [], hostAnswer := [],
    hostPoison := 0,
    msix := [] }

end Sys2Proof.Machine
end

