-- ==== Sys2Proof/Machine/Mem.lean ====
section
/-!
DEFINITION. Memory operations: one byte, several bytes, little-endian numbers, and poison marks. Every byte of the
package, of the modules and of host memory has one key.
-/
namespace Sys2Proof.Machine

/-- The byte at an address. -/
def Memory.read : Memory → Nat → Byte
  | [], _ => Memory.background
  | (k, b) :: rest, a => if k < a then Memory.read rest a else if k = a then b else Memory.background

/-- A cell in front of a memory whose addresses are all above it. -/
def Memory.cons (a : Nat) (b : Byte) (m : Memory) : Memory :=
  if b = Memory.background then m else (a, b) :: m

/-- Memory with the byte at an address written. -/
def Memory.write : Memory → Nat → Byte → Memory
  | [], a, b => Memory.cons a b []
  | (k, x) :: rest, a, b =>
    if k < a then (k, x) :: Memory.write rest a b
    else if k = a then Memory.cons a b rest
    else Memory.cons a b ((k, x) :: rest)

/-- The `n` bytes from an address up. -/
def Memory.readBytes (m : Memory) (a : Nat) : Nat → List Byte
  | 0 => []
  | n + 1 => m.read a :: Memory.readBytes m (a + 1) n

/-- Memory with bytes written from an address up. -/
def Memory.writeBytes (m : Memory) (a : Nat) : List Byte → Memory
  | [] => m
  | b :: bs => Memory.writeBytes (m.write a b) (a + 1) bs

/-- Memory with the `n` bytes from an address up back at the background. -/
def Memory.clear (m : Memory) (a n : Nat) : Memory := m.filter fun c => c.1 < a || a + n ≤ c.1

/-- The little-endian number in `n` bytes (00_scope R13). -/
def Memory.readNat (m : Memory) (a n : Nat) : Nat := bytesToNat (m.readBytes a n)

/-- Memory with a number written little-endian in `n` bytes (00_scope R13). -/
def Memory.writeNat (m : Memory) (a n x : Nat) : Memory := m.writeBytes a (natToBytes n x)

/-! ## Keys -/

/-- The key of a QSP byte: physical quad and offset (02 R39). A tier 0 byte's key is its physical address. -/
def qspKey (quad off : Nat) : Nat := 2 ^ 60 + quad * 2 ^ 21 + off

/-- The key of a module byte (03 R76). DESIGN CHOICE (log 58): a module's address names one byte, whichever partition's logical device
(R73) it is reached through. -/
def moduleKey (m x : Nat) : Nat := 2 ^ 61 + m * 2 ^ 42 + x

/-- The key of a byte of host memory. -/
def hostKey (a : Nat) : Nat := 2 ^ 65 + a

/-- The byte lies in a QSP. -/
def isQspKey (k : Nat) : Bool := 2 ^ 60 ≤ k && k < 2 ^ 61

/-- The byte lies in a module. -/
def isModuleKey (k : Nat) : Bool := 2 ^ 61 ≤ k && k < 2 ^ 62

/-- The module of a module byte. -/
def keyModule (k : Nat) : Nat := (k - 2 ^ 61) / 2 ^ 42

/-- The module address of a module byte. -/
def keyOffset (k : Nat) : Nat := (k - 2 ^ 61) % 2 ^ 42

/-- The first byte of the 128-byte line (00_scope R4). -/
def lineKey (k : Nat) : Nat := k / 128 * 128

/-- The first byte of the 64-byte sector (00_scope R4). -/
def sectorKey (k : Nat) : Nat := k / 64 * 64

/-! ## Poison -/

/-- The mark of the poison unit a byte lies in: a 32-bit word of a QSP (02 R71), a 64-byte sector elsewhere (02 R69). -/
def poisonMark (k : Nat) : Nat := if isQspKey k then k / 4 * 4 + 1 else sectorKey k

/-- A mark put into an ascending list. -/
def insertMark : List Nat → Nat → List Nat
  | [], x => [x]
  | y :: ys, x => if y < x then y :: insertMark ys x else if y = x then y :: ys else x :: y :: ys

/-- The byte is poisoned. -/
def State.poisoned (s : State) (k : Nat) : Bool := s.poison.contains (poisonMark k)

/-- Some byte of a range of `n` is poisoned. -/
def State.anyPoison (s : State) (k n : Nat) : Bool := (List.range n).any fun i => s.poisoned (k + i)

/-- The poison unit of a byte poisoned. -/
def State.setPoison (s : State) (k : Nat) : State := { s with poison := insertMark s.poison (poisonMark k) }

/-- The poison unit of a byte clean. -/
def State.clearPoison (s : State) (k : Nat) : State := { s with poison := s.poison.erase (poisonMark k) }

/-- The bytes of the poison unit of a byte. -/
def poisonUnit (k : Nat) : Nat × Nat := if isQspKey k then (k / 4 * 4, 4) else (sectorKey k, 64)

/-- A write of `n` bytes at `k` clears the poison of the units that it covers whole (02 R69, R71). -/
def State.clearCovered (s : State) (k n : Nat) : State :=
  (List.range (n / 4)).foldl (fun (t : State) i =>
    let a := (k + 3) / 4 * 4 + 4 * i
    if (poisonUnit a).1 = a && a + (poisonUnit a).2 ≤ k + n then t.clearPoison a else t) s

/-- Bytes written to memory, with the poison of the units they cover cleared. -/
def State.poke (s : State) (k : Nat) (bs : List Byte) : State :=
  { s.clearCovered k bs.length with mem := s.mem.writeBytes k bs }

/-- A number of `n` bytes written to memory. -/
def State.pokeNat (s : State) (k n x : Nat) : State := s.poke k (natToBytes n x)

/-- The bytes of memory. -/
def State.peek (s : State) (k n : Nat) : List Byte := s.mem.readBytes k n

/-- A number of `n` bytes of memory. -/
def State.peekNat (s : State) (k n : Nat) : Nat := s.mem.readNat k n

/-! ## Bit fields of numbers -/

/-- The `n` bits of a number from bit `lo` up. -/
def bitsAt (x lo n : Nat) : Nat := x / 2 ^ lo % 2 ^ n

/-- The bits [hi:lo] of a number replaced. -/
def setBits (x lo n v : Nat) : Nat := x - bitsAt x lo n * 2 ^ lo + v % 2 ^ n * 2 ^ lo

/-- A number of `n` bits as a signed integer. -/
def signed (x n : Nat) : Int := if x % 2 ^ n < 2 ^ (n - 1) then (x % 2 ^ n : Int) else (x % 2 ^ n : Int) - 2 ^ n

/-- An integer as a number modulo 2^n. -/
def wrap (x : Int) (n : Nat) : Nat := (x % (2 ^ n : Int)).toNat

/-- The bits that are set in a mask of `n` bits, ascending. -/
def onesOf (mask n : Nat) : List Nat := (List.range n).filter fun i => mask.testBit i

end Sys2Proof.Machine
end

