-- ==== Sys2Proof/Machine/Phys.lean ====
section
/-!
DEFINITION. The physical map (01_address_spaces R18, R19), the numbering of units (00_scope R6), the pod's block design
(00_scope R9, R10, 03_pod_memory R72), and the cache and bank placement of a physical address (02 R52, R53, R60).
-/
namespace Sys2Proof.Machine

/-! ## Units -/

/-- The quad of a physical core (00_scope R6). -/
def coreQuad (c : Nat) : Nat := c / 4
/-- The die of a physical quad (00_scope R6). -/
def quadDie (q : Nat) : Nat := q / 32
/-- The die of a physical core (00_scope R6). -/
def coreDie (c : Nat) : Nat := c / 128
/-- The slice of a physical quad (00_scope R6). -/
def quadSlice (q : Nat) : Nat := q / 8
/-- The die of a slice (00_scope R6). -/
def sliceDie (sl : Nat) : Nat := sl / 4

/-! ## The block design -/

/-- The difference set of an order (00_scope R10). -/
def differenceSet : Nat → List Nat
  | 2 => [0, 1, 3]
  | 3 => [0, 1, 3, 9]
  | 4 => [0, 1, 4, 14, 16]
  | 5 => [0, 1, 3, 8, 12, 18]
  | 7 => [0, 1, 3, 13, 32, 36, 43, 52]
  | _ => []

/-- Packages of a pod of order q, as many as modules (00_scope R10). -/
def podSize (q : Nat) : Nat := q * q + q + 1

/-- Ports of an attachment (00_scope R9). -/
def portsPerAttachment : Nat → Nat
  | 2 => 4
  | 3 => 3
  | 4 => 2
  | 5 => 2
  | 7 => 1
  | _ => 0

/-- Module k joins package g (00_scope R10). -/
def joins (q k g : Nat) : Bool := (differenceSet q).any fun e => (k + e) % podSize q = g

/-- The modules of a package, ascending: its attachments 0, 1, … (00_scope R10). -/
def modulesOf (q g : Nat) : List Nat := (List.range (podSize q)).filter fun k => joins q k g

/-- The packages of a module, ascending: ranks 0, 1, … (03 R72). -/
def packagesOf (q k : Nat) : List Nat := (List.range (podSize q)).filter fun g => joins q k g

/-- The lead head of a package's head group on a module (03 R72): Q × rank. -/
def leadHead (q k g : Nat) : Nat := portsPerAttachment q * (packagesOf q k).idxOf g

/-- The lead heads of a module, as a mask (03 R72, R82). -/
def leadHeadMask (q k : Nat) : Nat :=
  (List.range (packagesOf q k).length).foldl (fun m j => m + 2 ^ (portsPerAttachment q * j)) 0

/-- The pod's order, 0 when none is configured. -/
def Pod.q (p : Pod) : Nat := p.order.getD 0

/-- Packages of the pod; 0 without a pod. -/
def Pod.size (p : Pod) : Nat := if p.order.isSome then podSize p.q else 0

/-- The module of an attachment. -/
def Pod.moduleOf (p : Pod) (a : Nat) : Option Nat := if p.order.isSome then (modulesOf p.q p.self)[a]? else none

/-- The attachment that leads to a module. -/
def Pod.attOf (p : Pod) (m : Nat) : Option Nat :=
  if p.order.isSome && (modulesOf p.q p.self).contains m then some ((modulesOf p.q p.self).idxOf m) else none

/-- The lead head of this package on the module of an attachment. -/
def Pod.leadOn (p : Pod) (m : Nat) : Nat := leadHead p.q m p.self

/-- The attachment has a port up, and so is up (01 R19). -/
def Pod.attUp (p : Pod) (a : Nat) : Bool :=
  match p.atts[a]? with
  | some x => x.verified && x.portsUp.any id
  | none => false

/-- The attachment port index that a window offset travels through (01 R19): the rotation over the ports that are up. -/
def Pod.portFor (p : Pod) (a x : Nat) : Nat :=
  match p.atts[a]? with
  | none => 0
  | some t =>
    let up := (List.range t.portsUp.length).filter fun i => t.portsUp.getD i false
    up.getD ((x / 4096) % up.length) 0

/-- The one module that this package shares with another (00_scope R10). -/
def Pod.shared (p : Pod) (g : Nat) : Option Nat :=
  if p.order.isSome && g ≠ p.self then (modulesOf p.q p.self).find? fun m => joins p.q m g else none

/-- The one module that two packages share (00_scope R10). -/
def sharedBy (p : Pod) (x g : Nat) : Option Nat :=
  if p.order.isSome && x ≠ g then (modulesOf p.q x).find? fun m => joins p.q m g else none

/-- The candidate peers that serve module m, by ascending attachment number (01 R21): the attachment and the peer. -/
def Pod.candidates (p : Pod) (m : Nat) : List (Nat × Nat) :=
  if p.order.isNone then [] else
  ((List.range (modulesOf p.q p.self).length).filterMap fun a =>
    match (modulesOf p.q p.self)[a]? with
    | none => none
    | some k =>
      match ((packagesOf p.q k).filter fun g => decide (g ≠ p.self) && joins p.q m g).head? with
      | some g => some (a, g)
      | none => none)

/-! ## Physical addresses -/

/-- What lies at a physical address (01 R18). -/
inductive PhysPlace where
  /-- HBM stack d at an offset in its populated part. -/
  | hbm (d off : Nat)
  /-- The unpopulated part of a stack window. -/
  | hbmHole
  /-- The window of attachment a at offset x. -/
  | attach (a x : Nat)
  /-- The relay window of module m at offset x. -/
  | relay (m x : Nat)
  /-- A Ladle aperture. -/
  | ladle (d c off : Nat)
  /-- The register page of a dense partition. -/
  | page (p off : Nat)
  /-- The RAS block of a stack. -/
  | ras (d off : Nat)
  /-- An MMIO address that nothing decodes. -/
  | mmioHole
  /-- A reserved range. -/
  | reserved
deriving DecidableEq, Repr

/-- The place of a physical address (01 R18, R26, 02 R70). -/
def physPlace (pa : Nat) : PhysPlace :=
  if pa < 0x8000000000 then
    let off := pa % Config.hbmWindow
    if off < Config.hbmPopulated then .hbm (pa / Config.hbmWindow) off else .hbmHole
  else if pa < Config.attachBase then .reserved
  else if pa < Config.attachBase + 8 * Config.attachWindow then
    .attach ((pa - Config.attachBase) / Config.attachWindow) ((pa - Config.attachBase) % Config.attachWindow)
  else if pa < Config.relayBase then .reserved
  else if pa < Config.relayBase + 64 * Config.attachWindow then
    .relay ((pa - Config.relayBase) / Config.attachWindow) ((pa - Config.relayBase) % Config.attachWindow)
  else if pa < Config.ladleBase then .reserved
  else if pa < Config.ladleBase + 8 * 0x100000 then
    .ladle ((pa - Config.ladleBase) / 0x100000) ((pa - Config.ladleBase) % 0x100000 / 0x10000) (pa % 0x10000)
  else if pa < Config.mmioBase then .reserved
  else if pa < 0x10000000000000 then
    if Config.pageBase ≤ pa && pa < Config.pageBase + 16 * 4096 then
      .page ((pa - Config.pageBase) / 4096) (pa % 4096)
    else if Config.rasBase ≤ pa && pa < Config.rasBase + 8 * 0x20 && pa % 0x20 < 0x18 then
      .ras ((pa - Config.rasBase) / 0x20) (pa % 0x20)
    else .mmioHole
  else .reserved

/-- The tier of a place's region (01 R18); none for a reserved range. -/
def PhysPlace.tier : PhysPlace → Option Tier
  | .hbm .. => some .hbm
  | .hbmHole => some .hbm
  | .attach .. => some .module
  | .relay .. => some .relay
  | .ladle .. => some .aperture
  | .page .. => some .aperture
  | .ras .. => some .aperture
  | .mmioHole => some .aperture
  | .reserved => none

/-- The memory key of a tier 0 or tier 1 physical address. -/
def keyOfPa (p : Pod) (pa : Nat) : Option Nat :=
  match physPlace pa with
  | .hbm .. => some pa
  | .attach a x => (p.moduleOf a).map fun m => moduleKey m x
  | _ => none

/-- The physical address of a memory key on this package. -/
def paOfKey (p : Pod) (k : Nat) : Nat :=
  if isModuleKey k then
    match p.attOf (keyModule k) with
    | some a => Config.attachBase + a * Config.attachWindow + keyOffset k
    | none => k
  else k

/-! ## Placement -/

/-- The home die of a line (02 R53). -/
def homeDie (p : Pod) (k : Nat) : Nat :=
  let pa := paOfKey p k
  if isModuleKey k then (bitsAt pa 12 3) ^^^ (bitsAt pa 15 3) else k / Config.hbmWindow

/-- The L2 slice of a line (02 R52). -/
def l2SliceOf (p : Pod) (k : Nat) : Nat :=
  let pa := paOfKey p k
  (bitsAt pa 7 4) ^^^ (bitsAt pa 11 4) ^^^ (bitsAt pa 15 4) ^^^ (bitsAt pa 19 4)

/-- The L2 set of a line (02 R52). -/
def l2SetOf (p : Pod) (k : Nat) : Nat := bitsAt (paOfKey p k) 11 11

/-- The L1 set of a line (02 R47). -/
def l1SetOf (p : Pod) (k : Nat) : Nat := bitsAt (paOfKey p k) 7 8

/-- The bank number of a tier 0 address (02 R60): channel × 32 + pseudo-channel × 16 + bank. -/
def hbmBank (pa : Nat) : Nat := bitsAt pa 11 4 * 32 + bitsAt pa 10 1 * 16 + bitsAt pa 15 4

/-- The row of a tier 0 address in its bank (02 R60). -/
def hbmRow (pa : Nat) : Nat := bitsAt pa 19 17

end Sys2Proof.Machine
end

