-- ==== Sys2Proof/Machine/Ops.lean ====
section
/-!
DEFINITION. The named operations over the state that every meaning uses: waves and units, partitions and their dense
numbers, events of the host queue, the error log, counters, and TAKING AN EXCEPTION with the return from it (14 R331,
R332), once for all causes.
-/
namespace Sys2Proof.Machine

/-- The outcome of a step of this machine. -/
abbrev Out := Host.Outcome State Fault Refusal

/-! ## Time -/

/-- CYC as a number. -/
def State.now (s : State) : Nat := s.cyc.toNat

/-- CYC[47:0] (05 R142). -/
def State.now48 (s : State) : Nat := s.cyc.toNat % 2 ^ 48

/-- later(x, y) of 05 R143, modulo 2^48. -/
def later48 (x y : Nat) : Nat :=
  let d := (y + 2 ^ 48 - x % 2 ^ 48) % 2 ^ 48
  if 1 ≤ d && d < 2 ^ 47 then y else x

/-- A time has passed (05 R143): later(t, CYC) is CYC, and the two differ. -/
def State.passed (s : State) (t : Nat) : Bool := later48 t s.now48 = s.now48 && t ≠ s.now48

/-- A deadline of 0 never comes; another is reached when CYC is at or past it. -/
def State.deadlineReached (s : State) (d : Nat) : Bool := d ≠ 0 && d ≤ s.now

/-- A fresh number for a free value (log 8). -/
def State.fresh (s : State) : Nat × State := (s.free, { s with free := s.free + 1 })

/-! ## Waves and units -/

/-- The wave of a launch. -/
def State.wave? (s : State) (seq wid : Nat) : Option Wave := s.waves.find? fun w => w.seq = seq && w.wid = wid

/-- A list with the elements that a test picks changed. -/
def mapWhere {α : Type} (l : List α) (p : α → Bool) (f : α → α) : List α := l.map fun x => if p x then f x else x

/-- The state with a wave's record replaced. -/
def State.setWave (s : State) (w : Wave) : State :=
  { s with waves := mapWhere s.waves (fun x => x.seq = w.seq && x.wid = w.wid) fun _ => w }

/-- The launch of a sequence number. -/
def State.launch? (s : State) (seq : Nat) : Option Launch := s.launches.find? fun l => l.seq = seq

/-- A unit of a wave. -/
def Wave.unit (w : Wave) : Arm → UnitSt
  | .t => w.unitT
  | .e => w.unitE

/-- A wave with a unit replaced. -/
def Wave.setUnit (w : Wave) (a : Arm) (u : UnitSt) : Wave :=
  match a with
  | .t => { w with unitT := u }
  | .e => { w with unitE := u }

/-- The other arm. -/
def Arm.other : Arm → Arm
  | .t => .e
  | .e => .t

/-- Open divergence entries of a unit (10 R236, R239). -/
def UnitSt.open (u : UnitSt) : Nat := u.entries.length + u.spilled.length

/-- Open call records (10 R234). -/
def Wave.openCalls (w : Wave) : Nat := w.calls.length + w.spilledCalls

/-- OUTST (07_execution R165). -/
def Wave.outst (w : Wave) : Nat := (w.pend.filter fun o => !o.left).length

/-- The offset of the word after the one at `pc` in program order: words 0 to 2 of a packet (09_encoding R206). -/
def nextWord (pc : Nat) : Nat := if pc % 16 = 8 then pc + 8 else pc + 4

/-- Word 0 of the packet after the one that holds `pc` (09_encoding R207). -/
def nextPacket (pc : Nat) : Nat := pc / 16 * 16 + 16

/-- The offset of the latched word. -/
def Issue.pc (i : Issue) : Nat := i.off + 4 * i.idx

/-- A progress event of the watchdog (07_execution R187). -/
def Wave.progressed (w : Wave) : Wave := { w with progress := 0, watchdogFired := false }

/-- The unit that has issued a word goes on at an offset. -/
def Wave.goto (w : Wave) (a : Arm) (pc : Nat) : Wave :=
  w.setUnit a { w.unit a with pc := pc, refusals := [], looked := false, table := [], atBank := none }

/-- The word is done: its unit goes on with the next word. -/
def finish (s : State) (w : Wave) (i : Issue) : Out := .next (s.setWave (w.goto i.arm (nextWord i.pc)))

/-- The word has an issuing wave: what it does with the wave, the latch and its unit; without one there is none. -/
def onUnit (s : State) (f : Wave → Issue → UnitSt → Out) : Out :=
  match s.issue with
  | none => .fault .noIssuingUnit
  | some i =>
    match s.wave? i.seq i.wid with
    | none => .fault .noIssuingUnit
    | some w => f w i (w.unit i.arm)

/-- The state with a word marked as stalled: it has had no effect and issues again. -/
def State.stall (s : State) : State :=
  { s with issue := match s.issue with | none => none | some i => some { i with stalled := true } }

/-- The state with a word marked as having trapped. -/
def State.trapped (s : State) : State :=
  { s with issue := match s.issue with | none => none | some i => some { i with trapped := true } }

/-- The latched word stalls. -/
def stallWord (s : State) : Out := .next s.stall

/-! ## Partitions -/

/-- The partition of a dense number. -/
def State.part? (s : State) (p : Nat) : Option Part := s.parts.find? fun x => x.num = p

/-- The state with a partition's record replaced. -/
def State.setPart (s : State) (p : Part) : State :=
  { s with parts := mapWhere s.parts (fun x => x.num = p.num) fun _ => p }

/-- A partition changed, when it exists. -/
def State.modPart (s : State) (p : Nat) (f : Part → Part) : State :=
  { s with parts := mapWhere s.parts (fun x => x.num = p) f }

/-- The slices of a mask, ascending. -/
def slicesOf (mask : Nat) : List Nat := onesOf mask 32

/-- The usable quads of a slice, ascending (15 R345). -/
def State.sliceQuads (s : State) (sl : Nat) : List Nat :=
  ((List.range 8).map fun i => 8 * sl + i).filter fun q => !s.dev.retired.contains q

/-- The dense quads of a partition, in dense order (15 R345). -/
def State.denseQuads (s : State) (p : Part) : List Nat := (slicesOf p.sliceMask).flatMap s.sliceQuads

/-- The dense number of a physical quad in a partition (15 R345). -/
def State.denseQuad (s : State) (p : Part) (q : Nat) : Nat := (s.denseQuads p).idxOf q

/-- The dense number of a physical core in a partition (15 R345). -/
def State.denseCore (s : State) (p : Part) (c : Nat) : Nat := 4 * s.denseQuad p (c / 4) + c % 4

/-- The physical core of a dense number (15 R345). -/
def State.physCore (s : State) (p : Part) (c : Nat) : Option Nat :=
  ((s.denseQuads p)[c / 4]?).map fun q => 4 * q + c % 4

/-- The mailbox of a partition: that of its logical device, or the administrative one when it has none. -/
def Part.mbx (p : Part) : Nat := p.ld.getD 16

/-- A mailbox. -/
def State.mbox (s : State) (m : Nat) : Mbox := (s.mboxes.find? fun x => x.num = m).getD (Mbox.reset m)

/-- The state with a mailbox replaced. -/
def State.setMbox (s : State) (m : Mbox) : State :=
  { s with mboxes := mapWhere s.mboxes (fun x => x.num = m.num) fun _ => m }

/-- The partition holds its slice set (15 R344). -/
def State.holdsSet (s : State) (p : Nat) : Bool := s.sets.any fun g => g.holder = some p

/-- The partition holds the pod privilege (04 R105). -/
def State.privileged (s : State) (p : Nat) : Bool := s.pod.privilege = some p

/-- The slice set that a partition is a member of. -/
def State.setOf (s : State) (p : Nat) : Option SliceSet := s.sets.find? fun g => g.members.contains p

/-- A partition is being taken off its slices (14 R338). -/
def State.leaving (s : State) (p : Nat) : Bool := s.switches.any fun x => x.out = p

/-- A feature bit of word 0 has been accepted (09_encoding R218, 15 R353). -/
def State.feature (s : State) (b : Nat) : Bool := s.dev.committed && s.dev.accepted.getLsbD b

/-! ## Host queue events -/

/-- An event record put among a partition's waiting events (15 R357); waiting counter overflows of one counter merge. -/
def State.postEvent (s : State) (p type seq : Nat) (body : List Byte) : State :=
  s.modPart p fun x =>
    let e : Event := { type := type, seq := seq, cyc := s.now, body := body }
    if type = 7 && x.events.any (fun y => y.type = 7 && y.body.take 1 == body.take 1) then x
    else { x with events := x.events ++ [e] }

/-- The wave's counter has reached its partition's limit; 0 disables it (07 R187, R188). -/
def State.watchdogDue (s : State) (w : Wave) : Bool :=
  match s.part? w.part with
  | none => false
  | some p => w.status = .running && !w.saved && p.watchdog ≠ 0 && p.watchdog ≤ w.progress

/-- A list of bytes from numbers and their widths. -/
def packBytes : List (Nat × Nat) → List Byte
  | [] => []
  | (n, x) :: rest => natToBytes n x ++ packBytes rest

/-- The body of a wave-stop record (15 R357, TYPE 0x02, 0x03 and 0x05). -/
def stopBody (wid cause pc addr pending : Nat) : List Byte :=
  packBytes [(4, wid), (4, cause), (4, pc), (4, 0), (8, addr), (4, pending)]

/-! ## The error log -/

/-- The fields of an error-log record (01 R35) but CYC and the partition. -/
structure LogRec where
  addr : Nat
  asid : Nat
  sub : Nat
  cls : Nat
  level : Nat
  kind : Nat
  reqType : Nat
  reqId : Nat
  phys : Bool
deriving DecidableEq, Repr

/-- The number of an access kind in a record (01 R35). -/
def AccKind.code : AccKind → Nat
  | .read => 0
  | .write => 1
  | .atomic => 2
  | .fetch => 3
  | .walk => 4

/-- A record as a 256-bit number (01 R35). -/
def LogRec.word (r : LogRec) (cyc part : Nat) : Nat :=
  cyc % 2 ^ 64 * 2 ^ 192 + r.addr % 2 ^ 64 * 2 ^ 128 + part % 16 * 2 ^ 124 + r.asid % 2 ^ 14 * 2 ^ 110
    + r.sub % 256 * 2 ^ 96 + r.cls % 256 * 2 ^ 88 + r.level % 16 * 2 ^ 84 + r.kind % 16 * 2 ^ 80
    + r.reqType % 4 * 2 ^ 62 + r.reqId % 2 ^ 30 * 2 ^ 32 + bitOf r.phys

/-- Records waiting in a partition's ring, modulo 2^32 (15 R356). -/
def ringUsed (tail head : Nat) : Nat := (tail + 2 ^ 32 - head % 2 ^ 32) % 2 ^ 32

/-- One record written to a partition's error-log ring, or counted as dropped when the ring is full (01 R34). DESIGN CHOICE (log 61):
while no ring is set, a record is dropped and counted as well. -/
def State.logError (s : State) (p : Nat) (r : LogRec) : State :=
  match s.part? p with
  | none => s
  | some x =>
    let m := s.mbox x.mbx
    match x.elBase with
    | none => s.setPart { x with dropped := x.dropped + 1 }
    | some base =>
      if ringUsed m.elTail m.elHead < 2 ^ x.elLog2 then
        let s1 := s.pokeNat (hostKey (base + 32 * (m.elTail % 2 ^ x.elLog2))) 32 (r.word s.now p)
        s1.setMbox { m with elTail := (m.elTail + 1) % 2 ^ 32 }
      else s.setPart { x with dropped := x.dropped + 1 }

/-- REQID of a wave (01 R35, 07_execution R169). -/
def State.waveReqId (s : State) (w : Wave) : Nat :=
  match s.part? w.part with
  | none => 0
  | some p => s.denseCore p w.core * 32 + w.place

/-- The ASID of a wave's launch. -/
def State.waveAsid (s : State) (w : Wave) : Nat := ((s.launch? w.seq).map Launch.asid).getD 0

/-! ## Counters -/

/-- The counters of a partition that an event of a code adds to (13 R327, R330): enabled, selecting the code, while the
partition holds a slice; pod events need the pod privilege. -/
def State.countersFor (s : State) (p : Part) (code : Nat) : Nat :=
  if s.holdsSet p.num && (code < 0x050 || s.privileged p.num) then
    (List.range 16).foldl (fun m i =>
      match p.counters[i]? with
      | some c => if c.en && c.event = code then m + 2 ^ i else m
      | none => m) 0
  else 0

/-- An event charged to a partition: its addition is under way, for less than 256 cycles (13 R327). -/
def State.charge (s : State) (p code n : Nat) : State :=
  match s.part? p with
  | none => s
  | some x =>
    let mask := s.countersFor x code
    if mask = 0 || n = 0 then s else { s with charges := s.charges ++ [{ part := p, mask := mask, n := n, since := s.now }] }

/-- A pod event charged to the partition with the pod privilege (13 R330). -/
def State.chargePod (s : State) (code n : Nat) : State :=
  match s.pod.privilege with
  | none => s
  | some p => s.charge p code n

/-! ## Taking an exception, and returning from one -/

/-- TRAPCAUSE as a word (09_encoding R222). -/
def trapCauseWord (cause sub : Nat) (second : Bool) : Word := BitVec.ofNat 32 (cause + 256 * sub + 65536 * bitOf second)

/-- A wave that stops for good (14 R331): it issues nothing more and counts as killed. -/
def Wave.stopped (w : Wave) : Wave :=
  { w with status := .killed, unitT := { w.unitT with wait := .none }, unitE := { w.unitE with wait := .none } }

/-- TAKING AN EXCEPTION (14 R331 to R334). TRAPPC names the word at `pc`; TRAPCAUSE and TRAPADDR take the cause, the
subcode, SECOND and the address; saved_fmt takes the unit's FMT; the handler starts at CODE + TRAPBASE as the trapping unit.
A wave without a handler, or already in its handler, stops and an event is posted. `wait` is the wait that the trap
interrupts, which goes on after the RTE (`.none` when the word is abandoned); what is left of a chained pair goes on as well (09
R206). -/
def State.enterTrap (s : State) (w : Wave) (arm : Arm) (pc cause sub addr : Nat) (second : Bool) (wait : Wait) : State :=
  let u := w.unit arm
  let cw := trapCauseWord cause sub second
  let w1 : Wave :=
    { w with trapPc := BitVec.ofNat 32 pc, trapCause := cw, trapAddr := BitVec.ofNat 64 addr, savedFmt := u.fmt }
  if w.handler.isSome then
    (s.setWave w1.stopped).postEvent w.part 3 w.seq (stopBody w.wid cw.toNat pc addr w.trapPc.toNat)
  else if w.trapBase = 0 then
    (s.setWave { w1 with handler := some { arm := arm, depth := u.open, wait := wait, skip := u.skip } }.stopped).postEvent
      w.part 2 w.seq (stopBody w.wid cw.toNat pc addr 0)
  else
    s.setWave ({ w1 with handler := some { arm := arm, depth := u.open, wait := wait, skip := u.skip } }.setUnit arm
      { u with pc := w.trapBase.toNat, wait := .none, ibuf := none, refusals := [], looked := false, table := [], atBank := none,
               skip := none })

/-- The offset that TRAPPC names for the latched word (09_encoding R206): the first word of its pair. -/
def Issue.trapPc (i : Issue) : Nat := if i.second then i.pc - 4 else i.pc

/-- The latched word raises a trap and performs nothing. -/
def takeTrap (s : State) (w : Wave) (i : Issue) (cause sub addr : Nat) : Out :=
  .next (s.enterTrap w i.arm i.trapPc cause sub addr i.second .none).trapped

/-- RETURN FROM AN EXCEPTION (10 R247, 14 R332, R334): FMT is restored, the handler state ends, and the unit goes on at
CODE + TRAPPC (word index 3 is word 0 of the next packet); a wait that the trap interrupted goes on. -/
def State.returnFromTrap (s : State) (w : Wave) (arm : Arm) (h : HandlerSt) : State :=
  let u := w.unit arm
  let pc := w.trapPc.toNat
  let target := if pc % 16 = 12 then pc + 4 else pc
  s.setWave ({ w with handler := none }.setUnit arm
    { u with pc := target, fmt := w.savedFmt, wait := h.wait, ibuf := none, refusals := [], looked := false, table := [], atBank := none,
             skip := h.skip })

/-- Something of a partition that may be saved has changed: its save area is to be written again (14 R340). -/
def State.resave (s : State) (p : Nat) : State := s.modPart p fun x => { x with resave := true }

/-- What a saved partition's save area shows has changed (14 R340). -/
def State.touched (s : State) (p : Nat) : State := if s.holdsSet p then s else s.resave p

/-- A late error joins a wave's pending ones (14 R333), at most four; of a halted wave, or beyond four, it is posted to the
partition's host queue (03 R91). -/
def State.lateError (s : State) (seq wid cause sub addr : Nat) : State :=
  match s.wave? seq wid with
  | none => s
  | some w =>
    if w.status = .running && w.late.length < 4 then
      let t := s.setWave { w with late := w.late ++ [{ cause := cause, sub := sub, addr := addr }] }
      if w.saved then t.resave w.part else t
    else
      s.postEvent w.part 5 seq (stopBody wid (trapCauseWord cause sub false).toNat (w.unit .t).pc addr 0)

/-! ## Scopes and orders -/

/-- The scope of a 3-bit field (04 R103); 7 is none. -/
def Scope.ofBits (b : BitVec 3) : Option Scope :=
  match b.toNat with
  | 0 => some .wave
  | 1 => some .core
  | 2 => some .quad
  | 3 => some .die
  | 4 => some .pkg
  | 5 => some .part
  | 6 => some .pod
  | _ => none

/-- The scope's place from narrow to wide (00_scope R5). -/
def Scope.rank : Scope → Nat
  | .wave => 0
  | .core => 1
  | .quad => 2
  | .die => 3
  | .pkg => 4
  | .part => 5
  | .pod => 6

/-- DIE or wider. -/
def Scope.dieOrWider (s : Scope) : Bool := 3 ≤ s.rank

/-- PART or POD (04 R105). -/
def Scope.partOrWider (s : Scope) : Bool := 5 ≤ s.rank

/-- A guest's POD scope becomes PART and is counted (04 R106). -/
def State.clampScope (s : State) (p : Nat) (sc : Scope) : State × Scope :=
  if sc = .pod && !s.privileged p then (s.charge p 0x040 1, .part) else (s, sc)

/-- The order field has an acquire part (04 R107). -/
def isAcquire (r : BitVec 2) : Bool := r.getLsbD 0

/-- The order field has a release part (04 R107). -/
def isRelease (r : BitVec 2) : Bool := r.getLsbD 1

end Sys2Proof.Machine
end

