-- ==== Sys2Proof/Machine/Operands.lean ====
section
/-!
DEFINITION. Every operand form: uniform, predicate, vector, tile and accumulator registers with their poison (09_encoding
R212, R213, R224; 10 R226, R233; 11 R251, R252), immediates and the literal (09 R211), guards, and register groups read and
written as byte streams (11 R267).
-/
namespace Sys2Proof.Machine

/-! ## Uniform registers -/

/-- s(n): s0 reads 0 (09 R224). -/
def Wave.s (w : Wave) (n : Nat) : Word := if n = 0 then 0 else (w.sregs[n]?).getD 0

/-- The poison bit of s(n) (10 R226); s0 has none. -/
def Wave.sPoison (w : Wave) (n : Nat) : Bool := n ≠ 0 && w.spoison.getLsbD n

/-- A bit of a 64-bit mask set to a value. -/
def setBit (m : Lanes) (i : Nat) (b : Bool) : Lanes :=
  if b then m ||| BitVec.ofNat 64 (2 ^ i) else m &&& ~~~(BitVec.ofNat 64 (2 ^ i))

/-- s(n) written, with its poison bit; a write to s0 is discarded (09 R224). -/
def Wave.setS (w : Wave) (n : Nat) (x : Word) (p : Bool) : Wave :=
  if n = 0 then w else { w with sregs := w.sregs.setIfInBounds n x, spoison := setBit w.spoison n p }

/-- The pair s(n):s(n + 1), the low half in s(n) (10 R226). -/
def Wave.sPair (w : Wave) (n : Nat) : Nat := (w.s n).toNat + 2 ^ 32 * (w.s (n + 1)).toNat

/-- Either half of a pair is poisoned. -/
def Wave.sPairPoison (w : Wave) (n : Nat) : Bool := w.sPoison n || w.sPoison (n + 1)

/-- The pair written. -/
def Wave.setPair (w : Wave) (n : Nat) (x : Nat) (p : Bool) : Wave :=
  (w.setS n (BitVec.ofNat 32 x) p).setS (n + 1) (BitVec.ofNat 32 (x / 2 ^ 32)) p

/-- `k` registers from s(n) up written from a number, low word first. -/
def Wave.setGroup (w : Wave) (n : Nat) : Nat → Nat → Bool → Wave
  | 0, _, _ => w
  | k + 1, x, p => Wave.setGroup (w.setS n (BitVec.ofNat 32 x) p) (n + 1) k (x / 2 ^ 32) p

/-! ## Uniform predicates -/

/-- q(n): q0 reads 1 (09 R224). -/
def Wave.q (w : Wave) (n : Nat) : Bool := n = 0 || w.qregs.getLsbD n

/-- The poison bit of q(n); q0 has none. -/
def Wave.qPoison (w : Wave) (n : Nat) : Bool := n ≠ 0 && w.qpoison.getLsbD n

/-- A bit of an 8-bit mask set to a value. -/
def setBit8 (m : BitVec 8) (i : Nat) (b : Bool) : BitVec 8 :=
  if b then m ||| BitVec.ofNat 8 (2 ^ i) else m &&& ~~~(BitVec.ofNat 8 (2 ^ i))

/-- q(n) written, with its poison bit; a write to q0 is discarded (09 R224). -/
def Wave.setQ (w : Wave) (n : Nat) (b p : Bool) : Wave :=
  if n = 0 then w else { w with qregs := setBit8 w.qregs n b, qpoison := setBit8 w.qpoison n p }

/-! ## Predicates -/

/-- p(n) and its poison: p0 reads 1 in every lane (09 R224). -/
def Wave.p (w : Wave) (n : Nat) : PReg :=
  if n = 0 then { bits := allLanes, poison := 0 } else (w.pregs[n]?).getD { bits := 0, poison := 0 }

/-- p(n) written in the lanes of a mask; a write to p0 is discarded (09 R224). -/
def Wave.setP (w : Wave) (n : Nat) (lanes bits poison : Lanes) : Wave :=
  if n = 0 then w else
  let old := w.p n
  let new : PReg := { bits := (old.bits &&& ~~~lanes) ||| (bits &&& lanes),
                      poison := (old.poison &&& ~~~lanes) ||| (poison &&& lanes) }
  { w with pregs := w.pregs.setIfInBounds n new }

/-! ## Vector registers -/

/-- An element with its poison bit. -/
abbrev Elem := Word × Bool

/-- A register of zeros. -/
def VReg.zero : VReg := { lanes := List.replicate 64 0, poison := 0 }

/-- The physical register that holds logical register `l` (10 R233): l mod VSTACK. -/
def Wave.physV (w : Wave) (l : Nat) : Nat := l % w.vregs.length

/-- Logical vector register `l`. -/
def Wave.logV (w : Wave) (l : Nat) : VReg := w.vregs.getD (w.physV l) VReg.zero

/-- v(n) of the window (10 R233): logical register WINBASE + n. -/
def Wave.v (w : Wave) (n : Nat) : VReg := w.logV (w.winBase + n)

/-- One element of a register. -/
def VReg.elem (r : VReg) (l : Nat) : Elem := (r.lanes.getD l 0, r.poison.getLsbD l)

/-- The 64 elements of a register. -/
def VReg.elems (r : VReg) : List Elem := laneNumbers.map r.elem

/-- A mask from 64 Bools, lane 0 first. -/
def maskOf (l : List Bool) : Lanes :=
  BitVec.ofNat 64 (l.foldr (fun b acc => bitOf b + 2 * acc) 0)

/-- A register from its elements. -/
def VReg.ofElems (l : List Elem) : VReg := { lanes := l.map Prod.fst, poison := maskOf (l.map Prod.snd) }

/-- A register with the elements of the lanes of a mask replaced (11 R251). -/
def VReg.merge (old : VReg) (lanes : Lanes) (new : List Elem) : VReg :=
  VReg.ofElems (laneNumbers.map fun i => if lanes.getLsbD i then new.getD i (0, false) else old.elem i)

/-- Logical register `l` replaced. -/
def Wave.setLogV (w : Wave) (l : Nat) (r : VReg) : Wave := { w with vregs := w.vregs.set (w.physV l) r }

/-- Logical register `l` written in the lanes of a mask. -/
def Wave.writeLogV (w : Wave) (l : Nat) (lanes : Lanes) (new : List Elem) : Wave :=
  w.setLogV l ((w.logV l).merge lanes new)

/-- v(n) written in the lanes of a mask. -/
def Wave.writeV (w : Wave) (n : Nat) (lanes : Lanes) (new : List Elem) : Wave := w.writeLogV (w.winBase + n) lanes new

/-- The b operand of a "F4[3] = uniform" major (11 R251): s(vb) in every lane, or v(vb). -/
def Wave.opB (w : Wave) (u : BitVec 1) (b : BitVec 6) : List Elem :=
  if u = 1 then List.replicate 64 (w.s b.toNat, w.sPoison b.toNat) else (w.v b.toNat).elems

/-! ## Tile descriptors and accumulators -/

/-- t(n) (13 R308). -/
def Wave.tile (w : Wave) (n : Nat) : BitVec 128 := (w.tiles[n]?).getD 0

/-- t(n) written. -/
def Wave.setTile (w : Wave) (n : Nat) (x : BitVec 128) : Wave := { w with tiles := w.tiles.setIfInBounds n x }

/-- An accumulator of the wave replaced. -/
def Wave.setAcc (w : Wave) (n : Nat) (a : AccSlot) : Wave := { w with accs := w.accs.set n a }

/-! ## Immediates, guards, poison -/

/-- The immediate of a VI or UI word (09 R211): sext32(imm10), or W3 for the escape −512. -/
def immediate (imm : BitVec 10) (lit : Word) : Word := if imm = 0x200 then lit else imm.signExtend 32

/-- The lanes a V-format word writes (11 R251): active, with the guard predicate 1. -/
def Wave.written (w : Wave) (u : UnitSt) (g : BitVec 3) : Lanes := u.mask &&& (w.p g.toNat).bits

/-- A guard bit is poisoned in an active lane (11 R252). -/
def Wave.guardPoison (w : Wave) (u : UnitSt) (g : BitVec 3) : Bool := u.mask &&& (w.p g.toNat).poison ≠ 0

/-- The lanes of a mask, ascending. -/
def lanesOf (m : Lanes) : List Nat := laneNumbers.filter fun i => m.getLsbD i

/-- Elementwise application of a function of two elements; the result is poisoned when a source is (03 R97). -/
def zipElems (f : Word → Word → Word) (a b : List Elem) : List Elem :=
  List.zipWith (fun x y => (f x.1 y.1, x.2 || y.2)) a b

/-- Elementwise application of a function of one element. -/
def mapElems (f : Word → Word) (a : List Elem) : List Elem := a.map fun x => (f x.1, x.2)

/-! ## Register groups as byte streams (11 R267) -/

/-- The bytes of `k` logical registers from `l` up: byte n is byte n mod 4 of lane ⌊n/4⌋ mod 64 of register ⌊n/256⌋. -/
def Wave.groupBytes (w : Wave) (l : Nat) : Nat → List Byte
  | 0 => []
  | k + 1 => (w.logV l).lanes.flatMap (fun x => natToBytes 4 x.toNat) ++ Wave.groupBytes w (l + 1) k

/-- The poison of each element of `k` logical registers from `l` up. -/
def Wave.groupPoison (w : Wave) (l : Nat) : Nat → List Bool
  | 0 => []
  | k + 1 => (w.logV l).elems.map Prod.snd ++ Wave.groupPoison w (l + 1) k

/-- The elements of `k` logical registers from `l` up. -/
def Wave.groupElems (w : Wave) (l : Nat) : Nat → List Elem
  | 0 => []
  | k + 1 => (w.logV l).elems ++ Wave.groupElems w (l + 1) k

/-- `k` logical registers from `l` up written whole from a list of elements. -/
def Wave.setGroupElems (w : Wave) (l : Nat) : Nat → List Elem → Wave
  | 0, _ => w
  | k + 1, es =>
    Wave.setGroupElems (w.writeLogV l allLanes (es.take 64)) (l + 1) k (es.drop 64)

/-- The words of a byte stream, four bytes each. -/
def wordsOfBytes : Nat → List Byte → List Word
  | 0, _ => []
  | n + 1, bs => BitVec.ofNat 32 (bytesToNat (bs.take 4)) :: wordsOfBytes n (bs.drop 4)

end Sys2Proof.Machine
end

