-- ==== Sys2Proof/Machine/Translate.lean ====
section
/-!
DEFINITION. Translation (01_address_spaces R16 to R30, R33, R37, R38): canonical addresses, the walk, the TLBs, what a
physical address refuses, walk requests and their clients, and how a wave takes a refusal.
-/
namespace Sys2Proof.Machine

/-! ## Addresses -/

/-- A canonical virtual address (01 R16): bits [63:57] equal bit 56. -/
def canonical (va : Nat) : Bool := bitsAt va 56 8 = 0 || bitsAt va 56 8 = 255

/-- The 4 KiB virtual page, by its 45-bit number. -/
def pageOf (va : Nat) : Nat := bitsAt va 12 45

/-- A sum of addresses, modulo 2^64 (01 R16). -/
def addAddr (a b : Nat) : Nat := (a + b) % 2 ^ 64

/-! ## Entries of the tables (01 R23) -/

/-- V of an entry. -/
def pteV (e : Nat) : Bool := e.testBit 0
/-- W of a leaf. -/
def pteW (e : Nat) : Bool := e.testBit 1
/-- X of a leaf. -/
def pteX (e : Nat) : Bool := e.testBit 2
/-- TIER of an entry. -/
def pteTier (e : Nat) : Nat := bitsAt e 3 2
/-- NA of a leaf. -/
def pteNA (e : Nat) : Bool := e.testBit 5
/-- PS of an entry. -/
def ptePS (e : Nat) : Bool := e.testBit 6
/-- FRAME of an entry, as a physical address. -/
def pteFrame (e : Nat) : Nat := bitsAt e 12 40 * 4096

/-- The number of a tier. -/
def Tier.num : Tier → Nat
  | .hbm => 0
  | .module => 1
  | .relay => 2
  | .aperture => 3

/-- The tier of a number. -/
def tierOf (n : Nat) : Tier :=
  match n with
  | 0 => .hbm
  | 1 => .module
  | 2 => .relay
  | _ => .aperture

/-! ## What a physical address refuses -/

/-- The window limit of an attachment for a partition (03 R389). -/
def Part.limit (p : Part) (a : Nat) : Nat := p.windowLimit.getD a 0

/-- A bit of DEADPEER (03 R92). -/
def Part.isDead (p : Part) (g : Nat) : Bool := p.dead.testBit g

/-- The peer that serves a relay window for a partition, with the attachment that leads to it (01 R21). -/
def State.servingPeer (s : State) (p : Part) (m : Nat) : Option (Nat × Nat) :=
  (s.pod.candidates m).find? fun c => s.pod.attUp c.1 && !p.isDead c.2

/-- A stack is down (02 R68). -/
def State.stackDown (s : State) (d : Nat) : Bool := ((s.links[d]?).map StackLink.down).getD false

/-- The stack or the attachment of a byte is down. -/
def State.keyDown (s : State) (k : Nat) : Bool :=
  if isModuleKey k then
    match s.pod.attOf (keyModule k) with
    | some a => !s.pod.attUp a
    | none => true
  else s.stackDown (k / Config.hbmWindow)

/-- The link of a line's stack is retraining, which holds requests (02 R68). -/
def State.stackHeld (s : State) (line : Nat) : Bool :=
  ((s.links[line / Config.hbmWindow]?).map StackLink.retraining).getD false

/-- The destination sectors of a copy that have not landed (05 R133). -/
def Copy.targets (x : Copy) : List Nat := x.sectors.map Prod.snd

/-- A Ladle channel owns the line for a copy in flight (05 R133, R136). -/
def State.ladleOwns (s : State) (line : Nat) : Bool :=
  s.chans.any fun c => c.copies.any fun x => x.targets.any fun k => !isQspKey k && lineKey k = line

/-- The lines of every die for one address (02 R53: the holder mask). -/
def State.l2Holders (s : State) (line : Nat) : List L2Line := s.l2.filter fun l => l.key = line

/-- The access writes: a store, an atomic or a Ladle destination. -/
def AccKind.writes : AccKind → Bool
  | .write => true
  | .atomic => true
  | _ => false

/-- The subcode with which a physical access of `size` bytes by a partition is refused, if it is (01 R18, R21, R26, R33, 02
R68, R70, 05 R128). -/
def State.physRefusal (s : State) (p : Part) (pa size : Nat) (kind : AccKind) : Option Nat :=
  match physPlace pa with
  | .hbm d _ => if kind.writes && s.stackDown d then some 6 else none
  | .hbmHole => some 6
  | .reserved => some 6
  | .mmioHole => some 6
  | .attach a x =>
    if p.limit a < x + size then some 6 else if s.pod.attUp a then none else some 9
  | .relay m _ =>
    if s.pod.size ≤ m || (s.pod.attOf m).isSome then some 10
    else if (s.servingPeer p m).isNone then some 18 else none
  | .ladle _ _ off => if off < 0x10 || (0x800 ≤ off && off < 0x1008) then none else some 6
  | .page q _ => if q = p.num then none else some 7
  | .ras .. => some 7

/-! ## Beyond the allocation at a module (03 R389) -/

/-- Who makes an access, for the error log (01 R35): REQTYPE, REQID and its ASID. -/
structure Requester where
  type : Nat
  id : Nat
  asid : Nat
deriving DecidableEq, Repr

/-- No requester (03 R94). -/
def Requester.none : Requester := { type := 0, id := 0x3FFFFFFF, asid := 0 }

/-- The bytes lie at a module beyond what it allocates now to the partition (03 R389). -/
def State.pastAllocation (s : State) (part key n : Nat) : Bool :=
  isModuleKey key && !s.keyDown key && part < 16
    && (match (s.pod.attOf (keyModule key)).bind fun a => s.pod.atts[a]? with
        | some t => decide (t.fabricCap.getD part 0 < keyOffset key + n)
        | none => false)

/-- An access to such bytes goes to the module: no die of the package holds their line (03 R389). -/
def State.beyondModule (s : State) (part key n : Nat) : Bool :=
  s.pastAllocation part key n && (s.l2Holders (lineKey key)).isEmpty

/-- A 64-byte access that the module turns away is logged with subcode 0x06 (03 R389). -/
def State.logAway (s : State) (part : Nat) (r : Requester) (key kind : Nat) : State :=
  s.logError part
    { addr := paOfKey s.pod (sectorKey key), asid := r.asid, sub := 6, cls := 5, level := 15, kind := kind, reqType := r.type,
      reqId := r.id, phys := true }

/-! ## A stack's array (02 R64) -/

/-- The hold slot of a bank (02 R62), when it has ever held a row. -/
def State.slotOf (s : State) (stack bank : Nat) : Option RowSlot :=
  s.rows.find? fun r => r.stack = stack && r.bank = bank && !r.recorded

/-- A transfer has got through to a stack: the replays of the next one start at none (02 R68). -/
def State.transferred (s : State) (stack : Nat) : State :=
  match s.links[stack]? with
  | some l => if l.replays = 0 then s else { s with links := s.links.set stack { l with replays := 0 } }
  | none => s

/-- An access of a stack's array; one of another row of a bank that holds one closes the row and opens it again, which is
counted (02 R64). -/
def State.rowAccess (s : State) (key : Nat) : State :=
  if isModuleKey key then s
  else
    let off := key % Config.hbmWindow
    let s1 := s.transferred (key / Config.hbmWindow)
    match s1.slotOf (key / Config.hbmWindow) (hbmBank off) with
    | some r => if r.held && r.row ≠ hbmRow off then s1.charge r.part 0x031 1 else s1
    | none => s1

/-- An access of a line that no die holds reaches the stack's array (02 R64). -/
def State.arrayAccess (s : State) (key : Nat) : State :=
  if (s.l2Holders (lineKey key)).isEmpty then s.rowAccess key else s

/-- The sectors of `n` bytes from a key. -/
def sectorsOf (key n : Nat) : List Nat :=
  (List.range ((key % 64 + n + 63) / 64)).map fun i => sectorKey key + 64 * i

/-- An access of `n` bytes that reaches the array with each sector that no die holds (02 R64). -/
def State.arraySpan (s : State) (key n : Nat) : State := (sectorsOf key n).foldl State.arrayAccess s

/-- A reader of the coherent value of a byte's line must wait: a Ladle channel owns the line (04 R123), or it is in no L2 while its
stack's link retrains (02 R68). -/
def State.lineHeld (s : State) (key : Nat) : Bool :=
  s.ladleOwns (lineKey key) || (!isModuleKey key && s.stackHeld key && (s.l2Holders (lineKey key)).isEmpty)

/-! ## The grants (01 R22) -/

/-- Every byte of a range lies in a list of ranges, each (base, length). -/
def coveredBy : Nat → List (Nat × Nat) → Nat → Nat → Bool
  | 0, _, _, len => len = 0
  | n + 1, rs, base, len =>
    if len = 0 then true
    else match rs.find? fun r => r.1 ≤ base && base < r.1 + r.2 with
      | none => false
      | some r => let got := r.1 + r.2 - base; if len ≤ got then true else coveredBy n rs (base + got) (len - got)

/-- Every byte of a page lies within the partition's granted ranges, which its register page joins (01 R22). -/
def Part.granted (p : Part) (base len : Nat) : Bool :=
  coveredBy 34 ((Config.pageBase + p.num * 4096, 4096) :: p.ranges.map fun r => (r.2.1, r.2.2)) base len

/-! ## The walk (01 R23, R25, R28) -/

/-- How a walk ends. -/
inductive WalkResult where
  /-- A leaf: the count of its 4 KiB pages, its frame, and its bits. -/
  | leaf (pages frame : Nat) (w x na : Bool) (tier : Tier)
  /-- Refused, with the subcode and the level. -/
  | refused (sub level : Nat)
  /-- The page of the RAS registers, which is not granted: refused by address (R18, 02 R70), at the level. -/
  | ras (level : Nat)
deriving DecidableEq, Repr

/-- The value of a table entry at a physical address, as the walker of a die reads it: from its walk cache, or through
the coherent L2; or the subcode that refuses the read (01 R28). DESIGN CHOICE (log 55): an entry's address in a relay window, an
aperture or the partition's own register page is refused with 0x06, and no entry's address is held against the grants of R22. -/
def State.readEntry (s : State) (die : Option Nat) (p : Part) (asid pa : Nat) : Except Nat Nat :=
  match (match die with
    | some d => s.walkCache.find? fun (c : WalkCacheEntry) => c.die = d && c.part = p.num && c.asid = asid && c.addr = pa
    | none => none) with
  | some c => .ok c.val
  | none =>
    match s.physRefusal p pa 8 .walk with
    | some sub => .error sub
    | none =>
      match physPlace pa with
      | .hbm d _ =>
        if s.stackDown d || s.poisoned pa then .error 0x13 else .ok (s.peekNat pa 8)
      | .attach a x =>
        match s.pod.moduleOf a with
        | none => .error 9
        | some m => if s.poisoned (moduleKey m x) || s.beyondModule p.num (moduleKey m x) 8 then .error 0x13 else .ok (s.peekNat (moduleKey m x) 8)
      | _ => .error 6

/-- The subcode that refuses a leaf for the whole 4 KiB block that the access lies in: a place that is not decoded or not populated
(01 R18), or the register page of another partition (01 R26). -/
def Part.blockRefusal (p : Part) : PhysPlace → Option Nat
  | .reserved => some 6
  | .hbmHole => some 6
  | .mmioHole => some 6
  | .page q _ => if q = p.num then none else some 7
  | _ => none

/-- A leaf as the TLBs hold it, or its refusal: its frame's region (0x06), its tier (0x05), its block, the grants (0x07);
`page` is the virtual page that the walk is for. The page of the RAS registers is judged access by access (R18). -/
def Part.leafOf (p : Part) (e level pages page : Nat) : WalkResult :=
  let frame := pteFrame e / (pages * 4096) * (pages * 4096)
  let block := frame + page % pages * 4096
  match (physPlace frame).tier with
  | none => .refused 6 level
  | some t =>
    if t.num ≠ pteTier e then .refused 5 level
    else match p.blockRefusal (physPlace block) with
      | some sub => .refused sub level
      | none =>
        if p.granted frame (pages * 4096) then .leaf pages frame (pteW e) (pteX e) (pteNA e) t
        else if block = Config.rasBase then .ras level
        else .refused 7 level

/-- The subcode with which a walk's refusal meets an access: in the page of the RAS registers an address that nothing decodes
is refused as such (R18). -/
def WalkRefusal.subAt (r : WalkRefusal) (va : Nat) : Nat :=
  if r.ras then (match physPlace (Config.rasBase + va % 4096) with | .mmioHole => 6 | _ => 7) else r.sub

/-- A range meets a save area, which no page table can map (14 R340). -/
def State.inSaveArea (s : State) (base len : Nat) : Bool :=
  s.parts.any fun p => match p.saveArea with
    | some a => decide (a < base + len) && decide (base < a + p.areaUnits * 65536)
    | none => false

/-- A leaf read by a walk: one that reaches a save area is refused with the grants' subcode. -/
def State.leafOf (s : State) (p : Part) (e level pages page : Nat) : WalkResult :=
  match p.leafOf e level pages page with
  | .leaf n frame w x na t => if s.inSaveArea frame (n * 4096) then .refused 7 level else .leaf n frame w x na t
  | r => r

/-- Level 0 (01 R23): the first entry of the aligned group of sixteen decides. -/
def State.walkLeaf (s : State) (die : Option Nat) (p : Part) (asid page table : Nat) : WalkResult :=
  let idx := page % 512
  match s.readEntry die p asid (table + 8 * (idx / 16 * 16)) with
  | .error sub => .refused sub 0
  | .ok g =>
    if ptePS g then (if pteV g then s.leafOf p g 0 16 page else .refused 2 0)
    else match s.readEntry die p asid (table + 8 * idx) with
      | .error sub => .refused sub 0
      | .ok e => if pteV e then s.leafOf p e 0 1 page else .refused 2 0

/-- Levels `n` to 1, then level 0; the entries of tables read on the way, for the walk cache. -/
def State.walkLevels (s : State) (die : Option Nat) (p : Part) (asid page : Nat) :
    Nat → Nat → WalkResult × List (Nat × Nat)
  | 0, table => (s.walkLeaf die p asid page table, [])
  | n + 1, table =>
    let level := n + 1
    let pa := table + 8 * (page / 2 ^ (9 * level) % 512)
    match s.readEntry die p asid pa with
    | .error sub => (.refused sub level, [])
    | .ok e =>
      if !pteV e then (.refused 2 level, [])
      else if ptePS e then
        (if 3 ≤ level then .refused 8 level else s.leafOf p e level (2 ^ (9 * level)) page, [])
      else if 2 ≤ pteTier e then (.refused 8 level, [])
      else
        let r := State.walkLevels s die p asid page n (pteFrame e)
        (r.1, (pa, e) :: r.2)

/-- A walk from a root table (01 R25). -/
def State.walk (s : State) (die : Option Nat) (p : Part) (asid root page : Nat) : WalkResult × List (Nat × Nat) :=
  let pa := root + 8 * asid
  match s.readEntry die p asid pa with
  | .error sub => (.refused sub 5, [])
  | .ok e =>
    if !pteV e then (.refused 2 5, [])
    else if 2 ≤ pteTier e then (.refused 8 5, [])
    else
      let r := s.walkLevels die p asid page 4 (pteFrame e)
      (r.1, (pa, e) :: r.2)

/-- The addresses that a walk reads (01 R25, R28): those of the table entries it went through, then the entry that ended it; at
level 0 the head of the entry's group of sixteen comes first. -/
def walkAddrs (asid root page : Nat) (es : List (Nat × Nat)) : List Nat :=
  es.map Prod.fst ++ (match es.getLast? with
    | none => [root + 8 * asid]
    | some (_, e) =>
      let level := 5 - es.length
      let idx := page / 2 ^ (9 * level) % 512
      if level = 0 then [pteFrame e + 8 * (idx / 16 * 16), pteFrame e + 8 * idx] else [pteFrame e + 8 * idx])

/-- The sectors that a walk reads; entries that the walk cache holds are not read. -/
def State.walkSectors (s : State) (die part asid root page : Nat) (es : List (Nat × Nat)) : List Nat :=
  let cached (a : Nat) : Bool := s.walkCache.any fun c => c.die = die && c.part = part && c.asid = asid && c.addr = a
  ((((walkAddrs asid root page es).filter fun a => !cached a).filterMap (keyOfPa s.pod)).map sectorKey).eraseDups

/-- What a walk's reads do besides: an access to a stack's array (02 R64), or a record when the module turns one away (03
R389). -/
def State.walkReads (s : State) (die part asid root page : Nat) (es : List (Nat × Nat)) : State :=
  (s.walkSectors die part asid root page es).foldl (fun (t : State) k =>
    if isModuleKey k then (if t.beyondModule part k 64 then t.logAway part .none k 4 else t) else t.arrayAccess k) s

/-! ## The TLBs -/

/-- The entry for a page that a structure holds. -/
def State.tlbFind (s : State) (place : TlbPlace) (part asid page : Nat) : Option TlbEntry :=
  s.tlb.find? fun e => e.place = place && e.part = part && e.asid = asid && e.page ≤ page && page < e.page + e.pages

/-- Entries that a structure can hold (01 R29). -/
def TlbPlace.size : TlbPlace → Nat
  | .core _ => Config.coreTlbSize
  | .quad _ => Config.quadTlbSize
  | .ladle _ _ => Config.ladleTlbSize
  | .runner => Config.runnerTlbSize

/-- The element at an index taken out of a list. -/
def dropAt {α : Type} (l : List α) (i : Nat) : List α := l.take i ++ l.drop (i + 1)

/-- The entries with which a new one competes for its place, and how many stand there: those of its structure; in a quad TLB,
which is 8-way, those of its set once eight entries are there (01 R29, log 49). -/
def State.tlbPeers (s : State) (e : TlbEntry) : List TlbEntry × Nat :=
  let mine := s.tlb.filter fun x => x.place = e.place
  match e.place with
  | .quad _ =>
    if mine.length < 8 then (mine, 8)
    else
      (mine.filter fun x =>
        Config.quadTlbIndex x.page x.pages % 256 = Config.quadTlbIndex e.page e.pages % 256, 8)
  | pl => (mine, pl.size)

/-- An entry put into a structure; a full structure gives one up (log 14). -/
def State.tlbFill (s : State) (e : TlbEntry) : State :=
  if (s.tlbFind e.place e.part e.asid e.page).isSome then s
  else
    let mine := (s.tlbPeers e).1
    if mine.length < (s.tlbPeers e).2 then { s with tlb := s.tlb ++ [e] }
    else
      let (n, s1) := s.fresh
      let out := mine.getD (Config.victim mine.length n % mine.length) e
      { s1 with tlb := s1.tlb.erase out ++ [e] }

/-- A table entry put into a die's walk cache, at most 512 (01 R29); a full one gives an entry up (log 14). -/
def State.walkCachePut (s : State) (c : WalkCacheEntry) : State :=
  let mine := s.walkCache.filter fun x => x.die = c.die
  if mine.any fun x => x.part = c.part && x.asid = c.asid && x.addr = c.addr then s
  else if mine.length < Config.walkCacheSize then { s with walkCache := s.walkCache ++ [c] }
  else
    let (n, s1) := s.fresh
    { s1 with walkCache := s1.walkCache.erase (mine.getD (Config.victim mine.length n % mine.length) c) ++ [c] }

/-- Table entries put into a die's walk cache. -/
def State.walkCacheFill (s : State) (die part asid : Nat) (es : List (Nat × Nat)) : State :=
  es.foldl (fun (t : State) x => t.walkCachePut { die := die, part := part, asid := asid, addr := x.1, val := x.2 }) s

/-- The translation of an address. -/
inductive Xlat where
  /-- The physical address, and the entry that gave it. -/
  | ok (pa : Nat) (e : TlbEntry)
  /-- Refused, with the subcode and the walk level (0xF when no walk applies). -/
  | deny (sub level : Nat)
  /-- No structure holds the page. -/
  | miss (page : Nat)
deriving DecidableEq, Repr

/-- What an entry answers for an access: W for a store or an atomic, X and the tier for a fetch (01 R23, R33). -/
def State.throughEntry (s : State) (p : Part) (e : TlbEntry) (va size : Nat) (kind : AccKind) : Xlat :=
  let pa := e.frame + (pageOf va - e.page) * 4096 + va % 4096
  if kind.writes && !e.w then .deny 3 15
  else if kind = .fetch && (!e.x || e.tier = .relay || e.tier = .aperture) then .deny 4 15
  else match s.physRefusal p pa size kind with
    | some sub => .deny sub 15
    | none => .ok pa e

/-- The translation of one access through structures, and through what the requester's walks have refused. -/
def State.xlate (s : State) (places : List TlbPlace) (refused : List WalkRefusal) (p : Part) (asid va size : Nat)
    (kind : AccKind) : Xlat :=
  if !canonical va then .deny 1 15
  else match places.findSome? fun pl => s.tlbFind pl p.num asid (pageOf va) with
    | some e => s.throughEntry p e va size kind
    | none =>
      match refused.find? fun r => r.page = pageOf va with
      | some r => .deny (r.subAt va) r.level
      | none => .miss (pageOf va)

/-- The structures that serve a wave (01 R29). -/
def Wave.tlbPlaces (w : Wave) : List TlbPlace := [.core w.core, .quad (coreQuad w.core)]

/-- The translation of a wave's access from a unit (a partition that is gone translates nothing). -/
def State.waveXlate (s : State) (w : Wave) (u : UnitSt) (va size : Nat) (kind : AccKind) : Xlat :=
  match s.part? w.part with
  | none => .deny 7 15
  | some p => s.xlate w.tlbPlaces u.refusals p (s.waveAsid w) va size kind

/-! ## Walk requests (01 R30) -/

/-- A walk of a page asked for by a client: it attaches to the walk of that page on the die, or queues one. -/
def State.requestWalk (s : State) (die part asid page root : Nat) (c : WalkClient) : State :=
  let same (k : Walk) : Bool := k.die = die && k.part = part && k.asid = asid && k.page = page
  if s.walks.any same then
    let attach (k : Walk) : Walk := if k.clients.contains c then k else { k with clients := k.clients ++ [c] }
    { s with walks := mapWhere s.walks same attach }
  else
    { s with walks := s.walks ++ [{ die := die, part := part, asid := asid, page := page, started := false,
                                    root := root, clients := [c] }] }

/-- The core of a client that is a wave's unit. -/
def WalkClient.core? : WalkClient → Option Nat
  | .wave _ _ _ core => some core
  | _ => none

/-- The walker that serves a client: its die's, or the Runner's, numbered 8 (01 R29). -/
def WalkClient.walker : WalkClient → Nat
  | .wave _ _ _ core => coreDie core
  | .chan die _ => die
  | .runner _ _ => 8

/-- Walks in flight at once, and requests queued besides, at a walker (01 R29). -/
def walkerSize (die : Nat) : Nat × Nat := if die = 8 then (16, 16) else (64, 256)

/-- The structures whose miss entries a client's miss takes, each by the clients that share it, with their count (01 R29): its
core and its quad; its channel; the Runner. -/
def WalkClient.shares (c : WalkClient) : List ((WalkClient → Bool) × Nat) :=
  match c with
  | .wave _ _ _ core =>
    [(fun x => x.core? = some core, 32), (fun x => x.core?.map coreQuad = some (coreQuad core), 64)]
  | .chan die ch => [(fun x => x = .chan die ch, 4)]
  | .runner _ _ => [(fun x => x.walker = 8, 32)]

/-- The miss entries of a client's structures and its walker leave room for a page (01 R29, R30). -/
def State.walkRoom (s : State) (c : WalkClient) (part asid page : Nat) : Bool :=
  let here (k : Walk) : Bool := k.die = c.walker && k.part = part && k.asid = asid && k.page = page
  let size := walkerSize c.walker
  (c.shares.all fun x =>
      (s.walks.any fun k => here k && k.clients.any x.1)
        || decide ((s.walks.filter fun k => k.clients.any x.1).length < x.2))
    && (s.walks.any here || decide ((s.walks.filter fun k => k.die = c.walker).length < size.1 + size.2))

/-- A client asks for the walk of a page, when there is room. -/
def State.askWalk (s : State) (c : WalkClient) (part asid page : Nat) : State × Bool :=
  if s.walkRoom c part asid page then
    (s.requestWalk c.walker part asid page (((s.part? part).map Part.xltBase).getD 0) c, true)
  else (s, false)

/-- A list without its repeats. -/
def dedup {α : Type} [BEq α] : List α → List α
  | [] => []
  | x :: xs => x :: (dedup xs).filter fun y => !(x == y)

/-- Walks asked for, page by page, as far as the miss entries leave room; the pages asked for. -/
def State.askWalks (s : State) (w : Wave) (arm : Arm) : List Nat → State × List Nat
  | [] => (s, [])
  | pg :: rest =>
    let g := s.askWalk (.wave w.seq w.wid arm w.core) w.part (s.waveAsid w) pg
    let r := State.askWalks g.1 w arm rest
    (r.1, if g.2 then pg :: r.2 else r.2)

/-- A unit waits for the walks of the pages it could ask for, and its word issues again after them; while every miss entry is
busy the word stalls (01 R30). -/
def State.waitForWalks (s : State) (w : Wave) (i : Issue) (pages : List Nat) : State :=
  let r := s.askWalks w i.arm (dedup pages)
  if r.2 = [] then s.stall else (r.1.setWave (w.setUnit i.arm { w.unit i.arm with wait := .walk r.2 })).stall

/-! ## How a wave takes a refusal (01 R34, R37, R38) -/

/-- Subcodes 0x02 and 0x03 are restartable (01 R33). -/
def restartable (sub : Nat) : Bool := sub = 2 || sub = 3

/-- The trap cause of a refused access (01 R33). -/
def refusalCause (sub : Nat) : Nat := if restartable sub then 4 else if sub = 14 then 17 else 5

/-- The error-log record of a wave's refused access. DESIGN CHOICE (log 49): a refusal that a walk found is logged with the kind
of the access; 01 R35 lists 4 (walk) and does not say when it applies, and the model gives it to a walk's own read alone. -/
def State.logWave (s : State) (w : Wave) (addr sub level : Nat) (kind : AccKind) (phys : Bool) : State :=
  s.logError w.part
    { addr := addr, asid := s.waveAsid w, sub := sub, cls := refusalCause sub, level := level, kind := kind.code,
      reqType := 0, reqId := s.waveReqId w, phys := phys }

/-- The body of a translation event (15 R357, TYPE 0x01). -/
def translationBody (va tag asid sub : Nat) (kind : AccKind) (wid : Nat) : List Byte :=
  packBytes [(8, va), (4, tag), (2, asid), (1, sub), (1, kind.code), (4, wid)]

/-- A partition's host queue has room for one more event (15 R357, 01 R38): it is set, and its 256 records are not all in
use or spoken for. -/
def State.hqRoom (s : State) (p : Part) : Bool :=
  p.hqBase.isSome && ringUsed (s.mbox p.mbx).hqTail (s.mbox p.mbx).hqHead + p.events.length < 256

/-- The unit parks at its word with a fault tag; the translation event is posted while the queue has room (01 R38). -/
def State.parkAtFault (s : State) (w : Wave) (arm : Arm) (va sub : Nat) (kind : AccKind) (wordAt : Nat) (second : Bool) :
    State :=
  let tag := s.nextTag
  let asid := s.waveAsid w
  let room := match s.part? w.part with
    | some p => s.hqRoom p
    | none => false
  let s1 := { s with nextTag := s.nextTag + 1 }
  let w1 := w.setUnit arm { w.unit arm with
    wait := .fault tag va asid sub kind room 0 wordAt second, refusals := [] }
  let s2 := s1.setWave w1
  if room then s2.postEvent w.part 1 w.seq (translationBody va tag asid sub kind w.wid) else s2

/-- The word's reported lane is refused (01 R34, R38): one record; the wave parks, or traps at offset `pc`. -/
def State.refuseWord (s : State) (w : Wave) (i : Issue) (pc addr sub level : Nat) (kind : AccKind) (phys : Bool) :
    State :=
  let s1 := s.logWave w addr sub level kind phys
  if restartable sub then (s1.parkAtFault w i.arm addr sub kind pc i.second).stall
  else (s1.enterTrap w i.arm pc (refusalCause sub) sub addr i.second .none).trapped

end Sys2Proof.Machine
end

