-- ==== Sys2Proof/Machine/Place.lean ====
section
/-!
DEFINITION. An instruction placed where the next step runs it: a running wave of a launch of partition 0, whose code page
its core's TLB holds, with the packet in HBM (log 20).
-/
namespace Sys2Proof.Machine

/-- A fresh vector register file of a wave (07_execution R170). -/
def freshVregs (n : Nat) : List VReg := List.replicate n VReg.zero

/-- A wave at its launch (07_execution R170): every register zero, all lanes active. -/
def Wave.fresh (seq wid part core place vstack : Nat) : Wave :=
  { seq := seq, wid := wid, part := part, core := core, place := place, status := .running, saved := false,
    started := false, ctx := none, parkedAt := 0, readyAt := 0, ctxAt := 0, vregs := freshVregs vstack, lo := 0,
    winBase := 0, sregs := Vector.replicate 64 0, spoison := 0, pregs := Vector.replicate 64 { bits := 0, poison := 0 },
    qregs := 0, qpoison := 0, tiles := Vector.replicate 16 0, accs := [], fpFlags := 0, trapCause := 0, trapAddr := 0,
    trapPc := 0, trapBase := 0, savedFmt := 0, handler := none, bucket := 0, bounds := List.replicate 8 0,
    phaseVar := 0, phaseStart := 0, cycCapture := 0, progress := 0, watchdogFired := false, missed := none, late := [],
    calls := [], spilledCalls := 0, callArm := none, spillBase := 0, spillSize := 0, spillPoison := [],
    haltedLanes := 0, divergent := false, unitT := { UnitSt.empty with mask := allLanes }, unitE := UnitSt.empty,
    pend := [], nextOp := 1, withdrawn := [], dbgStop := false, dbgStep := none }

/-- A counter as PARTCREATE leaves it (13_isa_matrix_system R327). -/
def Counter.zero : Counter := { value := 0, event := 0, en := false, ie := false, ovf := false }

/-- A partition as PARTCREATE leaves it (15_partitions_host_startup R344, R358): the defaults of R63, R187 and the page
registers at their resets. -/
def Part.fresh (num slices : Nat) (ld : Option Nat) (asids quantum : Nat) (limits : List Nat) : Part :=
  { num := num, sliceMask := slices, ld := ld, asidCount := asids, quantum := quantum, holdDrop := false,
    watchdog := 2 ^ 32, ways := [], quotas := List.replicate 8 0, ranges := [], group := num, peerGroups := [], dead := 0,
    windowLimit := limits, xltBase := 0, xltInvaVa := 0, xltGo := false, xltErr := false, xltAsid := 0, xltSize := 0,
    xltKind := 0, ctxBase := 0, ctxSize := 0, ctxSizeNext := none, nqBase := 0, spillBase := 0, spillSize := 0,
    elBase := none, elLog2 := 0, dropped := 0, hqBase := none, events := [], counters := Vector.replicate 16 Counter.zero,
    grants := [], debug := false, stoppedCores := [], savedTmpl := [], savedEng := [], savedQsp := [],
    saveArea := none, areaUnits := 0, savedAt := 0, resave := false }

/-- The partition that the placed wave runs in: dense 0 on slice 0, the first MiB of stack 0 granted. -/
def placedPart : Part :=
  { Part.fresh 0 1 none 1 (2 ^ 32) (List.replicate 8 0) with ranges := [(0, 0, 0x100000)] }

/-- The launch of the placed wave. -/
def placedLaunch : Launch :=
  { seq := 1, part := 0, asid := 0, code := 0, slices := 1, nwaves := 1, vstack := 64, acc := 0, qsp := 0, prio := 0,
    dtab := 0, args := List.replicate 32 0, windows := [] }

/-- The placed wave: at offset 0 of its code, with an issue context. -/
def placedWave : Wave := { Wave.fresh 1 0 0 0 0 64 with ctx := some 0 }

/-- The translation of the code page, in the wave's core TLB. -/
def placedEntry : TlbEntry :=
  { place := .core 0, part := 0, asid := 0, page := 0, pages := 1, frame := 0, w := true, x := true, na := false,
    tier := .hbm }

/-- The state with a partition, a launch and a running wave whose next word is the instruction. The word's bits stand at the
lowest address of the packet, little-endian (09_encoding R205); the packet's other bytes are 0. -/
def State.placed (s : State) (nbits w : Nat) : State :=
  { s with
    turn := [.unit 1 0 .t], agenda := [], issue := none, call := .none,
    dev := { s.dev with off := false, throttle := List.replicate 8 0 }, ways := [{ die := 0, slice := none, owners := List.replicate 16 0, moved := none }],
    parts := [placedPart], sets := [{ num := 0, slices := 1, members := [0], holder := some 0, since := 0 }],
    switches := [], launches := [placedLaunch], waves := [placedWave], nextSeq := 2,
    tlb := [placedEntry], icache := [], walks := [],
    mem := ((s.mem.clear 0 16).writeNat 0 (nbits / 8) (w % 2 ^ nbits)), poison := [] }

end Sys2Proof.Machine
end

