-- ==== Sys2Proof/Machine/Cache.lean ====
section
/-!
DEFINITION. The caches of the package (02_on_package_memory R47 to R59): the write queue and the L1 of a quad, the L2s of
the dies with their ways, the directory, and the package's permissions at the modules. Memory holds the coherent value of
every byte; what a module itself holds beneath a dirty line stands in State.stale.
-/
namespace Sys2Proof.Machine

/-! ## Lines and who has them -/

/-- What a cache operation answers: the state, and whether it was done; otherwise it waits for another agent. -/
abbrev Got := State × Bool

/-- An operation for each element in turn; done when each is. -/
def gotAll {α : Type} (s : State) (l : List α) (f : State → α → Got) : Got :=
  l.foldl (fun (g : Got) x => let r := f g.1 x; (r.1, g.2 && r.2)) (s, true)

/-- The wave's record as it stands now. -/
def State.again (s : State) (w : Wave) : Wave := (s.wave? w.seq w.wid).getD w

/-- A sleep in WAITLINE on the line is woken (10 R246). -/
def Wait.wakeLine (line : Nat) : Wait → Wait
  | .line l d k => .line l d (k || decide (l = line))
  | x => x

/-- A sleeper of WAITLINE on the line is woken. -/
def UnitSt.wakeLine (u : UnitSt) (line : Nat) : UnitSt := { u with wait := u.wait.wakeLine line }

/-- Every monitor on a line is triggered: a write, an ownership request, an atomic or a snoop reached it (10 R246); that of a wave
whose handler runs meanwhile is among them. -/
def State.wakeLine (s : State) (line : Nat) : State :=
  { s with waves := s.waves.map fun w =>
      { w with
        unitT := w.unitT.wakeLine line, unitE := w.unitE.wakeLine line,
        handler := w.handler.map fun h => { h with wait := h.wait.wakeLine line } } }

/-- The line of a die's L2, when it holds it. -/
def State.l2Find (s : State) (die line : Nat) : Option L2Line := s.l2.find? fun l => l.die = die && l.key = line

/-- The sector is the second of its line. -/
def upperSector (k : Nat) : Bool := k.testBit 6

/-- The line's sector is valid. -/
def L2Line.valid (l : L2Line) (k : Nat) : Bool := if upperSector k then l.valid1 else l.valid0

/-- The line with a sector valid. -/
def L2Line.fill (l : L2Line) (k : Nat) : L2Line := if upperSector k then { l with valid1 := true } else { l with valid0 := true }

/-- The line's sector is dirty with respect to memory. -/
def L2Line.dirty (l : L2Line) (k : Nat) : Bool := if upperSector k then l.dirty1 else l.dirty0

/-- The line with a sector dirty. -/
def L2Line.soil (l : L2Line) (k : Nat) : L2Line := if upperSector k then { l with dirty1 := true } else { l with dirty0 := true }

/-- The state with one L2 line changed. -/
def State.modL2 (s : State) (die line : Nat) (f : L2Line → L2Line) : State :=
  { s with l2 := mapWhere s.l2 (fun l => l.die = die && l.key = line) f }

/-- A line dirty with respect to memory (02 R54). -/
def LineState.dirty : LineState → Bool
  | .m => true
  | .o => true
  | _ => false

/-! ## Permission at a module (02 R56) -/

/-- The package's permission for a module line. -/
def State.permOf (s : State) (line : Nat) : Option Perm := (s.perms.find? fun p => p.key = line).map PermEntry.perm

/-- The two requests for any-exclusive permission are one kind (02 R56). -/
def memKindBase : MemKind → MemKind
  | .ownHeld => .own
  | k => k

/-- The dies hold both sectors of a line: the package has its data (02 R56). -/
def State.dataHeld (s : State) (line : Nat) : Bool :=
  (s.l2Holders line).any L2Line.valid0 && (s.l2Holders line).any L2Line.valid1

/-- The permission set. -/
def State.setPerm (s : State) (line : Nat) (p : Option Perm) : State :=
  let rest := s.perms.filter fun x => x.key ≠ line
  { s with perms := match p with
    | some q => rest ++ [{ key := line, perm := q }]
    | none => rest }

/-- Flits on the pod's ports counted, sent or received (13 R330). -/
def State.chargeFlits (s : State) (sent : Bool) (bytes : Nat) : State :=
  if s.pod.privilege.isSome then s.chargePod (if sent then 0x050 else 0x051) (Config.flitsOf bytes) else s

/-- A request to a module for a line, unless one of its kind is outstanding. -/
def State.askModule (s : State) (die part line : Nat) (kind : MemKind) : State :=
  if s.memReqs.any fun r => r.key = line && memKindBase r.kind = memKindBase kind then s
  else
    ({ s with memReqs := s.memReqs ++ [{ key := line, kind := kind, die := die, part := part, sent := s.now, snoop := 0 }] } :
      State).chargeFlits true (match kind with
        | .writeInvalid => 128
        | .writeKeep => 128
        | _ => 0)

/-- Memory can answer for a line: a stack's link is not retraining, or a die holds the line; towards a module the permission
that a read (`own` false) or a write needs is held, or is asked for (02 R56). -/
def State.permitted (s : State) (die part line : Nat) (own : Bool) : Got :=
  if !isModuleKey line then (s, !s.stackHeld line || s.l2Holders line ≠ [])
  else match s.permOf line, own with
    | some .exclusive, _ => (s, true)
    | some .shared, false => (s, true)
    | _, true => (s.askModule die part line (if s.dataHeld line then .ownHeld else .own), false)
    | none, false => (s.askModule die part line .readShared, false)

/-! ## The L2 (02 R52, R54, 15 R348) -/

/-- The owners of the 16 ways of a slice of a die: its own row, or the die's. -/
def State.wayOwners (s : State) (die slice : Nat) : List Nat :=
  match s.ways.find? fun r => r.die = die && r.slice = some slice with
  | some r => r.owners
  | none =>
    match s.ways.find? fun r => r.die = die && r.slice = none with
    | some r => r.owners
    | none => List.replicate 16 16

/-- The ways that a partition owns for a line on a die. -/
def State.ownWays (s : State) (die line part : Nat) : List Nat :=
  let owners := s.wayOwners die (l2SliceOf s.pod line)
  (List.range 16).filter fun i => owners.getD i 16 = part

/-- A partition owns some way, so that its fills allocate (15 R348). -/
def State.ownsWay (s : State) (die line part : Nat) : Bool := s.ownWays die line part ≠ []

/-- The first write to a module line: what the module holds beneath is kept (02 R54). -/
def State.dirtyLine (s : State) (line : Nat) : State :=
  if isModuleKey line && !(s.stale.any fun x => x.key = line) then
    { s with stale := s.stale ++ [{ key := line, data := s.peek line 128, poison := s.anyPoison line 128 }] }
  else s

/-- The module holds the line's bytes again. -/
def State.cleanLine (s : State) (line : Nat) : State := { s with stale := s.stale.filter fun x => x.key ≠ line }

/-- A read of HBM for a sector that no die holds is counted (13 R330). -/
def State.chargeFetch (s : State) (part key : Nat) : State :=
  if !isModuleKey key && !((s.l2Holders (lineKey key)).any fun l => l.valid key) then (s.charge part 0x030 1).rowAccess key
  else s

/-- The module's own bytes of a line stand again, with their poison, where its last write-back has not reached it. -/
def State.restoreStale (s : State) (line : Nat) : State :=
  match s.stale.find? fun x => x.key = line with
  | none => s
  | some x =>
    let t := (s.clearPoison line).clearPoison (line + 64)
    let t1 := if x.poison then (t.setPoison line).setPoison (line + 64) else t
    ({ t1 with mem := t1.mem.writeBytes line x.data } : State).cleanLine line

/-- A dirty line written back to its module, which drops bytes beyond the allocation; that is logged (03 R389). -/
def State.returnLine (s : State) (l : L2Line) : State :=
  if s.pastAllocation l.tag l.key 128 then s.logAway l.tag .none l.key 1 else s.cleanLine l.key

/-- A line leaves a die's L2 (02 R54, R56): a dirty one is written back, and the last copy takes the directory's entry with it,
which wakes the line's sleepers (10 R246), and gives back the permission for a module line. -/
def State.l2Evict (s : State) (l : L2Line) : State :=
  let s1 := { s with l2 := s.l2.filter fun x => !(x.die = l.die && x.key = l.key) }
  let s2 := if l.state.dirty then (s1.charge l.tag 0x023 1).rowAccess l.key else s1
  if s2.l2Holders l.key = [] then
    let s3 := s2.wakeLine l.key
    if !isModuleKey l.key then s3
    else
      let s4 := (if l.state.dirty then s3.returnLine l else s3).restoreStale l.key
      (s4.setPerm l.key none).askModule l.die l.tag l.key (if l.state.dirty then .writeInvalid else .cleanEvict)
  else if !isModuleKey l.key then s2
  else if l.state.dirty then (s2.returnLine l).askModule l.die l.tag l.key .writeKeep
  else s2

/-- The lines of a die's L2 in the set of a line. -/
def State.setPeers (s : State) (die line : Nat) : List L2Line :=
  s.l2.filter fun l =>
    l.die = die && l2SliceOf s.pod l.key = l2SliceOf s.pod line && l2SetOf s.pod l.key = l2SetOf s.pod line

/-- The lines that a fill of a partition may displace: those in its ways that no Ladle channel owns (05 R133). -/
def State.displaceable (s : State) (die line part : Nat) : List L2Line :=
  (s.setPeers die line).filter fun l => (s.ownWays die line part).contains l.way && !s.ladleOwns l.key

/-- A fill of the partition finds a way: its line is there, or a free way, or one that may be displaced; or it has no way at all
and allocates nothing. -/
def State.wayFree (s : State) (die line part : Nat) : Bool :=
  let own := s.ownWays die line part
  (s.l2Find die line).isSome || own = []
    || own.any fun i => !((s.setPeers die line).any fun l => l.way = i && s.ladleOwns l.key)

/-- The tag of a line that a fill places: that of the fill under way, else the asking partition's (02 R52, 20 R385). -/
def State.fillTag (s : State) (die line part : Nat) : Nat :=
  ((s.fills.find? fun f => f.die = die && lineKey f.sector = line).map Fill.tag).getD part

/-- A line put into a die's L2, in a way of the partition: a free one, else one whose line another partition owns, else one
that the free value picks (15 R348, log 14). -/
def State.l2Place (s : State) (die key asked : Nat) (st : LineState) : State :=
  let line := lineKey key
  let part := s.fillTag die line asked
  let peers := s.setPeers die line
  let own := s.ownWays die line part
  let fresh (way : Nat) : L2Line :=
    ({ die := die, key := line, state := st, tag := part, way := way, valid0 := false, valid1 := false, dirty0 := false,
       dirty1 := false } : L2Line).fill key
  match own.find? fun i => !(peers.any fun l => l.way = i) with
  | some i => { s with l2 := s.l2 ++ [fresh i] }
  | none =>
    let cands := s.displaceable die line part
    let foreign := cands.filter fun l => l.tag ≠ part
    let (n, s1) := s.fresh
    let from' := if foreign = [] then cands else foreign
    match from'[Config.victim from'.length n % from'.length]? with
    | some l =>
      let s2 := s1.l2Evict l
      { s2 with l2 := s2.l2 ++ [fresh l.way] }
    | none => s

/-! ## The directory (02 R53, R55) -/

/-- The lines of a home die that its directory keeps in one of its 65,536 sets. -/
def State.directoryPeers (s : State) (line : Nat) : List Nat :=
  let home := (s.l2.filter fun l => homeDie s.pod l.key = homeDie s.pod line).map L2Line.key
  if home.length < 16 then []
  else dedup (home.filter fun k => Config.directorySet (k / 128) % 65536 = Config.directorySet (line / 128) % 65536)

/-- A line recalled from every die that holds it, the M or O holder writing back (02 R53). -/
def State.recallAll (s : State) (line : Nat) : State :=
  ((s.l2Holders line).filter (fun l => !l.state.dirty) ++ (s.l2Holders line).filter fun l => l.state.dirty).foldl
    (fun (t : State) l => t.l2Evict l) s

/-- Room in the directory for a line that no die holds (02 R53): a full set of 16 gives an entry up, whose line is recalled;
never one that a Ladle channel owns (R59). -/
def State.directoryRoom (s : State) (line : Nat) : Got :=
  if !(s.l2Holders line).isEmpty then (s, true)
  else
    let peers := s.directoryPeers line
    if peers.length < 16 then (s, true)
    else
      let free := peers.filter fun k => !s.ladleOwns k
      let (n, s1) := s.fresh
      match free[Config.victim free.length n % free.length]? with
      | some k => (s1.recallAll k, true)
      | none => (s, false)

/-- A fill has arrived, so that it is in flight no more (20 R385). -/
def State.filled (s : State) (die key : Nat) : State :=
  { s with fills := s.fills.filter fun f => !(f.die = die && f.sector = sectorKey key) }

/-- A fill of a sector under way to a die (20 R385). -/
def State.fillBegins (s : State) (die key part : Nat) : State :=
  if s.fills.any fun f => f.die = die && f.sector = sectorKey key then s
  else { s with fills := s.fills ++ [{ die := die, sector := sectorKey key, tag := s.fillTag die (lineKey key) part }] }

/-- A read request of a die (R55): the holder of M or E keeps a copy in O or S, and the requester takes S, or E when no
die holds the line. -/
def State.dirRead (s : State) (die key part : Nat) : State :=
  let line := lineKey key
  match s.l2Find die line with
  | some l => if l.valid key then s else (s.chargeFetch part key).modL2 die line fun x => x.fill key
  | none =>
    let others := s.l2Holders line
    let s0 := s.chargeFetch part key
    let s1 : State := { s0 with l2 := s0.l2.map fun l =>
      if l.key = line then
        match l.state with
        | .m => { l with state := .o }
        | .e => { l with state := .s }
        | _ => l
      else l }
    let st : LineState :=
      if others = [] && (!isModuleKey line || s.permOf line = some .exclusive) then .e else .s
    s1.l2Place die key part st

/-- The line with the sectors that some lines hold, dirty where they are. -/
def L2Line.join (l : L2Line) (ls : List L2Line) : L2Line :=
  { l with
    valid0 := l.valid0 || ls.any L2Line.valid0, valid1 := l.valid1 || ls.any L2Line.valid1,
    dirty0 := l.dirty0 || ls.any L2Line.dirty0, dirty1 := l.dirty1 || ls.any L2Line.dirty1 }

/-- A write or ownership request of a die (R55): every other copy is invalidated, and the requester takes M, with the data of
the M or O holder. -/
def State.dirOwn (s : State) (die key part : Nat) : State :=
  let line := lineKey key
  let s0 := s.chargeFetch part key
  let dirty := (s0.l2Holders line).filter fun l => l.state.dirty
  let s1 : State := ({ s0 with l2 := s0.l2.filter fun l => l.key ≠ line || l.die = die }).wakeLine line
  match s1.l2Find die line with
  | some _ => s1.modL2 die line fun x => { (x.fill key).join dirty with state := .m }
  | none => (s1.l2Place die key part .m).modL2 die line fun x => x.join dirty

/-- Every copy of a line leaves the dies; the permission stays. -/
def State.dropCopies (s : State) (line : Nat) : State := { s with l2 := s.l2.filter fun l => l.key ≠ line }

/-- The die has or allocates the line for a fill of the partition (02 R52, 15 R348). -/
def State.places (s : State) (die line part : Nat) : Bool := (s.l2Find die line).isSome || s.ownsWay die line part

/-- A directory request of a die (R55, R56): it waits for a Ladle channel that owns the line (R59), for a way, for an entry of
the directory and for the module's permission. A partition with no way of the die has nothing filled (15 R348). -/
def State.directory (s : State) (die key part : Nat) (own : Bool) : Got :=
  let line := lineKey key
  if s.ladleOwns line || !s.wayFree die line (s.fillTag die line part) then (s, false)
  else
    let g := s.permitted die part line own
    if !g.2 then g
    else if !s.places die line (s.fillTag die line part) then (g.1.filled die key, true)
    else
      let h := g.1.directoryRoom line
      if !h.2 then h
      else if own then ((h.1.dirOwn die key part).filled die key, true)
      else ((h.1.dirRead die key part).filled die key, true)

/-- The die holds the line in M, or in E, which a write makes M (02 R54). -/
def State.owns (s : State) (die key : Nat) : Bool :=
  match s.l2Find die (lineKey key) with
  | some l => l.state = .m || l.state = .e
  | none => false

/-- The die holds the line's sector. -/
def State.holds (s : State) (die key : Nat) : Bool :=
  match s.l2Find die (lineKey key) with
  | some l => l.valid key
  | none => false

/-! ## Writing through the L2 -/

/-- The bytes of a mask written from `k` up, byte by byte. -/
def Memory.writeMasked (m : Memory) (k : Nat) (bs : List Byte) (mask : Lanes) : Memory :=
  (lanesOf mask).foldl (fun (x : Memory) i => x.write (k + i) (bs.getD i 0)) m

/-- Bytes written to the coherent value of a line that the die owns. -/
def State.l2Store (s : State) (die key : Nat) (bs : List Byte) (mask : Lanes) : State :=
  let line := lineKey key
  let s1 := (s.dirtyLine line).modL2 die line fun x => { (x.fill key).soil key with state := .m }
  let s2 := ((if mask = allLanes then s1.clearPoison key else s1).wakeLine line).filled die key
  { s2 with mem := s2.mem.writeMasked key bs mask }

/-- The sectors of one line written from a die to memory, with no place in an L2 (02 R52, R55, 15 R348): the other copies go, and the
write takes the package's permission with it. What the module does not allocate is dropped, and logged (03 R389). Each write is a
sector, its bytes and their mask. -/
def State.writePast (s : State) (die part line : Nat) (ws : List (Nat × List Byte × Lanes)) (poison : Bool) : Got :=
  if s.ladleOwns line then (s, false)
  else
    let g := s.permitted die part line true
    if !g.2 then g
    else
      let s1 := ((g.1.dropCopies line).wakeLine line).rowAccess line
      let s2 := if isModuleKey line then (s1.setPerm line none).askModule die part line .writeInvalid else s1
      let put (t : State) (x : Nat × List Byte × Lanes) : State :=
        if s1.beyondModule part x.1 64 then t.logAway part .none x.1 1
        else
          let t1 := if x.2.2 = allLanes then t.clearPoison x.1 else t
          let t2 : State := { t1 with mem := t1.mem.writeMasked x.1 x.2.1 x.2.2 }
          if poison then t2.setPoison x.1 else t2
      let s3 := if s1.beyondModule part line 128 then s2.restoreStale line else s2.cleanLine line
      (ws.foldl put s3, true)

/-- A sector's bytes written from a die for a partition: the line is owned first, and allocated where the partition has a
way; otherwise the write goes on to memory (02 R52, R55, 15 R348). The bytes of a line whose stack or attachment is down are
dropped (02 R68, 03 R94). -/
def State.l2Write (s : State) (die part key : Nat) (bs : List Byte) (mask : Lanes) (poison noAlloc : Bool) : Got :=
  let line := lineKey key
  let sec := sectorKey key
  if s.keyDown line then (s, true)
  else if s.beyondModule part sec 64 then (s.logAway part .none sec 1, true)
  else
    let mark (t : State) : State := if poison then t.setPoison sec else t
    if s.owns die key && !s.ladleOwns line then (mark (s.l2Store die sec bs mask), true)
    else if (noAlloc || !s.ownsWay die line part) && (s.l2Find die line).isNone then
      s.writePast die part line [(sec, bs, mask)] poison
    else
      let g := s.directory die key part true
      if g.2 then (mark (g.1.l2Store die sec bs mask), true) else g

/-- The sectors of one line written from a die that allocates nothing for them: into the line it has, or past it. -/
def State.lineWrite (s : State) (die part line : Nat) (ws : List (Nat × List Byte × Lanes)) (poison : Bool) : Got :=
  if s.keyDown line then (s, true)
  else if (s.l2Find die line).isSome then
    gotAll s ws fun t x => t.l2Write die part x.1 x.2.1 x.2.2 poison true
  else s.writePast die part line ws poison

/-! ## The L1 (02 R47, R48, R50) -/

/-- A sector with nothing in it. -/
def L1Sector.empty : L1Sector :=
  { valid := false, data := List.replicate 64 0, present := 0, dirty := 0, poison := false }

/-- The sector of a byte. -/
def L1Line.sector (l : L1Line) (k : Nat) : L1Sector := if upperSector k then l.s1 else l.s0

/-- The line with the sector of a byte replaced. -/
def L1Line.setSector (l : L1Line) (k : Nat) (x : L1Sector) : L1Line :=
  if upperSector k then { l with s1 := x } else { l with s0 := x }

/-- The L1 line of a quad. -/
def State.l1Find (s : State) (quad line : Nat) : Option L1Line := s.l1.find? fun l => l.quad = quad && l.key = line

/-- A line of the L1 replaced in its place. -/
def State.l1Set (s : State) (l : L1Line) : State :=
  { s with l1 := mapWhere s.l1 (fun x => x.quad = l.quad && x.key = l.key) fun _ => l }

/-- A line becomes the most recently used of its set, or with `nt` the least (02 R47, R48). -/
def State.l1Touch (s : State) (l : L1Line) (nt : Bool) : State :=
  let rest := s.l1.filter fun x => !(x.quad = l.quad && x.key = l.key)
  { s with l1 := if nt then l :: rest else rest ++ [l] }

/-- The partition that holds the quad's slice (02 R52), else the line's own. -/
def State.quadHolder (s : State) (quad part : Nat) : Nat :=
  match s.sets.find? fun g => g.slices.testBit (quadSlice quad) with
  | some g => g.holder.getD part
  | none => part

/-- A sector's dirty bytes written back to the L2; the sector stays, clean (02 R50). -/
def State.writeBackSector (s : State) (quad line : Nat) (upper : Bool) : Got :=
  match s.l1Find quad line with
  | none => (s, true)
  | some l =>
    let k := line + 64 * bitOf upper
    let x := l.sector k
    if x.dirty = 0 then (s, true)
    else
      let g := s.l2Write (quadDie quad) (s.quadHolder quad l.part) k x.data x.dirty x.poison false
      if g.2 then (g.1.l1Set (l.setSector k { x with dirty := 0 }), true) else g

/-- Both sectors of a line written back. -/
def State.writeBackLine (s : State) (quad line : Nat) : Got :=
  gotAll s [false, true] fun t b => t.writeBackSector quad line b

/-- A line leaves the L1, its bytes discarded. -/
def State.l1Drop (s : State) (quad line : Nat) : State :=
  { s with l1 := s.l1.filter fun x => !(x.quad = quad && x.key = line) }

/-- Room made in the line's set: the least recently used line is written back and leaves. -/
def State.l1Room (s : State) (quad line : Nat) : Got :=
  let set := s.l1.filter fun x => x.quad = quad && l1SetOf s.pod x.key = l1SetOf s.pod line
  if set.length < 8 then (s, true)
  else match set.head? with
    | none => (s, true)
    | some v =>
      let g := s.writeBackLine quad v.key
      if g.2 then (g.1.l1Drop quad v.key, true) else g

/-- The line allocated in the L1 when it is not there, with no bytes. -/
def State.l1Alloc (s : State) (quad line part : Nat) : Got :=
  match s.l1Find quad line with
  | some _ => (s, true)
  | none =>
    let g := s.l1Room quad line
    if g.2 then
      ({ g.1 with l1 := g.1.l1 ++ [{ quad := quad, key := line, part := part, s0 := .empty, s1 := .empty }] }, true)
    else g

/-- Bytes of a mask put over a list. -/
def overlay (old new : List Byte) (mask : Lanes) : List Byte :=
  laneNumbers.map fun i => if mask.getLsbD i then new.getD i 0 else old.getD i 0

/-- A sector filled from the L2, beneath its own dirty bytes. -/
def State.l1Fill (s : State) (quad key part : Nat) (nt : Bool) : Got :=
  let line := lineKey key
  let sec := sectorKey key
  let g := s.l1Alloc quad line part
  if !g.2 then g
  else match g.1.l1Find quad line with
    | none => g
    | some l =>
      let x := l.sector key
      let y : L1Sector :=
        { valid := true, data := overlay (g.1.peek sec 64) x.data x.dirty, present := allLanes, dirty := x.dirty,
          poison := x.poison || (g.1.poisoned sec && x.dirty ≠ allLanes) }
      (g.1.l1Touch (l.setSector key y) nt, true)

/-- The mask of `n` bytes from a byte's place in its sector. -/
def byteMask (key n : Nat) : Lanes := BitVec.ofNat 64 ((2 ^ n - 1) * 2 ^ (key % 64))

/-- The part is the first of the word in its sector. -/
def leadsSector (ps : List OpPart) (p : OpPart) : Bool :=
  ((ps.find? fun q => sectorKey q.key = sectorKey p.key).map OpPart.lane) = some p.lane

/-- The part is the first of the word in its line. -/
def leadsLine (ps : List OpPart) (p : OpPart) : Bool :=
  ((ps.find? fun q => lineKey q.key = lineKey p.key).map OpPart.lane) = some p.lane

/-- The bytes of a sector that some parts read or write. -/
def coverMask (ps : List OpPart) (sec : Nat) : Lanes :=
  (ps.filter fun p => sectorKey p.key = sec).foldl (fun (m : Lanes) p => m ||| byteMask p.key p.size) 0

/-- Bytes of a sector written in the L1, dirty; a store allocates the line without a fill (02 R47). -/
def State.l1Store (s : State) (quad sec part : Nat) (bs : List Byte) (mask : Lanes) (nt : Bool) : Got :=
  let line := lineKey sec
  let g := s.l1Alloc quad line part
  if !g.2 then g
  else match g.1.l1Find quad line with
    | none => g
    | some l =>
      let x := l.sector sec
      let y : L1Sector :=
        { x with data := overlay x.data bs mask, present := x.present ||| mask, dirty := x.dirty ||| mask,
                 poison := x.poison && mask ≠ allLanes }
      (g.1.l1Touch (l.setSector sec y) nt, true)

/-! ## The write queue (02 R49) -/

/-- The entry of a sector. -/
def State.wqFind (s : State) (quad sec : Nat) : Option WqEntry := s.wq.find? fun e => e.quad = quad && e.key = sec

/-- An entry merges into the L1. -/
def State.wqMerge (s : State) (e : WqEntry) : Got :=
  let g := s.l1Store e.quad e.key e.part e.data e.mask e.nt
  if g.2 then ({ g.1 with wq := g.1.wq.filter fun x => !(x.quad = e.quad && x.key = e.key) }, true) else g

/-- The sector's entry, if there is one, merges into the L1. -/
def State.wqFlush (s : State) (quad sec : Nat) : Got :=
  match s.wqFind quad sec with
  | none => (s, true)
  | some e => s.wqMerge e

/-- The quad's write queue drains (02 R50). -/
def State.wqDrain (s : State) (quad : Nat) : Got :=
  gotAll s (s.wq.filter fun e => e.quad = quad) fun t e => t.wqMerge e

/-- All entries of the quad's write queue are in use, and a sector of a store has none (02 R49). -/
def State.wqFull (s : State) (quad : Nat) (secs : List Nat) : Bool :=
  decide (Config.writeQueueSize ≤ (s.wq.filter fun e => e.quad = quad).length)
    && secs.any fun k => (s.wqFind quad k).isNone

/-- A store enters the write queue, merging into its sector's entry, which takes its hint (12 R278); false when all 32 entries
are in use. -/
def State.wqPush (s : State) (quad part key : Nat) (bs : List Byte) (nt : Bool) : Got :=
  let sec := sectorKey key
  let mask := byteMask key bs.length
  let at64 := List.replicate (key % 64) 0 ++ bs
  match s.wqFind quad sec with
  | some e =>
    ({ s with wq := mapWhere s.wq (fun x => x.quad = quad && x.key = sec) fun _ =>
        { e with data := overlay e.data at64 mask, mask := e.mask ||| mask, nt := nt } }, true)
  | none =>
    if (s.wq.filter fun e => e.quad = quad).length < Config.writeQueueSize then
      ({ s with wq := s.wq ++ [{ quad := quad, key := sec, part := part, nt := nt,
                                 data := overlay [] at64 mask, mask := mask }] }, true)
    else (s, false)

/-- Every dirty sector of a quad's L1 written back (02 R50). -/
def State.writeBackAll (s : State) (quad : Nat) : Got :=
  gotAll s ((s.l1.filter fun l => l.quad = quad).map L1Line.key) fun t k => t.writeBackLine quad k

/-- What a release of DIE scope or wider does to the quad (02 R50): the queue drains, dirty sectors go to the L2. -/
def State.releaseQuad (s : State) (quad : Nat) : Got :=
  let g := s.wqDrain quad
  if !g.2 then g else g.1.writeBackAll quad

/-- What an acquire of DIE scope or wider does to the quad (02 R50): dirty sectors go to the L2, every line leaves the L1. -/
def State.acquireQuad (s : State) (quad : Nat) : Got :=
  let g := s.releaseQuad quad
  if !g.2 then g else ({ g.1 with l1 := g.1.l1.filter fun l => l.quad ≠ quad }, true)

/-- The quad's bytes of a sector reach the L2 before another path reads it (02 R48, R51, R67). -/
def State.sectorOut (s : State) (quad key : Nat) : Got :=
  let g := s.wqFlush quad (sectorKey key)
  if !g.2 then g else g.1.writeBackSector quad (lineKey key) (upperSector key)

/-- A sector leaves the L1 (02 R51). -/
def State.l1DropSector (s : State) (quad key : Nat) : State :=
  match s.l1Find quad (lineKey key) with
  | none => s
  | some l => s.l1Set (l.setSector key .empty)

/-! ## Reading and writing one element for a wave (02 R48, R49) -/

/-- An access of this scope and page may use the L1 (02 R48). -/
def eligible (scope : Scope) (na : Bool) : Bool := scope.rank ≤ 2 && !na

/-- A write that goes through to the L2 (02 R48, 12 R280): one that the L1 is not for, or a SCATTER's that meets neither an entry
of the write queue nor a line of the L1, where it allocates nothing. -/
def State.writesThrough (s : State) (quad : Nat) (scope : Scope) (p : OpPart) : Bool :=
  !eligible scope p.na
    || (p.noAlloc && (s.wqFind quad (sectorKey p.key)).isNone && (s.l1Find quad (lineKey p.key)).isNone)

/-- The value of bytes of a list from a place. -/
def valueAt (bs : List Byte) (i n : Nat) : Nat := bytesToNat ((bs.drop i).take n)

/-- An element read from the coherent value. -/
def State.memValue (s : State) (key n : Nat) : Nat × Bool := (s.peekNat key n, s.anyPoison key n)

/-- A read from the L2 of the wave's die: served when the die holds the sector, or when the read allocates nothing and the
directory can answer; otherwise it waits for a directory request. With `first` the read fetches its sector for the word. A line
that a Ladle channel owns waits for its landing (04 R123). -/
def State.l2Read (s : State) (die part key n : Nat) (noAlloc first : Bool) : State × Option (Nat × Bool) :=
  let line := lineKey key
  if s.ladleOwns line then (s, none)
  else if s.holds die key then (s, some (s.memValue key n))
  else if s.beyondModule part key n then
    (if first then s.logAway part .none key 0 else s, some ((s.memValue key n).1, true))
  else if noAlloc || !s.ownsWay die line part then
      let g := s.permitted die part line false
      if g.2 then (if first then g.1.chargeFetch part key else g.1, some (s.memValue key n)) else (g.1, none)
  else (s, none)

/-- The bytes that the quad's L1 has of an element, when it has them all. -/
def State.l1Bytes (s : State) (quad key n : Nat) : Option (Nat × Bool) :=
  match (s.l1Find quad (lineKey key)).map fun l => l.sector key with
  | some x =>
    if x.present &&& byteMask key n = byteMask key n then some (valueAt x.data (key % 64) n, x.poison) else none
  | none => none

/-- A read of an element that fills no L1: the quad's own bytes of the sector go to the L2 first (02 R48). -/
def State.readPast (s : State) (w : Wave) (quad die : Nat) (p : OpPart) (first : Bool) : State × Option (Nat × Bool) :=
  let g := s.sectorOut quad p.key
  if g.2 then g.1.l2Read die w.part p.key p.size p.noAlloc first else (g.1, none)

/-- An L1 miss, counted once for a sector of a word (13 R330): the sector is filled from the L2, once the die has it. Where the module
turns the read away, its poison fills nothing (03 R389); nor does a fill of a partition that owns no way of the die's L2 (15 R348). -/
def State.missRead (s : State) (w : Wave) (quad die : Nat) (p : OpPart) (first : Bool) : State × Option (Nat × Bool) :=
  let count (t : State) : State := if first then t.charge w.part 0x020 1 else t
  if !s.ownsWay die (lineKey p.key) w.part then
    let r := s.readPast w quad die p first
    (if r.2.isSome then count r.1 else r.1, r.2)
  else
    match s.l2Read die w.part p.key p.size false first with
    | (s1, none) => (s1, none)
    | (s1, some v) =>
      if s.beyondModule w.part p.key p.size then (count s1, some ((s.l1Bytes quad p.key p.size).getD v))
      else
        let g := s1.l1Fill quad p.key w.part p.nt
        if !g.2 then (g.1, none) else (g.1.charge w.part 0x020 1, some ((g.1.l1Bytes quad p.key p.size).getD v))

/-- A read that allocates nothing is under way to HBM since this cycle. -/
def State.fetchPending (s : State) (die part : Nat) (p : OpPart) : Bool :=
  p.age = s.now && (p.noAlloc || !s.ownsWay die (lineKey p.key) part) && !isModuleKey p.key
    && (s.l2Holders (lineKey p.key)).all fun l => !l.valid p.key

/-- An element read by a wave; none while it waits. `need` is what the word reads in all of the element's sector, which the
write queue forwards whole or not at all (02 R49, log 46); `first` says that it is the first of them, `lead` the first of the word in
its line: with the hint the others of the word leave the line where that one put it (12 R278). What reads HBM and fills nothing
has its data in a later cycle (07 R166). -/
def State.cacheRead (s : State) (w : Wave) (scope : Scope) (p : OpPart) (need : Lanes) (first lead : Bool) :
    State × Option (Nat × Bool) :=
  let quad := coreQuad w.core
  let die := quadDie quad
  if s.keyDown p.key then (s, some ((s.memValue p.key p.size).1, true))
  else if eligible scope p.na then
    let sec := sectorKey p.key
    let qmask := ((s.wqFind quad sec).map WqEntry.mask).getD 0 &&& need
    if qmask = need then
      (s, some (valueAt (((s.wqFind quad sec).map WqEntry.data).getD []) (p.key % 64) p.size, false))
    else if qmask ≠ 0 then (s, none)
    else
      match (s.l1Find quad (lineKey p.key)).map fun l => (l, l.sector p.key) with
      | some (l, x) =>
        if x.present &&& need = need then
          (if p.nt && !lead then s else s.l1Touch l false, some (valueAt x.data (p.key % 64) p.size, x.poison))
        else if s.fetchPending die w.part p then (s, none) else s.missRead w quad die p first
      | none => if s.fetchPending die w.part p then (s, none) else s.missRead w quad die p first
  else if s.fetchPending die w.part p then (s, none)
  else s.readPast w quad die p first

/-- A sector filled into the die's L2, and into the quad's L1 when asked (12 R285); a page that allocates nothing is left, and a line
that a Ladle channel owns waits for its landing (04 R123). -/
def State.prefetch (s : State) (w : Wave) (p : OpPart) (l1 : Bool) : Got :=
  let quad := coreQuad w.core
  let die := quadDie quad
  if s.keyDown p.key || p.noAlloc || s.beyondModule w.part p.key 1 then (s, true)
  else if !s.places die (lineKey p.key) w.part then (s, true)
  else
    let g := if s.ladleOwns (lineKey p.key) then (s, false) else if s.holds die p.key then (s, true) else
      (s.fillBegins die p.key w.part).directory die p.key w.part false
    if g.2 && l1 && s.ownsWay die (lineKey p.key) w.part then g.1.l1Fill quad p.key w.part p.nt else g

/-- A SCATTER's element in the L1 line that it meets (12 R280): the sector's entry of the write queue, which came first, merges,
and nothing is allocated. -/
def State.scatterWrite (s : State) (quad : Nat) (p : OpPart) (bs : List Byte) : Got :=
  if (s.wqFind quad (sectorKey p.key)).isSome then s.wqPush quad 0 p.key bs p.nt
  else
    s.l1Store quad (sectorKey p.key) 0 (List.replicate (p.key % 64) 0 ++ bs) (byteMask p.key p.size) p.nt

/-- An element written by a wave: into the write queue, or through to the L2, where the bytes of an L1 copy follow, which the
hint makes the least recently used (02 R48, R49, 12 R278). -/
def State.cacheWrite (s : State) (w : Wave) (scope : Scope) (p : OpPart) (val : Nat) : Got :=
  let quad := coreQuad w.core
  let bs := natToBytes p.size val
  if s.keyDown p.key then (s, true)
  else if !s.writesThrough quad scope p then
    (if p.noAlloc then s.scatterWrite quad p bs else s.wqPush quad w.part p.key bs p.nt)
  else
    let sec := sectorKey p.key
    let mask := byteMask p.key p.size
    let g := s.wqFlush quad sec
    if !g.2 then g
    else
      let at64 := List.replicate (p.key % 64) 0 ++ bs
      let g2 := g.1.l2Write (quadDie quad) w.part p.key at64 mask false p.noAlloc
      if !g2.2 then g2
      else match g2.1.l1Find quad (lineKey p.key) with
        | none => g2
        | some l =>
          let x := l.sector p.key
          let l1 := l.setSector p.key { x with data := overlay x.data at64 (mask &&& x.present), dirty := x.dirty &&& ~~~mask }
          (if p.nt then g2.1.l1Touch l1 true else g2.1.l1Set l1, true)

end Sys2Proof.Machine
end

