-- ==== Sys2Proof/Machine/Codec.lean ====
section
/-!
DEFINITION. The entries of a Runner packet (03_pod_memory R87): a 64-byte header and its continuation entries.
-/
namespace Sys2Proof.Machine

/-- TYPE. -/
def packetCode : PacketType → Nat
  | .rwri => 0
  | .rrd => 1
  | .ratom => 2
  | .relayedRead => 3
  | .relayedWrite => 4
  | .relayedAtomic => 5
  | .ack => 8
  | .nak => 9
  | .fault => 10
  | .resume => 11
  | .resp => 12

/-- The type of a TYPE. -/
def packetTypeOf (n : Nat) : Option PacketType :=
  match n with
  | 0 => some .rwri
  | 1 => some .rrd
  | 2 => some .ratom
  | 3 => some .relayedRead
  | 4 => some .relayedWrite
  | 5 => some .relayedAtomic
  | 8 => some .ack
  | 9 => some .nak
  | 10 => some .fault
  | 11 => some .resume
  | 12 => some .resp
  | _ => none

/-- NCONT: the continuation entries of data beyond the 32 bytes of the header (03 R87, 12 R293). -/
def packetNcont (p : Packet) : Nat := (p.data.length - 32 + 63) / 64

/-- FLAGS. -/
def packetFlags (p : Packet) : Nat :=
  p.stream % 4 + 4 * bitOf p.forwarded + 8 * bitOf p.system + 16 * (p.reason % 16)

/-- KEY. DESIGN CHOICE (log 50): a packet of a system stream, which has no key, carries its module in [17:4]; R87 names no field
for it. -/
def packetKey (p : Packet) : Nat :=
  p.keyPart % 16 + (if p.system then p.module else p.keyAsid) % 2 ^ 14 * 2 ^ 4 + p.sndAsid % 2 ^ 14 * 2 ^ 18

/-- The header, bytes 0 to 31. -/
def packetHeader (p : Packet) : List Byte :=
  packBytes [(1, packetCode p.type), (1, packetFlags p), (2, p.seq), (1, p.src), (1, p.dst), (1, packetNcont p), (1, p.opsize), (4, packetKey p),
    (4, p.imm), (8, p.addr), (2, p.len), (2, p.tag), (4, 0)]

/-- Bytes brought to a length with zeros. -/
def padTo (n : Nat) (bs : List Byte) : List Byte := (bs ++ List.replicate n 0).take n

/-- The i-th entry of a packet: its header with up to 32 bytes of data, or 64 bytes of the rest. -/
def packetEntry (p : Packet) (i : Nat) : List Byte :=
  if i = 0 then packetHeader p ++ padTo 32 p.data else padTo 64 (p.data.drop (32 + 64 * (i - 1)))

/-- The bytes [i, i + n) of an entry, as a number. -/
def field (bs : List Byte) (i n : Nat) : Nat := bytesToNat ((bs.drop i).take n)

/-- The length of a packet's data (03 R87): LEN for what carries bytes; two operands for an atomic. -/
def dataLength (t : PacketType) (opsize len : Nat) : Nat :=
  match t with
  | .rwri => len
  | .relayedWrite => len
  | .resp => len
  | .ratom => if opsize.testBit 4 then 16 else 8
  | .relayedAtomic => if opsize.testBit 4 then 16 else 8
  | _ => 0

/-- The packet of a header and its continuation entries; none of an unassigned TYPE. -/
def packetOf (h : List Byte) (rest : List (List Byte)) : Option Packet :=
  (packetTypeOf (field h 0 1)).map fun t =>
    let flags := field h 1 1
    let key := field h 8 4
    let system := flags.testBit 3
    { type := t, stream := flags % 4, forwarded := flags.testBit 2, system := system, reason := flags / 16, seq := field h 2 2,
      src := field h 4 1 % 64, dst := field h 5 1 % 64, opsize := field h 7 1, keyPart := if system then 0 else key % 16,
      keyAsid := if system then 0 else bitsAt key 4 14, sndAsid := bitsAt key 18 14, imm := field h 12 4,
      addr := field h 16 8, len := field h 24 2, tag := field h 26 2, module := if system then bitsAt key 4 14 % 64 else 0,
      data := ((h.drop 32).take 32 ++ rest.flatten).take (dataLength t (field h 7 1) (field h 24 2)), poison := 0 }

/-- The step that a packet makes at the package that takes it from a queue: one addressed to another package is passed on (03
R95). -/
def packetCall (self : Nat) (p : Packet) : Call :=
  if p.dst ≠ self then .packetForward p
  else
    match p.type with
    | .rwri => .rwriPacket p
    | .rrd => .rrdPacket p
    | .ratom => .ratomPacket p
    | .relayedRead => .relayedRead p
    | .relayedWrite => .relayedWrite p
    | .relayedAtomic => .relayedAtomic p
    | .ack => .ack p
    | .nak => .nak p
    | .fault => .fault p
    | .resume => .resume p
    | .resp => .resp p

end Sys2Proof.Machine
end

