-- ==== Sys2Proof/Machine/Mmio.lean ====
section
/-!
DEFINITION. Tier 3 targets: the register page of a partition (01_address_spaces R26, R27; 03 R88; 10 R234; 15 R345) and the
aperture of a Ladle channel (05 R128 to R131, R135).
-/
namespace Sys2Proof.Machine

/-! ## The remap table (15 R345) -/

/-- STATE of a dense peer (15 R345): 0 live, 1 no such package, 2 disabled, 3 outside the partition group. -/
def State.peerState (s : State) (p : Part) (j : Nat) : Nat :=
  if s.pod.size ≤ j then 1
  else if j = s.pod.self then 0
  else if s.pod.disabled.testBit j then 2
  else if p.peerGroups.contains j then 0
  else 3

/-- The peer entry of a dense peer. -/
def State.peerEntry (s : State) (p : Part) (j : Nat) : Nat :=
  s.peerState p j * 64 + (if j < s.pod.size then j else 0)

/-- QMASK of a physical slice: its usable quads. -/
def State.quadMask (s : State) (sl : Nat) : Nat :=
  (List.range 8).foldl (fun m i => if s.dev.retired.contains (8 * sl + i) then m else m + 2 ^ i) 0

/-- The slice entry of a dense slice. -/
def State.sliceEntry (s : State) (p : Part) (j : Nat) : Nat :=
  match (slicesOf p.sliceMask)[j]? with
  | some sl => 2 ^ 31 + s.quadMask sl * 2 ^ 16 + sl
  | none => 0

/-! ## Reading the register page -/

/-- XLTINVC as it reads (01 R26). -/
def Part.xltinvc (p : Part) : Nat :=
  bitOf p.xltGo * 2 ^ 31 + bitOf p.xltErr * 2 ^ 30 + p.xltAsid % 2 ^ 14 * 2 ^ 16 + p.xltSize % 4 * 4 + p.xltKind % 4

/-- The 64-bit register at an aligned offset of the page; reserved offsets read 0 (01 R26). -/
def State.pageReg (s : State) (p : Part) (off : Nat) : Nat :=
  if off = 0x000 then p.xltBase
  else if off = 0x008 then p.asidCount
  else if off = 0x010 then p.xltInvaVa
  else if off = 0x018 then p.xltinvc
  else if off = 0x100 then p.ctxBase
  else if off = 0x108 then p.ctxSize
  else if off = 0x110 then p.nqBase
  else if off = 0x120 then p.spillBase
  else if off = 0x128 then p.spillSize
  else if 0x200 ≤ off && off < 0x300 then s.sliceEntry p ((off - 0x200) / 8)
  else if 0x300 ≤ off && off < 0x500 then s.peerEntry p ((off - 0x300) / 8)
  else 0

/-- The bytes of a register that an access of `size` bytes covers. -/
def State.pageRead (s : State) (p : Part) (off size : Nat) : Nat :=
  s.pageReg p (off / 8 * 8) / 2 ^ (8 * (off % 8)) % 2 ^ (8 * size)

/-! ## Writing the register page -/

/-- A register with the bytes of a store put over it. -/
def mergeReg (old off size val : Nat) : Nat := setBits old (8 * (off % 8)) (8 * size) val

/-- A register bit that a store covers. -/
def coversBit (off size bit : Nat) : Bool := off % 8 ≤ bit / 8 && bit / 8 < off % 8 + size

/-- The RW bits [hi:lo] of a register. -/
def regField (x lo n : Nat) : Nat := bitsAt x lo n * 2 ^ lo

/-- The request is one of a partition's: by its context, or on a system stream by its wave. -/
def State.requestOfPart (s : State) (c : Rctx) (u : Unacked) (p : Nat) : Bool :=
  if c.id.system then (s.wave? u.seq u.wid).map Wave.part = some p else c.id.part = p

/-- The Runner has a request of the partition in flight (03 R88). -/
def State.runnerBusy (s : State) (p : Nat) : Bool :=
  s.runner.ctxs.any fun c => c.streams.any fun t =>
    (t.unacked ++ t.waiting).any (fun u => s.requestOfPart c u p) || (!c.id.system && c.id.part = p && t.inHand.isSome)

/-- The command that a GO write starts (01 R27). -/
def xltCommand (p : Part) : Call :=
  match p.xltKind with
  | 0 => .xltinvcPage p.num p.xltAsid p.xltSize
  | 1 => .xltinvcAsid p.num p.xltAsid
  | _ => .xltinvcPartition p.num

/-- A store to XLTINVC (01 R26, R27): a GO write starts its command, or sets ERR while one runs; a store that carries KIND 3 only
sets ERR. -/
def State.writeXltinvc (s : State) (p : Part) (off size val : Nat) : State :=
  let x := mergeReg p.xltinvc off size val
  let go := coversBit off size 31 && (mergeReg 0 off size val).testBit 31
  let clearErr := coversBit off size 30 && (mergeReg 0 off size val).testBit 30
  let kind := bitsAt x 0 2
  if (go && p.xltGo) || (coversBit off size 0 && kind = 3) then s.setPart { p with xltErr := true }
  else
    let p1 : Part :=
      { p with xltAsid := bitsAt x 16 14, xltSize := bitsAt x 2 2, xltKind := kind, xltErr := p.xltErr && !clearErr }
    if go then
      { s.setPart { p1 with xltGo := true } with agenda := s.agenda ++ [xltCommand p1] }
    else s.setPart p1

/-- A store of `size` bytes to the register page (01 R26): only RW bits of the covered bytes change. -/
def State.pageWrite (s : State) (p : Part) (off size val : Nat) : State :=
  let base := off / 8 * 8
  let x := mergeReg (s.pageReg p base) off size val
  if base = 0x000 then s.setPart { p with xltBase := regField x 12 40 }
  else if base = 0x010 then s.setPart { p with xltInvaVa := regField x 12 45 }
  else if base = 0x018 then s.writeXltinvc p off size val
  else if base = 0x100 then s.setPart { p with ctxBase := regField x 12 40 }
  else if base = 0x108 then
    let v := regField x 31 1 + bitsAt x 0 20
    if s.runnerBusy p.num then s.setPart { p with ctxSizeNext := some v }
    else s.setPart { p with ctxSize := v, ctxSizeNext := none }
  else if base = 0x110 then s.setPart { p with nqBase := regField x 12 40 }
  else if base = 0x120 then s.setPart { p with spillBase := regField x 16 36 }
  else if base = 0x128 then s.setPart { p with spillSize := regField x 31 1 + bitsAt x 0 8 }
  else s

/-! ## The Ladle aperture (05 R128) -/

/-- A channel right after reset (05 R131, R135). -/
def Chan.reset (die ch : Nat) : Chan :=
  { die := die, ch := ch, tmpl := List.replicate 32 0, lastErr := 0, doors := [], copies := [] }

/-- A Ladle channel. -/
def State.chan (s : State) (die ch : Nat) : Chan :=
  (s.chans.find? fun c => c.die = die && c.ch = ch).getD (Chan.reset die ch)

/-- The state with a channel replaced. -/
def State.setChan (s : State) (c : Chan) : State :=
  if s.chans.any fun x => x.die = c.die && x.ch = c.ch then
    { s with chans := mapWhere s.chans (fun x => x.die = c.die && x.ch = c.ch) fun _ => c }
  else { s with chans := s.chans ++ [c] }

/-- Destination lines that a channel owns (05 R133). -/
def Chan.owned (c : Chan) : Nat :=
  (dedup ((c.copies.flatMap fun x => x.sectors).filterMap fun p => if isQspKey p.2 then none else some (lineKey p.2))).length

/-- CHSTAT (05 R135). -/
def Chan.stat (c : Chan) : Nat := c.copies.length * 2 ^ 40 + c.owned * 2 ^ 15 + c.lastErr

/-- A load from an aperture (05 R128): DOOR reads zero, TMPL the bytes last stored, CHSTAT. -/
def State.apertureRead (s : State) (die ch off size : Nat) : Nat :=
  let c := s.chan die ch
  if 0x800 ≤ off && off < 0x1000 then
    bitsAt (c.tmpl.getD ((off - 0x800) / 64) 0).toNat (8 * (off % 64)) (8 * size)
  else if 0x1000 ≤ off && off < 0x1008 then bitsAt c.stat (8 * (off % 8)) (8 * size)
  else 0

/-- A write of 1s to CHSTAT.LASTERR (05 R135, 00 R13): each bit written 1 is cleared. -/
def Chan.clearErr (c : Chan) (bits : Nat) : Chan := { c with lastErr := c.lastErr - (c.lastErr &&& bits) }

/-- A store to an aperture's TMPL or CHSTAT (05 R128, R131, R135). -/
def State.apertureWrite (s : State) (die ch off size val : Nat) : State :=
  let c := s.chan die ch
  if 0x800 ≤ off && off < 0x1000 then
    let k := (off - 0x800) / 64
    let x := setBits (c.tmpl.getD k 0).toNat (8 * (off % 64)) (8 * size) val
    s.setChan { c with tmpl := c.tmpl.set k (BitVec.ofNat 512 x) }
  else if off = 0x1000 then s.setChan (c.clearErr (val % 256))
  else s

/-- Offsets of DOOR (05 R128). -/
def isDoor (off : Nat) : Bool := off < 0x10

end Sys2Proof.Machine
end

