-- ==== Sys2Proof/Machine/Runner.lean ====
section
/-!
DEFINITION. The sending side of the Runner (03_pod_memory R85 to R92, R95): relay contexts and their streams, the send
buffer, routes, and what the end of a request does to the wave that issued it.
-/
namespace Sys2Proof.Machine

/-! ## Contexts (03 R88) -/

/-- A stream that has never been used: every sequence number 0. -/
def Stream.zero : Stream :=
  { next := 0, acked := 0, held := false, unacked := [], waiting := [], busyAt := none, busySeq := 0, expected := 0,
    frozen := false, responses := [], ackDue := 0, lastNak := none, nakAt := 0, faultPacket := none, faultTag := 0, faultSub := 0, inHand := none,
    refusals := [] }

/-- A context that has never existed. -/
def Rctx.new (id : CtxId) (now : Nat) : Rctx :=
  { id := id, streams := List.replicate 4 Stream.zero, spilled := false, wanted := false, slot := none, lastUse := now }

/-- The context of an identity. -/
def State.ctx? (s : State) (id : CtxId) : Option Rctx := s.runner.ctxs.find? fun c => c.id = id

/-- The Runner changed. -/
def State.modRunner (s : State) (f : Runner → Runner) : State := { s with runner := f s.runner }

/-- The state with a context replaced. -/
def State.setCtx (s : State) (c : Rctx) : State :=
  s.modRunner fun r => { r with ctxs := mapWhere r.ctxs (fun x => x.id = c.id) fun _ => c }

/-- A stream of a context. -/
def Rctx.stream (c : Rctx) (k : Nat) : Stream := c.streams.getD k Stream.zero

/-- A context with a stream replaced. -/
def Rctx.setStream (c : Rctx) (k : Nat) (t : Stream) : Rctx := { c with streams := c.streams.set k t }

/-- A stream of a context changed. -/
def State.modStream (s : State) (id : CtxId) (k : Nat) (f : Stream → Stream) : State :=
  match s.ctx? id with
  | none => s
  | some c => s.setCtx (c.setStream k (f (c.stream k)))

/-- A request of the context is in flight. -/
def Rctx.inFlight (c : Rctx) : Bool :=
  c.streams.any fun t => t.unacked ≠ [] || t.waiting ≠ [] || t.frozen || t.inHand.isSome

/-- The partition in whose backing table a context is spilled: its own. DESIGN CHOICE (log 29): a system stream's context, which is of no
partition, is spilled in the table of the partition with the pod privilege. -/
def State.ctxOwner (s : State) (id : CtxId) : Nat := if id.system then s.pod.privilege.getD 16 else id.part

/-- A free entry of a partition's backing table, while it is in use (03 R88). -/
def State.freeSlot (s : State) (p : Part) : Option Nat :=
  if p.ctxSize.testBit 31 then
    let used := s.runner.ctxs.filterMap fun c => if s.ctxOwner c.id = p.num then c.slot else none
    (List.range (min (bitsAt p.ctxSize 0 20) (used.length + 1))).find? fun i => !used.contains i
  else none

/-- How a context is opened. -/
inductive CtxGot where
  | ready (s : State)
  /-- No context can be spilled: the request stalls. -/
  | stall
  /-- The backing table is absent or full: subcode 0x0E. -/
  | refused
deriving DecidableEq, Repr

/-- Contexts that the Runner's cache holds (03 R88). -/
def ctxCacheSize : Nat := 4096

/-- The cached context that is spilled to make room: of those with nothing in flight the least recently used (03 R88). -/
def Runner.spillVictim (r : Runner) : Option Rctx :=
  (r.ctxs.filter fun c => !c.spilled && !c.inFlight).foldl (fun (b : Option Rctx) c =>
    match b with
    | none => some c
    | some x => if c.lastUse < x.lastUse then some c else some x) none

/-- The cache of contexts is full. -/
def Runner.full (r : Runner) : Bool := decide (ctxCacheSize ≤ (r.ctxs.filter fun c => !c.spilled).length)

/-- The context of a key that a peer has used before this package knew the key's partition, which the header of R87 does not
carry: it becomes the context of the key (03 R88, log 50). -/
def State.adoptCtx (s : State) (id : CtxId) : State :=
  let half : CtxId := { id with keyPart := 16 }
  if id.system || (s.ctx? id).isSome then s
  else s.modRunner fun r => { r with ctxs := mapWhere r.ctxs (fun c => c.id = half) fun c => { c with id := id } }

/-- The context is made to exist; a full cache spills one (03 R88). -/
def State.openCtx (s0 : State) (id : CtxId) : CtxGot :=
  let s := s0.adoptCtx id
  match s.ctx? id with
  | some c => .ready (s.setCtx { c with lastUse := s.now, wanted := c.wanted || c.spilled })
  | none =>
    let add (t : State) : State := t.modRunner fun r => { r with ctxs := r.ctxs ++ [Rctx.new id s.now] }
    if !s.runner.full then .ready (add s)
    else
      match s.runner.spillVictim with
      | none => .stall
      | some v =>
        match (s.part? (s.ctxOwner v.id)).bind s.freeSlot with
        | none => .refused
        | some i => .ready (add (s.setCtx { v with spilled := true, slot := some i, wanted := false }))

/-! ## Routes (03 R95) -/

/-- The head group of a package on a module serves, as far as the module has told (03 R75). -/
def State.headUp (s : State) (m g : Nat) : Bool := !(s.lostHeads.contains (m, leadHead s.pod.q m g))

/-- The module that this package shares with another is up for both. -/
def State.legUp (s : State) (g : Nat) : Bool :=
  match s.pod.shared g with
  | some m => (match s.pod.attOf m with
    | some a => s.pod.attUp a
    | none => false) && s.headUp m g
  | none => false

/-- The module that two other packages share is up for both, as far as this package has been told (03 R95). -/
def State.farLegUp (s : State) (x g : Nat) : Bool :=
  match sharedBy s.pod x g with
  | some m => s.headUp m x && s.headUp m g
  | none => false

/-- The package whose queue takes a packet for a peer, and whether it is forwarded there: the peer itself while the shared
module is up for both, else the lowest third package with a module up on either side (03 R95). -/
def State.routeTo (s : State) (peer : Nat) : Option (Nat × Bool) :=
  if s.legUp peer then some (peer, false)
  else
    ((List.range s.pod.size).find? fun x => x ≠ s.pod.self && x ≠ peer && s.legUp x && s.farLegUp x peer).map
      fun x => (x, true)

/-- The attachment over which a package's queue is reached. -/
def State.attTo (s : State) (peer : Nat) : Nat := ((s.pod.shared peer).bind s.pod.attOf).getD 0

/-! ## The Runner's requests to modules (03 R76, R86) -/

/-- A tag of the Runner's own 32 of a port that is free (03 R76). -/
def Runner.freeTag (r : Runner) (att port : Nat) : Option Nat :=
  ((List.range 32).map fun i => i + 96).find? fun t => !(r.tags.any fun x => x.att = att && x.port = port && x.tag = t)

/-- A put (to a package's queue) or a get (of a package's queue to this one) is outstanding. -/
def Runner.asking (r : Runner) (peer : Nat) (get : Bool) : Bool := r.tags.any fun x => x.peer = peer && x.get = get

/-- A request of the Runner goes to the module that it shares with a package, through the port that the queue's address selects
(01 R19); with no free tag, or while the module is down, it waits. DESIGN CHOICE (log 21): its operand A names the package at the queue's other end. -/
def State.runnerAsk (s : State) (peer : Nat) (get : Bool) (payload : List Byte) : State :=
  let m := (s.pod.shared peer).getD 0
  let att := s.attTo peer
  let addr := if get then Config.runnerQueueAddr peer s.pod.self else Config.runnerQueueAddr s.pod.self peer
  let port := s.pod.portFor att addr
  match (if s.legUp peer then s.runner.freeTag att port else none) with
  | none => s
  | some t =>
    let r : KReq :=
      { module := m, ld := 16, lead := s.pod.leadOn m, port := port, subop := 0, tag := t, addr := addr, a := peer, b := 0,
        payload := payload }
    let s1 := s.modRunner fun q =>
      { q with tags := q.tags ++ [{ att := att, port := port, tag := t, peer := peer, get := get, sent := s.now }] }
    (({ s1 with agenda := s1.agenda ++ [if get then Call.qget r else Call.qput r] }).chargePod 0x052 1).chargeFlits true
      (64 + payload.length)

/-- The next entry at the head of the send buffer for a package is put to its queue, unless a put to it is outstanding or is to
be retried later (03 R86). -/
def State.pump (s : State) (via : Nat) : State :=
  if s.runner.asking via false then s
  else match s.runner.sending.find? fun x => x.via = via with
    | none => s
    | some x =>
      if s.now < x.notBefore then s
      else s.runnerAsk via false (packetEntry x.packet (packetNcont x.packet + 1 - x.left))

/-- A packet enters the send buffer for a package's queue. -/
def State.enqueue (s : State) (via : Nat) (p : Packet) : State :=
  (s.modRunner fun r =>
    { r with sending := r.sending ++ [{ via := via, packet := p, notBefore := 0, left := packetNcont p + 1 }] }).pump via

/-- A packet for a peer enters the send buffer, on its route, with FLAGS[2] when it goes through a third package (03 R86, R95);
without a route it is dropped. -/
def State.putPacket (s : State) (peer : Nat) (p : Packet) : State :=
  match s.routeTo peer with
  | none => s
  | some (via, fwd) => s.enqueue via { p with forwarded := fwd }

/-- A packet of another package is passed on unchanged (03 R95). -/
def State.forwardPacket (s : State) (p : Packet) : State :=
  match s.routeTo p.dst with
  | none => s
  | some (via, _) => s.enqueue via p

/-- Packets leave a send buffer when a test picks them; the first for a package with a put outstanding stays until its answer. -/
def dropSending (f : Sending → Bool) : List Nat → List Sending → List Sending
  | _, [] => []
  | busy, x :: xs =>
    if busy.contains x.via then x :: dropSending f (busy.filter fun v => v ≠ x.via) xs
    else if f x then dropSending f busy xs else x :: dropSending f busy xs

/-- The packages to whose queues a put is outstanding. -/
def Runner.putting (r : Runner) : List Nat := (r.tags.filter fun x => !x.get).map RTag.peer

/-! ## What the end of a request does to its wave -/

/-- An outstanding operation of a wave changed, or removed when `f` gives none. -/
def Wave.modOp (w : Wave) (id : Nat) (f : PendOp → Option PendOp) : Wave :=
  { w with pend := w.pend.filterMap fun o => if o.id = id then f o else some o }

/-- The units of a wave that wait for an operation go on. -/
def Wave.releaseOp (w : Wave) (id : Nat) : Wave :=
  let go (u : UnitSt) : UnitSt := if u.wait = .op id then { u with wait := .none } else u
  { w with unitT := go w.unitT, unitE := go w.unitE }

/-- A wave changed, when it exists. -/
def State.modWave (s : State) (seq wid : Nat) (f : Wave → Wave) : State :=
  { s with waves := mapWhere s.waves (fun x => x.seq = seq && x.wid = wid) f }

/-- Kinds that the Runner completes as a whole. -/
def OpKind.remote : OpKind → Bool
  | .rwri => true
  | .rrd => true
  | .ratom => true
  | _ => false

/-- A request ends with an error (03 R90 to R92): its registers stay, it leaves OUTST, and the wave has a late error. -/
def State.failRequest (s : State) (u : Unacked) (cause sub : Nat) : State :=
  let addr := match (s.wave? u.seq u.wid).bind fun w => w.pend.find? fun o => o.id = u.op with
    | some o => ((o.parts.find? fun p => p.lane = u.lane).map OpPart.va).getD u.packet.addr
    | none => u.packet.addr
  let s1 := s.modWave u.seq u.wid fun w =>
    (w.modOp u.op fun o =>
      if o.kind.remote then none
      else some { o with parts := o.parts.filter fun p => !(p.lane = u.lane && p.route = .runner) })
  let s2 := s1.modWave u.seq u.wid fun w =>
    if w.pend.any (fun o => o.id = u.op) then w else w.releaseOp u.op
  s2.lateError u.seq u.wid cause sub addr

/-- Every outstanding request to a peer completes with Dead Peer, and its bit is set in every partition's DEADPEER (03 R92).
DESIGN CHOICE (log 18): what waits in the send buffer for the peer, forwarded packets and answers too, is dropped; R92 speaks of
this package's requests only. -/
def State.peerDead (s : State) (peer sub : Nat) : State :=
  let lost := s.runner.ctxs.flatMap fun c =>
    if c.id.peer = peer then c.streams.flatMap fun t => t.unacked ++ t.waiting else []
  let s1 : State := { s with parts := s.parts.map fun p => { p with dead := p.dead ||| 2 ^ peer } }
  let s2 := s1.modRunner fun r =>
    { r with
      ctxs := r.ctxs.map fun c =>
        if c.id.peer = peer then { c with streams := c.streams.map fun t => { t with unacked := [], waiting := [], held := false } } else c,
      sending := dropSending (fun x => x.packet.dst = peer) r.putting r.sending }
  lost.foldl (fun (t : State) u => t.failRequest u 11 sub) s2

/-! ## Sending a request (03 R88, R89) -/

/-- Unacknowledged packets that a stream may have (03 R89). -/
def streamWindow : Nat := 256

/-- Sequence numbers are 16 bits (03 R89). -/
def nextSeqNo (n : Nat) : Nat := (n + 1) % 2 ^ 16

/-- `a` comes before `b` in sequence order (03 R89). -/
def seqBefore (a b : Nat) : Bool := let d := (b + 2 ^ 16 - a) % 2 ^ 16; 0 < d && d < 2 ^ 15

/-- A request is outstanding to a peer. -/
def State.outstandingTo (s : State) (peer : Nat) : Bool := s.runner.ctxs.any fun c =>
  c.id.peer = peer && c.streams.any fun t => t.unacked ≠ []

/-- The cycle since which a peer has been silent: its last packet, or the first request after none was outstanding. -/
def State.heard (s : State) (peer : Nat) : State :=
  { s with pod := { s.pod with lastPacket := (s.pod.lastPacket.filter fun x => x.1 ≠ peer) ++ [(peer, s.now)] } }

/-- The stream may send now. -/
def Rctx.open (c : Rctx) (k : Nat) : Bool :=
  !c.spilled && !(c.stream k).held && decide ((c.stream k).unacked.length < streamWindow)

/-- A request has been sent: its unit goes on when it had stalled for it, unless its operation is an acquire or still has
requests to send. -/
def State.releaseSent (s : State) (seq wid op : Nat) : State :=
  let more := s.runner.ctxs.any fun c => c.streams.any fun t => t.waiting.any fun u =>
    u.seq = seq && u.wid = wid && u.op = op
  if more then s
  else s.modWave seq wid fun w => if w.pend.any fun o => o.id = op && o.acquire then w else w.releaseOp op

/-- Waiting requests of a stream are sent, in order, while it may send; the units that stalled for them go on. -/
def State.pumpStream (s : State) (id : CtxId) (k : Nat) : Nat → State
  | 0 => s
  | n + 1 =>
    match s.ctx? id with
    | none => s
    | some c =>
      match (c.stream k).waiting with
      | [] => s
      | u :: rest =>
        if !c.open k then s
        else
          let t := c.stream k
          let p := { u.packet with seq := t.next }
          let s0 := if s.outstandingTo id.peer then s else s.heard id.peer
          let s1 := s0.setCtx (c.setStream k
            { t with next := nextSeqNo t.next, waiting := rest, unacked := t.unacked ++ [{ u with packet := p }] })
          State.pumpStream ((s1.putPacket id.peer p).releaseSent u.seq u.wid u.op) id k n

/-- A request joins its stream, and is sent when the stream may send. -/
def State.sendRequest (s : State) (id : CtxId) (k : Nat) (u : Unacked) : State :=
  let s1 := s.modStream id k fun t => { t with waiting := t.waiting ++ [u] }
  s1.pumpStream id k (((s1.ctx? id).map fun c => (c.stream k).waiting.length).getD 0)

/-- The request still waits to be sent. -/
def State.requestWaits (s : State) (id : CtxId) (k : Nat) (seq wid op : Nat) : Bool :=
  match s.ctx? id with
  | none => false
  | some c => (c.stream k).waiting.any fun u => u.seq = seq && u.wid = wid && u.op = op

/-- A packet with nothing in it, from this package to a peer. -/
def State.packetTo (s : State) (peer : Nat) (type : PacketType) : Packet :=
  { type := type, stream := 0, forwarded := false, system := false, reason := 0, seq := 0, src := s.pod.self, dst := peer,
    opsize := 0, keyPart := 0, keyAsid := 0, sndAsid := 0, imm := 0, addr := 0, len := 0, tag := 0, module := 0, data := [],
    poison := 0 }

/-! ## Relayed accesses (03 R85) -/

/-- The context of relayed accesses to a module through a peer (03 R87). -/
def relayCtx (peer m : Nat) : CtxId :=
  { part := 0, asid := 0, peer := peer, keyPart := 0, keyAsid := 0, system := true, module := m }

/-- The packet of a relayed access: one lane's share. -/
def State.relayPacket (s : State) (peer m : Nat) (p : OpPart) : Packet :=
  let base := s.packetTo peer (match p.act with
    | .write _ => .relayedWrite
    | .atomic .. => .relayedAtomic
    | _ => .relayedRead)
  let opsize := match p.act with
    | .atomic op _ _ => op + 16 * bitOf (p.size = 8)
    | _ => p.size
  let data := match p.act with
    | .write v => natToBytes p.size v
    | .atomic _ a b => natToBytes p.size a ++ natToBytes p.size b
    | _ => []
  { base with system := true, module := m, addr := keyOffset p.key, len := p.size, opsize := opsize, data := data,
              tag := s.nextTag % 2 ^ 16 }

/-- The relayed lanes of a word find no context, and none can be spilled: the word stalls at issue (03 R88). -/
def State.relayStalls (s : State) (w : Wave) (ps : List OpPart) : Bool :=
  let mods := (ps.filter fun p => p.route = .runner).map fun p => keyModule p.key
  s.runner.full && s.runner.spillVictim.isNone && mods.any fun m =>
    match (s.part? w.part).bind fun x => s.servingPeer x m with
    | some (_, peer) => (s.ctx? (relayCtx peer m)).isNone
    | none => false

/-- The kind of a part's access. -/
def PartAct.kind : PartAct → AccKind
  | .write _ => .write
  | .atomic .. => .atomic
  | _ => .read

/-- A relayed lane refused at the source: its record (01 R33), and its request ends with the cause and subcode. -/
def State.refuseRelayed (s : State) (w : Wave) (p : OpPart) (u : Unacked) (cause sub : Nat) : State :=
  (s.logWave w p.va sub 15 p.act.kind false).failRequest u cause sub

/-- One relayed lane of an operation is sent to the peer that serves its module; without a context it is refused with
subcode 0x0E (03 R88), without a route with 0x12 (01 R21). -/
def State.sendRelayed (s : State) (w : Wave) (op : Nat) (p : OpPart) : State :=
  let m := keyModule p.key
  match (s.part? w.part).bind fun x => s.servingPeer x m with
  | none =>
    s.refuseRelayed w p { packet := s.packetTo 0 .relayedRead, seq := w.seq, wid := w.wid, op := op, lane := p.lane } 5 0x12
  | some (_, peer) =>
    let id := relayCtx peer m
    let u : Unacked := { packet := s.relayPacket peer m p, seq := w.seq, wid := w.wid, op := op, lane := p.lane }
    let s0 := { s with nextTag := s.nextTag + 1 }
    match s0.openCtx id with
    | .ready s1 => s1.sendRequest id 0 u
    | .stall => s0.refuseRelayed w p u 17 0x0E
    | .refused => s0.refuseRelayed w p u 17 0x0E

end Sys2Proof.Machine
end

