-- ==== Sys2Proof/Machine/Alu.lean ====
section
/-!
DEFINITION. The integer operations on 32-bit elements that the uniform and the vector instructions share (10 R227 to R229,
11 R254 to R257), and the operation of each atomic (12 R281).
-/
namespace Sys2Proof.Machine

/-- Bits [63:32] of the signed product (10 R227). -/
def mulHigh (a b : Word) : Word := ((a.signExtend 64) * (b.signExtend 64)).extractLsb' 32 32

/-- Bits [63:32] of the unsigned product (10 R227). -/
def mulHighU (a b : Word) : Word := ((a.setWidth 64) * (b.setWidth 64)).extractLsb' 32 32

/-- A shift count: b[4:0] (10 R227). -/
def shiftCount (b : Word) : Nat := b.toNat % 32

/-- Shift left by b[4:0]. -/
def shl (a b : Word) : Word := a <<< shiftCount b

/-- Shift right by b[4:0], zero fill. -/
def shr (a b : Word) : Word := a >>> shiftCount b

/-- Shift right by b[4:0], sign fill. -/
def sar (a b : Word) : Word := a.sshiftRight (shiftCount b)

/-- Signed minimum. -/
def minS (a b : Word) : Word := if a.sle b then a else b

/-- Signed maximum. -/
def maxS (a b : Word) : Word := if a.sle b then b else a

/-- Unsigned minimum. -/
def minU (a b : Word) : Word := if a.ule b then a else b

/-- Unsigned maximum. -/
def maxU (a b : Word) : Word := if a.ule b then b else a

/-- abs(sext64(a) − sext64(b)) mod 2^32 (11 R254). -/
def absDiff (a b : Word) : Word := BitVec.ofNat 32 (a.toInt - b.toInt).natAbs

/-- The conditions of 10 R228: eq, ne, lt, le, ltu, leu. -/
def condition (cc : Nat) (a b : Word) : Bool :=
  match cc with
  | 0 => a = b
  | 1 => a ≠ b
  | 2 => a.slt b
  | 3 => a.sle b
  | 4 => a.ult b
  | _ => a.ule b

/-- Leading zeros from bit `n - 1` down. -/
def clzFrom (a : Nat) : Nat → Nat
  | 0 => 0
  | n + 1 => if a.testBit n then 0 else 1 + clzFrom a n

/-- Count of leading zeros; 32 for 0 (10 R229). -/
def clz (a : Word) : Word := BitVec.ofNat 32 (clzFrom a.toNat 32)

/-- Ones among the low `n` bits. -/
def popFrom (a : Nat) : Nat → Nat
  | 0 => 0
  | n + 1 => bitOf (a.testBit n) + popFrom a n

/-- Count of 1 bits (10 R229). -/
def popc (a : Word) : Word := BitVec.ofNat 32 (popFrom a.toNat 32)

/-- Bit i := a[31 − i] (10 R229). -/
def brev (a : Word) : Word := a.reverse

/-- POS of a field-control word (10 R229). -/
def fieldPos (c : Word) : Nat := bitsAt c.toNat 0 5

/-- WIDTH of a field-control word, above 32 taken as 32 (10 R229). -/
def fieldWidth (c : Word) : Nat := min (bitsAt c.toNat 8 6) 32

/-- ((2^WIDTH − 1) << POS) mod 2^32 (10 R229). -/
def fieldMask (c : Word) : Word := BitVec.ofNat 32 ((2 ^ fieldWidth c - 1) * 2 ^ fieldPos c)

/-- Field extract (10 R229 UBFX). -/
def bfx (a c : Word) : Word :=
  let f := (a &&& fieldMask c) >>> fieldPos c
  let n := fieldWidth c
  if c.getLsbD 16 && 0 < n && fieldPos c + n ≤ 32 && f.getLsbD (n - 1) then f - BitVec.ofNat 32 (2 ^ n) else f

/-- Field insert of a into d (10 R229 UBFI). -/
def bfi (d a c : Word) : Word := (d &&& ~~~(fieldMask c)) ||| ((a <<< fieldPos c) &&& fieldMask c)

/-- The UQOP operations by [2:0] (10 R229). -/
def qop (o : Nat) (a b : Bool) : Bool :=
  match o with
  | 0 => a && b
  | 1 => a || b
  | 2 => a ^^ b
  | 3 => a && !b
  | 4 => !a
  | 5 => !(a && b)
  | 6 => !(a || b)
  | _ => !(a ^^ b)

/-- The identity of a VREDI operation (11 R271). -/
def redIdentity (o : Nat) : Word :=
  match o with
  | 1 => 0x80000000
  | 2 => 0x7FFFFFFF
  | 4 => 0xFFFFFFFF
  | 5 => 0xFFFFFFFF
  | _ => 0

/-- The VREDI operations (11 R271). -/
def redOp (o : Nat) (a b : Word) : Word :=
  match o with
  | 0 => a + b
  | 1 => maxS a b
  | 2 => minS a b
  | 3 => maxU a b
  | 4 => minU a b
  | 5 => a &&& b
  | 6 => a ||| b
  | _ => a ^^^ b

/-- Signed maximum of two numbers of w bits (12 R281). -/
def maxNat (a b w : Nat) : Nat := if signed a w ≤ signed b w then b else a

/-- Signed minimum of two numbers of w bits (12 R281). -/
def minNat (a b w : Nat) : Nat := if signed a w ≤ signed b w then a else b

end Sys2Proof.Machine
end

