-- ==== Sys2Proof/Machine/Flags.lean ====
section
/-!
DEFINITION. Floating-point formats, rounding and every flag computation (08_number_formats R189 to R195).
-/
namespace Sys2Proof.Machine

/-- The flag bits of FPFLAGS (08 R195). -/
abbrev Flags := BitVec 5

/-- NV, invalid operation. -/
def fNV : Flags := 16
/-- DZ, division by zero. -/
def fDZ : Flags := 8
/-- OF, overflow. -/
def fOF : Flags := 4
/-- UF, underflow. -/
def fUF : Flags := 2
/-- NX, inexact. -/
def fNX : Flags := 1

/-- The flag when a condition holds. -/
def flagIf (b : Bool) (f : Flags) : Flags := if b then f else 0

/-- A wave's sticky flags with more raised (08 R195). -/
def Wave.raise (w : Wave) (f : Flags) : Wave := { w with fpFlags := w.fpFlags ||| f }

/-- Rounding modes (08 R192). -/
inductive Rm where
  | rne | rtz | rd | ru
deriving DecidableEq, Repr

/-- FMT.RM (09 R221). -/
def fmtRm (f : BitVec 8) : Rm :=
  match f.toNat % 4 with
  | 0 => .rne
  | 1 => .rtz
  | 2 => .rd
  | _ => .ru

/-- FMT.FTZ (09 R221). -/
def fmtFtz (f : BitVec 8) : Bool := f.getLsbD 2
/-- FMT.SAT (09 R221). -/
def fmtSat (f : BitVec 8) : Bool := f.getLsbD 3
/-- FMT.NFMT (09 R221). -/
def fmtNfmt (f : BitVec 8) : Nat := bitsAt f.toNat 4 3
/-- The scale tile's T by FMT.STILE (09 R221). -/
def fmtT (f : BitVec 8) : Nat := if f.getLsbD 7 then 32 else 16

/-- A floating-point format (08 R189): exponent and fraction bits, bias, whether it has infinities, its largest finite
encoding and its canonical NaN (R190). -/
structure FpFormat where
  exp : Nat
  frac : Nat
  bias : Nat
  hasInf : Bool
  maxFinite : Nat
  nan : Nat
deriving DecidableEq, Repr

/-- FP32 (08 R189). -/
def fp32 : FpFormat := { exp := 8, frac := 23, bias := 127, hasInf := true, maxFinite := 0x7F7FFFFF, nan := 0x7FC00000 }
/-- BF16 (08 R189). -/
def bf16 : FpFormat := { exp := 8, frac := 7, bias := 127, hasInf := true, maxFinite := 0x7F7F, nan := 0x7FC0 }
/-- FP16 (08 R189). -/
def fp16 : FpFormat := { exp := 5, frac := 10, bias := 15, hasInf := true, maxFinite := 0x7BFF, nan := 0x7E00 }
/-- E4M3 (08 R189). -/
def e4m3 : FpFormat := { exp := 4, frac := 3, bias := 7, hasInf := false, maxFinite := 0x7E, nan := 0x7F }
/-- E5M2 (08 R189). -/
def e5m2 : FpFormat := { exp := 5, frac := 2, bias := 15, hasInf := true, maxFinite := 0x7B, nan := 0x7E }
/-- The 64-bit format of the atomic FADD (12 R281): IEEE binary64 with its canonical quiet NaN. -/
def fp64 : FpFormat :=
  { exp := 11, frac := 52, bias := 1023, hasInf := true, maxFinite := 0x7FEFFFFFFFFFFFFF, nan := 0x7FF8000000000000 }

/-- Bits of an encoding. -/
def FpFormat.width (f : FpFormat) : Nat := 1 + f.exp + f.frac

/-- A decoded value: a NaN (signalling or not), an infinity, or (−1)^neg × m × 2^e. -/
inductive FpVal where
  | nan (signalling : Bool)
  | inf (neg : Bool)
  | fin (neg : Bool) (m : Nat) (e : Int)
deriving DecidableEq, Repr

/-- The value of an encoding (08 R189, R190). -/
def FpFormat.decode (f : FpFormat) (x : Nat) : FpVal :=
  let neg := x.testBit (f.exp + f.frac)
  let ex := bitsAt x f.frac f.exp
  let fr := x % 2 ^ f.frac
  let emin : Int := 1 - (f.bias : Int)
  if f.hasInf then
    if ex = 2 ^ f.exp - 1 then (if fr = 0 then .inf neg else .nan (!fr.testBit (f.frac - 1)))
    else if ex = 0 then .fin neg fr (emin - (f.frac : Int))
    else .fin neg (2 ^ f.frac + fr) ((ex : Int) - (f.bias : Int) - (f.frac : Int))
  else
    if ex = 2 ^ f.exp - 1 && fr = 2 ^ f.frac - 1 then .nan false
    else if ex = 0 then .fin neg fr (emin - (f.frac : Int))
    else .fin neg (2 ^ f.frac + fr) ((ex : Int) - (f.bias : Int) - (f.frac : Int))

/-- The sign bit in place. -/
def FpFormat.signBit (f : FpFormat) (neg : Bool) : Nat := bitOf neg * 2 ^ (f.exp + f.frac)

/-- A zero of a sign. -/
def FpFormat.zero (f : FpFormat) (neg : Bool) : Nat := f.signBit neg

/-- The infinity of a sign. -/
def FpFormat.infinity (f : FpFormat) (neg : Bool) : Nat := f.signBit neg + (2 ^ f.exp - 1) * 2 ^ f.frac

/-- The largest finite value of a sign. -/
def FpFormat.largest (f : FpFormat) (neg : Bool) : Nat := f.signBit neg + f.maxFinite

/-- The encoding is a subnormal. -/
def FpFormat.isSubnormal (f : FpFormat) (x : Nat) : Bool := bitsAt x f.frac f.exp = 0 && x % 2 ^ f.frac ≠ 0

/-- The exact magnitude m × 2^e, plus a sticky excess below one unit of m when `sticky`, cut to a multiple of 2^q: the
kept count, and whether the rest is zero, below half, half, or above half (0 to 3). -/
def cutAt (m : Nat) (e : Int) (sticky : Bool) (q : Int) : Nat × Nat :=
  if q ≤ e then (m * 2 ^ (e - q).toNat, if sticky then 1 else 0)
  else
    let sh := (q - e).toNat
    let keep := m / 2 ^ sh
    let rest := m % 2 ^ sh
    let half := 2 ^ (sh - 1)
    (keep, if rest = 0 && !sticky then 0
           else if rest < half then 1
           else if rest = half && !sticky then 2
           else 3)

/-- Whether a cut value goes up in magnitude (08 R192). -/
def roundsUp (rm : Rm) (neg : Bool) (keep rest : Nat) : Bool :=
  match rm with
  | .rne => rest = 3 || (rest = 2 && keep % 2 = 1)
  | .rtz => false
  | .rd => neg && rest ≠ 0
  | .ru => !neg && rest ≠ 0

/-- What a rounded magnitude is: its bits without the sign, or an overflow; with NX and UF. -/
structure Rounded where
  mag : Nat
  overflow : Bool
  flags : Flags
deriving DecidableEq, Repr

/-- An exact non-zero magnitude rounded once to a format. Overflow is by R193: the rounded magnitude would exceed the
largest finite value. Underflow is tiny and inexact (08 R195); where tiny before and after rounding differ, the spec does not
say which counts (log 11). -/
def FpFormat.roundMag (f : FpFormat) (rm : Rm) (neg : Bool) (m : Nat) (e : Int) (sticky : Bool) : Rounded :=
  let emin : Int := 1 - (f.bias : Int)
  let top : Int := e + (Nat.log2 m : Int)
  let q : Int := max (top - (f.frac : Int)) (emin - (f.frac : Int))
  let (keep, rest) := cutAt m e sticky q
  let k := if roundsUp rm neg keep rest then keep + 1 else keep
  let (k', q') := if k = 2 ^ (f.frac + 1) then (k / 2, q + 1) else (k, q)
  let mag := if k' < 2 ^ f.frac then k'
    else (q' + (f.frac : Int) + (f.bias : Int)).toNat * 2 ^ f.frac + (k' - 2 ^ f.frac)
  let inexact := rest ≠ 0
  let tinyBefore := top < emin
  let (k2, r2) := cutAt m e sticky (top - (f.frac : Int))
  let tinyAfter := tinyBefore && !(top = emin - 1 && k2 = 2 ^ (f.frac + 1) - 1 && roundsUp rm neg k2 r2)
  let tiny := if tinyBefore = tinyAfter then tinyBefore else Config.tinyBeforeRounding
  { mag := mag, overflow := decide (f.maxFinite < mag),
    flags := flagIf inexact fNX ||| flagIf (inexact && tiny) fUF }

/-- The result of an overflow in an arithmetic operation, by rounding mode (11 R262). -/
def FpFormat.overflowed (f : FpFormat) (rm : Rm) (neg : Bool) : Nat :=
  match rm with
  | .rne => f.infinity neg
  | .rtz => f.largest neg
  | .rd => if neg then f.infinity neg else f.largest neg
  | .ru => if neg then f.largest neg else f.infinity neg

/-- A subnormal result flushed under FTZ (08 R191), raising UF and NX. -/
def FpFormat.flush (f : FpFormat) (ftz : Bool) (x : Nat) (fl : Flags) : Nat × Flags :=
  if ftz && f.isSubnormal x then (f.zero (x.testBit (f.exp + f.frac)), fl ||| fUF ||| fNX) else (x, fl)

/-- The arithmetic rounding of an exact value: (−1)^neg × (m × 2^e, and a little more when `sticky`). A zero keeps the sign
given. -/
def FpFormat.roundArith (f : FpFormat) (rm : Rm) (ftz : Bool) (neg : Bool) (m : Nat) (e : Int) (sticky : Bool) :
    Nat × Flags :=
  if m = 0 && !sticky then (f.zero neg, 0)
  else
    let r := f.roundMag rm neg m e sticky
    if r.overflow then (f.overflowed rm neg, fOF ||| fNX)
    else f.flush ftz (f.signBit neg + r.mag) r.flags

/-- The narrowing conversion of R193: round to nearest even; an overflow gives the largest finite value when SAT is 1 and
the canonical NaN when it is 0, and raises OF and NX. -/
def FpFormat.roundNarrow (f : FpFormat) (sat ftz : Bool) (neg : Bool) (m : Nat) (e : Int) (sticky : Bool) : Nat × Flags :=
  if m = 0 && !sticky then (f.zero neg, 0)
  else
    let r := f.roundMag .rne neg m e sticky
    if r.overflow then (if sat then f.largest neg else f.nan, fOF ||| fNX)
    else f.flush ftz (f.signBit neg + r.mag) r.flags

/-- A subnormal input read as a zero of its sign under FTZ (08 R191). -/
def FpFormat.input (f : FpFormat) (ftz : Bool) (x : Nat) : FpVal :=
  match f.decode x with
  | .fin neg m e => if ftz && f.isSubnormal x then .fin neg 0 e else .fin neg m e
  | v => v

/-- The NV flag of a signalling operand. -/
def FpVal.nvSignalling : FpVal → Flags
  | .nan true => fNV
  | _ => 0

/-- The value is a NaN. -/
def FpVal.isNan : FpVal → Bool
  | .nan _ => true
  | _ => false

end Sys2Proof.Machine
end

