-- ==== Sys2Proof/Machine/Fp.lean ====
section
/-!
DEFINITION. Floating-point operations: exact arithmetic, rounded once (08 R189 to R204; 11 R259 to R263).
-/
namespace Sys2Proof.Machine

/-- The signed integer of a sign and a magnitude. -/
def signedMag (neg : Bool) (m : Nat) : Int := if neg then -(m : Int) else (m : Int)

/-- A magnitude m × 2^e as a multiple of 2^e0, for e0 at most e. -/
def scaleTo (m : Nat) (e e0 : Int) : Nat := m * 2 ^ (e - e0).toNat

/-- The exact sum of two signed values, as (neg, m, e). An exact zero sum is negative when both addends are −0, and otherwise has the
sign `zeroNeg` (11 R259). -/
def addExact (n1 : Bool) (m1 : Nat) (e1 : Int) (n2 : Bool) (m2 : Nat) (e2 : Int) (zeroNeg : Bool) : Bool × Nat × Int :=
  let e0 := if m1 = 0 then e2 else if m2 = 0 then e1 else min e1 e2
  let a := signedMag n1 (if m1 = 0 then 0 else scaleTo m1 e1 e0)
  let b := signedMag n2 (if m2 = 0 then 0 else scaleTo m2 e2 e0)
  let s := a + b
  if s = 0 then ((m1 = 0 && m2 = 0 && n1 && n2) || zeroNeg, 0, e0)
  else (decide (s < 0), s.natAbs, e0)

/-- An exact zero sum is −0 under RD only (11 R259). -/
def zeroSumNeg (rm : Rm) : Bool := rm = .rd

/-- The sum of two values (11 R259). -/
def fpAddVal (f : FpFormat) (rm : Rm) (ftz : Bool) (a b : FpVal) : Nat × Flags :=
  match a, b with
  | .nan sa, y => (f.nan, flagIf sa fNV ||| y.nvSignalling)
  | x, .nan sb => (f.nan, flagIf sb fNV ||| x.nvSignalling)
  | .inf na, .inf nb => if na == nb then (f.infinity na, 0) else (f.nan, fNV)
  | .inf na, .fin .. => (f.infinity na, 0)
  | .fin .., .inf nb => (f.infinity nb, 0)
  | .fin na ma ea, .fin nb mb eb =>
    let (n, m, e) := addExact na ma ea nb mb eb (zeroSumNeg rm)
    f.roundArith rm ftz n m e false

/-- A value with its sign changed. -/
def FpVal.negate : FpVal → FpVal
  | .nan s => .nan s
  | .inf n => .inf (!n)
  | .fin n m e => .fin (!n) m e

/-- a + b. -/
def fpAdd (f : FpFormat) (rm : Rm) (ftz : Bool) (a b : Nat) : Nat × Flags :=
  fpAddVal f rm ftz (f.input ftz a) (f.input ftz b)

/-- a − b. -/
def fpSub (f : FpFormat) (rm : Rm) (ftz : Bool) (a b : Nat) : Nat × Flags :=
  fpAddVal f rm ftz (f.input ftz a) (f.input ftz b).negate

/-- The product of two values. -/
def fpMulVal (f : FpFormat) (rm : Rm) (ftz : Bool) (a b : FpVal) : Nat × Flags :=
  match a, b with
  | .nan sa, y => (f.nan, flagIf sa fNV ||| y.nvSignalling)
  | x, .nan sb => (f.nan, flagIf sb fNV ||| x.nvSignalling)
  | .inf na, .inf nb => (f.infinity (na ^^ nb), 0)
  | .inf na, .fin nb mb _ => if mb = 0 then (f.nan, fNV) else (f.infinity (na ^^ nb), 0)
  | .fin na ma _, .inf nb => if ma = 0 then (f.nan, fNV) else (f.infinity (na ^^ nb), 0)
  | .fin na ma ea, .fin nb mb eb => f.roundArith rm ftz (na ^^ nb) (ma * mb) (ea + eb) false

/-- a × b. -/
def fpMul (f : FpFormat) (rm : Rm) (ftz : Bool) (a b : Nat) : Nat × Flags :=
  fpMulVal f rm ftz (f.input ftz a) (f.input ftz b)

/-- The product 0 × ∞ (11 R259). -/
def zeroTimesInf : FpVal → FpVal → Bool
  | .inf _, .fin _ m _ => m = 0
  | .fin _ m _, .inf _ => m = 0
  | _, _ => false

/-- a × b + c with one rounding (11 R259). A product 0 × ∞ raises NV whatever c is. -/
def fpFmaVal (f : FpFormat) (rm : Rm) (ftz : Bool) (a b c : FpVal) : Nat × Flags :=
  if zeroTimesInf a b then (f.nan, fNV)
  else
    let nv := a.nvSignalling ||| b.nvSignalling ||| c.nvSignalling
    if a.isNan || b.isNan || c.isNan then (f.nan, nv)
    else
      match a, b, c with
      | .fin na ma ea, .fin nb mb eb, .fin nc mc ec =>
        let (n, m, e) := addExact (na ^^ nb) (ma * mb) (ea + eb) nc mc ec (zeroSumNeg rm)
        f.roundArith rm ftz n m e false
      | .fin .., .fin .., c => fpAddVal f rm ftz (.fin false 0 0) c
      | a, b, c =>
        let sa := match a with | .inf n => n | .fin n _ _ => n | .nan _ => false
        let sb := match b with | .inf n => n | .fin n _ _ => n | .nan _ => false
        fpAddVal f rm ftz (.inf (sa ^^ sb)) c

/-- a × b + c. -/
def fpFma (f : FpFormat) (rm : Rm) (ftz : Bool) (a b c : Nat) : Nat × Flags :=
  fpFmaVal f rm ftz (f.input ftz a) (f.input ftz b) (f.input ftz c)

/-- −(a × b) + c. -/
def fpFnma (f : FpFormat) (rm : Rm) (ftz : Bool) (a b c : Nat) : Nat × Flags :=
  fpFmaVal f rm ftz (f.input ftz a).negate (f.input ftz b) (f.input ftz c)

/-- The encoding an input stands for under FTZ (11 R260): a subnormal is a zero of its sign. -/
def FpFormat.inputBits (f : FpFormat) (ftz : Bool) (x : Nat) : Nat :=
  if ftz && f.isSubnormal x then f.zero (x.testBit (f.exp + f.frac)) else x

/-- The order of encodings that are no NaN, −0 below +0 (11 R260). -/
def FpFormat.key (f : FpFormat) (x : Nat) : Int :=
  if x.testBit (f.exp + f.frac) then -((x % 2 ^ (f.exp + f.frac) : Nat) : Int) - 1
  else ((x % 2 ^ (f.exp + f.frac) : Nat) : Int)

/-- max or min of R260: one of the inputs, unchanged; a single NaN operand yields the other. -/
def fpMaxMin (f : FpFormat) (wantMax ftz : Bool) (a b : Nat) : Nat × Flags :=
  let va := f.decode a
  let vb := f.decode b
  let nv := va.nvSignalling ||| vb.nvSignalling
  if va.isNan && vb.isNan then (f.nan, nv)
  else if va.isNan then (f.inputBits ftz b, nv)
  else if vb.isNan then (f.inputBits ftz a, nv)
  else
    let x := f.inputBits ftz a
    let y := f.inputBits ftz b
    (if wantMax then (if f.key x ≤ f.key y then y else x) else (if f.key x ≤ f.key y then x else y), nv)

/-- The greater of two values, for MAX and MIN of a module reduction (03 R84): any NaN gives the canonical NaN. -/
def fpMaxMinNan (f : FpFormat) (wantMax : Bool) (a b : Nat) : Nat :=
  if (f.decode a).isNan || (f.decode b).isNan then f.nan else (fpMaxMin f wantMax false a b).1

/-- a with its sign bit cleared (11 R259 FABS). -/
def fpAbs (f : FpFormat) (ftz : Bool) (a : Nat) : Nat × Flags :=
  match f.decode a with
  | .nan s => (f.nan, flagIf s fNV)
  | _ => (if ftz && f.isSubnormal a then 0 else a % 2 ^ (f.exp + f.frac), 0)

/-- How two values compare, when neither is a NaN: −1, 0 or 1; −0 equals +0 (11 R261). -/
def fpCompare : FpVal → FpVal → Int
  | .inf na, .inf nb => if na == nb then 0 else if na then -1 else 1
  | .inf na, _ => if na then -1 else 1
  | _, .inf nb => if nb then 1 else -1
  | .fin na ma ea, .fin nb mb eb =>
    let e0 := min ea eb
    let d := signedMag na (scaleTo ma ea e0) - signedMag nb (scaleTo mb eb e0)
    if d < 0 then -1 else if d = 0 then 0 else 1
  | _, _ => 0

/-- The VFCMP conditions by F4[2:0], with the NV flag (11 R261). -/
def fpCond (f : FpFormat) (ftz : Bool) (cc : Nat) (a b : Nat) : Bool × Flags :=
  let va := f.input ftz a
  let vb := f.input ftz b
  let un := va.isNan || vb.isNan
  let quiet := va.nvSignalling ||| vb.nvSignalling
  let c := fpCompare va vb
  match cc with
  | 0 => (!un && c = 0, quiet)
  | 1 => (un || c ≠ 0, quiet)
  | 2 => (!un && c < 0, flagIf un fNV)
  | 3 => (!un && c ≤ 0, flagIf un fNV)
  | 4 => (!un && 0 < c, flagIf un fNV)
  | 5 => (!un && 0 ≤ c, flagIf un fNV)
  | 6 => (un, quiet)
  | _ => (!un, quiet)

/-! ## Division and the special functions (08 R203) -/

/-- The quotient of two finite magnitudes: enough bits of it, and whether more follow. -/
def divExact (ma : Nat) (ea : Int) (mb : Nat) (eb : Int) : Nat × Int × Bool :=
  let k := 128 + Nat.log2 mb
  let n := ma * 2 ^ k
  (n / mb, ea - eb - (k : Int), decide (n % mb ≠ 0))

/-- a / b (08 R203). -/
def fpDiv (f : FpFormat) (rm : Rm) (ftz : Bool) (a b : Nat) : Nat × Flags :=
  match f.input ftz a, f.input ftz b with
  | .nan sa, y => (f.nan, flagIf sa fNV ||| y.nvSignalling)
  | x, .nan sb => (f.nan, flagIf sb fNV ||| x.nvSignalling)
  | .inf _, .inf _ => (f.nan, fNV)
  | .inf na, .fin nb _ _ => (f.infinity (na ^^ nb), 0)
  | .fin na _ _, .inf nb => (f.zero (na ^^ nb), 0)
  | .fin na ma ea, .fin nb mb eb =>
    if mb = 0 then (if ma = 0 then (f.nan, fNV) else (f.infinity (na ^^ nb), fDZ))
    else if ma = 0 then (f.zero (na ^^ nb), 0)
    else
      let (m, e, st) := divExact ma ea mb eb
      f.roundArith rm ftz (na ^^ nb) m e st

/-- The integer square root, by its bits from 2^(n − 1) down. -/
def isqrtFrom (x r : Nat) : Nat → Nat
  | 0 => r
  | n + 1 => let t := r + 2 ^ n; if t * t ≤ x then isqrtFrom x t n else isqrtFrom x r n

/-- The integer square root: the greatest r with r² ≤ x. -/
def isqrt (x : Nat) : Nat := isqrtFrom x 0 (Nat.log2 x / 2 + 1)

/-- m × 2^e with an even exponent. -/
def evenExp (m : Nat) (e : Int) : Nat × Int := if e % 2 = 0 then (m, e) else (2 * m, e - 1)

/-- The square root (08 R203). -/
def fpSqrt (f : FpFormat) (rm : Rm) (ftz : Bool) (a : Nat) : Nat × Flags :=
  match f.input ftz a with
  | .nan s => (f.nan, flagIf s fNV)
  | .inf true => (f.nan, fNV)
  | .inf false => (f.infinity false, 0)
  | .fin n m e =>
    if m = 0 then (f.zero n, 0) else if n then (f.nan, fNV)
    else
      let (m1, e1) := evenExp m e
      let x := m1 * 2 ^ 128
      let r := isqrt x
      f.roundArith rm ftz false r (e1 / 2 - 64) (decide (r * r ≠ x))

/-- The reciprocal square root (08 R203). -/
def fpRsqrt (f : FpFormat) (rm : Rm) (ftz : Bool) (a : Nat) : Nat × Flags :=
  match f.input ftz a with
  | .nan s => (f.nan, flagIf s fNV)
  | .inf true => (f.nan, fNV)
  | .inf false => (f.zero false, 0)
  | .fin n m e =>
    if m = 0 then (f.infinity n, fDZ) else if n then (f.nan, fNV)
    else
      let (m1, e1) := evenExp m e
      let x := 2 ^ 256
      let r := isqrt (x / m1)
      f.roundArith rm ftz false r (-(e1 / 2) - 128) (decide (r * r * m1 ≠ x))

/-- Fixed-point bits of the series below. -/
def seriesBits : Nat := 256

/-- ln 2 in units of 2^−256, cut. -/
def ln2Fixed : Nat := 0xb17217f7d1cf79abc9e3b39803f2f6af40f343267298b62d8a0d175b8baafa2b

/-- The exponential series 1 + y + y²/2! + …, from the term of index `k`, in units of 2^−256. -/
def expSeries (y term k : Nat) : Nat → Nat
  | 0 => term
  | n + 1 => term + expSeries y (term * y / 2 ^ seriesBits / (k + 1)) (k + 1) n

/-- 2^x for a fraction 0 < x < 1 given in units of 2^−256: between 1 and 2, in the same units. -/
def exp2Frac (x : Nat) : Nat := expSeries (x * ln2Fixed / 2 ^ seriesBits) (2 ^ seriesBits) 0 80

/-- 2^(±m × 2^e) as m' × 2^e' with a sticky rest; exact for an integer exponent. Exponents beyond ±2^12 are cut there. -/
def exp2Exact (neg : Bool) (m : Nat) (e : Int) : Nat × Int × Bool :=
  let lim : Int := 4096
  if decide (13 < e + (Nat.log2 m : Int)) then (2 ^ 64, (if neg then -lim else lim) - 64, true)
  else
    let x : Int := if e ≥ 0 then signedMag neg (m * 2 ^ e.toNat) * 2 ^ seriesBits
      else signedMag neg (m * 2 ^ seriesBits) / 2 ^ (-e).toNat
    let n := x / 2 ^ seriesBits
    let r := (x % 2 ^ seriesBits).toNat
    if r = 0 then (1, n, false) else (exp2Frac r, n - (seriesBits : Int), true)

/-- 2^a (08 R203). -/
def fpExp2 (f : FpFormat) (rm : Rm) (ftz : Bool) (a : Nat) : Nat × Flags :=
  match f.input ftz a with
  | .nan s => (f.nan, flagIf s fNV)
  | .inf true => (f.zero false, 0)
  | .inf false => (f.infinity false, 0)
  | .fin n m e =>
    if m = 0 then f.roundArith rm ftz false 1 0 false
    else
      let (m1, e1, st) := exp2Exact n m e
      f.roundArith rm ftz false m1 e1 st

/-- z/(2k+1) + z³/(2k+3) + …, with z² in units of 2^−256 and `pw` the running odd power. -/
def atanhSeries (z2 pw k : Nat) : Nat → Nat
  | 0 => 0
  | n + 1 => pw / (2 * k + 1) + atanhSeries z2 (pw * z2 / 2 ^ seriesBits) (k + 1) n

/-- log2 of a number 1 ≤ x < 2 given as m / 2^b, in units of 2^−256: 2 atanh((x − 1)/(x + 1)) / ln 2. -/
def log2Frac (m b : Nat) : Nat :=
  let one := 2 ^ b
  let z := (m - one) * 2 ^ seriesBits / (m + one)
  2 * atanhSeries (z * z / 2 ^ seriesBits) z 0 90 * 2 ^ seriesBits / ln2Fixed

/-- log2(a) (08 R203). -/
def fpLog2 (f : FpFormat) (rm : Rm) (ftz : Bool) (a : Nat) : Nat × Flags :=
  match f.input ftz a with
  | .nan s => (f.nan, flagIf s fNV)
  | .inf true => (f.nan, fNV)
  | .inf false => (f.infinity false, 0)
  | .fin n m e =>
    if m = 0 then (f.infinity true, fDZ) else if n then (f.nan, fNV)
    else
      let b := Nat.log2 m
      let ex : Int := e + (b : Int)
      if m = 2 ^ b then
        f.roundArith rm ftz (decide (ex < 0)) ex.natAbs 0 false
      else
        let v : Int := ex * 2 ^ seriesBits + (log2Frac m b : Int)
        if v < 0 then f.roundArith rm ftz true (v.natAbs - 1) (-(seriesBits : Int)) true
        else f.roundArith rm ftz false v.natAbs (-(seriesBits : Int)) true

/-- a rounded to an integral value (11 R262 FRINT). -/
def fpRint (f : FpFormat) (rm : Rm) (ftz : Bool) (a : Nat) : Nat × Flags :=
  match f.input ftz a with
  | .nan s => (f.nan, flagIf s fNV)
  | .inf n => (f.infinity n, 0)
  | .fin n m e =>
    if m = 0 then (f.zero n, 0)
    else
      let (keep, rest) := cutAt m e false 0
      let k := if roundsUp rm n keep rest then keep + 1 else keep
      if k = 0 then (f.zero n, fNX)
      else ((f.roundArith rm false n k 0 false).1, flagIf (decide (rest ≠ 0)) fNX)

/-- The class mask of FCLASS (11 R262). -/
def fpClass (f : FpFormat) (a : Nat) : Nat :=
  let neg := a.testBit (f.exp + f.frac)
  match f.decode a with
  | .nan true => 2 ^ 8
  | .nan false => 2 ^ 9
  | .inf n => if n then 1 else 2 ^ 7
  | .fin _ m _ =>
    if m = 0 then (if neg then 2 ^ 3 else 2 ^ 4)
    else if f.isSubnormal a then (if neg then 2 ^ 2 else 2 ^ 5)
    else (if neg then 2 else 2 ^ 6)

/-! ## Conversions (08 R193, R194; 11 R265, R266) -/

/-- FCVT between two formats. FTZ acts on the FP32 and BF16 sides only. -/
def fpConvert (src dst : FpFormat) (sat ftzSrc ftzDst : Bool) (a : Nat) : Nat × Flags :=
  match src.input ftzSrc a with
  | .nan s => (dst.nan, flagIf s fNV)
  | .inf n => if dst.hasInf then (dst.infinity n, 0) else (if sat then dst.largest n else dst.nan, fOF ||| fNX)
  | .fin n m e => dst.roundNarrow sat ftzDst n m e false

/-- A value to a signed integer of `n` bits, nearest even, saturating (08 R194). -/
def fpToInt (v : FpVal) (n : Nat) : Int × Flags :=
  let hi : Int := 2 ^ (n - 1) - 1
  let lo : Int := -(2 ^ (n - 1))
  match v with
  | .nan _ => (0, fNV)
  | .inf neg => (if neg then lo else hi, fNV)
  | .fin neg m e =>
    let (keep, rest) := cutAt m e false 0
    let k := signedMag neg (if roundsUp .rne neg keep rest then keep + 1 else keep)
    if hi < k then (hi, fNV) else if k < lo then (lo, fNV) else (k, flagIf (decide (rest ≠ 0)) fNX)

/-- An integer to a format, nearest even (08 R194). -/
def intToFp (f : FpFormat) (ftz : Bool) (x : Int) : Nat × Flags := f.roundArith .rne ftz (decide (x < 0)) x.natAbs 0 false

/-! ## Operations on two BF16 halves (11 R263) -/

/-- A binary operation applied to both halves of packed elements, with the union of the flags. -/
def packed2 (op : Nat → Nat → Nat × Flags) (a b : Word) : Word × Flags :=
  let l := op (a.toNat % 65536) (b.toNat % 65536)
  let h := op (a.toNat / 65536) (b.toNat / 65536)
  (BitVec.ofNat 32 (l.1 + 65536 * h.1), l.2 ||| h.2)

/-- A ternary operation applied to both halves. -/
def packed3 (op : Nat → Nat → Nat → Nat × Flags) (a b c : Word) : Word × Flags :=
  let l := op (a.toNat % 65536) (b.toNat % 65536) (c.toNat % 65536)
  let h := op (a.toNat / 65536) (b.toNat / 65536) (c.toNat / 65536)
  (BitVec.ofNat 32 (l.1 + 65536 * h.1), l.2 ||| h.2)

/-- An FP32 operation on words. -/
def word2 (op : Nat → Nat → Nat × Flags) (a b : Word) : Word × Flags :=
  let r := op a.toNat b.toNat
  (BitVec.ofNat 32 r.1, r.2)

/-- An FP32 operation on one word. -/
def word1 (op : Nat → Nat × Flags) (a : Word) : Word × Flags :=
  let r := op a.toNat
  (BitVec.ofNat 32 r.1, r.2)

/-- An FP32 operation on three words. -/
def word3 (op : Nat → Nat → Nat → Nat × Flags) (a b c : Word) : Word × Flags :=
  let r := op a.toNat b.toNat c.toNat
  (BitVec.ofNat 32 r.1, r.2)

/-- The new value of an atomic operation of w = 8 × size bits (12 R281). -/
def atomicNew (op size old a b : Nat) : Nat :=
  let w := 8 * size
  match op with
  | 0 => (old + a) % 2 ^ w
  | 1 => (fpAdd (if size = 8 then fp64 else fp32) .rne false old a).1
  | 2 => maxNat old a w
  | 3 => minNat old a w
  | 4 => old &&& a
  | 5 => old ||| a
  | 6 => a
  | _ => if old = a then b else old

end Sys2Proof.Machine
end

