-- ==== Sys2Proof/Machine/Legal.lean ====
section
/-!
DEFINITION. Illegal Instruction at decode or issue (09_encoding R217, R218): the subcode a word raises by its fields, the
accepted features, FMT, the tile descriptors and the wave's accumulators, the lowest when several hold. Subcodes 0x01 and
0x02 are the decoder's.
-/
namespace Sys2Proof.Machine

/-- Bit of feature word 0 (15_partitions_host_startup R353). -/
inductive Feature where
  | relay | modred | ox4 | sparse48 | gates | rowpin | gather | phasesel
deriving DecidableEq, Repr

/-- The bit's number (15 R353). -/
def Feature.bit : Feature → Nat
  | .relay => 0
  | .modred => 1
  | .ox4 => 2
  | .sparse48 => 3
  | .gates => 4
  | .rowpin => 5
  | .gather => 6
  | .phasesel => 7

/-- Subcode 0x03 when a feature was not accepted (09 R218). -/
def needs (s : State) (f : Feature) : Option Nat := if s.feature f.bit then none else some 3

/-- Subcode 0x04 when a field has an illegal value (09 R217). -/
def illegalIf (b : Bool) : Option Nat := if b then some 4 else none

/-- The first of two reasons. -/
def firstOf (a b : Option Nat) : Option Nat := match a with | some x => some x | none => b

/-- The special registers that URDS reads (09 R219). -/
def specialReadable (n : Nat) : Bool := n ≤ 0x01D || (0x020 ≤ n && n ≤ 0x03F)

/-- The special registers that UWRS writes (09 R219): FMT, TRAPCAUSE, TRAPADDRLO/HI, TRAPPC, TRAPBASE, BUCKET, BOUND0-7,
FPFLAGS. -/
def specialWritable (n : Nat) : Bool := (0x00B ≤ n && n ≤ 0x010) || (0x014 ≤ n && n ≤ 0x01D)

/-- An accumulator name at or above the wave's ACC (09 R224). -/
def badAcc (w : Wave) (a : BitVec 3) : Bool := w.accs.length ≤ a.toNat

/-- FMT of a tile descriptor (13 R308). -/
def tileFmt (t : BitVec 128) : Nat := bitsAt t.toNat 92 3

/-- Registers of the FP32 group of a scale tile (11 R267). -/
def fp32GroupSize (f : BitVec 8) : Nat := fmtT f * fmtT f / 64

/-- Registers of the packed group of a scale tile (11 R267), by FMT.NFMT and FMT.STILE. -/
def packedGroupSize (f : BitVec 8) : Nat :=
  let small := fmtT f = 16
  match fmtNfmt f with
  | 2 => if small then 1 else 2
  | 3 => if small then 2 else 8
  | _ => if small then 1 else 4

/-- QPK and QUNPK (11 R264, R267): NFMT, feature, guard, groups. `src` and `dst` are group sizes. -/
def quantIllegal (s : State) (u : UnitSt) (d a : BitVec 6) (g : BitVec 3) (dst src : Nat) : Option Nat :=
  firstOf (if fmtNfmt u.fmt = 2 then needs s .ox4 else none)
    (illegalIf (4 ≤ fmtNfmt u.fmt || g ≠ 0 || 64 < d.toNat + dst || 64 < a.toNat + src))

/-- A positive finite BF16 (13 R320). -/
def positiveFiniteBf16 (x : Nat) : Bool := 0 < x && x < 0x7F80

/-- MSTEP's format code and whether a pair is permitted (13 R319): both BF16, both FP8, or both OX4. -/
def mstepPairOk (f g : Nat) : Bool :=
  (f = 0 && g = 0) || (f = 3 && g = 3) || ((f = 1 || f = 2) && (g = 1 || g = 2))

/-- Registers of an MSTEP fragment (13 R320). -/
def mstepRegs (f : Nat) : Nat := if f = 3 then 1 else 2

/-- The control word of a remote operation (12 R291): ATOP of an RATOM is above 7. -/
def ratomIllegal (w : Wave) (ctl : BitVec 5) : Bool := 8 ≤ bitsAt (w.s (2 * ctl.toNat)).toNat 28 4

/-- MATOM's register groups (12 R289). -/
def matomIllegal (d r : BitVec 6) (w64 : BitVec 1) (p : BitVec 3) : Bool :=
  6 ≤ p.toNat || d.toNat % 2 = 1
    || (w64 = 1 && (d.toNat % 4 ≠ 0 || r.toNat % 4 ≠ 0))
    || (if w64 = 1 then 64 < d.toNat + 4 || 64 < r.toNat + 4 else 64 < d.toNat + 2 || 64 < r.toNat + 2)

/-- FCVT's format pair (11 R265). -/
def fcvtIllegal (dst src : BitVec 3) : Bool := 4 < dst.toNat || 4 < src.toNat || dst = src

/-- ICVT's format pair (11 R266): exactly one is an integer, the other FP32 or BF16. -/
def icvtIllegal (dst src : BitVec 3) : Bool :=
  let int (x : BitVec 3) := x.toNat = 5 || x.toNat = 6
  let fp (x : BitVec 3) := x.toNat < 2
  !((int dst && fp src) || (fp dst && int src))

/-- A q field above 7 (09 R213). -/
def badQ (x : BitVec 6) : Bool := 7 < x.toNat

/-- An odd register number. -/
def odd (x : BitVec 6) : Bool := x.toNat % 2 = 1

/-- The first byte of a target packet, as an offset from CODE. -/
def targetPc (packets : Nat) : Nat := 16 * packets

/-- The count of entries that were open when the current call frame was entered (10 R236, R240). -/
def Wave.frameDepth (w : Wave) : Nat := (w.calls.head?.map CallRec.ddepth).getD 0

/-- The innermost entry of a unit, when it was opened inside the current call frame. -/
def Wave.innermost (w : Wave) (u : UnitSt) : Option DivEntry :=
  if w.frameDepth < u.open then u.entries.head? else none

/-- RET finds no open record, or entries opened in its call that are still open (10 R236, R237). -/
def badReturn (w : Wave) (u : UnitSt) : Bool :=
  match w.calls with
  | [] => true
  | top :: _ => decide (top.ddepth ≠ u.open)

/-- JOIN stands elsewhere than at word 0 of the join target packet of the innermost entry of this call frame (10 R240). -/
def badJoin (w : Wave) (u : UnitSt) : Bool :=
  match w.innermost u with
  | none => true
  | some e => decide (u.pc ≠ targetPc e.joinTarget)

/-- What the lanes of VLDX and VSTX meet first: poison, or an index outside the resident range. -/
inductive IndexFault where
  | poison | range
deriving DecidableEq, Repr

/-- The logical register a lane names (11 R273). -/
def Wave.indexOf (w : Wave) (a : BitVec 6) (imm : Word) (i : Nat) : Int :=
  (w.winBase : Int) + ((w.v a.toNat).lanes.getD i 0).toInt + imm.toInt

/-- The check of the active lanes, in ascending order: the first that fails. -/
def Wave.indexCheck (w : Wave) (a : BitVec 6) (imm : Word) (m : Lanes) : Option IndexFault :=
  (lanesOf m).findSome? fun i =>
    if (w.v a.toNat).poison.getLsbD i then some .poison
    else
      let l := w.indexOf a imm i
      if l < (w.lo : Int) || (w.lo : Int) + (w.vregs.length : Int) - 1 < l then some .range else none

/-- A scope field of 7 (04 R103). -/
def badScope (x : BitVec 3) : Bool := x = 7

/-- The subcode of Illegal Instruction that a decoded word raises before it performs, if any. `u.pc` is the word's own offset, and
`lit` its packet's literal. DESIGN CHOICE (log 53): UQOP not, whose operation ignores qb (10 R229), is illegal all the same when
its qb field holds a value above 7: R213 says so of every field that names a q register. -/
def illegalSub (s : State) (w : Wave) (u : UnitSt) (lit : Word) : Instr → Option Nat
  | .ucmp _ q _ _ _ => illegalIf (badQ q)
  | .ucmpi _ q _ _ => illegalIf (badQ q)
  | .uqop d a b _ => illegalIf (badQ d || badQ a || badQ b)
  | .uld32 _ a _ => illegalIf (odd a)
  | .uld64 d a _ => illegalIf (odd a || odd d)
  | .ust32 _ a _ => illegalIf (odd a)
  | .ust64 d a _ => illegalIf (odd a || odd d)
  | .urds _ n => illegalIf (!specialReadable n.toNat)
  | .uwrs _ n => illegalIf (!specialWritable n.toNat)
  | .call _ _ => illegalIf (lit.toNat % 8 ≠ 0 || 64 < lit.toNat)
  | .calli _ _ => illegalIf (lit.toNat % 8 ≠ 0 || 64 < lit.toNat)
  | .ret q => illegalIf (w.q q.toNat && !w.qPoison q.toNat && badReturn w u)
  | .join => illegalIf (badJoin w u)
  | .brkp _ => illegalIf (w.innermost u).isNone
  | .pmask d => illegalIf (odd d)
  | .anyp d _ => illegalIf (badQ d)
  | .allp d _ => illegalIf (badQ d)
  | .rte => illegalIf w.handler.isNone
  | .dispatch a => illegalIf (60 < a.toNat || ((s.launch? w.seq).map Launch.dtab).getD 0 = 0)
  | .phasesel => firstOf (needs s .phasesel) (illegalIf (((s.launch? w.seq).map Launch.dtab).getD 0 = 0))
  | .phaseend _ => firstOf (needs s .phasesel) (illegalIf (((s.launch? w.seq).map Launch.dtab).getD 0 = 0))
  | .vtos _ _ _ g => illegalIf (g ≠ 0)
  | .fcvt _ _ dst src _ => illegalIf (fcvtIllegal dst src)
  | .icvt _ _ dst src _ => illegalIf (icvtIllegal dst src)
  | .qpk d a _ g => quantIllegal s u d a g (packedGroupSize u.fmt) (fp32GroupSize u.fmt)
  | .qunpk d a _ g => quantIllegal s u d a g (fp32GroupSize u.fmt) (packedGroupSize u.fmt)
  | .vredf _ _ o _ => illegalIf (2 < o.toNat)
  | .vredi _ _ o _ => illegalIf (7 < o.toNat)
  | .vscanf _ _ o _ => illegalIf (2 < o.toNat)
  | .vldx _ a imm => illegalIf (w.indexCheck a (immediate imm lit) u.mask = some .range)
  | .vstx _ a imm => illegalIf (w.indexCheck a (immediate imm lit) u.mask = some .range)
  | .vballot sd _ _ => illegalIf (odd sd)
  | .ldg z sc _ d _ _ _ => illegalIf (badScope sc || (z = 3 && d = 63))
  | .stg z sc _ d _ _ _ => illegalIf (badScope sc || (z = 3 && d = 63))
  | .ldq z sc _ d _ _ n => illegalIf (badScope sc || (z = 3 && d = 63) || (z = 3 && n = 1))
  | .stq z sc _ d _ _ n => illegalIf (badScope sc || (z = 3 && d = 63) || (z = 3 && n = 1))
  | .gather z sc _ d _ _ _ => firstOf (needs s .gather) (illegalIf (badScope sc || (z = 3 && d = 63)))
  | .scatter z sc _ d _ _ _ => firstOf (needs s .gather) (illegalIf (badScope sc || (z = 3 && d = 63)))
  | .atomg p w64 sc _ d _ _ =>
    illegalIf (badScope sc || 64 < d.toNat + (if w64 = 1 then 2 else 1) * (if p = 7 then 2 else 1))
  | .atomq p _ sc _ d _ _ => illegalIf (badScope sc || 64 < d.toNat + (if p = 7 then 2 else 1))
  | .fence sc => illegalIf (badScope sc)
  | .fenceacq sc => illegalIf (badScope sc)
  | .fencerel sc => illegalIf (badScope sc)
  | .fenceeng sc => illegalIf (badScope sc)
  | .rowpin d _ => firstOf (needs s .rowpin) (illegalIf (odd d))
  | .rowunpin _ _ => needs s .rowpin
  | .rowqry _ _ => needs s .rowpin
  | .mred _ d r => firstOf (needs s .modred) (illegalIf (odd d || 62 < r.toNat))
  | .mredrd _ d r => firstOf (needs s .modred) (illegalIf (odd d || 62 < r.toNat))
  | .matom _ d r w64 p => illegalIf (matomIllegal d r w64 p)
  | .rwri _ _ _ => needs s .relay
  | .rrd _ _ _ => needs s .relay
  | .ratom _ ctl _ =>
    firstOf (needs s .relay) (illegalIf (ratomIllegal w ctl))
  | .nqwait d _ => firstOf (needs s .relay) (illegalIf (odd d))
  | .tbinit _ _ sc _ => illegalIf (badScope sc)
  | .tbarrive _ _ sc _ => illegalIf (badScope sc)
  | .tbexpect _ _ sc _ => illegalIf (badScope sc)
  | .tbwait _ _ sc _ => illegalIf (badScope sc)
  | .tbquery _ _ sc r => illegalIf (badScope sc || r.toNat % 4 ≠ 0)
  | .barsync sc _ _ => illegalIf (badScope sc || sc = 0)
  | .bararrive sc _ _ _ => illegalIf (badScope sc || sc = 0)
  | .barwait sc _ _ => illegalIf (badScope sc || sc = 0)
  | .gatepost _ _ => needs s .gates
  | .gatetake _ _ _ => needs s .gates
  | .gatepoll _ _ => needs s .gates
  | .mloop a t b _ _ sp n =>
    firstOf (if (tileFmt (w.tile t.toNat) = 4 || tileFmt (w.tile b.toNat) = 4) then needs s .ox4 else none)
      (firstOf (if sp = 1 then needs s .sparse48 else none) (illegalIf (badAcc w a || n = 0)))
  | .mstep a v w2 f _ _ g =>
    firstOf (if f = 3 || g = 3 then needs s .ox4 else none)
      (illegalIf (badAcc w a || !mstepPairOk f.toNat g.toNat || 64 < v.toNat + mstepRegs f.toNat
        || 64 < w2.toNat + mstepRegs g.toNat
        || (f = 3 && g = 3 && (!positiveFiniteBf16 (lit.toNat % 65536) || !positiveFiniteBf16 (lit.toNat / 65536)))))
  | .mdrain a d t tr _ =>
    firstOf (if tileFmt (w.tile d.toNat) = 4 || (tr = 1 && tileFmt (w.tile t.toNat) = 4) then needs s .ox4 else none)
      (illegalIf (badAcc w a))
  | .mzero a => illegalIf (badAcc w a)
  | .mwait a => illegalIf (badAcc w a)
  | .mload a t => firstOf (if tileFmt (w.tile t.toNat) = 4 then needs s .ox4 else none) (illegalIf (badAcc w a))
  | .mqry a d => illegalIf (badAcc w a || odd d)
  | .tset _ a => illegalIf (a.toNat % 4 ≠ 0)
  | .tget d _ => illegalIf (d.toNat % 4 ≠ 0)
  | .ctrrd d _ => illegalIf (odd d)
  | .ctrctl d _ => illegalIf (odd d)
  | _ => none

/-- The unit with its pc at the latched word, which is its own or the second of its pair. -/
def UnitSt.at (u : UnitSt) (i : Issue) : UnitSt := { u with pc := i.pc }

/-- The word performs only when it is legal; otherwise it raises Illegal Instruction (09 R217). -/
def whenLegal (s : State) (i : Instr) (f : Wave → Issue → UnitSt → Out) : Out :=
  onUnit s fun w is u =>
    match illegalSub s w (u.at is) is.lit i with
    | some sub => takeTrap s w is 1 sub 0
    | none => f w is u

end Sys2Proof.Machine
end

