-- ==== Sys2Proof/Machine/Uniform.lean ====
section
/-!
DEFINITION. The hint word and the uniform arithmetic, compare and bit words (09_encoding R216; 10_isa_uniform_control R226 to
R229).
-/
namespace Sys2Proof.Machine

/-- The virtual address of an offset from CODE of the wave's launch. -/
def State.codeVa (s : State) (w : Wave) (off : Nat) : Nat := (((s.launch? w.seq).map Launch.code).getD 0 + off) % 2 ^ 64

/-- Poison that reached the latched word through a register (03 R97): Poison Consumed, at the word's address. -/
def poisonTrap (s : State) (w : Wave) (i : Issue) : Out := takeTrap s w i 6 0 (s.codeVa w i.pc)

/-- A U-format word under its q-guard (10 R226): a guard of 0 performs nothing, a poisoned one traps. -/
def uGuarded (s : State) (i : Instr) (g : BitVec 3) (f : Wave → Wave) : Out :=
  whenLegal s i fun w is _ =>
    if w.qPoison g.toNat then poisonTrap s w is
    else finish s (if w.q g.toNat then f w else w) is

/-- s(d) := f(s(a), s(b)), poisoned by a poisoned source. -/
def Wave.uBin (w : Wave) (f : Word → Word → Word) (d a b : BitVec 6) : Wave :=
  w.setS d.toNat (f (w.s a.toNat) (w.s b.toNat)) (w.sPoison a.toNat || w.sPoison b.toNat)

/-- s(d) := f(s(a)), poisoned by a poisoned source. -/
def Wave.uUn (w : Wave) (f : Word → Word) (d a : BitVec 6) : Wave :=
  w.setS d.toNat (f (w.s a.toNat)) (w.sPoison a.toNat)

/-- A UI word: s(d) := f(s(a), immediate) (10 R227). -/
def uImm (s : State) (i : Instr) (f : Word → Word → Word) (d a : BitVec 6) (imm : BitVec 10) : Out :=
  whenLegal s i fun w is _ => finish s (w.uUn (fun x => f x (immediate imm is.lit)) d a) is

/-- NOP: a word of the hint region does nothing (09 R216). -/
def execNop (s : State) : Out := onUnit s fun w is _ => finish s w is

/-- UADD: sd := sa + sb (10 R227). -/
def execUadd (d a b : BitVec 6) (g : BitVec 3) (s : State) : Out :=
  uGuarded s (.uadd d a b g) g fun w => w.uBin (fun x y => x + y) d a b

/-- USUB: sd := sa − sb (10 R227). -/
def execUsub (d a b : BitVec 6) (g : BitVec 3) (s : State) : Out :=
  uGuarded s (.usub d a b g) g fun w => w.uBin (fun x y => x - y) d a b

/-- UMUL: sd := sa × sb (10 R227). -/
def execUmul (d a b : BitVec 6) (g : BitVec 3) (s : State) : Out :=
  uGuarded s (.umul d a b g) g fun w => w.uBin (fun x y => x * y) d a b

/-- UMULH: the high half of the signed product (10 R227). -/
def execUmulh (d a b : BitVec 6) (g : BitVec 3) (s : State) : Out :=
  uGuarded s (.umulh d a b g) g fun w => w.uBin (fun x y => mulHigh x y) d a b

/-- UMULHU: the high half of the unsigned product (10 R227). -/
def execUmulhu (d a b : BitVec 6) (g : BitVec 3) (s : State) : Out :=
  uGuarded s (.umulhu d a b g) g fun w => w.uBin (fun x y => mulHighU x y) d a b

/-- UAND: sa and sb (10 R227). -/
def execUand (d a b : BitVec 6) (g : BitVec 3) (s : State) : Out :=
  uGuarded s (.uand d a b g) g fun w => w.uBin (fun x y => x &&& y) d a b

/-- UOR: sa or sb (10 R227). -/
def execUor (d a b : BitVec 6) (g : BitVec 3) (s : State) : Out :=
  uGuarded s (.uor d a b g) g fun w => w.uBin (fun x y => x ||| y) d a b

/-- UXOR: sa xor sb (10 R227). -/
def execUxor (d a b : BitVec 6) (g : BitVec 3) (s : State) : Out :=
  uGuarded s (.uxor d a b g) g fun w => w.uBin (fun x y => x ^^^ y) d a b

/-- USHL: shift left (10 R227). -/
def execUshl (d a b : BitVec 6) (g : BitVec 3) (s : State) : Out :=
  uGuarded s (.ushl d a b g) g fun w => w.uBin (fun x y => shl x y) d a b

/-- USHR: shift right, zero fill (10 R227). -/
def execUshr (d a b : BitVec 6) (g : BitVec 3) (s : State) : Out :=
  uGuarded s (.ushr d a b g) g fun w => w.uBin (fun x y => shr x y) d a b

/-- USAR: shift right, sign fill (10 R227). -/
def execUsar (d a b : BitVec 6) (g : BitVec 3) (s : State) : Out :=
  uGuarded s (.usar d a b g) g fun w => w.uBin (fun x y => sar x y) d a b

/-- UMIN: signed minimum (10 R227). -/
def execUmin (d a b : BitVec 6) (g : BitVec 3) (s : State) : Out :=
  uGuarded s (.umin d a b g) g fun w => w.uBin (fun x y => minS x y) d a b

/-- UMAX: signed maximum (10 R227). -/
def execUmax (d a b : BitVec 6) (g : BitVec 3) (s : State) : Out :=
  uGuarded s (.umax d a b g) g fun w => w.uBin (fun x y => maxS x y) d a b

/-- UMINU: unsigned minimum (10 R227). -/
def execUminu (d a b : BitVec 6) (g : BitVec 3) (s : State) : Out :=
  uGuarded s (.uminu d a b g) g fun w => w.uBin (fun x y => minU x y) d a b

/-- UMAXU: unsigned maximum (10 R227). -/
def execUmaxu (d a b : BitVec 6) (g : BitVec 3) (s : State) : Out :=
  uGuarded s (.umaxu d a b g) g fun w => w.uBin (fun x y => maxU x y) d a b

/-- UMOV: sd := sa (10 R227). -/
def execUmov (d a : BitVec 6) (g : BitVec 3) (s : State) : Out :=
  uGuarded s (.umov d a g) g fun w => w.uUn (fun x => x) d a

/-- UADDI: sd := sa + imm (10 R227). -/
def execUaddi (d a : BitVec 6) (imm : BitVec 10) (s : State) : Out :=
  uImm s (.uaddi d a imm) (fun x y => x + y) d a imm

/-- UMULI: sd := sa × imm (10 R227). -/
def execUmuli (d a : BitVec 6) (imm : BitVec 10) (s : State) : Out :=
  uImm s (.umuli d a imm) (fun x y => x * y) d a imm

/-- UANDI: sa and imm (10 R227). -/
def execUandi (d a : BitVec 6) (imm : BitVec 10) (s : State) : Out :=
  uImm s (.uandi d a imm) (fun x y => x &&& y) d a imm

/-- UORI: sa or imm (10 R227). -/
def execUori (d a : BitVec 6) (imm : BitVec 10) (s : State) : Out :=
  uImm s (.uori d a imm) (fun x y => x ||| y) d a imm

/-- UXORI: sa xor imm (10 R227). -/
def execUxori (d a : BitVec 6) (imm : BitVec 10) (s : State) : Out :=
  uImm s (.uxori d a imm) (fun x y => x ^^^ y) d a imm

/-- USHLI: shift left (10 R227). -/
def execUshli (d a : BitVec 6) (imm : BitVec 10) (s : State) : Out :=
  uImm s (.ushli d a imm) (fun x y => shl x y) d a imm

/-- USHRI: shift right, zero fill (10 R227). -/
def execUshri (d a : BitVec 6) (imm : BitVec 10) (s : State) : Out :=
  uImm s (.ushri d a imm) (fun x y => shr x y) d a imm

/-- USARI: shift right, sign fill (10 R227). -/
def execUsari (d a : BitVec 6) (imm : BitVec 10) (s : State) : Out :=
  uImm s (.usari d a imm) (fun x y => sar x y) d a imm

/-- UCMP: qd := the condition between sa and sb (10 R228). -/
def execUcmp (cc : BitVec 4) (q a b : BitVec 6) (g : BitVec 3) (s : State) : Out :=
  uGuarded s (.ucmp cc q a b g) g fun w =>
    w.setQ q.toNat (condition cc.toNat (w.s a.toNat) (w.s b.toNat)) (w.sPoison a.toNat || w.sPoison b.toNat)

/-- UCMPI: qd := the condition between sa and the immediate (10 R228). -/
def execUcmpi (cc : BitVec 3) (q a : BitVec 6) (imm : BitVec 10) (s : State) : Out :=
  whenLegal s (.ucmpi cc q a imm) fun w is _ =>
    finish s (w.setQ q.toNat (condition cc.toNat (w.s a.toNat) (immediate imm is.lit)) (w.sPoison a.toNat)) is

/-- UCLZ: leading zeros (10 R229). -/
def execUclz (d a : BitVec 6) (g : BitVec 3) (s : State) : Out :=
  uGuarded s (.uclz d a g) g fun w => w.uUn clz d a

/-- UPOPC: 1 bits (10 R229). -/
def execUpopc (d a : BitVec 6) (g : BitVec 3) (s : State) : Out :=
  uGuarded s (.upopc d a g) g fun w => w.uUn popc d a

/-- UBREV: bits reversed (10 R229). -/
def execUbrev (d a : BitVec 6) (g : BitVec 3) (s : State) : Out :=
  uGuarded s (.ubrev d a g) g fun w => w.uUn brev d a

/-- UBFX: field extract (10 R229). -/
def execUbfx (d a b : BitVec 6) (g : BitVec 3) (s : State) : Out :=
  uGuarded s (.ubfx d a b g) g fun w => w.uBin bfx d a b

/-- UBFI: field insert; reads sd as well (10 R229). -/
def execUbfi (d a b : BitVec 6) (g : BitVec 3) (s : State) : Out :=
  uGuarded s (.ubfi d a b g) g fun w =>
    w.setS d.toNat (bfi (w.s d.toNat) (w.s a.toNat) (w.s b.toNat))
      (w.sPoison d.toNat || w.sPoison a.toNat || w.sPoison b.toNat)

/-- USEL: sd := sa if qc else sb; poison comes from the selector and the selected source (10 R229). -/
def execUsel (d a b : BitVec 6) (q : BitVec 3) (s : State) : Out :=
  whenLegal s (.usel d a b q) fun w is _ =>
    let c := if w.q q.toNat then a.toNat else b.toNat
    finish s (w.setS d.toNat (w.s c) (w.qPoison q.toNat || w.sPoison c)) is

/-- UQOP: qd := qa op qb; `not` ignores qb (10 R229). -/
def execUqop (d a b : BitVec 6) (o : BitVec 3) (s : State) : Out :=
  whenLegal s (.uqop d a b o) fun w is _ =>
    finish s (w.setQ d.toNat (qop o.toNat (w.q a.toNat) (w.q b.toNat))
      (w.qPoison a.toNat || (o ≠ 4 && w.qPoison b.toNat))) is

/-- UQMOV.tos: sd := q7…q0 in bits [7:0] (10 R229). -/
def execUqmovTos (d : BitVec 6) (s : State) : Out :=
  whenLegal s (.uqmovTos d) fun w is _ =>
    finish s (w.setS d.toNat (BitVec.ofNat 32 (((List.range 8).map fun i => bitOf (w.q i) * 2 ^ i).sum))
      ((List.range 8).any w.qPoison)) is

/-- UQMOV.froms: q1…q7 := sa[7:1]; q0 unchanged (10 R229). -/
def execUqmovFroms (a : BitVec 6) (s : State) : Out :=
  whenLegal s (.uqmovFroms a) fun w is _ =>
    finish s ((List.range 8).foldl (fun (x : Wave) i => x.setQ i ((w.s a.toNat).getLsbD i) (w.sPoison a.toNat)) w) is

end Sys2Proof.Machine
end

