-- ==== Sys2Proof/Machine/Access.lean ====
section
/-!
DEFINITION. What every memory word shares (12_isa_memory_sync R275 to R283; 04_ordering R99 to R108; 07_execution R165):
the checks of its lanes, their translation, its place among the wave's outstanding operations, releases and acquires, and
the completion of an operation.
-/
namespace Sys2Proof.Machine

/-! ## Lanes -/

/-- An active lane's request: its address and its operands. -/
structure LaneReq where
  lane : Nat
  addr : Nat
  a : Nat
  b : Nat
deriving DecidableEq, Repr

/-- The lanes after the checks of R277, or the first that fails. -/
inductive LaneCheck where
  | ok (lanes : List LaneReq)
  | poison
  | misaligned (addr : Nat)
deriving DecidableEq, Repr

/-- The checks of the lanes in ascending order (R277): a poisoned offset or datum, then alignment. -/
def checkLanes (poison : Nat → Bool) (addr : Nat → Nat) (val : Nat → Nat × Nat) (size : Nat) : List Nat → LaneCheck
  | [] => .ok []
  | l :: ls =>
    if poison l then .poison
    else if addr l % size ≠ 0 then .misaligned (addr l)
    else match checkLanes poison addr val size ls with
      | .ok rs => .ok ({ lane := l, addr := addr l, a := (val l).1, b := (val l).2 } :: rs)
      | r => r

/-- The address of a lane (R277): base pair plus zero-extended offset, modulo 2^64. -/
def Wave.laneAddr (w : Wave) (o : BitVec 6) (base l : Nat) : Nat := addAddr base ((w.v o.toNat).lanes.getD l 0).toNat

/-- A lane's element of v(n), or of the pair. -/
def Wave.laneValue (w : Wave) (n : Nat) (wide : Bool) (l : Nat) : Nat :=
  ((w.v n).lanes.getD l 0).toNat + (if wide then ((w.v (n + 1)).lanes.getD l 0).toNat * 2 ^ 32 else 0)

/-- The poison of it. -/
def Wave.lanePoison (w : Wave) (n : Nat) (wide : Bool) (l : Nat) : Bool :=
  (w.v n).poison.getLsbD l || (wide && (w.v (n + 1)).poison.getLsbD l)

/-- The active lanes of a load (R277). -/
def Wave.loadLanes (w : Wave) (u : UnitSt) (o : BitVec 6) (base size : Nat) : LaneCheck :=
  checkLanes (fun l => (w.v o.toNat).poison.getLsbD l) (w.laneAddr o base) (fun _ => (0, 0)) size (lanesOf u.mask)

/-- The active lanes of a store (R277): the datum in the low bytes of v(d), or the pair. -/
def Wave.storeLanes (w : Wave) (u : UnitSt) (d o : BitVec 6) (base size : Nat) : LaneCheck :=
  checkLanes (fun l => (w.v o.toNat).poison.getLsbD l || w.lanePoison d.toNat (decide (size = 8)) l) (w.laneAddr o base)
    (fun l => (w.laneValue d.toNat (decide (size = 8)) l % 2 ^ (8 * size), 0)) size (lanesOf u.mask)

/-- The active lanes of an atomic (R281): A in v(d) (or the pair), and for CAS B in the registers after it. -/
def Wave.atomicLanes (w : Wave) (u : UnitSt) (op : BitVec 3) (d o : BitVec 6) (base size : Nat) : LaneCheck :=
  let wide := decide (size = 8)
  let nb := d.toNat + (if wide then 2 else 1)
  checkLanes (fun l => (w.v o.toNat).poison.getLsbD l || w.lanePoison d.toNat wide l
      || (op = 7 && w.lanePoison nb wide l)) (w.laneAddr o base)
    (fun l => (w.laneValue d.toNat wide l, if op = 7 then w.laneValue nb wide l else 0)) size (lanesOf u.mask)

/-! ## Translation of the lanes -/

/-- The lanes translated, or the walks they wait for, or the lowest lane that is refused (01 R34, R37). -/
inductive Placed where
  | ok (lanes : List (LaneReq × Nat × TlbEntry))
  | walk (pages : List Nat)
  | deny (addr sub level : Nat)
deriving DecidableEq, Repr

/-- Every active lane is translated before any performs (01 R37). A lane at a tier that the operation does not support is
refused with subcode 0x11 (12 R280, R282). -/
def State.placeLanes (s : State) (w : Wave) (u : UnitSt) (tierOk : Tier → Bool) (kind : AccKind) (size : Nat)
    (ls : List LaneReq) : Placed :=
  let rs := ls.map fun l =>
    (l, match s.waveXlate w u l.addr size kind with
        | .ok pa e => if tierOk e.tier then Xlat.ok pa e else Xlat.deny 0x11 15
        | r => r)
  let missing := rs.filterMap fun r => match r.2 with
    | .miss pg => some pg
    | _ => none
  if missing ≠ [] then .walk missing
  else
    match rs.findSome? fun r => match r.2 with
      | .deny sub level => some (r.1.addr, sub, level)
      | _ => none with
    | some (a, sub, level) => .deny a sub level
    | none => .ok (rs.filterMap fun r => match r.2 with
      | .ok pa e => some (r.1, pa, e)
      | _ => none)

/-! ## Outstanding operations -/

/-- The operation belongs to a unit's order: its own, or one that the wave issued or took over as one (04 R113, R114). -/
def PendOp.of (o : PendOp) (a : Arm) : Bool := o.shared || o.arm = a

/-- The operation has been performed at a scope (04 R104, R105): at WAVE a write has when it has issued; a Kweut service and an
aperture store when they have been answered; remote and relayed accesses count for PART and POD only. -/
def PendOp.performedAt (o : PendOp) (sc : Scope) : Bool :=
  if sc = .wave && (o.kind = .store || o.kind = .aperture || o.kind = .cache) then true else
  match o.kind with
  | .rwri => !sc.partOrWider
  | .rrd => !sc.partOrWider
  | .ratom => !sc.partOrWider
  | .service => false
  | .aperture => o.answered && o.parts.all fun p => p.done || (p.route = .runner && !sc.partOrWider)
  | .row => true
  | _ => o.parts.all fun p => p.done || (p.route = .runner && !sc.partOrWider)

/-- A release, or the release part of a fence, at a scope (04 R107, 02 R50): every earlier access of the unit has been
performed at the scope, and at DIE or wider the quad's queue and dirty sectors have reached the L2. -/
def State.releaseAt (s : State) (w : Wave) (a : Arm) (sc : Scope) : Got :=
  if (w.pend.filter fun o => o.of a).all fun o => o.performedAt sc then
    (if sc.dieOrWider then s.releaseQuad (coreQuad w.core) else (s, true))
  else (s, false)

/-- An acquire at a scope has performed (02 R50): at DIE or wider the L1 is written back and emptied. -/
def State.acquireAt (s : State) (w : Wave) (sc : Scope) : Got :=
  if sc.dieOrWider then s.acquireQuad (coreQuad w.core) else (s, true)

/-- The issue slot of a resident wave (07 R163). -/
def Wave.slot (w : Wave) : Nat := w.ctx.getD 0 % 2

/-- An operation as it issues. -/
def newOp (w : Wave) (i : Issue) (kind : OpKind) (sc : Scope) (acquire : Bool) (parts : List OpPart) (dest : Dest) : PendOp :=
  { id := w.nextOp, arm := i.arm, shared := !w.divergent, kind := kind, pc := i.pc, scope := sc, acquire := acquire,
    parts := parts, dest := dest, att := 0, port := 0, ktag := 0, sent := 0, answered := false, data := [],
    dataPoison := 0, status := 0, value := 0, hidden := [], left := false, slot := w.slot,
    word := (((w.unit i.arm).ibuf.bind fun p => p.words[i.idx]?).map BitVec.toNat).getD 0 }

/-- The wave with an operation more. -/
def Wave.addOp (w : Wave) (o : PendOp) : Wave := { w with pend := w.pend ++ [o], nextOp := w.nextOp + 1 }

/-- Two ranges of bytes meet. -/
def rangesMeet (a n b m : Nat) : Bool := a < b + m && b < a + n

/-- An earlier operation of the wave has not performed on a byte of the range, and one of the two writes (04 R101): the
word waits for it. -/
def Wave.overlaps (w : Wave) (key size : Nat) (writes : Bool) : Bool :=
  w.pend.any fun o => o.parts.any fun p =>
    !p.done && rangesMeet p.key p.size key size && (writes || p.act ≠ .read)

/-- Parts performed in order through the quad and the L2, up to the first that waits; `all` are the word's parts. -/
def State.advanceParts (s : State) (w : Wave) (sc : Scope) (all : List OpPart) : List OpPart → State × List OpPart
  | [] => (s, [])
  | p :: ps =>
    if p.done || p.route ≠ .cache then
      let r := State.advanceParts s w sc all ps
      (r.1, p :: r.2)
    else
      match p.act with
      | .write v =>
        let g := s.cacheWrite w sc p v
        if g.2 then
          let r := State.advanceParts g.1 w sc all ps
          (r.1, { p with done := true } :: r.2)
        else (g.1, p :: ps)
      | .prefetch l1 =>
        let g := s.prefetch w p l1
        if g.2 then
          let r := State.advanceParts g.1 w sc all ps
          (r.1, { p with done := true } :: r.2)
        else (g.1, p :: ps)
      | _ =>
        match s.cacheRead w sc p (coverMask all (sectorKey p.key)) (leadsSector all p) (leadsLine all p) with
        | (s1, some (v, q)) =>
          let r := State.advanceParts s1 w sc all ps
          (r.1, { p with done := true, val := v, poison := q } :: r.2)
        | (s1, none) => (s1, p :: ps)

/-- A sector written whole: its poison is clear in memory, in the L2 and in a copy of the quad (02 R69, 03 R96). -/
def State.clearSector (s : State) (quad sec : Nat) : State :=
  let t := s.clearPoison sec
  match t.l1Find quad (lineKey sec) with
  | none => t
  | some l => t.l1Set (l.setSector sec { l.sector sec with poison := false })

/-- The lanes of one word that write through to the L2 together are one write of a sector, which clears its poison when they
cover it (log 46); `through` says which did. -/
def State.clearCovers (s : State) (w : Wave) (through : OpPart → Bool) (before after : List OpPart) : State :=
  let ps := (before.zip after).filterMap fun x =>
    match x.1.act with
    | .write _ =>
      if !x.1.done && x.2.done && x.1.route = .cache && through x.1 && !s.keyDown x.1.key then some x.1
      else none
    | _ => none
  (dedup (ps.map fun p => sectorKey p.key)).foldl (fun (t : State) sec =>
    if coverMask ps sec = allLanes then t.clearSector (coreQuad w.core) sec else t) s

/-- The part goes to a module, beyond what the module allocates now to the wave's partition, for a line that neither the
package nor the quad holds (03 R389). -/
def State.beyondAllocation (s : State) (w : Wave) (p : OpPart) : Bool :=
  !p.done && (p.route = .cache || p.route = .atomicUnit) && s.beyondModule w.part p.key p.size
    && (s.l1Find (coreQuad w.core) (lineKey p.key)).isNone

/-- The kind of a part's access in a record. -/
def OpPart.kindCode (p : OpPart) : Nat :=
  match p.act with
  | .write _ => 1
  | .atomic _ _ _ => 2
  | _ => 0

/-- The accesses of an operation that the module turns away (03 R389): reads give poison, writes are dropped, and the address of
each 64-byte access is logged with subcode 0x06. -/
def State.turnAway (s : State) (w : Wave) (o : PendOp) : State × PendOp :=
  let away := o.parts.filter (s.beyondAllocation w)
  let log (t : State) (x : Nat × Nat) : State :=
    t.logAway w.part { type := 0, id := s.waveReqId w, asid := s.waveAsid w } x.1 x.2
  ((dedup (away.map fun p => (sectorKey p.key, p.kindCode))).foldl log s,
   { o with parts := mapWhere o.parts (s.beyondAllocation w) fun p => { p with done := true, poison := true } })

/-- An operation goes as far as it can. -/
def State.advance (s : State) (w : Wave) (o : PendOp) : State × PendOp :=
  let x := s.turnAway w o
  let r := x.1.advanceParts w o.scope x.2.parts x.2.parts
  (r.1.clearCovers w (x.1.writesThrough (coreQuad w.core) o.scope) x.2.parts r.2, { x.2 with parts := r.2 })

/-- The operation has nothing more to wait for. -/
def PendOp.finished (o : PendOp) : Bool :=
  (o.parts.all fun p => p.done) && (match o.kind with
    | .service => o.answered
    | .rwri => o.answered
    | .rrd => o.answered
    | .ratom => o.answered
    | .aperture => o.answered
    | .row => o.answered
    | _ => true)

/-! ## Counting lookups (20 R385) -/

/-- The quad serves a load without the L2: from its write queue, from its L1, or from its L1 once the queue's bytes have merged
(02 R49). -/
def State.quadServes (s : State) (w : Wave) (sc : Scope) (p : OpPart) : Bool :=
  let quad := coreQuad w.core
  let mask := byteMask p.key p.size
  let queued := ((s.wqFind quad (sectorKey p.key)).map WqEntry.mask).getD 0
  let present := ((s.l1Find quad (lineKey p.key)).map fun l => (l.sector p.key).present).getD 0
  eligible sc p.na && decide ((queued ||| present) &&& mask = mask)

/-- One lookup for a sector in the L2 of the wave's die (20 R385): a hit when the sector is there or its fill is in flight. It is
charged when the line's tag is the wave's partition; a miss begins a fill, which allocates an absent line with that tag. -/
def State.countLookup (s : State) (w : Wave) (sec : Nat) (noAlloc : Bool) : State :=
  let die := coreDie w.core
  let inFlight := s.fills.any fun f => f.die = die && f.sector = sec
  let allocates := (s.l2Find die (lineKey sec)).isSome || (s.fills.any fun f => f.die = die && lineKey f.sector = lineKey sec)
    || (!noAlloc && s.ownsWay die (lineKey sec) w.part)
  let tag := match s.l2Find die (lineKey sec) with
    | some l => l.tag
    | none => s.fillTag die (lineKey sec) w.part
  let charge (t : State) (code : Nat) : State := if tag = w.part then t.charge w.part code 1 else t
  if s.holds die sec || inFlight then charge s 0x021
  else if allocates then charge (s.fillBegins die sec w.part) 0x022
  else s

/-- One lookup for each distinct sector that the parts touch in that L2. -/
def State.countLookups (s : State) (w : Wave) (sc : Scope) (ps : List OpPart) : State :=
  let touched := ps.filter fun p =>
    !p.done && !s.keyDown p.key && !s.beyondModule w.part p.key p.size && (match p.route with
      | .cache => p.act = .read && !s.quadServes w sc p
      | .atomicUnit => homeDie s.pod (lineKey p.key) = coreDie w.core
      | _ => false)
  (dedup (touched.map fun p => (sectorKey p.key, p.noAlloc))).foldl
    (fun (t : State) x => t.countLookup w x.1 x.2) s

/-! ## An access of lanes -/

/-- What a memory word asks for. `route` says who serves a tier 0 or tier 1 byte. -/
structure Access where
  kind : OpKind
  acc : AccKind
  size : Nat
  scope : Scope
  order : BitVec 2
  lanes : LaneCheck
  dest : Dest
  act : LaneReq → PartAct
  route : Nat → Route
  tierOk : Tier → Bool
  noAlloc : Bool
  nt : Bool

/-- The parts of the translated lanes; a tier 3 lane has its place's physical address as key, and is performed at once. -/
def State.laneParts (s : State) (x : Access) (ls : List (LaneReq × Nat × TlbEntry)) : List OpPart :=
  ls.map fun l =>
    let base : OpPart :=
      { lane := l.1.lane, key := l.2.1, va := l.1.addr, size := x.size, act := x.act l.1, route := .cache, age := s.now,
        noAlloc := l.2.2.na || x.noAlloc, na := l.2.2.na, nt := x.nt, col := false, done := false, val := 0, poison := false }
    match physPlace l.2.1 with
    | .attach a y =>
      let k := moduleKey ((s.pod.moduleOf a).getD 0) y
      { base with key := k, route := x.route k }
    | .relay m y => { base with key := moduleKey m y, route := .runner }
    | .hbm .. => { base with route := x.route l.2.1 }
    | _ => base

/-- The part lies in tier 3. -/
def OpPart.tier3 (p : OpPart) : Bool :=
  p.route = .cache && !isModuleKey p.key && (match physPlace p.key with
    | .hbm .. => false
    | _ => true)

/-- The part writes a DOOR; its die, channel and offset. -/
def OpPart.door (p : OpPart) : Option (Nat × Nat × Nat) :=
  match p.act, physPlace p.key with
  | .write _, .ladle d c off => if p.tier3 && isDoor off then some (d, c, off) else none
  | _, _ => none

/-- A tier 3 lane performed (01 R26, 05 R128). -/
def State.tier3Part (s : State) (w : Wave) (p : OpPart) : State × OpPart :=
  match physPlace p.key, p.act with
  | .page _ off, .read =>
    (s, { p with done := true, val := ((s.part? w.part).map fun q => s.pageRead q off p.size).getD 0 })
  | .page _ off, .write v =>
    (((s.part? w.part).map fun q => s.pageWrite q off p.size v).getD s, { p with done := true })
  | .ladle d c off, .read => (s, { p with done := true, val := s.apertureRead d c off p.size })
  | .ladle d c off, .write v => (s.apertureWrite d c off p.size v, { p with done := true })
  | _, _ => (s, { p with done := true })

/-- The tier 3 lanes perform in ascending order (04 R102). -/
def State.tier3Parts (s : State) (w : Wave) : List OpPart → State × List OpPart
  | [] => (s, [])
  | p :: ps =>
    let r1 := if p.tier3 then s.tier3Part w p else (s, p)
    let r2 := State.tier3Parts r1.1 w ps
    (r2.1, r1.2 :: r2.2)

/-- The quad's bytes leave it before another unit serves the parts: for an atomic (02 R51) the sector also leaves the L1; for
a gather packet (02 R67), and for a read that the L2 serves (02 R48), whose lookup comes after it (20 R385), it stays. -/
def State.flushParts (s : State) (quad : Nat) (sc : Scope) (ps : List OpPart) : Got :=
  gotAll s ps fun t p =>
    match p.route with
    | .atomicUnit =>
      let g := t.sectorOut quad p.key
      if g.2 then (g.1.l1DropSector quad p.key, true) else g
    | .gather _ => t.sectorOut quad p.key
    | .cache => if p.act = .read && !p.tier3 && !eligible sc p.na then t.sectorOut quad p.key else (t, true)
    | _ => (t, true)

/-- The doorbells of an operation (05 R129): one for each channel whose DOOR a lane writes. The copy is well formed when an
8-byte store has exactly two active lanes, which write DOOR, an even lane its low half and the next lane its high half. -/
def doorbells (w : Wave) (id : Nat) (size lowest : Nat) (ps : List OpPart) : List (Nat × Nat × Doorbell) :=
  let ds := ps.filterMap fun p => p.door.map fun d => (p, d)
  let bell (desc va : Nat) (bad : Bool) : Doorbell :=
    { seq := w.seq, wid := w.wid, op := id, desc := desc, va := va, malformed := bad, pages := [], refusals := [],
      presented := none }
  let val (p : OpPart) : Nat := match p.act with
    | .write v => v
    | _ => 0
  match ds with
  | [(p, d), (q, e)] =>
    if ps.length = 2 && size = 8 && p.lane % 2 = 0 && q.lane = p.lane + 1 && d.2.2 = 0 && e.2.2 = 8
        && d.1 = e.1 && d.2.1 = e.2.1 then
      [(d.1, d.2.1, bell (val p + 2 ^ 64 * val q) p.va false)]
    else (dedup [(d.1, d.2.1), (e.1, e.2.1)]).map fun c => (c.1, c.2, bell 0 lowest true)
  | _ => (dedup (ds.map fun x => (x.2.1, x.2.2.1))).map fun c => (c.1, c.2, bell 0 lowest true)

/-- A doorbell waits at its channel (05 R133). -/
def State.ringDoor (s : State) (d : Nat × Nat × Doorbell) : State :=
  let c := s.chan d.1 d.2.1
  s.setChan { c with doors := c.doors ++ [d.2.2] }

/-- A relayed lane is sent; its unit waits while the request cannot be (03 R88, R89). -/
def State.relayParts (s : State) (w : Wave) (a : Arm) (id : Nat) (ps : List OpPart) : State :=
  let s1 := ps.foldl (fun (t : State) p => if p.route = .runner then t.sendRelayed w id p else t) s
  let waits := ps.any fun p => p.route = .runner && s1.runner.ctxs.any fun c =>
    c.id.system && (c.stream 0).waiting.any fun u => u.seq = w.seq && u.wid = w.wid && u.op = id && !(c.stream 0).held
  if waits then
    s1.modWave w.seq w.wid fun x => x.setUnit a { x.unit a with wait := .op id }
  else s1

/-- The state once an operation has issued: its lanes have gone as far as they can, it counts in OUTST, and an acquire holds
its unit until it has performed (04 R107). -/
def State.issued (s : State) (w : Wave) (i : Issue) (x : Access) (sc : Scope) (ps : List OpPart) (lowest : Nat) : State :=
  let bells := doorbells w w.nextOp x.size lowest ps
  let kind := if bells = [] then x.kind else .aperture
  let r3 := s.tier3Parts w ps
  let s1 := r3.1.countLookups w sc r3.2
  let o := { newOp w i kind sc (isAcquire x.order) r3.2 x.dest with att := bells.length, answered := bells = [] }
  let r := s1.advance w o
  let w1 := (r.1.again w).addOp r.2
  let u1 := w1.unit i.arm
  let w2 := w1.setUnit i.arm
    { u1 with pc := nextWord i.pc, refusals := [], looked := false, table := [], atBank := none, wait := if isAcquire x.order then .op o.id else .none }
  let s2 := (r.1.setWave w2).relayParts w i.arm o.id r.2.parts
  let s3 := bells.foldl State.ringDoor s2
  (s3.clampScope w.part x.scope).1

/-- The operation issues. -/
def issueAccess (s : State) (w : Wave) (i : Issue) (x : Access) (sc : Scope) (ps : List OpPart) (lowest : Nat) : Out :=
  .next (s.issued w i x sc ps lowest)

/-- A store that needs an entry of a full write queue stalls at issue (02 R49). -/
def State.storeStalls (s : State) (w : Wave) (sc : Scope) (ps : List OpPart) : Bool :=
  let quad := coreQuad w.core
  s.wqFull quad ((ps.filter fun p =>
    p.route = .cache && !p.tier3 && !p.noAlloc && !s.keyDown p.key && !s.writesThrough quad sc p
      && (match p.act with
          | .write _ => true
          | _ => false)).map fun p => sectorKey p.key)

/-- A memory word over lanes (R277): release, checks, translation, refusals, then the operation. -/
def memAccess (s : State) (w : Wave) (i : Issue) (x : Access) : Out :=
  if Config.outstMax ≤ w.outst then stallWord s
  else
    let sc := (s.clampScope w.part x.scope).2
    let g := if isRelease x.order then s.releaseAt w i.arm sc else (s, true)
    if !g.2 then stallWord g.1
    else
      let s1 := g.1
      let w1 := s1.again w
      match x.lanes with
      | .poison => poisonTrap s1 w1 i
      | .misaligned a => takeTrap s1 w1 i 3 0 a
      | .ok ls =>
        match s1.placeLanes w1 (w1.unit i.arm) x.tierOk x.acc x.size ls with
        | .walk pages => .next (s1.waitForWalks w1 i pages)
        | .deny a sub level => .next (s1.refuseWord w1 i i.trapPc a sub level x.acc false)
        | .ok placed =>
          let ps := s1.laneParts x placed
          if ps.any (fun p => !p.tier3 && w1.overlaps p.key p.size x.acc.writes) then stallWord s1
          else if x.acc.writes && s1.storeStalls w1 sc ps then stallWord s1
          else if s1.relayStalls w1 ps then stallWord s1
          else if ps.any OpPart.tier3 && w1.pend.any (fun o => o.kind = .aperture && !o.answered) then stallWord s1
          else
            let g2 := s1.flushParts (coreQuad w1.core) sc ps
            if !g2.2 then stallWord g2.1
            else issueAccess g2.1 (g2.1.again w1) i x sc ps ((ls.head?.map LaneReq.addr).getD 0)

/-! ## Completion -/

/-- The elements that the parts bring, for the lanes they name. -/
def partElem (ps : List OpPart) (hi : Bool) (l : Nat) : Elem :=
  match ps.find? fun p => p.lane = l with
  | some p => (BitVec.ofNat 32 (if hi then p.val / 2 ^ 32 else p.val), p.poison)
  | none => (0, false)

/-- A word of received data with its poison. -/
def dataElem (o : PendOp) (len i : Nat) : Elem :=
  (BitVec.ofNat 32 (valueAt (o.data.take len) (4 * i) 4),
   (List.range 4).any fun j => 4 * i + j < len && o.dataPoison.testBit (4 * i + j))

/-- s(n) written, unless a later word of the other arm has written it (07 R180). -/
def Wave.setSUnless (w : Wave) (hidden : List Nat) (n : Nat) (v : Word) (q : Bool) : Wave :=
  if hidden.contains n then w else w.setS n v q

/-- The results of an operation written to their registers (R276, R281, R289, R294, R295). -/
def Wave.deliver (w : Wave) (o : PendOp) : Wave :=
  let lanes (ps : List OpPart) : Lanes := maskOf (laneNumbers.map fun l => ps.any fun p => p.lane = l)
  let whole (base k : Nat) (es : List Elem) (x : Wave) : Wave := x.setGroupElems base k es
  match o.dest with
  | .none => w
  | .table => w
  | .vec base wide =>
    let m := lanes o.parts
    let w1 := w.writeLogV base m (laneNumbers.map (partElem o.parts false))
    if wide then w1.writeLogV (base + 1) m (laneNumbers.map (partElem o.parts true)) else w1
  | .uni sd wide =>
    match o.parts.head? with
    | none => w
    | some p =>
      let w1 := w.setSUnless o.hidden sd (BitVec.ofNat 32 p.val) p.poison
      if wide then w1.setSUnless o.hidden (sd + 1) (BitVec.ofNat 32 (p.val / 2 ^ 32)) p.poison else w1
  | .bytes base len => whole base 1 (laneNumbers.map (dataElem o len)) w
  | .ratom base wide =>
    w.writeLogV base (if wide then 3 else 1) (laneNumbers.map (dataElem o (if wide then 8 else 4)))
  | .kweut kind sd base wide =>
    let w1 := w.setSUnless o.hidden sd (BitVec.ofNat 32 o.status) false
    match kind with
    | 3 => if o.status = 0 then whole base 1 (laneNumbers.map (dataElem o 64)) w1 else w1
    | 4 => w1.setSUnless o.hidden (sd + 1) (BitVec.ofNat 32 (o.value % 65536)) false
    | 5 =>
      let w2 := w1.setSUnless o.hidden (sd + 1) (BitVec.ofNat 32 (o.value % 65536)) false
      if o.status = 0 then whole base 2 ((List.range 128).map (dataElem o 320)) w2 else w2
    | 1 =>
      if wide then ((w1.setSUnless o.hidden (sd + 1) 0 false).setSUnless o.hidden (sd + 2) (BitVec.ofNat 32 o.value) false).setSUnless o.hidden (sd + 3)
        (BitVec.ofNat 32 (o.value / 2 ^ 32)) false
      else w1.setSUnless o.hidden (sd + 1) (BitVec.ofNat 32 o.value) false
    | _ => w1

/-- A finished operation leaves OUTST: its results are written, and a unit that waited for it goes on (R277, 04 R107). An
acquire first has its effect on the L1. -/
def State.completeOp (s : State) (seq wid : Nat) (o : PendOp) : State :=
  match s.wave? seq wid with
  | none => s
  | some w =>
    let put (t : State) (x : PendOp) : State := t.modWave seq wid fun y => y.modOp o.id fun _ => some x
    if !o.finished then put s o
    else
      let g := if o.acquire then s.acquireAt w o.scope else (s, true)
      if !g.2 then put g.1 o
      else
        g.1.modWave seq wid fun y => ((y.deliver o).modOp o.id fun _ => none).releaseOp o.id

/-- ACCESS_COMPLETE (R277, 07 R165): an operation of a wave goes as far as it can, and leaves OUTST when all its parts have
performed. -/
def execAccessComplete (s : State) : Out :=
  match s.call with
  | .accessComplete seq wid id =>
    match s.wave? seq wid with
    | none => .next s
    | some w =>
      match w.pend.find? fun o => o.id = id with
      | none => .next s
      | some o =>
        let r := s.advance w o
        .next (r.1.completeOp seq wid r.2)
  | _ => .next s

end Sys2Proof.Machine
end

