-- ==== Sys2Proof/Machine/Control.lean ====
section
/-!
DEFINITION. Branches, calls and the window stack with its spill area, divergence, and wave control (07_execution R178 to
R184, R187; 10_isa_uniform_control R232 to R247; 14_traps_preemption R334).
-/
namespace Sys2Proof.Machine

/-! ## Branches (10 R232) -/

/-- A byte offset from CODE moved by a signed count of packets, modulo 2^64. -/
def packetOffset (pkt : Nat) (o : Int) : Nat := wrap ((pkt : Int) + 16 * o) 64

/-- The packet of the latched word. -/
def Issue.pkt (i : Issue) : Nat := i.pc / 16 * 16

/-- The word is a taken branch: its unit goes on at an offset. -/
def branchTo (s : State) (w : Wave) (i : Issue) (pc : Nat) : Out := .next (s.setWave (w.goto i.arm pc))

/-- A conditional branch to an offset of packets. -/
def condBranch (s : State) (i : Instr) (q : BitVec 3) (neg : Bool) (o : BitVec 19) : Out :=
  whenLegal s i fun w is _ =>
    if w.qPoison q.toNat then poisonTrap s w is
    else if w.q q.toNat == !neg then branchTo s w is (packetOffset is.pkt o.toInt)
    else finish s w is

/-- BRA: branches when qc is 1 (10 R232). -/
def execBra (q : BitVec 3) (o : BitVec 19) (s : State) : Out := condBranch s (.bra q o) q false o

/-- BRAN: branches when qc is 0 (10 R232). -/
def execBran (q : BitVec 3) (o : BitVec 19) (s : State) : Out := condBranch s (.bran q o) q true o

/-- JMPI: jumps to CODE + s(sa); a target off a packet is Misaligned (10 R232). -/
def execJmpi (q : BitVec 3) (a : BitVec 6) (s : State) : Out :=
  whenLegal s (.jmpi q a) fun w is _ =>
    if w.qPoison q.toNat || w.sPoison a.toNat then poisonTrap s w is
    else if !w.q q.toNat then finish s w is
    else if (w.s a.toNat).toNat % 16 ≠ 0 then takeTrap s w is 3 0 (s.codeVa w (w.s a.toNat).toNat)
    else branchTo s w is (w.s a.toNat).toNat

/-! ## The spill area (10 R234, R235) -/

/-- Why the spill engine fails: the cause (0x09, or 0x06 for poisoned bytes that it reads), subcode, address, and the refusal
to log. -/
structure SpillFail where
  cause : Nat := 9
  sub : Nat
  addr : Nat
  refused : Option Nat
deriving DecidableEq, Repr

/-- The spill area takes (or gives) `n` bytes at an offset: none, or why not. -/
def State.spillCheck (s : State) (w : Wave) (off n : Nat) (write : Bool) : Option SpillFail :=
  if w.spillSize = 0 then some { sub := 2, addr := 0, refused := none }
  else if w.spillSize < off + n then some { sub := 3, addr := w.spillBase + off, refused := none }
  else
    match s.part? w.part with
    | none => some { sub := 4, addr := w.spillBase + off, refused := some 7 }
    | some p =>
      let pa := w.spillBase + off
      match s.physRefusal p pa n (if write then .write else .read) with
      | some r => some { sub := 4, addr := pa, refused := some r }
      | none =>
        match physPlace pa with
        | .hbm .. =>
          if p.granted pa n then none else some { sub := 4, addr := pa, refused := some 7 }
        | _ => some { sub := 4, addr := pa, refused := some 6 }

/-- A record or an entry read back from the area with poison, as from a stack that is down (02 R68), is consumed by the word that
reads it, at its address (03 R97). -/
def State.spillPoisoned (s : State) (w : Wave) (off n : Nat) : Option SpillFail :=
  if s.anyPoison (w.spillBase + off) n || s.keyDown (w.spillBase + off) then some { cause := 6, sub := 0, addr := w.spillBase + off, refused := none } else none

/-- The word raises Spill Failure, or Poison Consumed, and performs nothing (10 R235, 03 R97). -/
def spillTrap (s : State) (w : Wave) (i : Issue) (f : SpillFail) (write : Bool) : Out :=
  match f.refused with
  | none => takeTrap s w i f.cause f.sub f.addr
  | some r =>
    takeTrap
      (s.logError w.part
        { addr := f.addr, asid := s.waveAsid w, sub := r, cls := 5, level := 15,
          kind := (if write then AccKind.write else AccKind.read).code, reqType := 0, reqId := s.waveReqId w,
          phys := true }) w i 9 f.sub f.addr

/-! ### Vector registers in the area (10 R233, R234) -/

/-- The offset of a logical register's image in the area (10 R234). -/
def spillOffset (l : Nat) : Nat := 0x6000 + 256 * l

/-- One logical register written to the area; its poison is kept beside. -/
def State.spillReg (s : State) (w : Wave) (l : Nat) : State × Wave :=
  let r := w.logV l
  ((s.arraySpan (w.spillBase + spillOffset l) 256).poke (w.spillBase + spillOffset l) (r.lanes.flatMap fun x => natToBytes 4 x.toNat),
   { w with spillPoison := (l, r.poison) :: w.spillPoison.filter fun x => x.1 ≠ l })

/-- `n` granules of eight logical registers from `l` up written to the area, until one cannot be. -/
def State.spillGranules (s : State) (w : Wave) (l : Nat) : Nat → State × Wave × Option SpillFail
  | 0 => (s, w, none)
  | n + 1 =>
    match s.spillCheck w (spillOffset l) 2048 true with
    | some f => (s, w, some f)
    | none =>
      let (s1, w1) := (List.range 8).foldl (fun (x : State × Wave) i => x.1.spillReg x.2 (l + i)) (s, w)
      State.spillGranules s1 w1 (l + 8) n

/-- One logical register read back from the area with its poison; poisoned memory, or a stack that is down (02 R68), poisons the element
it fills. -/
def State.fillReg (s : State) (w : Wave) (l : Nat) : State × Wave :=
  let at1 := w.spillBase + spillOffset l
  let kept := ((w.spillPoison.find? fun x => x.1 = l).map Prod.snd).getD 0
  let es := laneNumbers.map fun i =>
    (BitVec.ofNat 32 (s.peekNat (at1 + 4 * i) 4), kept.getLsbD i || s.poisoned (at1 + 4 * i) || s.keyDown at1)
  (s.arraySpan at1 256, w.setLogV l (VReg.ofElems es))

/-- `n` granules of eight logical registers from `l` up read from the area, or why one cannot be. -/
def State.fillGranules (s : State) (w : Wave) (l : Nat) : Nat → Except SpillFail (State × Wave)
  | 0 => .ok (s, w)
  | n + 1 =>
    match s.spillCheck w (spillOffset l) 2048 false with
    | some f => .error f
    | none =>
      let (s1, w1) := (List.range 8).foldl (fun (x : State × Wave) i => x.1.fillReg x.2 (l + i)) (s, w)
      State.fillGranules s1 w1 (l + 8) n

/-! ### Call records in the area (10 R236) -/

/-- A call record as a number (10 R236). -/
def CallRec.word (r : CallRec) : Nat := r.ret % 2 ^ 32 * 2 ^ 32 + r.ddepth % 256 * 256 + r.step % 256

/-- A call record from its number. -/
def CallRec.ofWord (x : Nat) : CallRec := { ret := bitsAt x 32 32, step := bitsAt x 0 8, ddepth := bitsAt x 8 8 }

/-- Where the area holds the call record that is the n-th from the bottom of the stack. -/
def callOffset (n : Nat) : Nat := 8 * (n + 16)

/-- A call record pushed; the seventeenth makes the lowest of hardware's sixteen go to the area. -/
def State.pushCall (s : State) (w : Wave) (r : CallRec) : Except SpillFail (State × Wave) :=
  if w.calls.length < 16 then .ok (s, { w with calls := r :: w.calls })
  else
    match s.spillCheck w (callOffset w.spilledCalls) 8 true with
    | some f => .error f
    | none =>
      let low := (w.calls.getLast?).getD r
      .ok ((s.arrayAccess (w.spillBase + callOffset w.spilledCalls)).pokeNat (w.spillBase + callOffset w.spilledCalls) 8 low.word,
        { w with calls := r :: w.calls.take 15, spilledCalls := w.spilledCalls + 1 })

/-- The top call record popped; the topmost record of the area comes back into hardware. -/
def State.popCall (s : State) (w : Wave) : Except SpillFail (State × Wave) :=
  let rest := w.calls.drop 1
  if w.spilledCalls = 0 then .ok (s, { w with calls := rest })
  else
    let off := callOffset (w.spilledCalls - 1)
    match (s.spillCheck w off 8 false).or (s.spillPoisoned w off 8) with
    | some f => .error f
    | none =>
      .ok (s.arrayAccess (w.spillBase + off),
        { w with calls := rest ++ [CallRec.ofWord (s.peekNat (w.spillBase + off) 8)], spilledCalls := w.spilledCalls - 1 })

/-! ### Divergence entries in the area (10 R234, 14 R341) -/

/-- A divergence entry as a number (14 R341). -/
def DivEntry.word (e : DivEntry) : Nat :=
  e.brk.toNat * 2 ^ 192 + e.elseLanes.toNat * 2 ^ 128 + e.trueLanes.toNat * 2 ^ 64 + e.joinTarget % 2 ^ 28 * 2 ^ 36
    + e.elseTarget % 2 ^ 28 * 2 ^ 8 + e.fmt.toNat

/-- A divergence entry from its number, with the running arm that the area does not hold. -/
def DivEntry.ofWord (x : Nat) (inElse : Bool) : DivEntry :=
  { trueLanes := BitVec.ofNat 64 (x / 2 ^ 64), elseLanes := BitVec.ofNat 64 (x / 2 ^ 128),
    brk := BitVec.ofNat 64 (x / 2 ^ 192), elseTarget := bitsAt x 8 28, joinTarget := bitsAt x 36 28,
    fmt := BitVec.ofNat 8 x, inElse := inElse }

/-- Where the area holds an arm's entry e (10 R234). -/
def divOffset (a : Arm) (e : Nat) : Nat := (match a with | .t => 0x2000 | .e => 0x4000) + 32 * e

/-- An entry pushed on an arm's stack: hardware holds eight of the arm's own above the outermost entry, and the next makes the
lowest of the eight go to the area (07 R179, log 47). -/
def State.pushEntry (s : State) (w : Wave) (a : Arm) (e : DivEntry) : Except SpillFail (State × Wave) :=
  let u := w.unit a
  if u.entries.length < 9 then .ok (s, w.setUnit a { u with entries := e :: u.entries })
  else
    let off := divOffset a u.spilled.length
    match s.spillCheck w off 32 true with
    | some f => .error f
    | none =>
      let low := u.entries.getD 7 e
      .ok ((s.arrayAccess (w.spillBase + off)).pokeNat (w.spillBase + off) 32 low.word,
        w.setUnit a { u with entries := e :: (u.entries.take 7 ++ u.entries.drop 8), spilled := low.inElse :: u.spilled })

/-- The innermost entry of an arm popped; the topmost entry of the area comes back into hardware. -/
def State.popEntry (s : State) (w : Wave) (a : Arm) : Except SpillFail (State × Wave) :=
  let u := w.unit a
  let rest := u.entries.drop 1
  match u.spilled with
  | [] => .ok (s, w.setUnit a { u with entries := rest })
  | b :: more =>
    let off := divOffset a more.length
    match (s.spillCheck w off 32 false).or (s.spillPoisoned w off 32) with
    | some f => .error f
    | none =>
      let back := DivEntry.ofWord (s.peekNat (w.spillBase + off) 32) b
      .ok (s.arrayAccess (w.spillBase + off), w.setUnit a { u with entries := rest.take 7 ++ back :: rest.drop 7, spilled := more })

/-! ## Calls (10 R236, R237) -/

/-- An arm that has lanes and has not reached its JOIN. -/
def UnitSt.live (u : UnitSt) : Bool := u.mask ≠ 0 && !u.atJoin

/-- The unit waits for the spill engine, which holds the whole wave (10 R236). -/
def Wave.spilling (w : Wave) (a : Arm) (b : Bool) : Wave :=
  if b then w.setUnit a { w.unit a with wait := .spill } else w

/-- A taken call: the window moves, the engine spills what it must, the record is pushed (10 R236). -/
def takeCall (s : State) (w : Wave) (i : Issue) (u : UnitSt) (step target : Nat) : Out :=
  if 1024 ≤ w.openCalls then takeTrap s w i 9 1 0
  else
    let nb := w.winBase + step
    let vstack := w.vregs.length
    let newLo := if w.lo + vstack < nb + 64 then nb + 64 - vstack else w.lo
    match s.spillGranules w w.lo ((newLo - w.lo) / 8) with
    | (s1, w1, some f) => spillTrap s1 { w1 with lo := w.lo } i f true
    | (s1, w1, none) =>
      let rec1 : CallRec := { ret := i.pkt + 16, step := step, ddepth := u.open }
      match s1.pushCall w1 rec1 with
      | .error f => spillTrap s1 w1 i f true
      | .ok (s2, w2) =>
        let holds := w.divergent && (w.unit i.arm.other).live && w.callArm.isNone
        let w3 := { w2 with lo := newLo, winBase := nb,
                            callArm := if holds then some (i.arm, w.openCalls) else w2.callArm }
        let spilled := newLo ≠ w.lo || 16 ≤ w.calls.length
        branchTo s2 (w3.spilling i.arm spilled) i target

/-- CALL (10 R236). -/
def execCall (q : BitVec 3) (o : BitVec 19) (s : State) : Out :=
  whenLegal s (.call q o) fun w is u =>
    if w.qPoison q.toNat then poisonTrap s w is
    else if w.q q.toNat then takeCall s w is u is.lit.toNat (packetOffset is.pkt o.toInt)
    else finish s w is

/-- CALLI (10 R236). -/
def execCalli (q : BitVec 3) (a : BitVec 6) (s : State) : Out :=
  whenLegal s (.calli q a) fun w is u =>
    if w.qPoison q.toNat || w.sPoison a.toNat then poisonTrap s w is
    else if !w.q q.toNat then finish s w is
    else if (w.s a.toNat).toNat % 16 ≠ 0 then takeTrap s w is 3 0 (s.codeVa w (w.s a.toNat).toNat)
    else takeCall s w is u is.lit.toNat (w.s a.toNat).toNat

/-- A taken return: the window moves back, the engine fills what it must (10 R236, R237). -/
def takeRet (s : State) (w : Wave) (i : Issue) : Out :=
  match w.calls with
  | [] => takeTrap s w i 1 4 0
  | top :: _ =>
    let nb := w.winBase - top.step
    match s.fillGranules w nb ((w.lo - nb) / 8) with
    | .error f => spillTrap s w i f false
    | .ok (s1, w1) =>
      match s1.popCall w1 with
      | .error f => spillTrap s w i f false
      | .ok (s2, w2) =>
        let depth := w.openCalls - 1
        let w3 := { w2 with winBase := nb, lo := min w.lo nb,
                            callArm := if (w.callArm.map Prod.snd) = some depth then none else w2.callArm }
        branchTo s2 (w3.spilling i.arm (nb < w.lo || w.spilledCalls ≠ 0)) i top.ret

/-- RET (10 R236). -/
def execRet (q : BitVec 3) (s : State) : Out :=
  whenLegal s (.ret q) fun w is _ =>
    if w.qPoison q.toNat then poisonTrap s w is
    else if w.q q.toNat then takeRet s w is
    else finish s w is

/-- SPILL_COMPLETE: the spill engine has finished, and the wave may issue again (10 R236). DESIGN CHOICE (log 57): it has not while the
link of the area's stack retrains, which holds its transfers (02 R68). -/
def execSpillComplete (s : State) : Out :=
  match s.call with
  | .spillComplete seq wid =>
    match s.wave? seq wid with
    | none => .next s
    | some w =>
      if s.stackHeld w.spillBase then .next s else
      let clear (u : UnitSt) : UnitSt := if u.wait = .spill then { u with wait := .none } else u
      .next (s.setWave { w with unitT := clear w.unitT, unitE := clear w.unitE })
  | _ => .next s

/-! ## Divergence (07 R178 to R181; 10 R238 to R242) -/

/-- A wave that has halted (10 R244): it issues nothing. -/
def Wave.halt (w : Wave) : Wave :=
  { w.progressed with
    status := .halted,
    unitT := { w.unitT with mask := 0, wait := .none }, unitE := { w.unitE with mask := 0, wait := .none } }

/-- The outermost entry closes (10 R240): the lanes reunite in the converged unit, FMT is restored, and the wave goes on
after the JOIN; without a lane it halts. -/
def Wave.closeOuter (w : Wave) (now : Nat) : Wave :=
  match w.unitT.entries, w.unitE.entries with
  | et :: _, ee :: _ =>
    let mask := (w.unitT.mask ||| w.unitE.mask ||| et.brk ||| ee.brk) &&& ~~~w.haltedLanes
    let unit : UnitSt :=
      { w.unitT with
        pc := targetPc et.joinTarget + 4, mask := mask, fmt := et.fmt, entries := [], spilled := [], atJoin := false,
        wait := .none, refusals := [], looked := false, table := [], atBank := none, ready := now }
    let w1 := { w.progressed with
      divergent := false, unitT := unit, unitE := UnitSt.empty,
      pend := w.pend.map fun o => { o with arm := .t, shared := true },
      handler := w.handler.map fun h => { h with arm := .t } }
    if mask = 0 then w1.halt else w1
  | _, _ => w

/-- A unit has reached the JOIN of its innermost entry, or has no lane left (07 R178, R179; 10 R240, R241, R244). The count
bounds the entries that may close at once. -/
def State.arrive (s : State) : Nat → Wave → Arm → Except SpillFail (State × Wave)
  | 0, w, _ => .ok (s, w)
  | n + 1, w, a =>
    let u := w.unit a
    match u.entries with
    | [] => .ok (s, w.halt)
    | e :: rest =>
      if u.open ≤ 1 then
        let w1 := w.setUnit a { u with atJoin := true, pc := targetPc e.joinTarget, refusals := [], looked := false, table := [], atBank := none, wait := .none }
        .ok (s, if (w1.unit a.other).atJoin then w1.closeOuter s.now else w1)
      else if !e.inElse && e.elseLanes &&& ~~~w.haltedLanes ≠ 0 then
        .ok (s, w.setUnit a
          { u with
            mask := e.elseLanes &&& ~~~w.haltedLanes, pc := targetPc e.elseTarget, fmt := e.fmt, refusals := [],
            looked := false, table := [], atBank := none, entries := { e with trueLanes := u.mask, inElse := true } :: rest })
      else
        let before := if e.inElse then e.trueLanes else 0
        let mask := (before ||| u.mask ||| e.brk) &&& ~~~w.haltedLanes
        match s.popEntry w a with
        | .error f => .error f
        | .ok (s1, w1) =>
          let w2 := w1.setUnit a
            { w1.unit a with mask := mask, fmt := e.fmt, pc := targetPc e.joinTarget + 4, refusals := [], looked := false, table := [], atBank := none }
          if mask = 0 then State.arrive s1 n w2 a else .ok (s1, w2)

/-- Every earlier access of a unit has been performed, at every scope: what the JOIN of an entry waits for, so that it comes before
every later access of the wave (04 R114). -/
def Wave.joinReady (w : Wave) (a : Arm) : Bool := (w.pend.filter fun o => o.of a).all fun o => o.performedAt .pod

/-- The unit of the latched word has reached its JOIN; inside a divergence the word waits until the unit's accesses have performed
(04 R102, R114). -/
def arriveAtJoin (s : State) (w : Wave) (i : Issue) : Out :=
  if (w.unit i.arm).entries ≠ [] && !w.joinReady i.arm then stallWord s
  else
  match s.arrive ((w.unit i.arm).open + 1) w i.arm with
  | .error f =>
    match s.wave? i.seq i.wid with
    | none => .next s
    | some w0 => spillTrap s w0 i f false
  | .ok (s1, w1) => .next (s1.setWave w1)

/-- SPLIT (10 R239): a new entry; both arms run at the outermost divergence, one after the other below it. -/
def execSplit (p : BitVec 6) (e : BitVec 16) (s : State) : Out :=
  whenLegal s (.split p e) fun w is u =>
    if u.mask &&& (w.p p.toNat).poison ≠ 0 then poisonTrap s w is
    else if 255 ≤ u.open then takeTrap s w is 9 5 0
    else
      let tl := u.mask &&& (w.p p.toNat).bits
      let el := u.mask &&& ~~~(w.p p.toNat).bits
      let entry : DivEntry :=
        { trueLanes := tl, elseLanes := el, brk := 0, elseTarget := packetOffset is.pkt e.toInt / 16 % 2 ^ 28,
          joinTarget := packetOffset is.pkt is.lit.toInt / 16 % 2 ^ 28, fmt := u.fmt, inElse := false }
      let joinPc := targetPc entry.joinTarget
      if !w.divergent then
        let ut : UnitSt :=
          { u with mask := tl, entries := [entry], pc := if tl = 0 then joinPc else nextWord is.pc, atJoin := tl = 0,
                   refusals := [], looked := false, table := [], atBank := none }
        let ue : UnitSt :=
          { UnitSt.empty with
            mask := el, entries := [entry], pc := if el = 0 then joinPc else targetPc entry.elseTarget, fmt := u.fmt,
            atJoin := el = 0, ready := s.now, lastIssue := u.lastIssue }
        let w1 := { w with divergent := true, unitT := ut, unitE := ue }
        .next (s.setWave (if tl = 0 && el = 0 then w1.closeOuter s.now else w1))
      else
        let spills := 9 ≤ u.entries.length
        let pushed := if tl = 0 then { entry with inElse := true } else entry
        match s.pushEntry w is.arm pushed with
        | .error f => spillTrap s w is f true
        | .ok (s1, w1) =>
          let mask := if tl = 0 then el else tl
          let pc := if tl = 0 then targetPc entry.elseTarget else nextWord is.pc
          let w2 := w1.setUnit is.arm { w1.unit is.arm with mask := mask, pc := pc, refusals := [], looked := false, table := [], atBank := none }
          .next (s1.setWave (w2.spilling is.arm spills))

/-- JOIN (10 R240): legal only as word 0 of the join target packet of the innermost entry of this call frame. -/
def execJoin (s : State) : Out :=
  whenLegal s .join fun w is _ => arriveAtJoin s w is

/-- Lanes added to brk of a unit's innermost entry, and taken from the unit. -/
def UnitSt.breakLanes (u : UnitSt) (m : Lanes) : UnitSt :=
  match u.entries with
  | [] => u
  | e :: rest => { u with mask := u.mask &&& ~~~m, entries := { e with brk := e.brk ||| m } :: rest }

/-- BRKP (10 R241): the active lanes whose p is 1 leave until the JOIN of the innermost entry. -/
def execBrkp (p : BitVec 6) (s : State) : Out :=
  whenLegal s (.brkp p) fun w is u =>
    if u.mask &&& (w.p p.toNat).poison ≠ 0 then poisonTrap s w is
    else
      let u1 := u.breakLanes (u.mask &&& (w.p p.toNat).bits)
      let w1 := w.setUnit is.arm u1
      if u1.mask = 0 then arriveAtJoin s w1 is else finish s w1 is

/-- PMASK: the pair := the active mask of the issuing unit (10 R242). -/
def execPmask (d : BitVec 6) (s : State) : Out :=
  whenLegal s (.pmask d) fun w is u => finish s (w.setPair d.toNat u.mask.toNat false) is

/-- ANYP: qd := some active lane has p = 1 (10 R242). -/
def execAnyp (d p : BitVec 6) (s : State) : Out :=
  whenLegal s (.anyp d p) fun w is u =>
    finish s (w.setQ d.toNat (decide (u.mask &&& (w.p p.toNat).bits ≠ 0))
      (decide (u.mask &&& (w.p p.toNat).poison ≠ 0))) is

/-- ALLP: qd := every active lane has p = 1 (10 R242). -/
def execAllp (d p : BitVec 6) (s : State) : Out :=
  whenLegal s (.allp d p) fun w is u =>
    finish s (w.setQ d.toNat (decide (u.mask &&& ~~~(w.p p.toNat).bits = 0))
      (decide (u.mask &&& (w.p p.toNat).poison ≠ 0))) is

/-! ## Wave control (10 R243 to R247) -/

/-- HALT (10 R244): the unit's lanes leave the wave for good; a progress event. -/
def execHalt (s : State) : Out :=
  whenLegal s .halt fun w is u =>
    let w1 := { w.progressed with haltedLanes := w.haltedLanes ||| u.mask }
    arriveAtJoin s (w1.setUnit is.arm { u with mask := 0 }) is

/-- YIELD (07 R183): the unit's wait is 0 and its wave is the youngest until its next issue. -/
def execYield (s : State) : Out :=
  whenLegal s .yield fun w is u =>
    finish s (w.setUnit is.arm { u with yielded := true, lastIssue := s.now }) is

/-- A unit goes to sleep with its pc at the next word. -/
def sleepWith (s : State) (w : Wave) (i : Issue) (x : Wait) : Out :=
  let w1 := w.goto i.arm (nextWord i.pc)
  .next (s.setWave (w1.setUnit i.arm { w1.unit i.arm with wait := x, hidden := [] }))

/-- SLEEPUNTIL: returns at once when t has passed, else sleeps until it has (10 R245). -/
def execSleepuntil (k : BitVec 5) (s : State) : Out :=
  whenLegal s (.sleepuntil k) fun w is _ =>
    let t := w.sPair (2 * k.toNat) % 2 ^ 48
    if w.sPairPoison (2 * k.toNat) then poisonTrap s w is
    else if s.passed t then finish s w is
    else sleepWith s w is (.sleepUntil t)

/-- TRAP: Software Trap with the code as subcode (10 R247). -/
def execTrap (n : BitVec 8) (s : State) : Out := whenLegal s (.trap n) fun w is _ => takeTrap s w is 15 n.toNat 0

/-- The body of a debugger stop record (15 R357, TYPE 0x08). -/
def debugBody (w : Wave) (reason : Nat) : List Byte :=
  packBytes [(4, w.wid), (4, 0), (4, w.unitT.pc), (4, w.unitE.pc), (1, reason)]

/-- A debugger stops a wave, both arms, and Skolis posts the event (14 R342). -/
def State.debugStop (s : State) (w : Wave) (reason : Nat) : State :=
  (s.setWave { w with dbgStop := true, dbgStep := none }).postEvent w.part 8 w.seq (debugBody w reason)

/-- The wave stops after its single step (14 R343). -/
def State.stopStep (s : State) (seq wid : Nat) : State :=
  match s.wave? seq wid with
  | some w => if w.dbgStep.isSome then s.debugStop w 1 else s
  | none => s

/-- BKPT: Breakpoint, or a stop of the whole wave in a debugger session (10 R247, 14 R342). -/
def execBkpt (n : BitVec 8) (s : State) : Out :=
  whenLegal s (.bkpt n) fun w is _ =>
    if ((s.part? w.part).map Part.debug).getD false then .next (s.debugStop w 0).trapped
    else takeTrap s w is 14 n.toNat 0

end Sys2Proof.Machine
end

