-- ==== Sys2Proof/Machine/Memory.lean ====
section
/-!
DEFINITION. The memory words (10_isa_uniform_control R230; 12_isa_memory_sync R275 to R285): uniform loads and stores, lane
loads and stores, the scratchpad, atomics, fences and cache operations.
-/
namespace Sys2Proof.Machine

/-! ## Uniform loads and stores (10 R230) -/

/-- The one access of a uniform load or store: its base pair and immediate, or Poison Consumed. -/
def uniformAccess (s : State) (i : Instr) (a : BitVec 6) (imm : BitVec 10) (size : Nat) (store : Option (BitVec 6)) (dest : Dest) :
    Out :=
  whenLegal s i fun w is _ =>
    let d := (store.map BitVec.toNat).getD 0
    if w.sPairPoison a.toNat || (store.isSome && (w.sPoison d || (size = 8 && w.sPoison (d + 1)))) then poisonTrap s w is
    else
      let addr := addAddr (w.sPair a.toNat) ((immediate imm is.lit).signExtend 64).toNat
      let val := if size = 8 then w.sPair d else (w.s d).toNat
      memAccess s w is
        { kind := if store.isSome then .store else .load, acc := if store.isSome then .write else .read, size := size,
          scope := .wave, order := 0,
          lanes := if addr % size ≠ 0 then .misaligned addr else .ok [{ lane := 0, addr := addr, a := val, b := 0 }],
          dest := dest, act := fun (l : LaneReq) => if store.isSome then .write l.a else .read, route := fun _ => .cache,
          tierOk := fun _ => true, noAlloc := false, nt := false }

/-- ULD32 (10 R230). -/
def execUld32 (d a : BitVec 6) (imm : BitVec 10) (s : State) : Out :=
  uniformAccess s (.uld32 d a imm) a imm 4 none (.uni d.toNat false)

/-- ULD64 (10 R230). -/
def execUld64 (d a : BitVec 6) (imm : BitVec 10) (s : State) : Out :=
  uniformAccess s (.uld64 d a imm) a imm 8 none (.uni d.toNat true)

/-- UST32 (10 R230). -/
def execUst32 (d a : BitVec 6) (imm : BitVec 10) (s : State) : Out :=
  uniformAccess s (.ust32 d a imm) a imm 4 (some d) .none

/-- UST64 (10 R230). -/
def execUst64 (d a : BitVec 6) (imm : BitVec 10) (s : State) : Out :=
  uniformAccess s (.ust64 d a imm) a imm 8 (some d) .none

/-! ## Lane accesses to virtual memory (R275 to R278, R280 to R282) -/

/-- A word with a base pair, which is Poison Consumed when poisoned (R97, 10 R226). -/
def baseAccess (s : State) (i : Instr) (k : Nat) (f : Wave → Issue → UnitSt → Nat → Out) : Out :=
  whenLegal s i fun w is u =>
    if w.sPairPoison (2 * k) then poisonTrap s w is else f w is u (w.sPair (2 * k))

/-- The scope of a field that is not 7 (04 R103). -/
def scopeOf (b : BitVec 3) : Scope := (Scope.ofBits b).getD .pod

/-- The bytes of a size field (12 R275). -/
def sizeBytes (z : BitVec 2) : Nat := 2 ^ z.toNat

/-- The destination of a load into v(d) (R276). -/
def Wave.vecDest (w : Wave) (d : BitVec 6) (wide : Bool) : Dest := .vec (w.winBase + d.toNat) wide

/-- LDG (R276 to R278). -/
def execLdg (z : BitVec 2) (sc : BitVec 3) (r : BitVec 2) (d o : BitVec 6) (k : BitVec 5) (n : BitVec 1) (s : State) : Out :=
  baseAccess s (.ldg z sc r d o k n) k.toNat fun w is u base =>
    memAccess s w is
      { kind := .load, acc := .read, size := sizeBytes z, scope := scopeOf sc, order := r,
        lanes := w.loadLanes u o base (sizeBytes z), dest := w.vecDest d (z = 3), act := fun _ => .read,
        route := fun _ => .cache, tierOk := fun _ => true, noAlloc := false, nt := n = 1 }

/-- STG (R276 to R278). -/
def execStg (z : BitVec 2) (sc : BitVec 3) (r : BitVec 2) (d o : BitVec 6) (k : BitVec 5) (n : BitVec 1) (s : State) : Out :=
  baseAccess s (.stg z sc r d o k n) k.toNat fun w is u base =>
    memAccess s w is
      { kind := .store, acc := .write, size := sizeBytes z, scope := scopeOf sc, order := r,
        lanes := w.storeLanes u d o base (sizeBytes z), dest := .none, act := fun (l : LaneReq) => .write l.a,
        route := fun _ => .cache, tierOk := fun _ => true, noAlloc := false, nt := n = 1 }

/-- GATHER (R280, 02 R66): tier 0 lanes travel in a packet to their stack's die; a tier 3 lane is refused. -/
def execGather (z : BitVec 2) (sc : BitVec 3) (r : BitVec 2) (d o : BitVec 6) (k : BitVec 5) (n : BitVec 1) (s : State) :
    Out :=
  baseAccess s (.gather z sc r d o k n) k.toNat fun w is u base =>
    memAccess s w is
      { kind := .load, acc := .read, size := sizeBytes z, scope := scopeOf sc, order := r,
        lanes := w.loadLanes u o base (sizeBytes z), dest := w.vecDest d (z = 3), act := fun _ => .read,
        route := fun (key : Nat) => if isModuleKey key then .cache else .gather (key / Config.hbmWindow),
        tierOk := fun (t : Tier) => t ≠ .aperture, noAlloc := false, nt := n = 1 }

/-- SCATTER (R280): a store no lane of which allocates on a miss. -/
def execScatter (z : BitVec 2) (sc : BitVec 3) (r : BitVec 2) (d o : BitVec 6) (k : BitVec 5) (n : BitVec 1) (s : State) :
    Out :=
  baseAccess s (.scatter z sc r d o k n) k.toNat fun w is u base =>
    memAccess s w is
      { kind := .store, acc := .write, size := sizeBytes z, scope := scopeOf sc, order := r,
        lanes := w.storeLanes u d o base (sizeBytes z), dest := .none, act := fun (l : LaneReq) => .write l.a,
        route := fun _ => .cache, tierOk := fun _ => true, noAlloc := true, nt := n = 1 }

/-- ATOMG (R281, R282): tier 0 and tier 1 lanes at the L2 atomic unit of their line's home slice. -/
def execAtomg (p : BitVec 3) (w64 : BitVec 1) (sc : BitVec 3) (r : BitVec 2) (d o : BitVec 6) (k : BitVec 4) (s : State) :
    Out :=
  baseAccess s (.atomg p w64 sc r d o k) k.toNat fun w is u base =>
    let size := if w64 = 1 then 8 else 4
    memAccess s w is
      { kind := .atomic, acc := .atomic, size := size, scope := scopeOf sc, order := r,
        lanes := w.atomicLanes u p d o base size, dest := w.vecDest d (w64 = 1),
        act := fun (l : LaneReq) => .atomic p.toNat l.a l.b, route := fun _ => .atomicUnit,
        tierOk := fun (t : Tier) => t ≠ .aperture, noAlloc := false, nt := false }

/-! ## The scratchpad (R279, R283; 02 R39 to R45) -/

/-- The wave's window on its quad: its first bank and its count of banks (02 R39). -/
def State.qspWindow (s : State) (w : Wave) : Nat × Nat :=
  match s.launch? w.seq with
  | none => (0, 0)
  | some l => match l.windows.find? fun x => x.1 = coreQuad w.core with
    | some x => (x.2, l.qsp)
    | none => (0, 0)

/-- The memory key of a QSP address of the wave, or none when the access is refused (02 R40). -/
def State.qspKeyOf (s : State) (w : Wave) (addr : Nat) : Option Nat :=
  let win := s.qspWindow w
  if addr < 2 ^ 21 && addr / 65536 < win.2 then some (qspKey (coreQuad w.core) (win.1 * 65536 + addr)) else none

/-- The physical bank of a QSP byte (02 R39). -/
def qspBank (key : Nat) : Nat := bitsAt key 16 5

/-- The parts of QSP lanes: beat b, lanes 16b to 16b + 15, is presented b cycles after issue (02 R45). -/
def State.qspParts (s : State) (w : Wave) (x : Access) (col : Bool) (ls : List LaneReq) : List OpPart :=
  ls.map fun l =>
    let key := (s.qspKeyOf w l.addr).getD 0
    { lane := l.lane, key := key, va := l.addr, size := x.size, act := x.act l, route := .qsp (qspBank key),
      age := s.now + l.lane / 16, noAlloc := false, na := false, nt := false, col := col, done := false, val := 0, poison := false }

/-- An LDQ, STQ or ATOMQ (R277, R279, R283): the checks, the window, then its beats are presented to the banks. -/
def qspAccess (s : State) (w : Wave) (i : Issue) (x : Access) (col : Bool) : Out :=
  if Config.outstMax ≤ w.outst then stallWord s
  else
    let g := if isRelease x.order then s.releaseAt w i.arm (s.clampScope w.part x.scope).2 else (s, true)
    if !g.2 then stallWord g.1
    else
      let s1 := g.1
      let w1 := s1.again w
      match x.lanes with
      | .poison => poisonTrap s1 w1 i
      | .misaligned a => takeTrap s1 w1 i 3 0 a
      | .ok ls =>
        match ls.find? fun l => (s1.qspKeyOf w1 l.addr).isNone with
        | some l => .next (s1.refuseWord w1 i i.trapPc l.addr 6 15 x.acc true)
        | none =>
          let ps := s1.qspParts w1 x col ls
          if ps.any (fun p => w1.overlaps p.key p.size x.acc.writes) then stallWord s1
          else issueAccess s1 w1 i x (s.clampScope w.part x.scope).2 ps 0

/-- LDQ (R279). -/
def execLdq (z : BitVec 2) (sc : BitVec 3) (r : BitVec 2) (d o : BitVec 6) (k : BitVec 5) (n : BitVec 1) (s : State) : Out :=
  baseAccess s (.ldq z sc r d o k n) k.toNat fun w is u base =>
    qspAccess s w is
      { kind := .load, acc := .read, size := sizeBytes z, scope := scopeOf sc, order := r,
        lanes := w.loadLanes u o base (sizeBytes z), dest := w.vecDest d (z = 3), act := fun _ => .read,
        route := fun _ => .cache, tierOk := fun _ => true, noAlloc := false, nt := false } (n = 1)

/-- STQ (R279). -/
def execStq (z : BitVec 2) (sc : BitVec 3) (r : BitVec 2) (d o : BitVec 6) (k : BitVec 5) (n : BitVec 1) (s : State) : Out :=
  baseAccess s (.stq z sc r d o k n) k.toNat fun w is u base =>
    qspAccess s w is
      { kind := .store, acc := .write, size := sizeBytes z, scope := scopeOf sc, order := r,
        lanes := w.storeLanes u d o base (sizeBytes z), dest := .none, act := fun (l : LaneReq) => .write l.a,
        route := fun _ => .cache, tierOk := fun _ => true, noAlloc := false, nt := false } (n = 1)

/-- ATOMQ (R283): always 32-bit words. -/
def execAtomq (p : BitVec 3) (n : BitVec 1) (sc : BitVec 3) (r : BitVec 2) (d o : BitVec 6) (k : BitVec 4) (s : State) : Out :=
  baseAccess s (.atomq p n sc r d o k) k.toNat fun w is u base =>
    qspAccess s w is
      { kind := .atomic, acc := .atomic, size := 4, scope := scopeOf sc, order := r,
        lanes := w.atomicLanes u p d o base 4, dest := w.vecDest d false,
        act := fun (l : LaneReq) => .atomic p.toNat l.a l.b,
        route := fun _ => .cache, tierOk := fun _ => true, noAlloc := false, nt := false } (n = 1)

/-! ## Fences (R284; 04 R108, 05 R145) -/

/-- Earlier reads of a unit have been performed at a scope (04 R108). -/
def Wave.readsDone (w : Wave) (a : Arm) (sc : Scope) : Bool :=
  (w.pend.filter fun o => o.of a && (match o.kind with
    | .load => true
    | .atomic => true
    | .service => true
    | .rrd => true
    | .ratom => true
    | _ => false)).all fun o => o.performedAt sc

/-- A fence that has waited for what it orders: its acquire part acts on the L1, and the unit goes on. -/
def fenceDone (g : Got) (w : Wave) (i : Issue) (sc : Scope) (acquire : Bool) : Out :=
  if !g.2 then stallWord g.1
  else
    let w1 := g.1.again w
    let sc1 := (g.1.clampScope w.part sc).2
    let h := if acquire then g.1.acquireAt w1 sc1 else (g.1, true)
    if !h.2 then stallWord h.1
    else finish (h.1.clampScope w.part sc).1 (h.1.again w) i

/-- FENCE (04 R108). -/
def execFence (sc : BitVec 3) (s : State) : Out :=
  whenLegal s (.fence sc) fun w is _ =>
    fenceDone (s.releaseAt w is.arm (s.clampScope w.part (scopeOf sc)).2) w is (scopeOf sc) true

/-- FENCEACQ (04 R108). -/
def execFenceacq (sc : BitVec 3) (s : State) : Out :=
  whenLegal s (.fenceacq sc) fun w is _ =>
    fenceDone (s, w.readsDone is.arm (s.clampScope w.part (scopeOf sc)).2) w is (scopeOf sc) true

/-- FENCEREL (04 R108). -/
def execFencerel (sc : BitVec 3) (s : State) : Out :=
  whenLegal s (.fencerel sc) fun w is _ =>
    fenceDone (s.releaseAt w is.arm (s.clampScope w.part (scopeOf sc)).2) w is (scopeOf sc) false

/-- The wave's engine work is over (05 R145): no aperture store is unaccepted, every accepted copy has landed, and the
Crucible engines hold no operation of it. -/
def State.engineIdle (s : State) (w : Wave) : Bool :=
  !(w.pend.any fun o => o.kind = .aperture && !o.answered)
    && !(s.chans.any fun c => c.copies.any fun x => x.seq = w.seq && x.wid = w.wid)
    && !(s.engines.any fun e => e.entries.any fun x => x.seq = w.seq && x.wid = w.wid)

/-- FENCEENG (05 R145). -/
def execFenceeng (sc : BitVec 3) (s : State) : Out :=
  whenLegal s (.fenceeng sc) fun w is _ =>
    if !s.engineIdle w then stallWord s
    else fenceDone (s.releaseAt w is.arm (s.clampScope w.part (scopeOf sc)).2) w is (scopeOf sc) true

/-! ## Cache operations (R285) -/

/-- The place of an address whose page lies in tier 2 or tier 3, with the entry that the wave's TLBs hold for it. -/
def State.linePlace (s : State) (w : Wave) (va : Nat) : Option (Nat × TlbEntry) :=
  if !canonical va then none
  else match w.tlbPlaces.findSome? fun pl => s.tlbFind pl w.part (s.waveAsid w) (pageOf va) with
    | some e =>
      if e.tier = .relay || e.tier = .aperture then some (e.frame + (pageOf va - e.page) * 4096 + va % 4096, e) else none
    | none => none

/-- A lane of a WBL, INVL or FLUSHL: a store that needs V, and W for INVL alone; in tier 2 or tier 3 it does nothing, so
that no refusal of a place there reaches it (R285, log 46). -/
def State.lineXlate (s : State) (w : Wave) (u : UnitSt) (va : Nat) (needW : Bool) : Xlat :=
  match s.linePlace w va with
  | some (pa, e) => if needW && !e.w then .deny 3 15 else .ok pa e
  | none =>
    match s.waveXlate w u va 1 (if needW then .write else .read) with
    | .ok pa e =>
      match (s.part? w.part).bind fun p => s.physRefusal p pa 1 .write with
      | some sub => .deny sub 15
      | none => .ok pa e
    | r => r

/-- What a cache operation does with the quad's copies of a line. -/
inductive LineOp where
  | wbl | invl | flushl
deriving DecidableEq, Repr

/-- One line's operation in the issuing quad. -/
def State.lineOp (s : State) (quad line : Nat) : LineOp → Got
  | .invl =>
    ({ s.l1Drop quad line with wq := s.wq.filter fun e => !(e.quad = quad && lineKey e.key = line) }, true)
  | op =>
    let g := gotAll s [line, line + 64] fun t k => t.wqFlush quad k
    if !g.2 then g
    else
      let h := g.1.writeBackLine quad line
      if h.2 && op = .flushl then (h.1.l1Drop quad line, true) else h

/-- WBL, INVL or FLUSHL over the active lanes. -/
def lineWord (s : State) (i : Instr) (o : BitVec 6) (k : BitVec 5) (op : LineOp) : Out :=
  baseAccess s i k.toNat fun w is u base =>
    if u.mask &&& (w.v o.toNat).poison ≠ 0 then poisonTrap s w is
    else
      let rs := (lanesOf u.mask).map fun l => (w.laneAddr o base l, s.lineXlate w u (w.laneAddr o base l) (op = .invl))
      let missing := rs.filterMap fun r => match r.2 with
        | .miss pg => some pg
        | _ => none
      if missing ≠ [] then .next (s.waitForWalks w is missing)
      else
        match rs.findSome? fun r => match r.2 with
          | .deny sub level => some (r.1, sub, level)
          | _ => none with
        | some (a, sub, level) => .next (s.refuseWord w is is.trapPc a sub level .write false)
        | none =>
          let lines := dedup (rs.filterMap fun r => match r.2 with
            | .ok pa _ => (keyOfPa s.pod pa).map lineKey
            | _ => none)
          if lines.any fun l => w.overlaps l 128 true then stallWord s
          else
            let g := gotAll s lines fun t l => t.lineOp (coreQuad w.core) l op
            if g.2 then finish g.1 (g.1.again w) is else stallWord g.1

/-- WBL (R285). -/
def execWbl (o : BitVec 6) (k : BitVec 5) (n : BitVec 1) (s : State) : Out := lineWord s (.wbl o k n) o k .wbl

/-- INVL (R285). -/
def execInvl (o : BitVec 6) (k : BitVec 5) (n : BitVec 1) (s : State) : Out := lineWord s (.invl o k n) o k .invl

/-- FLUSHL (R285). -/
def execFlushl (o : BitVec 6) (k : BitVec 5) (n : BitVec 1) (s : State) : Out := lineWord s (.flushl o k n) o k .flushl

/-- PREF (R285): the sectors of the lanes that are not refused are filled; what must wait for a module stays outstanding. -/
def execPref (o : BitVec 6) (k : BitVec 5) (n : BitVec 1) (s : State) : Out :=
  baseAccess s (.pref o k n) k.toNat fun w is u base =>
    if u.mask &&& (w.v o.toNat).poison ≠ 0 then poisonTrap s w is
    else if Config.outstMax ≤ w.outst then stallWord s
    else
      let rs := (lanesOf u.mask).map fun l => (l, w.laneAddr o base l, s.waveXlate w u (w.laneAddr o base l) 1 .read)
      let missing := rs.filterMap fun r => match r.2.2 with
        | .miss pg => some pg
        | _ => none
      if missing ≠ [] then .next (s.waitForWalks w is missing)
      else
        let drops := (rs.filter fun r => match r.2.2 with
          | .deny _ _ => true
          | _ => false).length
        let ps := rs.filterMap fun r => match r.2.2 with
          | .ok pa e => (keyOfPa s.pod pa).map fun key =>
            ({ lane := r.1, key := key, va := r.2.1, size := 1, act := .prefetch (n = 1), route := .cache, age := s.now,
               noAlloc := e.na, na := e.na, nt := n = 1, col := false, done := false, val := 0, poison := false } : OpPart)
          | _ => none
        let s1 := s.charge w.part 0x042 drops
        let x := s1.advance w (newOp w is .cache .wave false ps .none)
        let w1 := x.1.again w
        if x.2.parts.all fun p => p.done then finish x.1 w1 is else finish x.1 (w1.addOp x.2) is

end Sys2Proof.Machine
end

