-- ==== Sys2Proof/Machine/Rows.lean ====
section
/-!
DEFINITION. Held rows (02_on_package_memory R60 to R65; 12_isa_memory_sync R286 to R288).
-/
namespace Sys2Proof.Machine

/-- The handle of a hold (R62). -/
def rowHandle (gen stack bank : Nat) : Nat := gen % 65536 * 65536 + stack % 8 * 512 + bank % 512

/-- The hold slot of a bank, free and with GEN 0 when it has never held a row (R287). -/
def State.rowSlot (s : State) (stack bank : Nat) : RowSlot :=
  (s.slotOf stack bank).getD
    { stack := stack, bank := bank, gen := 0, held := false, part := 16, row := 0, recorded := false, dropped := false }

/-- The state with a bank's slot replaced. -/
def State.setSlot (s : State) (r : RowSlot) : State :=
  { s with rows := (s.rows.filter fun x => !(x.stack = r.stack && x.bank = r.bank && !x.recorded)) ++ [r] }

/-- The next GEN of a slot: 0xFFFF wraps to 1 (R287). -/
def nextGen (g : Nat) : Nat := if g = 0xFFFF then 1 else g + 1

/-- Rows of a partition on a stack that count against its quota: held, or recorded in a save area (R65). -/
def State.rowsOf (s : State) (stack part : Nat) : Nat :=
  (s.rows.filter fun r => r.stack = stack && r.part = part && (r.held || r.recorded)).length

/-- Rows held on a stack (R63, R65). -/
def State.rowsHeld (s : State) (stack : Nat) : Nat := (s.rows.filter fun r => r.stack = stack && r.held && !r.recorded).length

/-- ROWPIN of a tier 0 address: the state, the handle and the status (R63). DESIGN CHOICE (log 59): a row of a stack that is down can be
held as any other, and a recorded hold of such a stack comes back at resume; R68 says only that the held rows are released. -/
def State.pinRow (s : State) (part key : Nat) : State × Nat × Nat :=
  let stack := key / Config.hbmWindow
  let off := key % Config.hbmWindow
  let bank := hbmBank off
  let row := hbmRow off
  let r := s.rowSlot stack bank
  let quota := ((s.part? part).map fun p => p.quotas.getD stack 0).getD 0
  if r.held then
    if r.part = part && r.row = row then (s, rowHandle r.gen stack bank, 1) else (s, 0, 2)
  else if quota ≤ s.rowsOf stack part then (s, 0, 3)
  else if 256 ≤ s.rowsHeld stack then (s, 0, 4)
  else
    let g := nextGen r.gen
    (s.setSlot { r with gen := g, held := true, part := part, row := row, dropped := false }, rowHandle g stack bank, 0)

/-- A row word has acted; it counts in OUTST until it completes, when its answer reaches its registers (R286). -/
def rowWord (s : State) (w : Wave) (i : Issue) (d : BitVec 6) (wide : Bool) (val : Nat) : Out :=
  let p : OpPart :=
    { lane := 0, key := 0, va := 0, size := 8, act := .read, route := .cache, age := s.now, noAlloc := false, na := false, nt := false,
      col := false, done := true, val := val, poison := false }
  finish s (w.addOp { newOp w i .row .wave false [p] (.uni d.toNat wide) with answered := true }) i

/-- ROWPIN (R287): the pair's address translates as a load does; another tier is NOTHBM. -/
def execRowpin (d : BitVec 6) (k : BitVec 5) (s : State) : Out :=
  baseAccess s (.rowpin d k) k.toNat fun w is u va =>
    match s.waveXlate w u va 1 .read with
    | .miss pg => .next (s.waitForWalks w is [pg])
    | .deny sub level => .next (s.refuseWord w is is.trapPc va sub level .read false)
    | .ok pa e =>
      if Config.outstMax ≤ w.outst then stallWord s else
      let r := if e.tier = .hbm then s.pinRow w.part pa else (s, 0, 5)
      rowWord r.1 w is d true (r.2.1 + r.2.2 * 2 ^ 32)

/-- The slot that a handle names, when the handle is current for a partition (R62). -/
def State.currentHold (s : State) (part handle : Nat) : Option RowSlot :=
  let r := s.rowSlot (bitsAt handle 9 3) (bitsAt handle 0 9)
  if bitsAt handle 12 4 = 0 && r.held && r.part = part && r.gen = bitsAt handle 16 16 then some r else none

/-- ROWUNPIN (R288): 0 when it has released a current hold, 1 when the handle was stale. -/
def execRowunpin (d a : BitVec 6) (s : State) : Out :=
  whenLegal s (.rowunpin d a) fun w is _ =>
    if w.sPoison a.toNat then poisonTrap s w is
    else if Config.outstMax ≤ w.outst then stallWord s
    else
      match s.currentHold w.part (w.s a.toNat).toNat with
      | some r => rowWord (s.setSlot { r with held := false, dropped := false }) w is d false 0
      | none => rowWord s w is d false 1

/-- What ROWQRY answers (R288). -/
def State.queryRow (s : State) (part handle : Nat) : Nat :=
  let r := s.rowSlot (bitsAt handle 9 3) (bitsAt handle 0 9)
  if (s.currentHold part handle).isSome then 0
  else if bitsAt handle 12 4 = 0 && !r.held && r.dropped && r.part = part && r.gen = bitsAt handle 16 16 then 2
  else 1

/-- ROWQRY (R288). -/
def execRowqry (d a : BitVec 6) (s : State) : Out :=
  whenLegal s (.rowqry d a) fun w is _ =>
    if w.sPoison a.toNat then poisonTrap s w is
    else if Config.outstMax ≤ w.outst then stallWord s
    else rowWord s w is d false (s.queryRow w.part (w.s a.toNat).toNat)

/-- A hold released by the device, not by its partition (R65, R68). -/
def RowSlot.drop (r : RowSlot) : RowSlot := { r with held := false, dropped := true }

/-- A partition's holds leave their banks under its hold policy (R65): dropped, or recorded and closed. -/
def State.switchRowsOut (s : State) (p : Part) : State :=
  let mine (r : RowSlot) : Bool := r.held && !r.recorded && r.part = p.num
  if p.holdDrop then { s with rows := mapWhere s.rows mine RowSlot.drop }
  else
    let recs := (s.rows.filter mine).map fun r => { r with recorded := true, held := false }
    { s with rows := (mapWhere s.rows mine fun r => { r with held := false, dropped := false }) ++ recs }

/-- A recorded hold comes back with its handle, or is released (R65). -/
def State.restoreRow (s : State) (rec : RowSlot) : State :=
  let s1 := { s with rows := s.rows.erase rec }
  let r := s1.rowSlot rec.stack rec.bank
  if !r.held && r.gen = rec.gen && s1.rowsHeld rec.stack < 256 then
    s1.setSlot { r with held := true, part := rec.part, row := rec.row, dropped := false }
  else if !r.held && r.gen = rec.gen then s1.setSlot { r with part := rec.part, dropped := true }
  else s1

/-- Every recorded hold of a partition comes back or is released (R65). DESIGN CHOICE (log 59): they are retried in the order of
State.rows, in which they were recorded; the rule gives none, and on a stack near its 256 holds the order decides which come back. -/
def State.switchRowsIn (s : State) (part : Nat) : State :=
  (s.rows.filter fun r => r.recorded && r.part = part).foldl State.restoreRow s

/-- REFRESH (R64): a refresh of a bank closes and reopens the row it holds, which is counted. -/
def execRefresh (s : State) : Out :=
  match s.call with
  | .refresh stack bank =>
    match s.slotOf stack bank with
    | some r => .next (if r.held then s.charge r.part 0x031 1 else s)
    | none => .next s
  | _ => .next s

end Sys2Proof.Machine
end

