-- ==== Sys2Proof/Machine/Phases.lean ====
section
/-!
DEFINITION. Words that read memory of their own: WAITLINE (10_isa_uniform_control R246), and the dispatch table and phase
selection (07_execution R172 to R177; 10 R248 to R250).
-/
namespace Sys2Proof.Machine

/-! ## Reads through the L2 -/

/-- What a word's own read gives: the bytes' value, whether some are poisoned and the first such byte's address, the
translation; or the word's end, when it waits or is refused. -/
inductive DataGot where
  | ok (s : State) (val : Nat) (poison : Option Nat) (key : Nat) (e : TlbEntry)
  | out (o : Out)

/-- One sector's bytes brought into reach of a read from the L2 of the wave's die (02 R48): the quad's dirty bytes leave it,
and the directory answers. -/
def State.reachSector (s : State) (w : Wave) (key n : Nat) (noAlloc : Bool) : Got :=
  let die := coreDie w.core
  if s.keyDown key then (s, true)
  else
    let g := s.sectorOut (coreQuad w.core) key
    if !g.2 then g
    else
      let r := g.1.l2Read die w.part key n noAlloc true
      match r.2 with
      | some _ => (r.1, true)
      | none => r.1.directory die key w.part false

/-- The first poisoned byte of a range. -/
def State.firstPoison (s : State) (key n : Nat) : Option Nat := (List.range n).find? fun i => s.poisoned (key + i)

/-- The pieces of a range in a relay window, a sector at most each: first byte and length. -/
def relayPieces (key n : Nat) : List (Nat × Nat) :=
  (sectorsOf key n).map fun k => let a := max k key; (a, min (k + 64) (key + n) - a)

/-- A piece that the unit's word has been sent. -/
def UnitSt.tableAt (u : UnitSt) (x : Nat × Nat) : Option TableRead := u.table.find? fun t => t.key = x.1 && t.size = x.2

/-- The part of an operation that asks for a piece, or writes it. -/
def relayPiece (s : State) (va key : Nat) (act : PartAct) (lane : Nat) (x : Nat × Nat) : OpPart :=
  { lane := lane, key := x.1, va := va + (x.1 - key), size := x.2, act := act, route := .runner, age := s.now, noAlloc := false,
    na := false, nt := false, col := false, done := false, val := 0, poison := false }

/-- The pieces of a table in a relay window that the word has not been sent are asked for from the serving peer, and the word issues
again when they have come (01 R21). DESIGN CHOICE (log 40): one relayed read for each sector, which counts in OUTST. -/
def relayAsk (s : State) (w : Wave) (i : Issue) (u : UnitSt) (va key n : Nat) : Out :=
  let ps := ((relayPieces key n).filter fun x => (u.tableAt x).isNone).mapIdx (relayPiece s va key .read)
  if Config.outstMax ≤ w.outst || s.relayStalls w ps then stallWord s
  else
    let o := newOp w i .load .pkg true ps .table
    let w1 := w.addOp o
    let w2 := w1.setUnit i.arm { w1.unit i.arm with wait := .op o.id }
    stallWord ((s.setWave w2).relayParts w2 i.arm o.id ps)

/-- The bytes of a range in a relay window, of which the word has been sent every piece: their value and the first poisoned one. -/
def UnitSt.tableValue (u : UnitSt) (key n : Nat) : Nat × Option Nat :=
  let ts := (relayPieces key n).filterMap u.tableAt
  ((ts.map fun t => t.val * 2 ^ (8 * (t.key - key))).sum,
   (List.range n).find? fun i => ts.any fun t => t.key ≤ key + i && key + i < t.key + t.size && t.bad.testBit (key + i - t.key))

/-- `n` bytes read as relaxed PKG-scope loads from the L2 (10 R246, 07 R174). A relayed byte is read by the serving peer (01 R21), a tier
3 byte at its register, after the access before it (04 R102). A word that waits counts its lookups once (20 R385). -/
def State.readData (s : State) (w : Wave) (i : Issue) (u : UnitSt) (va n : Nat) (lookups : Bool) : DataGot :=
  match s.waveXlate w u va n .read with
  | .miss pg => .out (.next (s.waitForWalks w i [pg]))
  | .deny sub level => .out (.next (s.refuseWord w i i.trapPc va sub level .read false))
  | .ok pa e =>
    if e.tier = .aperture && w.pend.any fun o => o.kind = .aperture && !o.answered then .out (stallWord s)
    else
    match physPlace pa with
    | .page _ off => .ok s (((s.part? w.part).map fun p => s.pageRead p off n).getD 0) none pa e
    | .ladle d c off => .ok s (s.apertureRead d c off n) none pa e
    | .relay m x =>
      let key := moduleKey m x
      if w.overlaps key n false then .out (stallWord s)
      else if (relayPieces key n).any fun y => (u.tableAt y).isNone then .out (relayAsk s w i u va key n)
      else .ok s (u.tableValue key n).1 ((u.tableValue key n).2.map fun j => va + j) key e
    | _ =>
      match keyOfPa s.pod pa with
      | none => .out (.next (s.refuseWord w i i.trapPc va 6 15 .read false))
      | some key =>
        if w.overlaps key n false then .out (stallWord s)
        else
          let secs := sectorsOf key n
          let f := gotAll s secs fun t k => t.sectorOut (coreQuad w.core) k
          let s0 := if lookups && !u.looked then
              (secs.foldl (fun (t : State) k => t.countLookup w k e.na) f.1).modWave w.seq w.wid fun x =>
                x.setUnit i.arm { x.unit i.arm with looked := true }
            else f.1
          let g := gotAll s0 secs fun t k => t.reachSector w (max k key) 1 e.na
          if !f.2 then .out (stallWord f.1)
          else if !g.2 then .out (stallWord g.1)
          else
            let down := g.1.keyDown key || g.1.beyondModule w.part key n
            let bad := if down then some va else (g.1.firstPoison key n).map fun j => va + j
            .ok g.1 (g.1.peekNat key n) bad key e

/-- WAITLINE (10 R246): returns at once when the word differs, else the unit sleeps on the word's line. -/
def execWaitline (k : BitVec 5) (sx sy : BitVec 6) (s : State) : Out :=
  baseAccess s (.waitline k sx sy) k.toNat fun w is u va =>
    if w.sPoison sx.toNat || w.sPoison sy.toNat then poisonTrap s w is
    else if va % 4 ≠ 0 then takeTrap s w is 3 0 va
    else
      match s.waveXlate w u va 4 .read with
      | .ok _ e =>
        if e.tier = .relay || e.tier = .aperture then .next (s.refuseWord w is is.trapPc va 0x10 15 .read false)
        else
          match s.readData w is u va 4 true with
          | .out o => o
          | .ok s1 val bad key _ =>
            let w1 := s1.again w
            match bad with
            | some a => takeTrap s1 w1 is 6 0 a
            | none =>
              if val ≠ (w.s sx.toNat).toNat then finish s1 w1 is
              else
                let t := (w.s sy.toNat).toNat
                sleepWith s1 w1 is (.line (lineKey key) (if t = 0 then 0 else s.now + t) false)
      | .miss pg => .next (s.waitForWalks w is [pg])
      | .deny sub level => .next (s.refuseWord w is is.trapPc va sub level .read false)

/-! ## The dispatch table (07 R172 to R174) -/

/-- DTAB of the wave's launch. -/
def State.dtab (s : State) (w : Wave) : Nat := ((s.launch? w.seq).map Launch.dtab).getD 0

/-- NDIM of a header: 0 is taken as 1, values above 4 as 4. -/
def headerDims (h : Nat) : Nat := let n := bitsAt h 16 8; if n = 0 then 1 else min n 4

/-- NBKT of a header: values outside 1 to 256 give no bucket. -/
def headerBuckets (h : Nat) : Nat := let n := bitsAt h 0 16; if 1 ≤ n && n ≤ 256 then n else 0

/-- A bucket's ranges hold the shape. -/
def bucketMatches (e ndim : Nat) (shape : List Nat) : Bool :=
  (List.range ndim).all fun d =>
    bitsAt e (64 * d) 32 ≤ shape.getD d 0 && shape.getD d 0 ≤ bitsAt e (64 * d + 32) 32

/-- BOUND[2d] and BOUND[2d + 1] (07 R174). -/
def boundPair (e ndim : Nat) (shape : List Nat) (d : Nat) : List Word :=
  let x := shape.getD d 0
  let t := bitsAt e (576 + 16 * d) 16
  if ndim ≤ d then [0, 0]
  else if t = 0 then [BitVec.ofNat 32 x, 1]
  else [BitVec.ofNat 32 (if x % t = 0 then t else x % t), BitVec.ofNat 32 ((x + t - 1) / t)]

/-- The search of the buckets from number `b` on, `n` of them left (07 R174). -/
def dispatchFrom (s : State) (w : Wave) (i : Issue) (u : UnitSt) (ndim : Nat) (shape : List Nat) : Nat → Nat → Out
  | _, 0 => branchTo s { w with bucket := 0xFFFFFFFF, bounds := List.replicate 8 0 } i (nextPacket i.pc)
  | b, n + 1 =>
    match s.readData w i u (addAddr (s.dtab w) (128 * (b + 1))) 84 false with
    | .out o => o
    | .ok s1 e bad _ _ =>
      let w1 := s1.again w
      match bad with
      | some a => takeTrap s1 w1 i 6 0 a
      | none =>
        if bucketMatches e ndim shape then
          branchTo s1
            { w1 with bucket := BitVec.ofNat 32 b, bounds := [0, 1, 2, 3].flatMap (boundPair e ndim shape) } i
            (16 * bitsAt e 640 32)
        else dispatchFrom s1 w1 i u ndim shape (b + 1) n

/-- DISPATCH (07 R174, 10 R249). -/
def execDispatch (a : BitVec 6) (s : State) : Out :=
  whenLegal s (.dispatch a) fun w is u =>
    match s.readData w is u (s.dtab w) 4 false with
    | .out o => o
    | .ok s1 h bad _ _ =>
      let w1 := s1.again w
      match bad with
      | some x => takeTrap s1 w1 is 6 0 x
      | none =>
        let ndim := headerDims h
        if (List.range ndim).any fun d => w.sPoison (a.toNat + d) then poisonTrap s1 w1 is
        else
          dispatchFrom s1 w1 is u ndim ((List.range 4).map fun d => (w.s (a.toNat + d)).toNat) 0 (headerBuckets h)

/-! ## Phases (07 R176, R177) -/

/-- CNTg of an entry's upper 64 bytes. -/
def entryCnt (e g : Nat) : Nat := bitsAt e (832 - 512 + 48 * g) 48
/-- PHASE. -/
def entryPhase (e : Nat) : Nat := bitsAt e (816 - 512) 16
/-- CUR. -/
def entryCur (e : Nat) : Nat := bitsAt e (808 - 512) 2
/-- NVAR. -/
def entryNvar (e : Nat) : Nat := bitsAt e (805 - 512) 3
/-- The weight of group g in variant v. -/
def entryWt (e v g : Nat) : Nat := bitsAt e (672 - 512 + 32 * v + 8 * g) 8

/-- The cost of a group with a weight in the current variant. -/
def directCost (e g : Nat) : Option Nat :=
  let wt := entryWt e (entryCur e) g
  if wt = 0 then none else some (entryCnt e g * 256 / wt)

/-- The costs of the four groups: a group without a weight takes the greatest of the others. -/
def costs (e : Nat) : List Nat :=
  let known := [0, 1, 2, 3].filterMap (directCost e)
  [0, 1, 2, 3].map fun g => (directCost e g).getD (known.foldl max 0)

/-- T[v]. -/
def variantTime (e v : Nat) : Nat :=
  [0, 1, 2, 3].foldl (fun m g => if entryWt e v g = 0 then m else max m ((costs e).getD g 0 * entryWt e v g)) 0

/-- The lowest variant with the least T. -/
def bestVariant (e : Nat) : Nat :=
  (List.range (entryNvar e)).foldl (fun b v => if variantTime e v < variantTime e b then v else b) 0

/-- The entry after PHASESEL (07 R177). DESIGN CHOICE (log 52): T[CUR] of a CUR at or above NVAR is computed from that variant's
weights; R177 defines T[v] below NVAR only. -/
def phaseselEntry (e phase : Nat) : Nat :=
  if entryPhase e ≠ phase then e
  else
    let nv := entryNvar e
    let e1 :=
      if 1 ≤ nv && nv ≤ 4 && ([0, 1, 2, 3].any fun g => entryCnt e g ≠ 0)
          && variantTime e (bestVariant e) * 16 < variantTime e (entryCur e) * 15 then
        setBits e (808 - 512) 2 (bestVariant e)
      else e
    setBits (setBits e1 (832 - 512) 192 0) (816 - 512) 16 (entryPhase e + 1)

/-- PHASEVAR of an entry. -/
def phaseVarOf (e : Nat) : Word := BitVec.ofNat 32 (entryPhase e * 65536 + entryCur e * 256)

/-- Bytes written by the L2 atomic unit of the line's home die (02 R51, R58): the quad's copy of the sector leaves first. -/
def State.unitWrite (s : State) (quad part key : Nat) (bs : List Byte) (poison : Bool) : Got :=
  let g := s.sectorOut quad key
  if !g.2 then g
  else
    let s1 := g.1.l1DropSector quad key
    s1.l2Write (homeDie s1.pod (lineKey key)) part key (List.replicate (key % 64) 0 ++ bs) (byteMask key bs.length) poison
      false

/-- NBKT read for the check of R250, then the upper half of the entry that BUCKET names: what to do with it, or with none
when BUCKET is not below NBKT. DESIGN CHOICE (log 52): the entry's page needs what a load needs; the rules do not say whether
the write-back needs W = 1. -/
def withEntry (s : State) (w : Wave) (i : Issue) (u : UnitSt) (none' : State → Wave → Out)
    (f : State → Wave → Nat → Nat → TlbEntry → Out) : Out :=
  match s.readData w i u (s.dtab w) 4 false with
  | .out o => o
  | .ok s1 h bad _ _ =>
    match bad with
    | some x => takeTrap s1 (s1.again w) i 6 0 x
    | none =>
      if bitsAt h 0 16 ≤ w.bucket.toNat then none' s1 (s1.again w)
      else
        match s1.readData (s1.again w) i u (addAddr (s.dtab w) (128 * (w.bucket.toNat + 1) + 64)) 64 false with
        | .out o => o
        | .ok s2 e bad2 key tlb =>
          match bad2 with
          | some x => takeTrap s2 (s2.again w) i 6 0 x
          | none => if w.overlaps key 64 true then stallWord s2 else f s2 (s2.again w) e key tlb

/-- An entry's upper half written back to a table in a relay window: a relayed write of the sector. DESIGN CHOICE (log 40): the
serving peer sees a relayed read and then a relayed write, no packet being both. -/
def relayWrite (s : State) (w : Wave) (i : Issue) (key e : Nat) : Out :=
  let ps := (relayPieces key 64).mapIdx fun k x =>
    relayPiece s (addAddr (s.dtab w) (128 * (w.bucket.toNat + 1) + 64)) key (.write (e / 2 ^ (8 * (x.1 - key)) % 2 ^ (8 * x.2))) k x
  if Config.outstMax ≤ w.outst || s.relayStalls w ps then stallWord s
  else
    let o := newOp w i .store .pkg false ps .none
    let w1 := (w.addOp o).goto i.arm (nextWord i.pc)
    .next ((s.setWave w1).relayParts w1 i.arm o.id ps)

/-- An entry's upper half written back as one read-modify-write (07 R176, R177). -/
def writeEntry (s : State) (w : Wave) (i : Issue) (key e : Nat) (tlb : TlbEntry) (w' : Wave → Wave) : Out :=
  match tlb.tier with
  | .aperture => .next (s.refuseWord w i i.trapPc (addAddr (s.dtab w) (128 * (w.bucket.toNat + 1) + 64)) 0x11 15 .atomic false)
  | .relay => relayWrite s (w' w) i key e
  | _ =>
    let g := s.unitWrite (coreQuad w.core) w.part key (natToBytes 64 e) false
    if g.2 then finish g.1 (w' (g.1.again w)) i else stallWord g.1

/-- PHASEEND g (07 R176): the cycles since the phase start are added to CNTg, saturating. -/
def execPhaseend (g : BitVec 2) (s : State) : Out :=
  whenLegal s (.phaseend g) fun w is u =>
    if w.bucket = 0xFFFFFFFF then finish s w is
    else
      withEntry s w is u (fun t x => finish t x is) fun t x e key tlb =>
        let d := (s.now + 2 ^ 64 - x.phaseStart) % 2 ^ 64
        let e1 := setBits e (832 - 512 + 48 * g.toNat) 48 (min (entryCnt e g.toNat + d) (2 ^ 48 - 1))
        writeEntry t x is key e1 tlb id

/-- PHASESEL (07 R177, 10 R250). -/
def execPhasesel (s : State) : Out :=
  whenLegal s .phasesel fun w is u =>
    let reset (x : Wave) (v : Word) : Wave := { x with phaseVar := v, phaseStart := s.now }
    withEntry s w is u (fun t x => finish t (reset x 0) is) fun t x e key tlb =>
      let e1 := phaseselEntry e (w.phaseVar.toNat / 65536)
      writeEntry t x is key e1 tlb fun y => reset y (phaseVarOf e1)

end Sys2Proof.Machine
end

