-- ==== Sys2Proof/Machine/Module.lean ====
section
/-!
DEFINITION. Module services (03_pod_memory R74 to R84): back-invalidation, what the module performs for a Kweut request,
the words of MODSVC (12_isa_memory_sync R289, R290), and the response at the package.
-/
namespace Sys2Proof.Machine

/-! ## Back-invalidation (02 R57, 03 R74) -/

/-- The partitions whose tag a line's copies carry each count a back-invalidation (13 R330). -/
def State.chargeSnoop (s : State) (line : Nat) : State :=
  (dedup ((s.l2Holders line).map L2Line.tag)).foldl (fun (t : State) p => t.charge p 0x024 1) s

/-- The M or O holder of a line writes its bytes back to the module, which counts as a write-back of its tag (13 R330). -/
def State.snoopClean (s : State) (line : Nat) : State :=
  ((s.l2Holders line).filter fun l => l.state.dirty).foldl (fun (t : State) l => (t.charge l.tag 0x023 1).returnLine l) s

/-- BISnpInv applied to a line: the M or O holder writes back, every copy is invalidated, the permission is none. -/
def State.snoopInv (s : State) (line : Nat) : State :=
  ((((((s.chargeSnoop line).snoopClean line).dropCopies line).restoreStale line).wakeLine line)).setPerm line none

/-- BISnpData or BISnpCur applied to a line: the M or O holder writes back, every copy becomes S, the permission is shared
(a package that holds none keeps none). -/
def State.snoopData (s : State) (line : Nat) : State :=
  let s1 := ((s.chargeSnoop line).snoopClean line).wakeLine line
  let s2 : State := { s1 with l2 := mapWhere s1.l2 (fun l => l.key = line) fun l =>
    { l with state := .s, dirty0 := false, dirty1 := false } }
  if (s2.permOf line).isSome then s2.setPerm line (some .shared) else s2

/-- The answer to a snoop goes to its module (02 R57). -/
def State.answerSnoop (s : State) (a : SnoopAnswer) : State :=
  ({ s with snoopAnswers := s.snoopAnswers ++ [a] } : State).chargeFlits true 0

/-- The lines of `n` bytes from a key. -/
def linesOf (key n : Nat) : List Nat :=
  (List.range ((key % 128 + n + 127) / 128)).map fun i => lineKey key + 128 * i

/-- What a module does with one line's holders before a service writes it, or reads it while a package holds it
any-exclusive (R74). -/
def State.recallLine (s : State) (write : Bool) (line : Nat) : State :=
  let s1 : State := { s with holders := s.holders.filter fun h =>
    !(h.module = keyModule line && h.line = line && (write || h.exclusive)) }
  if (write && (s1.permOf line).isSome) || s1.permOf line = some .exclusive then
    (s1.snoopInv line).answerSnoop
      { module := keyModule line, line := keyOffset line / 128, block := false, inv := true }
  else s1

/-- The lines of a range recalled. -/
def State.recall (s : State) (key n : Nat) (write : Bool) : State :=
  (linesOf key n).foldl (fun (t : State) l => t.recallLine write l) s

/-- A Ladle channel owns one of the lines: the snoop waits (02 R59). -/
def State.recallWaits (s : State) (key n : Nat) : Bool := (linesOf key n).any s.ladleOwns

/-! ## Reduction operators (03 R84) -/

/-- Round to nearest even from FP32 to BF16. -/
def bf16OfF32 (x : Nat) : Nat :=
  match fp32.decode x with
  | .nan _ => bf16.nan
  | .inf n => bf16.infinity n
  | .fin n m e => (bf16.roundArith .rne false n m e false).1

/-- The exact product of two values. -/
def mulExact (a b : FpVal) : FpVal :=
  match a, b with
  | .fin na ma ea, .fin nb mb eb => .fin (na ^^ nb) (ma * mb) (ea + eb)
  | .nan _, _ => .nan false
  | _, .nan _ => .nan false
  | .inf na, .inf nb => .inf (na ^^ nb)
  | .inf na, .fin nb mb _ => if mb = 0 then .nan false else .inf (na ^^ nb)
  | .fin na ma _, .inf nb => if ma = 0 then .nan false else .inf (na ^^ nb)

/-- An exact zero. -/
def FpVal.isZero : FpVal → Bool
  | .fin _ m _ => m = 0
  | _ => false

/-- mix of RESCALE: a side whose weight is +0 is left out; the sum of the exact products is rounded once. -/
def mix (w1 x1 w2 x2 : Nat) : Nat :=
  let p := mulExact (fp32.decode w1) (fp32.decode x1)
  let q := mulExact (fp32.decode w2) (fp32.decode x2)
  let zero : FpVal := .fin false 0 0
  if w1 = 0 && w2 = 0 then 0
  else if w2 = 0 then (fpAddVal fp32 .rne false p zero).1
  else if w1 = 0 then (fpAddVal fp32 .rne false q zero).1
  else if p.isZero && q.isZero then 0
  else (fpAddVal fp32 .rne false p q).1

/-- The weight of a side. -/
def sideWeight (sm m : Nat) : Nat :=
  if sm = fp32.infinity true then 0
  else if fpCompare (fp32.decode sm) (fp32.decode m) = 0 then 0x3F800000
  else (fpExp2 fp32 .rne false (fpSub fp32 .rne false sm m).1).1

/-- rescale of two triples, as lists of FP32 words m, l, o… -/
def rescale (a b : List Nat) : List Nat :=
  let am := a.getD 0 0
  let bm := b.getD 0 0
  if (fp32.decode am).isNan || (fp32.decode bm).isNan then a.map fun _ => fp32.nan
  else
    let m := (fpMaxMin fp32 true false am bm).1
    if m = fp32.infinity true then m :: (a.drop 1).map fun _ => 0
    else
      let wa := sideWeight am m
      let wb := sideWeight bm m
      m :: List.zipWith (fun x y => mix wa x wb y) (a.drop 1) (b.drop 1)

/-- Values of `n` bytes each from a byte list. -/
def valuesOf (n : Nat) : Nat → List Byte → List Nat
  | 0, _ => []
  | k + 1, bs => bytesToNat (bs.take n) :: valuesOf n k (bs.drop n)

/-- The bytes of a list of values of `n` bytes each. -/
def bytesOfValues (n : Nat) (l : List Nat) : List Byte := l.flatMap (natToBytes n)

/-- The fold of a list of vectors, from the first. -/
def foldVectors (f : List Nat → List Nat → List Nat) : List (List Nat) → List Nat
  | [] => []
  | x :: xs => xs.foldl f x

/-- The length of a contribution in bytes (R82). -/
def contributionLen (op fmt nelem : Nat) : Nat := if op = 3 then 4 * (nelem + 2) else nelem * (if fmt = 1 then 2 else 4)

/-- The result bytes of a round's contributions in ascending lead-head order (R83, R84). -/
def foldRound (op fmt nelem : Nat) (parts : List (List Byte)) : List Byte :=
  match parts with
  | [p] => p
  | _ =>
    if op = 3 then bytesOfValues 4 (foldVectors rescale (parts.map (valuesOf 4 (nelem + 2))))
    else
      let n := if fmt = 1 then 2 else 4
      let vs := parts.map (valuesOf n nelem)
      if op = 0 then
        if fmt = 1 then
          bytesOfValues 2 ((foldVectors (List.zipWith fun x y => (fpAdd fp32 .rne false x y).1)
            (vs.map fun v => v.map fun x => x * 65536)).map bf16OfF32)
        else bytesOfValues 4 (foldVectors (List.zipWith fun x y => (fpAdd fp32 .rne false x y).1) vs)
      else
        let f := if fmt = 1 then bf16 else fp32
        bytesOfValues n (foldVectors (List.zipWith fun x y => fpMaxMinNan f (op = 1) x y) vs)

/-! ## What the module performs (R76 to R83) -/

/-- A module's answer: the status, the VALUE when it is stated, and the data. -/
structure KAns where
  status : Nat
  value : Option Nat
  data : List Byte
deriving DecidableEq, Repr

/-- An answer with a status alone. -/
def KAns.only (n : Nat) : KAns := { status := n, value := none, data := [] }

/-- The request comes from this package. -/
def State.ownRequest (s : State) (r : KReq) : Bool :=
  match s.pod.attOf r.module with
  | some _ => r.lead = s.pod.leadOn r.module
  | none => false

/-- The wave and operation that a request of this package belongs to. -/
def State.kweutOp (s : State) (att port tag : Nat) : Option (Wave × PendOp) :=
  s.waves.findSome? fun (w : Wave) =>
    (w.pend.find? fun o => o.kind = .service && o.att = att && o.port = port && o.ktag = tag).map fun o => (w, o)

/-- The capacity of the logical device that a request addresses (03 R389); 4 TiB when it is not this package's. -/
def State.kweutCap (s : State) (r : KReq) : Nat :=
  match s.pod.attOf r.module with
  | none => 2 ^ 42
  | some a =>
    match s.kweutOp a r.port r.tag with
    | some (w, _) => (s.pod.atts[a]?.map fun (t : Att) => t.fabricCap.getD w.part 0).getD 0
    | none => 2 ^ 42

/-- RANGE or POISON of `n` bytes at a module address. -/
def State.kweutCheck (s : State) (r : KReq) (addr n : Nat) : Option Nat :=
  if s.kweutCap r < addr + n then some 10
  else if s.anyPoison (moduleKey r.module addr) n then some 11
  else none

/-- An object checked: aligned, in range, free of poison. -/
def State.kweutObject (s : State) (r : KReq) (align n : Nat) : Option Nat :=
  if r.addr % align ≠ 0 then some 8 else s.kweutCheck r r.addr n

/-- The operation of a SUBOP as the atomic operation of 12 R281. -/
def kweutAtomOp (sub : Nat) : Nat := match sub with | 4 => 6 | 5 => 7 | n => n

/-- ATOM (R79). -/
def State.kweutAtom (s : State) (r : KReq) : State × KAns :=
  let sub := r.subop % 8
  let size := if r.subop.testBit 7 then 8 else 4
  if 6 ≤ sub then (s, .only 9)
  else match s.kweutObject r size size with
    | some st => (s, .only st)
    | none =>
      let key := moduleKey r.module r.addr
      let s1 := s.recall key size true
      let old := s1.peekNat key size
      let m := 2 ^ (8 * size)
      (s1.pokeNat key size (atomicNew (kweutAtomOp sub) size old (r.a % m) (r.b % m)),
        { status := 0, value := some old, data := [] })

/-- BASE and the size of a queue, when its descriptor is in order (R80). -/
def State.queueDesc (s : State) (key : Nat) : Option (Nat × Nat) :=
  let base := s.peekNat key 8
  let lg := s.peekNat (key + 8) 1 % 32
  if lg ≤ 20 && base % 64 = 0 then some (base, 2 ^ lg) else none

/-- QPUT (R81). DESIGN CHOICE (log 58): the module takes the descriptor's line from every package before it looks whether the queue is
full, as a get does before it finds it empty, so that a put or a get without effect wakes sleepers of the line too. -/
def State.kweutPut (s : State) (r : KReq) : State × KAns :=
  match s.kweutObject r 64 64 with
  | some st => (s, .only st)
  | none =>
    let key := moduleKey r.module r.addr
    let s0 := s.recall key 64 true
    match s0.queueDesc key with
    | none => (s0, .only 8)
    | some (base, n) =>
      let head := s0.peekNat (key + 16) 8
      let tail := s0.peekNat (key + 24) 8
      if (tail + 2 ^ 64 - head) % 2 ^ 64 = n then (s0, .only 1)
      else
        let entry := base + 64 * (tail % n)
        match s0.kweutCheck r entry 64 with
        | some st => (s0, .only st)
        | none =>
          let ek := moduleKey r.module entry
          let s1 := s0.recall ek 64 true
          let s2 := s1.poke ek ((r.payload ++ List.replicate 64 0).take 64)
          (s2.pokeNat (key + 24) 8 (tail + 1), .only 0)

/-- QGET (R81). -/
def State.kweutGet (s : State) (r : KReq) : State × KAns :=
  match s.kweutObject r 64 64 with
  | some st => (s, .only st)
  | none =>
    let key := moduleKey r.module r.addr
    let s0 := s.recall key 64 true
    match s0.queueDesc key with
    | none => (s0, .only 8)
    | some (base, n) =>
      let head := s0.peekNat (key + 16) 8
      let tail := s0.peekNat (key + 24) 8
      if tail = head then (s0, .only 2)
      else
        let entry := base + 64 * (head % n)
        match s0.kweutCheck r entry 64 with
        | some st => (s0, .only st)
        | none =>
          let ek := moduleKey r.module entry
          let s1 := s0.recall ek 64 false
          (s1.pokeNat (key + 16) 8 (head + 1), { status := 0, value := none, data := s1.peek ek 64 })

/-- The open round of a cell. -/
def State.roundAt (s : State) (m cell : Nat) : Option Round := s.rounds.find? fun x => x.module = m && x.cell = cell

/-- The state with a cell's open round replaced or, with none, gone. -/
def State.setRound (s : State) (m cell : Nat) (x : Option Round) : State :=
  { s with rounds := (s.rounds.filter fun y => !(y.module = m && y.cell = cell)) ++ x.toList }

/-- GEN, ARRIVED and BROKEN mirrored in the cell (R82). -/
def State.mirrorCell (s : State) (key gen arrived : Nat) (broken : Bool) : State :=
  let h := s.peekNat key 16
  s.pokeNat key 16 (setBits (setBits (setBits h 112 16 gen) 96 16 arrived) 64 1 (bitOf broken))

/-- A round as its cell's header gives it, before its first contribution (R82). -/
def State.newRound (s : State) (m ld cell : Nat) : Round :=
  let h := s.peekNat (moduleKey m cell) 16
  { module := m, ld := ld, cell := cell, gen := bitsAt h 112 16, broken := h.testBit 64, op := bitsAt h 0 4, fmt := bitsAt h 6 2,
    nelem := bitsAt h 8 7, mask := bitsAt h 16 16, arrived := [] }

/-- The header's fields are in range (R82). -/
def Round.ok (x : Round) (q : Nat) : Bool :=
  x.op ≤ 3 && x.fmt ≤ 1 && (x.op ≠ 3 || x.fmt = 0) && 1 ≤ x.nelem && x.nelem ≤ 64 && x.mask ≠ 0
    && x.mask &&& leadHeadMask q x.module = x.mask

/-- The contributions by ascending lead head. -/
def insertArrival (x : Nat × List Byte) : List (Nat × List Byte) → List (Nat × List Byte)
  | [] => [x]
  | y :: ys => if x.1 < y.1 then x :: y :: ys else y :: insertArrival x ys

/-- ARRIVED. -/
def Round.arrivedMask (x : Round) : Nat := x.arrived.foldl (fun m a => m ||| 2 ^ a.1) 0

/-- A contribution to a round (R83): the round goes on, or closes with its result. -/
def State.contribute (s : State) (key : Nat) (x : Round) (r : KReq) : State :=
  let n := contributionLen x.op x.fmt x.nelem
  let y := { x with arrived := insertArrival (r.lead, (r.payload ++ List.replicate 320 0).take n) x.arrived }
  if y.arrivedMask = y.mask then
    let res := foldRound y.op y.fmt y.nelem (y.arrived.map Prod.snd)
    let s1 := (s.setRound r.module r.addr none).poke (key + 64) ((res ++ List.replicate 320 0).take 320)
    s1.mirrorCell key ((y.gen + 1) % 65536) 0 false
  else (s.setRound r.module r.addr (some y)).mirrorCell key y.gen y.arrivedMask y.broken

/-- RED (R82, R83). DESIGN CHOICE (log 19): where several statuses hold, BADOBJ comes before NORES, and NORES before NOTMEMBER; R83
gives no order. -/
def State.kweutRed (s : State) (r : KReq) : State × KAns :=
  match s.kweutObject r 128 384 with
  | some st => (s, .only st)
  | none =>
    let key := moduleKey r.module r.addr
    let s0 := s.recall key 384 true
    let x := (s0.roundAt r.module r.addr).getD (s0.newRound r.module r.ld r.addr)
    let ans (st : Nat) : KAns := { status := st, value := some x.gen, data := [] }
    if x.arrived = [] && !x.ok s0.pod.q then (s0, .only 8)
    else if x.arrived = [] && 4096 + Config.extraRounds ≤ (s0.rounds.filter fun y => y.module = r.module && y.ld = r.ld).length then
      (s0, ans 7)
    else if !x.mask.testBit r.lead then (s0, ans 5)
    else if x.arrived.any fun a => a.1 = r.lead then (s0, ans 4)
    else (s0.contribute key x r, ans 0)

/-- REDRD (R83). -/
def State.kweutRedrd (s : State) (r : KReq) : State × KAns :=
  match s.kweutObject r 128 384 with
  | some st => (s, .only st)
  | none =>
    let key := moduleKey r.module r.addr
    let s0 := s.recall key 384 false
    let x := (s0.roundAt r.module r.addr).getD (s0.newRound r.module r.ld r.addr)
    let ans (st : Nat) (d : List Byte) : KAns := { status := st, value := some x.gen, data := d }
    if r.a % 65536 = x.gen then (s0, ans 3 [])
    else if x.broken then (s0, ans 6 [])
    else (s0, ans 0 (s0.peek (key + 64) 320))

/-- The answer put on its way to this package (R76); a VALUE that no rule states is a free value (log 19). -/
def State.answer (s : State) (r : KReq) (a : KAns) : State :=
  if !s.ownRequest r then s
  else
    let (n, s1) := if a.value.isSome then (0, s) else s.fresh
    let v := (a.value.getD (Config.kweutValue n)) % 2 ^ 64
    let p : KRsp :=
      { att := (s1.pod.attOf r.module).getD 0, port := r.port, tag := r.tag, status := a.status, value := v, data := a.data }
    { s1 with agenda := s1.agenda ++ [Call.kweutResponse p] }

/-- The module drops a request that arrives on a head whose responses are off, or of a lost head group (R75, R77). -/
def State.kweutDropped (s : State) (r : KReq) : Bool :=
  (s.lostHeads.any fun x => x.1 = r.module && x.2 = r.lead)
    || (s.ownRequest r &&
        (match (s.pod.attOf r.module).bind fun a => s.pod.atts[a]? with
         | some t => !(t.krspBase.getD r.port 0).testBit 0
         | none => true))

/-- The entry line of a queue that a put or a get may touch: entries at HEAD and at TAIL. -/
def State.entryWaits (s : State) (r : KReq) : Bool :=
  let key := moduleKey r.module r.addr
  match s.queueDesc key with
  | none => false
  | some (base, n) => [16, 24].any fun o => s.recallWaits (moduleKey r.module (base + 64 * (s.peekNat (key + o) 8 % n))) 64

/-- A Ladle channel owns a line that a request must recall: the request waits (02 R59). -/
def State.kweutWaits (s : State) (r : KReq) (n : Nat) (queue : Bool) : Bool :=
  s.recallWaits (moduleKey r.module r.addr) n || (queue && s.entryWaits r)

/-- A request served; while a Ladle channel owns a line that must be recalled it waits at the head of what is under way, so that no
later request of its head passes it (02 R59, 03 R76). -/
def serveKweut (s : State) (r : KReq) (n : Nat) (queue : Bool) (f : State → KReq → State × KAns) : Out :=
  if s.kweutDropped r then .next s
  else if s.kweutWaits r n queue then .next { s with agenda := s.call :: s.agenda }
  else
    let x := f { s with snoopAnswers := [] } r
    .next (x.1.answer r x.2)

/-! ## The Runner's queues (R86) -/

/-- Entries that a Runner queue holds (R86). -/
def runnerQueueSize : Nat := 4096

/-- The incoming queue from a package. -/
def Runner.queueOf (r : Runner) (peer : Nat) : RQueue :=
  (r.queues.find? fun x => x.peer = peer).getD { peer := peer, entries := [], tailShared := true, bell := false, taken := [] }

/-- The Runner with an incoming queue replaced. -/
def Runner.setQueue (r : Runner) (x : RQueue) : Runner :=
  { r with queues := (r.queues.filter fun y => y.peer ≠ x.peer) ++ [x] }

/-- The Runner has read a queue's tail line again, in shared permission; entries behind it ring its bell (R86). -/
def State.tailRead (s : State) (q : RQueue) : State :=
  ((s.modRunner fun r => r.setQueue { q with tailShared := true, bell := q.bell || decide (q.entries ≠ []) }).chargeFlits
    true 0).chargeFlits false 128

/-- A BISnpInv of the module for a tail line that the Runner holds is answered, and is its doorbell (R86). -/
def State.tailSnoop (s : State) (q : RQueue) (m addr : Nat) : State :=
  if q.tailShared then
    ((s.modRunner fun x => x.setQueue { q with tailShared := false, bell := true }).chargeFlits false 0).answerSnoop
      { module := m, line := addr / 128, block := false, inv := true }
  else s.modRunner fun x => x.setQueue q

/-- The Runner takes the next entry of a queue whose doorbell has rung, one at a time (R86). -/
def State.pull (s : State) (peer : Nat) : State :=
  if (s.runner.queueOf peer).bell && !s.runner.asking peer true then s.runnerAsk peer true [] else s

/-- The package that a request comes from, by its head group (R72). -/
def State.requestSource (s : State) (r : KReq) : Option Nat :=
  if s.pod.order.isSome then (packagesOf s.pod.q r.module)[r.lead / portsPerAttachment s.pod.q]? else none

/-- A put of a Runner (R86, log 21): another package's, into its queue to this one while there is room, whose tail line the module
takes from this Runner; this package's, into a queue that another takes from, is answered. -/
def State.runnerPut (s : State) (r : KReq) : State :=
  if s.ownRequest r then s.answer r (.only 0)
  else if r.a ≠ s.pod.self then s
  else
    match s.requestSource r with
    | none => s
    | some g =>
      let q := s.runner.queueOf g
      if runnerQueueSize ≤ q.entries.length then s
      else (s.tailSnoop { q with entries := q.entries ++ [padTo 64 r.payload] } r.module r.addr).pull g

/-- A get of this package's Runner. -/
def State.runnerGet (s : State) (r : KReq) : State :=
  let q := s.runner.queueOf r.a
  match q.entries with
  | [] => s.answer r (.only 2)
  | e :: es =>
    (s.modRunner fun x => x.setQueue { q with entries := es }).answer r { status := 0, value := none, data := e }

/-- A request with one of the Runner's tags (R76). -/
def runnerTagged (r : KReq) : Bool := decide (96 ≤ r.tag)

/-- QPUT (R81): a wave's, or a Runner's. -/
def execQput (s : State) : Out :=
  match s.call with
  | .qput r =>
    if runnerTagged r then .next (if s.kweutDropped r then s else State.runnerPut { s with snoopAnswers := [] } r) else serveKweut s r 64 true State.kweutPut
  | _ => .next s

/-- QGET (R81): a wave's, or a Runner's. -/
def execQget (s : State) : Out :=
  match s.call with
  | .qget r =>
    if runnerTagged r then .next (if s.kweutDropped r || !s.ownRequest r then s else s.runnerGet r)
    else serveKweut s r 64 true State.kweutGet
  | _ => .next s

/-- ATOM (R79). -/
def execAtom (s : State) : Out :=
  match s.call with
  | .atom r => serveKweut s r 8 false State.kweutAtom
  | _ => .next s

/-- RED (R82 to R84). -/
def execRed (s : State) : Out :=
  match s.call with
  | .red r => serveKweut s r 384 false State.kweutRed
  | _ => .next s

/-- REDRD (R83). -/
def execRedrd (s : State) : Out :=
  match s.call with
  | .redrd r => serveKweut s r 384 false State.kweutRedrd
  | _ => .next s

/-! ## The words of MODSVC (12 R289, R290) -/

/-- A wave tag (0 to 95) that is free on a port (R76). -/
def State.freeKtag (s : State) (att port : Nat) : Option Nat :=
  let used := s.waves.flatMap fun w =>
    (w.pend.filter fun o => o.kind = .service && !o.answered && o.att = att && o.port = port).map PendOp.ktag
  (List.range 96).find? fun t => !used.contains t

/-- What a service word asks for. -/
structure Service where
  acc : AccKind
  poison : Bool
  subop : Nat
  a : Nat
  b : Nat
  payload : List Byte
  dest : Dest
  call : KReq → Call
  span : Nat

/-- A service instruction (12 R290): translation, the tier, a tag, then the request goes on its way. -/
def serviceWord (s : State) (i : Instr) (k : BitVec 5) (f : Wave → Service) : Out :=
  baseAccess s i k.toNat fun w is u va =>
    let x := f w
    if x.poison then poisonTrap s w is
    else
      match s.waveXlate w u va 1 x.acc with
      | .miss pg => .next (s.waitForWalks w is [pg])
      | .deny sub level => .next (s.refuseWord w is is.trapPc va sub level x.acc false)
      | .ok pa e =>
        match physPlace pa, e.tier with
        | .attach att off, .module =>
          let port := s.pod.portFor att off
          let m := (s.pod.moduleOf att).getD 0
          match s.freeKtag att port with
          | none => stallWord s
          | some tag =>
            if Config.outstMax ≤ w.outst || w.overlaps (moduleKey m off) x.span true then stallWord s
            else
              let r : KReq :=
                { module := m, ld := w.part, lead := s.pod.leadOn m, port := port, subop := x.subop, tag := tag, addr := off, a := x.a,
                  b := x.b, payload := x.payload }
              let whole : OpPart :=
                { lane := 0, key := moduleKey m off, va := va, size := x.span, act := .write 0, route := .runner, age := s.now,
                  noAlloc := false, na := false, nt := false, col := false, done := false, val := 0, poison := false }
              let o := { newOp w is .service (s.clampScope w.part .pod).2 false [whole] x.dest with
                att := att, port := port, ktag := tag, sent := s.now }
              let s1 : State := { s with agenda := s.agenda ++ [x.call r] }
              finish (((s1.clampScope w.part .pod).1.chargePod 0x052 1).chargeFlits true (64 + x.payload.length)) (w.addOp o) is
        | _, _ => .next (s.refuseWord w is is.trapPc va 0x11 15 x.acc false)

/-- Bytes of `n` lanes of v(r), from lane 0. -/
def Wave.laneBytes (w : Wave) (r n : Nat) : List Byte := ((w.v r).lanes.take n).flatMap fun x => natToBytes 4 x.toNat

/-- One of the first `n` lanes of v(r) is poisoned. -/
def Wave.lanesPoison (w : Wave) (r n : Nat) : Bool := (List.range n).any fun l => (w.v r).poison.getLsbD l

/-- MQPUT (12 R289). -/
def execMqput (k : BitVec 5) (d r : BitVec 6) (s : State) : Out :=
  serviceWord s (.mqput k d r) k fun w =>
    { acc := .write, poison := w.lanesPoison r.toNat 16, subop := 0, a := 0, b := 0, payload := w.laneBytes r.toNat 16,
      dest := .kweut 2 d.toNat (w.winBase + r.toNat) false, call := Call.qput, span := 64 }

/-- MQGET (12 R289). -/
def execMqget (k : BitVec 5) (d r : BitVec 6) (s : State) : Out :=
  serviceWord s (.mqget k d r) k fun w =>
    { acc := .read, poison := false, subop := 0, a := 0, b := 0, payload := [],
      dest := .kweut 3 d.toNat (w.winBase + r.toNat) false, call := Call.qget, span := 64 }

/-- MRED (12 R289). -/
def execMred (k : BitVec 5) (d r : BitVec 6) (s : State) : Out :=
  serviceWord s (.mred k d r) k fun w =>
    { acc := .write, poison := w.lanesPoison r.toNat 64 || w.lanesPoison (r.toNat + 1) 16, subop := 0, a := 0, b := 0,
      payload := w.laneBytes r.toNat 64 ++ w.laneBytes (r.toNat + 1) 16,
      dest := .kweut 4 d.toNat (w.winBase + r.toNat) false, call := Call.red, span := 384 }

/-- MREDRD (12 R289). -/
def execMredrd (k : BitVec 5) (d r : BitVec 6) (s : State) : Out :=
  serviceWord s (.mredrd k d r) k fun w =>
    { acc := .read, poison := w.sPoison (d.toNat + 1), subop := 0, a := (w.s (d.toNat + 1)).toNat % 65536, b := 0,
      payload := [], dest := .kweut 5 d.toNat (w.winBase + r.toNat) false, call := Call.redrd, span := 384 }

/-- MATOM (12 R289). -/
def execMatom (k : BitVec 5) (d r : BitVec 6) (w64 : BitVec 1) (p : BitVec 3) (s : State) : Out :=
  serviceWord s (.matom k d r w64 p) k fun w =>
    let wide := decide (w64 = 1)
    { acc := .write,
      poison := w.sPairPoison r.toNat || (wide && w.sPairPoison (r.toNat + 2)),
      subop := p.toNat + 128 * bitOf wide,
      a := if wide then w.sPair r.toNat else (w.s r.toNat).toNat,
      b := if wide then w.sPair (r.toNat + 2) else (w.s (r.toNat + 1)).toNat,
      payload := [], dest := .kweut 1 d.toNat 0 wide, call := Call.atom, span := if wide then 8 else 4 }

/-! ## The response (12 R290, 03 R78) -/

/-- The error-log record of a status that is no refusal (R78). -/
def kweutRec (asid addr status reqType reqId : Nat) : LogRec :=
  { addr := addr, asid := asid, sub := 0x20 + status, cls := 0x11, level := 15, kind := 2, reqType := reqType,
    reqId := reqId, phys := true }

/-- Statuses that the package logs. -/
def loggedStatus (st : Nat) : Bool := st = 10 || st = 11 || st = 12

/-- The end of a wave's service request: its results are written and it leaves OUTST. -/
def State.endService (s : State) (w : Wave) (o : PendOp) (status value : Nat) (data : List Byte) : State :=
  let addr := (o.parts.head?.map fun p => keyOffset p.key).getD 0
  let s1 := if loggedStatus status then
      s.logError w.part (kweutRec (s.waveAsid w) addr status 0 (s.waveReqId w))
    else s
  s1.completeOp w.seq w.wid
    { o with answered := true, status := status, value := value, data := data, dataPoison := 0,
             parts := o.parts.map fun p => { p with done := true } }

/-- A Runner request's status logged to the partition with the pod privilege, if there is one (R78). -/
def State.logRunner (s : State) (x : RTag) (status : Nat) : State :=
  match s.pod.privilege with
  | none => s
  | some p =>
    let addr := if x.get then Config.runnerQueueAddr x.peer s.pod.self else Config.runnerQueueAddr s.pod.self x.peer
    if loggedStatus status then s.logError p (kweutRec 0 addr status 3 x.peer) else s

/-- The first packet of the send buffer for a package changed, or removed when `f` gives none. -/
def headSending (via : Nat) (f : Sending → Option Sending) : List Sending → List Sending
  | [] => []
  | x :: xs => if x.via = via then (f x).toList ++ xs else x :: headSending via f xs

/-- A packet of the send buffer after the answer to the put of an entry: the next entry, or the same after 256 cycles at a full
queue; a packet whose last entry is put, or whose put fails, has left. -/
def Sending.answered (x : Sending) (now status : Nat) : Option Sending :=
  if status = 1 then some { x with notBefore := now + 256 }
  else if status = 0 && 1 < x.left then some { x with left := x.left - 1 } else none

/-- The answer to a put of the Runner (R86). -/
def State.endPut (s : State) (x : RTag) (status : Nat) : State :=
  let s1 := s.modRunner fun r =>
    { r with sending := headSending x.peer (fun y => y.answered s.now status) r.sending }
  (s1.logRunner x status).pump x.peer

/-- Entries taken from a queue make a packet when its header's NCONT entries have followed it (R87). -/
def packetTaken (l : List (List Byte)) : Option (Option Packet) :=
  match l with
  | [] => none
  | h :: rest => if field h 6 1 ≤ rest.length then some (packetOf h rest) else none

/-- The answer to a get of the Runner (R86): an entry joins those taken, a whole packet goes on, and the next entry is asked for;
at EMPTY the Runner reads the tail line again, and the next doorbell makes it go on. -/
def State.endGet (s : State) (x : RTag) (status : Nat) (data : List Byte) : State :=
  let q := s.runner.queueOf x.peer
  if status = 2 then (s.tailRead { q with bell := false }).pull x.peer
  else if status ≠ 0 then ((s.modRunner fun r => r.setQueue { q with taken := [] }).logRunner x status).pull x.peer
  else
    let taken := q.taken ++ [padTo 64 data]
    match packetTaken taken with
    | none => (s.modRunner fun r => r.setQueue { q with taken := taken }).pull x.peer
    | some p =>
      let s1 := s.modRunner fun r => r.setQueue { q with taken := [] }
      ({ s1 with agenda := s1.agenda ++ (p.map (packetCall s1.pod.self)).toList }).pull x.peer

/-- A request of the Runner is answered. -/
def State.endRunner (s : State) (x : RTag) (status : Nat) (data : List Byte) : State :=
  let s1 := s.modRunner fun r => { r with tags := r.tags.filter fun y => y ≠ x }
  if x.get then s1.endGet x status data else s1.endPut x status

/-- The response is to the same request. -/
def sameResponse (r : KRsp) : Call → Bool
  | .kweutResponse x => x.att = r.att && x.port = r.port && x.tag = r.tag
  | _ => false

/-- KWEUT_RESPONSE (R76): the request of its tag ends; a response whose tag is not outstanding is discarded (R77). -/
def execKweutResponse (s : State) : Out :=
  match s.call with
  | .kweutResponse r =>
    let s0 := ({ s with agenda := s.agenda.filter fun c => !sameResponse r c } : State).chargeFlits false (32 + r.data.length)
    if r.tag < 96 then
      match s0.kweutOp r.att r.port r.tag with
      | some (w, o) => .next (s0.endService w o r.status r.value r.data)
      | none => .next s0
    else
      match s0.runner.tags.find? fun x => x.tag = r.tag && x.att = r.att && x.port = r.port with
      | some x => .next (s0.endRunner x r.status r.data)
      | none => .next s0
  | _ => .next s

end Sys2Proof.Machine
end

