-- ==== Sys2Proof/Machine/Relay.lean ====
section
/-!
DEFINITION. Remote operations at their source: the words RWRI, RRD and RATOM (12_isa_memory_sync R291 to R295), and what the
sending Runner does with acknowledgements, faults, responses, retries and timeouts (03_pod_memory R86 to R92, R95).
-/
namespace Sys2Proof.Machine

/-! ## The words (12 R291 to R295) -/

/-- PEER of a control word. -/
def ctlPeer (c : Nat) : Nat := bitsAt c 0 6
/-- STREAM. -/
def ctlStream (c : Nat) : Nat := bitsAt c 6 2
/-- The length: LENM1 + 1; lengths are 1 to 256, and what a LENM1 above 255 gives is a free value (log 22). -/
def ctlLen (c : Nat) : Nat := (if bitsAt c 8 9 < 256 then bitsAt c 8 9 else Config.longLength (bitsAt c 8 9) % 256) + 1
/-- W64. -/
def ctlWide (c : Nat) : Bool := c.testBit 27
/-- ATOP, as the operation of R281. -/
def ctlOp (c : Nat) : Nat := bitsAt c 28 4

/-- What a remote word asks for. -/
structure Remote where
  kind : OpKind
  type : PacketType
  poison : Bool
  misaligned : Bool
  len : Nat
  opsize : Nat
  imm : Nat
  data : List Byte
  dest : Dest

/-- The state once a request of a wave has been made an operation and a packet: it has joined its stream, and its unit stalls
until it is sent (03 R89). -/
def State.remoteSent (s : State) (w : Wave) (i : Issue) (id : CtxId) (stream va : Nat) (x : Remote) : State :=
  let o := newOp w i x.kind .pod false [] x.dest
  let p : Packet :=
    { s.packetTo id.peer x.type with
      stream := stream, opsize := x.opsize, keyPart := id.keyPart, keyAsid := id.keyAsid, sndAsid := id.asid, imm := x.imm,
      addr := va, len := x.len, tag := s.nextTag % 2 ^ 16, data := x.data }
  let w1 := (w.addOp o).goto i.arm (nextWord i.pc)
  let s1 := ({ s with nextTag := s.nextTag + 1 }.setWave w1).sendRequest id stream
    { packet := p, seq := w.seq, wid := w.wid, op := o.id, lane := 0 }
  let held := ((s1.ctx? id).map fun c => (c.stream stream).held).getD false
  if s1.requestWaits id stream w.seq w.wid o.id && !held then
    s1.modWave w.seq w.wid fun y => y.setUnit i.arm { y.unit i.arm with wait := .op o.id }
  else s1

/-- A request of a wave is sent. -/
def sendRemote (s : State) (w : Wave) (i : Issue) (id : CtxId) (stream va : Nat) (x : Remote) : Out :=
  .next (s.remoteSent w i id stream va x)

/-- A remote word (12 R292): the checks in their order, the context (03 R88), the request. The address of Peer Absent and
Dead Peer is the target's (14 R335). -/
def remoteWord (s : State) (i : Instr) (k ctl : BitVec 5) (f : Wave → Nat → Nat → Remote) : Out :=
  whenLegal s i fun w is _ =>
    let va := w.sPair (2 * k.toNat)
    let c := (w.s (2 * ctl.toNat)).toNat
    let key := (w.s (2 * ctl.toNat + 1)).toNat
    let x := f w c va
    let peer := ctlPeer c
    let state := ((s.part? w.part).map fun p => s.peerState p peer).getD 1
    if w.sPairPoison (2 * k.toNat) || w.sPairPoison (2 * ctl.toNat) || x.poison then poisonTrap s w is
    else if state ≠ 0 then takeTrap s w is 10 state va
    else if peer = s.pod.self then takeTrap s w is 10 4 va
    else if ((s.part? w.part).map fun p => p.isDead peer).getD false then takeTrap s w is 11 0 va
    else if x.misaligned then takeTrap s w is 3 0 va
    else if Config.outstMax ≤ w.outst then stallWord s
    else
      let id : CtxId :=
        { part := w.part, asid := s.waveAsid w, peer := peer, keyPart := key % 16, keyAsid := bitsAt key 4 14,
          system := false, module := 0 }
      match s.openCtx id with
      | .stall => stallWord s
      | .refused =>
        let s1 := s.logWave w va 0x0E 15 (if x.kind = .rrd then .read else if x.kind = .ratom then .atomic else .write) false
        .next ((s1.setWave (w.goto is.arm (nextWord is.pc))).lateError w.seq w.wid 17 0x0E va)
      | .ready s1 => sendRemote s1 w is id (ctlStream c) va x

/-- An access of a page-bounded length leaves its 4 KiB page. -/
def crossesPage (va len : Nat) : Bool := 4096 < va % 4096 + len

/-- RWRI (12 R293). -/
def execRwri (k ctl : BitVec 5) (r : BitVec 6) (s : State) : Out :=
  remoteWord s (.rwri k ctl r) k ctl fun w c va =>
    { kind := .rwri, type := .rwri, poison := w.lanesPoison r.toNat ((ctlLen c + 3) / 4), misaligned := crossesPage va (ctlLen c),
      len := ctlLen c, opsize := 0, imm := ((s.issue.map Issue.lit).getD 0).toNat,
      data := (w.laneBytes r.toNat 64).take (ctlLen c), dest := .none }

/-- RRD (12 R294). -/
def execRrd (k ctl : BitVec 5) (r : BitVec 6) (s : State) : Out :=
  remoteWord s (.rrd k ctl r) k ctl fun w c va =>
    { kind := .rrd, type := .rrd, poison := false, misaligned := crossesPage va (ctlLen c), len := ctlLen c, opsize := 0,
      imm := 0, data := [], dest := .bytes (w.winBase + r.toNat) (ctlLen c) }

/-- RATOM (12 R295). -/
def execRatom (k ctl : BitVec 5) (r : BitVec 6) (s : State) : Out :=
  remoteWord s (.ratom k ctl r) k ctl fun w c va =>
    let n := if ctlWide c then 8 else 4
    { kind := .ratom, type := .ratom, poison := w.lanesPoison r.toNat ((if ctlOp c = 7 then 2 else 1) * (n / 4)),
      misaligned := va % n ≠ 0, len := n, opsize := ctlOp c + 16 * bitOf (ctlWide c), imm := 0,
      data := w.laneBytes r.toNat (2 * (n / 4)), dest := .ratom (w.winBase + r.toNat) (ctlWide c) }

/-! ## Answers at the source (03 R89, R90) -/

/-- The sender's context of an answer: its peer, its key, and the sender ASID (03 R87, R88); of several, the one that has
the request. -/
def State.senderCtx (s : State) (p : Packet) : Option Rctx :=
  let mine := s.runner.ctxs.filter fun c =>
    c.id.peer = p.src && c.id.system = p.system
      && (if p.system then c.id.module = p.module
          else c.id.asid = p.sndAsid && c.id.keyPart = p.keyPart && c.id.keyAsid = p.keyAsid)
  match mine.find? fun c => (c.stream p.stream).unacked.any fun u => u.packet.seq = p.seq with
  | some c => some c
  | none => mine.head?

/-- A request is completed by an acknowledgement: one that returns nothing (12 R292). -/
def ackCompletes : PacketType → Bool
  | .rwri => true
  | .relayedWrite => true
  | _ => false

/-- A piece of a table has come, to the unit that reads it (01 R21). -/
def State.tableRead (s : State) (u : Unacked) (a : Arm) (p : OpPart) (data : List Byte) (poison : Nat) : State :=
  s.modWave u.seq u.wid fun w =>
    let x := w.unit a
    w.setUnit a { x with
      table := x.table ++ [{ key := p.key, size := p.size, val := bytesToNat (data.take p.size), bad := poison % 2 ^ p.size }] }

/-- A request ends in order: its results reach its operation. -/
def State.endRequest (s : State) (u : Unacked) (data : List Byte) (poison : Nat) : State :=
  match (s.wave? u.seq u.wid).bind fun w => w.pend.find? fun o => o.id = u.op with
  | none => s
  | some o =>
    if o.kind.remote then
      s.completeOp u.seq u.wid { o with answered := true, data := data, dataPoison := poison }
    else
      let mine := o.parts.filter fun p => o.dest = .table && p.lane = u.lane && p.route = .runner
      (mine.foldl (fun (t : State) p => t.tableRead u o.arm p data poison) s).completeOp u.seq u.wid
        { o with parts := o.parts.map fun p =>
            if p.lane = u.lane && p.route = .runner then
              { p with done := true, val := bytesToNat (data.take p.size), poison := decide (poison ≠ 0) }
            else p }

/-- Every request up to a sequence number that an acknowledgement completes ends, and leaves the window. -/
def State.ackUpTo (s : State) (id : CtxId) (k n : Nat) : State :=
  match s.ctx? id with
  | none => s
  | some c =>
    let t := c.stream k
    let covered (u : Unacked) : Bool := !seqBefore n u.packet.seq && ackCompletes u.packet.type
    let s1 := s.setCtx (c.setStream k
      { t with acked := if seqBefore t.acked n then n else t.acked, unacked := t.unacked.filter fun u => !covered u })
    (t.unacked.filter covered).foldl (fun (x : State) u => x.endRequest u [] 0) s1

/-- What waits on a stream is sent as far as it may be. -/
def State.pumpAll (s : State) (id : CtxId) (k : Nat) : State :=
  s.pumpStream id k (((s.ctx? id).map fun c => (c.stream k).waiting.length).getD 0)

/-- The unacknowledged packets from a sequence number on are put again, in order (03 R89). -/
def State.resendFrom (s : State) (id : CtxId) (k n : Nat) : State :=
  match s.ctx? id with
  | none => s
  | some c => ((c.stream k).unacked.filter fun u => !seqBefore u.packet.seq n).foldl
      (fun (t : State) u => t.putPacket id.peer u.packet) s

/-- An answer for a stream of this package: what it does, once its peer has been heard (03 R92). -/
def onAnswer (s : State) (p : Packet) (f : State → Rctx → State) : Out :=
  if p.dst ≠ s.pod.self then .next s
  else
    let s1 := s.heard p.src
    match s1.senderCtx p with
    | none => .next s1
    | some c => .next (f s1 c)

/-- ACK (03 R89). -/
def execAck (s : State) : Out :=
  match s.call with
  | .ack p => onAnswer s p fun t c => (t.ackUpTo c.id p.stream p.seq).pumpAll c.id p.stream
  | _ => .next s

/-- NAK (03 R89): a gap is mended at once, a busy receiver after 512 cycles. -/
def execNak (s : State) : Out :=
  match s.call with
  | .nak p => onAnswer s p fun t c =>
      let t1 := t.chargePod 0x053 1
      if p.reason = 0 then t1.resendFrom c.id p.stream p.seq
      else t1.modStream c.id p.stream fun x => { x with busyAt := some t1.now, busySeq := p.seq }
  | _ => .next s

/-- FAULT (03 R90): the stream is held; a final one completes its request with cause 0x11. -/
def execFault (s : State) : Out :=
  match s.call with
  | .fault p => onAnswer s p fun t c =>
      let t1 := t.modStream c.id p.stream fun x => { x with held := true }
      if p.reason = 0 then t1
      else
        match (c.stream p.stream).unacked.find? fun u => u.packet.seq = p.seq with
        | none => t1
        | some u =>
          (t1.modStream c.id p.stream fun x =>
            { x with unacked := x.unacked.filter fun y => y.packet.seq ≠ p.seq }).failRequest u 17 (p.imm % 256)
  | _ => .next s

/-- RESUME (03 R90): the stream goes on from s + 1. -/
def execResume (s : State) : Out :=
  match s.call with
  | .resume p => onAnswer s p fun t c =>
      let t1 := t.modStream c.id p.stream fun x => { x with held := false }
      (t1.resendFrom c.id p.stream (nextSeqNo p.seq)).pumpAll c.id p.stream
  | _ => .next s

/-- RESP (03 R87): the request has its data, and those before it are performed. -/
def execResp (s : State) : Out :=
  match s.call with
  | .resp p => onAnswer s p fun t c =>
      let t1 := t.ackUpTo c.id p.stream p.seq
      match (c.stream p.stream).unacked.find? fun u => u.packet.seq = p.seq && !ackCompletes u.packet.type with
      | none => t1.pumpAll c.id p.stream
      | some u =>
        let t2 := t1.modStream c.id p.stream fun x =>
          { x with unacked := x.unacked.filter fun y => y.packet.seq ≠ p.seq }
        (t2.endRequest u p.data p.poison).pumpAll c.id p.stream
  | _ => .next s

/-! ## Retries, contexts, timeouts -/

/-- 512 cycles have passed since a busy NAK (03 R89). -/
def State.busyDue (s : State) (t : Stream) : Bool :=
  match t.busyAt with
  | some n => n + 512 ≤ s.now
  | none => false

/-- BUSY_NAK_RESEND (03 R89). -/
def execBusyNakResend (s : State) : Out :=
  match s.call with
  | .busyNakResend id k =>
    match s.ctx? id with
    | none => .next s
    | some c =>
      if s.busyDue (c.stream k) then
        .next ((s.modStream id k fun t => { t with busyAt := none }).resendFrom id k (c.stream k).busySeq)
      else .next s
  | _ => .next s

/-- QPUT_RETRY (03 R86): the Runner tries its put again, and a get that found no tag. -/
def execQputRetry (s : State) : Out :=
  match s.call with
  | .qputRetry peer => .next ((s.pump peer).pull peer)
  | _ => .next s

/-- RELAY_CONTEXT_FETCH (03 R88): a spilled context that is wanted comes back; when the cache is full the least recently used idle
one makes room. -/
def execRelayContextFetch (s : State) : Out :=
  match s.call with
  | .relayContextFetch id =>
    match s.ctx? id with
    | none => .next s
    | some c =>
      if !c.spilled then .next s
      else
        let back (t : State) : State :=
          let t1 := t.setCtx { c with spilled := false, wanted := false, slot := none, lastUse := s.now }
          (List.range 4).foldl (fun (x : State) k => x.pumpAll id k) t1
        if !s.runner.full then .next (back s)
        else
          match s.runner.spillVictim with
          | none => .next s
          | some v =>
            match (s.part? (s.ctxOwner v.id)).bind s.freeSlot with
            | some j => .next (back (s.setCtx { v with spilled := true, slot := some j, wanted := false }))
            | none =>
              if s.ctxOwner v.id = s.ctxOwner id then .next (back (s.setCtx { v with spilled := true, slot := c.slot, wanted := false }))
              else .next s
  | _ => .next s

/-- A peer has been silent for RLYTIMEOUT cycles while a request to it is outstanding (03 R92). -/
def State.relayTimedOut (s : State) (peer : Nat) : Bool :=
  s.outstandingTo peer &&
    (match s.pod.lastPacket.find? fun x => x.1 = peer with
     | some x => x.2 + s.pod.rlyTimeout ≤ s.now
     | none => s.pod.rlyTimeout ≤ s.now)

/-- RELAY_TIMEOUT (03 R92). -/
def execRelayTimeout (s : State) : Out :=
  match s.call with
  | .relayTimeout peer => .next (if s.relayTimedOut peer then s.peerDead peer 0 else s)
  | _ => .next s

/-- PACKET_FORWARD (03 R95): a packet marked forwarded for another package is passed on unchanged. -/
def execPacketForward (s : State) : Out :=
  match s.call with
  | .packetForward p => .next (if p.forwarded && p.dst ≠ s.pod.self then s.forwardPacket p else s)
  | _ => .next s

end Sys2Proof.Machine
end

