-- ==== Sys2Proof/Machine/Receive.lean ====
section
/-!
DEFINITION. The receiving Runner (03_pod_memory R85, R87 to R90, R93; 01_address_spaces R31 to R33): request packets by
sequence number, their grants and translation, what they perform, refusals, notifications; and NQWAIT (12 R296, R297).
-/
namespace Sys2Proof.Machine

/-! ## Contexts and answers -/

/-- The context of a request, which carries both directions of a pair's traffic (03 R88): the key's ASID, the peer and the
sender's ASID; of a relayed access, the peer and the module. The header does not tell the partition of the remote key, so that
any context with the rest is it; 16 stands for the partition until this package's own requests name it (log 50). -/
def State.rxCtx (s : State) (p : Packet) : CtxId :=
  if p.system then relayCtx p.src p.module
  else
    match s.runner.ctxs.find? fun c =>
      !c.id.system && c.id.part = p.keyPart && c.id.asid = p.keyAsid && c.id.peer = p.src && c.id.keyAsid = p.sndAsid with
    | some c => c.id
    | none =>
      { part := p.keyPart, asid := p.keyAsid, peer := p.src, keyPart := 16, keyAsid := p.sndAsid, system := false, module := 0 }

/-- The stream of a request at its receiver. -/
def State.rxStream (s : State) (p : Packet) : Stream :=
  ((s.ctx? (s.rxCtx p)).map fun c => c.stream p.stream).getD Stream.zero

/-- It changed. -/
def State.modRx (s : State) (p : Packet) (f : Stream → Stream) : State := s.modStream (s.rxCtx p) p.stream f

/-- An answer to a request, on its way back. -/
def State.reply (s : State) (p : Packet) (type : PacketType) (seq reason imm : Nat) (data : List Byte) (poison : Nat) : State :=
  s.putPacket p.src
    { p with type := type, forwarded := false, seq := seq, reason := reason, src := s.pod.self, dst := p.src, imm := imm,
             data := data, len := data.length, poison := poison }

/-- The sequence number before another. -/
def prevSeqNo (n : Nat) : Nat := (n + 2 ^ 16 - 1) % 2 ^ 16

/-- An atomic of the stream waits at its L2 atomic unit. -/
def State.atomPending (s : State) (p : Packet) : Bool :=
  s.atomQ.any fun r => s.rxCtx r.packet = s.rxCtx p && r.packet.stream = p.stream

/-- An accepted request of the stream has not been performed: the next waits for it (03 R89). -/
def State.unperformed (s : State) (p : Packet) : Bool := s.atomPending p || (s.rxStream p).inHand.isSome

/-- A NAK of the next sequence expected (03 R89): 0 gap, 1 busy. -/
def State.sendNak (s : State) (p : Packet) (expected reason : Nat) : State :=
  (s.modRx p fun t => { t with lastNak := some expected, nakAt := s.now }).reply p .nak expected reason 0
    [] 0

/-- What performing a request gives. -/
inductive Served where
  /-- Performed; an RWRI or a relayed write is acknowledged later. -/
  | done (s : State)
  /-- Performed, with the response's data and poison. -/
  | resp (s : State) (data : List Byte) (poison : Nat)
  /-- Accepted; the L2 atomic unit performs it. -/
  | queued (s : State)
  /-- Accepted; it waits for a walk of the Runner (01 R30). -/
  | walk (s : State)
  /-- No buffer, record, miss entry or permission yet. -/
  | busy (s : State)
  /-- Refused, with the subcode and level at the target, and the kind. -/
  | refused (sub level : Nat)

/-! ## Refusals (03 R90) -/

/-- The number of an access kind that a request makes. -/
def packetKind (p : Packet) : AccKind :=
  match p.type with
  | .rwri => .write
  | .relayedWrite => .write
  | .ratom => .atomic
  | .relayedAtomic => .atomic
  | _ => .read

/-- The record of a refused request (01 R35, R38), in the log of the key's partition, or of the one with the pod privilege for
a relayed access. -/
def State.logRemote (s : State) (p : Packet) (sub level : Nat) : State :=
  let r : LogRec :=
    { addr := p.addr, asid := if p.system then 0 else p.keyAsid, sub := sub, cls := 0x11, level := level,
      kind := (packetKind p).code, reqType := 3, reqId := p.src, phys := p.system }
  if p.system then
    match s.pod.privilege with
    | some q => s.logError q r
    | none => s
  else s.logError p.keyPart r

/-- The subcode that a source sees: a relayed access refused at the serving peer is 0x0F (03 R91). -/
def sourceSub (p : Packet) (sub : Nat) : Nat := if p.system then 0x0F else sub

/-- A request ends in its stream: the next is expected, and with a fault behind it the source is told to go on (R90). -/
def State.passSeq (s : State) (p : Packet) : State :=
  let was := (s.rxStream p).faultPacket.map Packet.seq == some p.seq
  let s1 := s.modRx p fun t =>
    { t with expected := nextSeqNo p.seq, frozen := false, faultPacket := none, faultTag := 0, faultSub := 0, inHand := none,
             refusals := [] }
  if was then s1.reply p .resume p.seq 0 0 [] 0 else s1

/-- A fault that is final (R90): FAULT, then RESUME with E = s + 1. DESIGN CHOICE (log 50): the subcode travels in IMM; the table
of R87 names no field for it. -/
def State.finalFault (s : State) (p : Packet) (sub : Nat) : State :=
  let s1 := s.reply p .fault p.seq 1 (sourceSub p sub) [] 0
  let s2 := s1.modRx p fun t => { t with faultPacket := some p }
  s2.passSeq p

/-- A refused request (R90): the record, and the fault, restartable or final. -/
def State.refuseRemote (s : State) (p : Packet) (sub level : Nat) : State :=
  let s1 := s.logRemote p sub level
  if restartable sub && !p.system then
    let tag := s1.nextTag
    let s2 := ({ s1 with nextTag := tag + 1 }.modRx p fun t =>
      { t with frozen := true, faultPacket := some p, faultTag := tag, faultSub := sub, expected := p.seq, inHand := none,
               refusals := [] })
    (s2.postEvent p.keyPart 1 0 (translationBody p.addr tag p.keyAsid sub (packetKind p) 0xFFFFFFFF)).reply p .fault p.seq 0 sub
      [] 0
  else s1.finalFault p sub

/-! ## Accepting (03 R89) -/

/-- The response is kept with the last 256. -/
def State.keepResponse (s : State) (p : Packet) (data : List Byte) (poison : Nat) : State :=
  let r : Packet := { p with type := .resp, src := s.pod.self, dst := p.src, data := data, len := data.length, poison := poison }
  s.modRx p fun t =>
    let rs := t.responses ++ [r]
    { t with responses := rs.drop (rs.length - 256) }

/-- A request has been performed with data: the response goes back and is kept. -/
def State.respond (s : State) (p : Packet) (data : List Byte) (poison : Nat) : State :=
  (s.keepResponse p data poison).reply p .resp p.seq 0 0 data poison

/-- An accepted request that is to be acknowledged within 512 cycles. -/
def State.oweAck (s : State) (p : Packet) : State :=
  s.modRx p fun t => { t with ackDue := if t.ackDue = 0 then s.now + 1 else t.ackDue }

/-- What performing an expected request, or the one in the stream's hand, leads to. -/
def State.afterServing (s : State) (p : Packet) (held : Bool) : Served → State
  | .done s2 => (s2.passSeq p).oweAck p
  | .resp s2 d q => (s2.passSeq p).respond p d q
  | .queued s2 => s2.passSeq p
  | .walk s2 => s2.modRx p fun t => { t with inHand := some p, expected := nextSeqNo p.seq }
  | .busy s2 =>
    if held then { s2 with agenda := s2.agenda ++ [packetCall s2.pod.self p] } else s2.sendNak p (s.rxStream p).expected 1
  | .refused sub level => s.refuseRemote p sub level

/-- A request before E: the stored response again, or an acknowledgement of what has been performed (R89). -/
def State.answerOld (s : State) (p : Packet) : State :=
  let t := s.rxStream p
  match t.responses.find? fun r => r.seq = p.seq with
  | some r => s.putPacket p.src r
  | none =>
    let last := prevSeqNo t.expected
    s.reply p .ack (if s.unperformed p then prevSeqNo last else last) 0 0 [] 0

/-- A request packet handled by its sequence number (R89); the request in the stream's hand has been accepted and goes on. -/
def State.receive (s : State) (p : Packet) (perform : State → Packet → Served) : State :=
  if p.dst ≠ s.pod.self then s
  else
    let s0 := s.heard p.src
    match s0.openCtx (s0.rxCtx p) with
    | .stall => s0.reply p .nak 0 1 0 [] 0
    | .refused => s0.reply p .nak 0 1 0 [] 0
    | .ready s1 =>
      let t := s1.rxStream p
      let spilled := ((s1.ctx? (s1.rxCtx p)).map Rctx.spilled).getD false
      if t.frozen then s1
      else if t.inHand = some p then s1.afterServing p true (perform s1 p)
      else if p.seq = t.expected then
        if spilled || s1.unperformed p then s1.sendNak p t.expected 1 else s1.afterServing p false (perform s1 p)
      else if seqBefore t.expected p.seq then
        if t.lastNak = some t.expected && s1.now < t.nakAt + 4096 then s1 else s1.sendNak p t.expected 0
      else s1.answerOld p

/-- A walk for the request in a stream's hand has ended: the Runner takes it up again. -/
def State.takeInHand (s : State) (id : CtxId) (k : Nat) (r : Option WalkRefusal) : State :=
  let s1 := s.modStream id k fun t => { t with refusals := t.refusals ++ r.toList }
  match ((s1.ctx? id).map fun c => c.stream k).bind Stream.inHand with
  | some p => { s1 with agenda := s1.agenda ++ [packetCall s1.pod.self p] }
  | none => s1

/-- ACK_INTERVAL (R89): a cumulative acknowledgement of what has been accepted. -/
def execAckInterval (s : State) : Out :=
  match s.call with
  | .ackInterval id k =>
    match s.ctx? id with
    | none => .next s
    | some c =>
      let t := c.stream k
      if t.ackDue = 0 then .next s
      else
        let p : Packet :=
          { s.packetTo id.peer .ack with
            src := id.peer, dst := s.pod.self, stream := k, system := id.system, module := id.module,
            keyPart := if id.system then 0 else id.part, keyAsid := if id.system then 0 else id.asid,
            sndAsid := if id.system then 0 else id.keyAsid }
        .next ((s.modStream id k fun x => { x with ackDue := 0 }).reply p .ack (if s.unperformed p then prevSeqNo (prevSeqNo t.expected) else prevSeqNo t.expected) 0 0 [] 0)
  | _ => .next s

/-! ## Grants and translation at the target (01 R24, R31 to R33) -/

/-- The right that a request needs (15 R358): bit 0 write, 1 read, 2 atomic. -/
def packetRight (p : Packet) : Nat :=
  match p.type with
  | .rwri => 0
  | .rrd => 1
  | _ => 2

/-- Every byte of a request lies in grants of its key with the right for its peer; with `revoked`, revoked ones count. -/
def Part.grants? (q : Part) (p : Packet) (n : Nat) (revoked : Bool) : Bool :=
  coveredBy (q.grants.length + 1) ((q.grants.filter fun g =>
    g.asid = p.keyAsid && g.rights.testBit (packetRight p) && g.peers.testBit p.src && (revoked || !g.revoked)).map
      fun g => (g.base, g.len)) p.addr n

/-- What the Runner's translation of a request gives. -/
inductive RemoteXlat where
  | ok (pa : Nat) (na : Bool)
  | deny (sub level : Nat)
  /-- It waits for a walk, or, when no miss entry is free, cannot be accepted. -/
  | miss (asked : Bool)
deriving DecidableEq, Repr

/-- The translation of a request through the Runner's TLB, or a walk asked of its walker (01 R29, R30). -/
def State.remoteXlate (s : State) (q : Part) (p : Packet) (n : Nat) : State × RemoteXlat :=
  match s.xlate [.runner] (s.rxStream p).refusals q p.keyAsid p.addr n (packetKind p) with
  | .ok pa e => (s, if e.tier = .relay || e.tier = .aperture then .deny 0x11 15 else .ok pa e.na)
  | .deny sub level => (s, .deny sub level)
  | .miss page =>
    let g := s.askWalk (.runner (s.rxCtx p) p.stream) q.num p.keyAsid page
    (g.1, .miss g.2)

/-- Sectors of `n` bytes from a key, each with its bytes put at their place and their mask. -/
def sectorWrites (key : Nat) (bs : List Byte) : List (Nat × List Byte × Lanes) :=
  (List.range ((key % 64 + bs.length + 63) / 64)).map fun i =>
    let sec := sectorKey key + 64 * i
    let lo := if i = 0 then key % 64 else 0
    let skip := sec + lo - key
    let part := (bs.drop skip).take (64 - lo)
    (sec, List.replicate lo 0 ++ part, byteMask lo part.length)

/-- Bytes written through the L2 of their home die, allocating nothing, line by line; what a module turns away is logged (03 R389). -/
def State.homeWrite (s : State) (part : Nat) (r : Requester) (key : Nat) (bs : List Byte) (poison : Bool) : Got :=
  let ws := sectorWrites key bs
  let away := ws.filter fun x => s.beyondModule part x.1 64
  let mine := ws.filter fun x => !s.beyondModule part x.1 64
  gotAll (away.foldl (fun (t : State) x => t.logAway part r x.1 1) s) (dedup (mine.map fun x => lineKey x.1)) fun t line =>
    t.lineWrite (homeDie t.pod line) part line (mine.filter fun x => lineKey x.1 = line) poison

/-- A write of a line through its home die's L2 would be performed at once: no Ladle channel owns the line, and the die holds it in
M or has what it needs to go on to memory. -/
def State.homeReady (s : State) (part line : Nat) : Got :=
  let die := homeDie s.pod line
  if s.keyDown line || s.beyondModule part line 128 then (s, true)
  else if s.ladleOwns line then (s, false)
  else if s.owns die line then (s, true)
  else if (s.l2Find die line).isSome then s.directory die line part true
  else s.permitted die part line true

/-- Bytes of lines brought into reach of a coherent read by an agent that holds none of them. -/
def State.homeReach (s : State) (part : Nat) (r : Requester) (key n : Nat) : Got :=
  gotAll s (linesOf key n) fun t l =>
    if t.keyDown l then (t, true)
    else if t.ladleOwns l then (t, false)
    else if t.beyondModule part l 128 then
      (((sectorsOf key n).filter fun k => lineKey k = l && t.beyondModule part k 64).foldl
        (fun (u : State) k => u.logAway part r k 0) t, true)
    else
      let g := t.permitted (homeDie t.pod l) part l false
      if g.2 then
        (((sectorsOf key n).filter fun k => lineKey k = l).foldl (fun (u : State) k => u.chargeFetch part k) g.1, true)
      else g

/-- The bytes of a range that a reader of a partition receives as poisoned, as a mask: those poisoned, of a place that is down, or
beyond the allocation at the module. -/
def State.poisonMask (s : State) (part key n : Nat) : Nat :=
  (List.range n).foldl (fun m i =>
    if s.poisoned (key + i) || s.keyDown key || s.beyondModule part (key + i) 1 then m + 2 ^ i else m) 0

/-! ## Notifications (03 R93) -/

/-- The key of the notification descriptor of an ASID. -/
def Part.nqDesc (q : Part) (asid : Nat) : Nat := q.nqBase + 16 * asid

/-- EN of a descriptor. -/
def State.nqEnabled (s : State) (desc : Nat) : Bool := (s.peekNat desc 8).testBit 5
/-- 2^LOG2N. -/
def State.nqSize (s : State) (desc : Nat) : Nat := 2 ^ bitsAt (s.peekNat desc 8) 0 5
/-- The ring's first byte. -/
def State.nqRing (s : State) (desc : Nat) : Nat := bitsAt (s.peekNat desc 8) 12 52 * 4096
/-- HEAD. -/
def State.nqHead (s : State) (desc : Nat) : Nat := s.peekNat (desc + 8) 4
/-- TAIL. -/
def State.nqTail (s : State) (desc : Nat) : Nat := s.peekNat (desc + 12) 4

/-- The wait is a sleep on the descriptor, not woken, with the time it began. -/
def nqSleep (desc : Nat) : Wait → Option Nat
  | .nq d _ _ b false => if d = desc then some b else none
  | _ => none

/-- Units that a test of their wait picks, with the time it gives. -/
def State.sleepers (s : State) (f : Wait → Option Nat) : List (Wave × Arm × Nat) :=
  s.waves.flatMap fun w =>
    if w.status ≠ .running then [] else
    ((f w.unitT.wait).map fun b => (w, Arm.t, b)).toList ++ ((f w.unitE.wait).map fun b => (w, Arm.e, b)).toList

/-- The sleeper that began first. -/
def oldestSleeper (l : List (Wave × Arm × Nat)) : Option (Wave × Arm × Nat) :=
  l.foldl (fun (b : Option (Wave × Arm × Nat)) x =>
    match b with
    | none => some x
    | some y => if x.2.2 < y.2.2 then some x else some y) none

/-- The unit's sleep marked as woken. -/
def UnitSt.wake (u : UnitSt) : UnitSt :=
  match u.wait with
  | .nq d sd dl b _ => { u with wait := .nq d sd dl b true }
  | .gate h sd dl b _ a c => { u with wait := .gate h sd dl b true a c }
  | .line l d _ => { u with wait := .line l d true }
  | _ => u

/-- A sleeper woken. -/
def State.wakeUnit (s : State) (w : Wave) (a : Arm) : State := s.modWave w.seq w.wid fun x => x.setUnit a (x.unit a).wake

/-- The oldest sleeper is woken; when it is saved its wake is recorded, and the oldest resident one is woken as well (12 R297). -/
def State.wakeOldest (s : State) (f : Wait → Option Nat) : State :=
  let l := s.sleepers f
  match oldestSleeper l with
  | none => s
  | some (w, a, _) =>
    let s1 := s.wakeUnit w a
    if w.saved then
      match oldestSleeper (l.filter fun x => !x.1.saved) with
      | some (v, b, _) => s1.wakeUnit v b
      | none => s1
    else s1

/-- A notification record written, then TAIL advanced (03 R93). -/
def State.notify (s : State) (q : Part) (r : Requester) (p : Packet) : Got :=
  let desc := q.nqDesc p.keyAsid
  let tail := s.nqTail desc
  let rec1 := natToBytes 8 (p.src * 2 ^ 58 + p.stream * 2 ^ 56 + p.imm % 2 ^ 32)
  let g := s.homeWrite q.num r (s.nqRing desc + 8 * (tail % s.nqSize desc)) rec1 false
  if !g.2 then g
  else
    let h := g.1.homeWrite q.num r (desc + 12) (natToBytes 4 (tail + 1)) false
    if h.2 then (h.1.wakeOldest (nqSleep desc), true) else h

/-! ## Performing remote requests (03 R89; 12 R293 to R295) -/

/-- The request has been accepted before: its stream performs it again after a refusal, or has it in hand; a later revocation does
not concern it (01 R32). -/
def State.wasAccepted (s : State) (p : Packet) : Bool :=
  (s.rxStream p).faultPacket.map Packet.seq == some p.seq || (s.rxStream p).inHand = some p

/-- The requester that a remote request is in a record (01 R35). -/
def packetRequester (p : Packet) : Requester := { type := 3, id := p.src, asid := if p.system then 0 else p.keyAsid }

/-- The checks of a remote request that come before its effect: its key, its grants, its translation; one that waits for a walk is
accepted with it, and so needs `room` (03 R93). -/
def State.remoteCheck (s : State) (p : Packet) (n : Nat) (pre : Part → Option Nat) (room : Part → Bool) (f : State → Part → Nat → Bool → Served) :
    Served :=
  match s.part? p.keyPart with
  | none => .refused 0x0D 15
  | some q =>
    if q.asidCount ≤ p.keyAsid then .refused 0x0D 15
    else
      match pre q with
      | some sub => .refused sub 15
      | none =>
        if !q.grants? p n (s.wasAccepted p) then .refused (if q.grants? p n true then 0x0C else 0x0B) 15
        else
          match s.remoteXlate q p n with
          | (_, .deny sub level) => .refused sub level
          | (s1, .miss true) => if room q then .walk s1 else .busy s
          | (s1, .miss false) => .busy s1
          | (s1, .ok pa na) =>
            match keyOfPa s1.pod pa with
            | none => .refused 6 15
            | some key => f s1 q key na

/-- Lines that can all be written at once. -/
def State.linesReady (s : State) (part : Nat) (lines : List Nat) : Got := gotAll s (dedup lines) fun t l => t.homeReady part l

/-- The queue of a descriptor has a free record (03 R93). -/
def State.nqRoom (s : State) (desc : Nat) : Bool :=
  decide ((s.nqTail desc + 2 ^ 32 - s.nqHead desc) % 2 ^ 32 < s.nqSize desc)

/-- An RWRI: a free record, the data, then the notification; nothing before every line can be written, and one that a line still
stops is sent again (03 R89, 04 R121). -/
def performRwri (s : State) (p : Packet) : Served :=
  s.remoteCheck p p.len (fun q => if s.nqEnabled (q.nqDesc p.keyAsid) then none else some 0x0B)
    (fun q => s.nqRoom (q.nqDesc p.keyAsid)) fun t q key _ =>
    let desc := q.nqDesc p.keyAsid
    if !t.nqRoom desc then .busy t
    else
      let rec1 := t.nqRing desc + 8 * (t.nqTail desc % t.nqSize desc)
      let g := t.linesReady q.num (linesOf key p.len ++ [lineKey rec1, lineKey desc])
      if !g.2 then .busy g.1
      else
        let h := g.1.homeWrite q.num (packetRequester p) key (p.data.take p.len) (decide (p.poison ≠ 0))
        let k := h.1.notify q (packetRequester p) p
        if !h.2 then .busy h.1 else if k.2 then .done k.1 else .busy k.1

/-- RWRI_PACKET. -/
def execRwriPacket (s : State) : Out :=
  match s.call with
  | .rwriPacket p => .next (s.receive p performRwri)
  | _ => .next s

/-- An RRD. -/
def performRrd (s : State) (p : Packet) : Served :=
  s.remoteCheck p p.len (fun _ => none) (fun _ => true) fun t q key _ =>
    let g := t.homeReach q.num (packetRequester p) key p.len
    if g.2 then .resp g.1 (g.1.peek key p.len) (g.1.poisonMask q.num key p.len) else .busy g.1

/-- RRD_PACKET. -/
def execRrdPacket (s : State) : Out :=
  match s.call with
  | .rrdPacket p => .next (s.receive p performRrd)
  | _ => .next s

/-- The atomic of a packet, delivered to the L2 atomic unit of a line's home slice. -/
def State.queueAtom (s : State) (p : Packet) (key : Nat) (na : Bool) : State :=
  let n := if p.opsize.testBit 4 then 8 else 4
  { s with atomQ := s.atomQ ++ [{ key := key, size := n, op := p.opsize % 16, a := bytesToNat (p.data.take n),
                                  b := bytesToNat ((p.data.drop n).take n), order := s.now, na := na, packet := p }] }

/-- An RATOM. -/
def performRatom (s : State) (p : Packet) : Served :=
  s.remoteCheck p (if p.opsize.testBit 4 then 8 else 4) (fun _ => none) (fun _ => true) fun t _ key na => .queued (t.queueAtom p key na)

/-- RATOM_PACKET. -/
def execRatomPacket (s : State) : Out :=
  match s.call with
  | .ratomPacket p => .next (s.receive p performRatom)
  | _ => .next s

/-! ## Relayed accesses (03 R85) -/

/-- The checks of a relayed access at the serving peer: its attachment to the module. -/
def State.relayCheck (s : State) (p : Packet) (f : State → Nat → Served) : Served :=
  match s.pod.attOf p.module with
  | none => .refused 0x0A 15
  | some a => if s.pod.attUp a then f s (moduleKey p.module p.addr) else .refused 9 15

/-- A relayed read. -/
def performRelayedRead (s : State) (p : Packet) : Served :=
  s.relayCheck p fun t key =>
    let g := t.homeReach 16 (packetRequester p) key p.len
    if g.2 then .resp g.1 (g.1.peek key p.len) (g.1.poisonMask 16 key p.len) else .busy g.1

/-- RELAYED_READ. -/
def execRelayedRead (s : State) : Out :=
  match s.call with
  | .relayedRead p => .next (s.receive p performRelayedRead)
  | _ => .next s

/-- A relayed write. -/
def performRelayedWrite (s : State) (p : Packet) : Served :=
  s.relayCheck p fun t key =>
    let g := t.linesReady 16 (linesOf key p.len)
    if !g.2 then .busy g.1
    else
      let h := g.1.homeWrite 16 (packetRequester p) key (p.data.take p.len) (decide (p.poison ≠ 0))
      if h.2 then .done h.1 else .busy h.1

/-- RELAYED_WRITE. -/
def execRelayedWrite (s : State) : Out :=
  match s.call with
  | .relayedWrite p => .next (s.receive p performRelayedWrite)
  | _ => .next s

/-- A relayed atomic. -/
def performRelayedAtomic (s : State) (p : Packet) : Served := s.relayCheck p fun t key => .queued (t.queueAtom p key false)

/-- RELAYED_ATOMIC. -/
def execRelayedAtomic (s : State) : Out :=
  match s.call with
  | .relayedAtomic p => .next (s.receive p performRelayedAtomic)
  | _ => .next s

/-! ## NQWAIT (12 R296, R297) -/

/-- The pair that is no record. -/
def noRecord : Nat := 0xFFFFFFFF00000000

/-- One read-modify-write of HEAD at the descriptor's atomic unit: the state and the record with its poison (03 R97), or none when
the queue is empty or disabled; not done while a line must be waited for. -/
def State.takeRecord (s : State) (w : Wave) (desc : Nat) : Got × Option (Nat × Bool) :=
  let head := s.nqHead desc
  if !s.nqEnabled desc || s.nqTail desc = head then ((s, true), none)
  else
    let at1 := s.nqRing desc + 8 * (head % s.nqSize desc)
    let rec1 := (s.peekNat at1 8, s.anyPoison at1 8 || s.keyDown at1)
    let g := s.acquireQuad (coreQuad w.core)
    if !g.2 then (g, none)
    else
      let h := g.1.unitWrite (coreQuad w.core) w.part (desc + 8) (natToBytes 4 (head + 1)) false
      (h, if h.2 then some rec1 else none)

/-- NQWAIT (12 R296): a record at once, or a sleep. -/
def execNqwait (d y : BitVec 6) (s : State) : Out :=
  whenLegal s (.nqwait d y) fun w is _ =>
    if w.sPoison y.toNat then poisonTrap s w is
    else
      match s.part? w.part with
      | none => finish s w is
      | some q =>
        let desc := q.nqDesc (s.waveAsid w)
        if !s.nqEnabled desc then finish s (w.setPair d.toNat noRecord false) is
        else
          match s.takeRecord w desc with
          | ((s1, false), _) => stallWord s1
          | ((s1, true), some r) => finish s1 ((s1.again w).setPair d.toNat r.1 r.2) is
          | ((s1, true), none) =>
            let t := (w.s y.toNat).toNat
            sleepWith s1 (s1.again w) is (.nq desc d.toNat (if t = 0 then 0 else s.now + t) s.now false)

/-- The arm of an event's operand. -/
def armOf (e : Bool) : Arm := if e then .e else .t

/-- The unit's wait has ended as its word's effect. Of a chained pair whose second word waited, the first has not performed: the unit
goes back to it, and then on behind the pair (09 R206). -/
def UnitSt.waited (u : UnitSt) : UnitSt :=
  match u.wait with
  | .gate _ _ _ _ _ pc true => { u with pc := pc, skip := some pc, ibuf := none }
  | .tbar _ _ _ pc true => { u with pc := pc, skip := some pc, ibuf := none }
  | _ => u

/-- A sleep ends: its result is written, the unit goes on, and the watchdog sees progress (07 R187). -/
def State.endSleep (s : State) (seq wid : Nat) (a : Arm) (f : Wave → Wave) : State :=
  s.modWave seq wid fun w =>
    let x := (f w).progressed
    x.setUnit a { (x.unit a).waited with wait := .none, ready := s.now, hidden := [] }

/-- The result of a unit's wait in s(n), unless a later word has written that register (07 R180). -/
def Wave.setWaited (w : Wave) (a : Arm) (n : Nat) (v : Word) (q : Bool) : Wave := w.setSUnless (w.unit a).hidden n v q

/-- A sleep ends with a pair. -/
def State.endSleepPair (s : State) (seq wid : Nat) (a : Arm) (sd x : Nat) (q : Bool) : State :=
  s.endSleep seq wid a fun w =>
    (w.setWaited a sd (BitVec.ofNat 32 x) q).setWaited a (sd + 1) (BitVec.ofNat 32 (x / 2 ^ 32)) q

/-- A woken NQWAIT retries (12 R296, R297): it takes a record, finds the queue disabled, or sleeps again in its old place. -/
def State.retryNq (s : State) (w : Wave) (a : Arm) : State :=
  match (w.unit a).wait with
  | .nq desc sd dl b true =>
    if !s.nqEnabled desc then s.endSleepPair w.seq w.wid a sd noRecord false
    else
      match s.takeRecord w desc with
      | ((s1, false), _) => s1
      | ((s1, true), some r) => s1.endSleepPair w.seq w.wid a sd r.1 r.2
      | ((s1, true), none) =>
        s1.modWave w.seq w.wid fun x => x.setUnit a { x.unit a with wait := .nq desc sd dl b false }
  | _ => s

/-- NQWAIT_WAKE (12 R297). -/
def execNqwaitWake (s : State) : Out :=
  match s.call with
  | .nqwaitWake seq wid e =>
    match s.wave? seq wid with
    | none => .next s
    | some w => .next (if w.saved then s else s.retryNq w (armOf e))
  | _ => .next s

/-- NQWAIT_TIMEOUT (12 R296); a sleeper that has been woken retries instead (R297). -/
def execNqwaitTimeout (s : State) : Out :=
  match s.call with
  | .nqwaitTimeout seq wid e =>
    match s.wave? seq wid with
    | none => .next s
    | some w =>
      match (w.unit (armOf e)).wait with
      | .nq _ sd dl _ woken =>
        if w.saved || woken || !s.deadlineReached dl then .next s
        else .next (s.endSleepPair seq wid (armOf e) sd noRecord false)
      | _ => .next s
  | _ => .next s

end Sys2Proof.Machine
end

