-- ==== Sys2Proof/Machine/Coherence.lean ====
section
/-!
DEFINITION. The agents of the memory system as steps of their own (02_on_package_memory R49, R53 to R59, R66 to R70): the
write queue, the directory, the module's completions and snoops, the L2 atomic units, gather packets and the stack links.
-/
namespace Sys2Proof.Machine

/-! ## The write queue and the directory -/

/-- WRITE_QUEUE_MERGE (02 R49): the oldest entry of a quad's write queue merges into the L1. -/
def execWriteQueueMerge (s : State) : Out :=
  match s.call with
  | .writeQueueMerge quad =>
    match s.wq.find? fun e => e.quad = quad with
    | none => .next s
    | some e => .next (s.wqMerge e).1
  | _ => .next s

/-- DIRECTORY_REQUEST (02 R53, R55, R56). -/
def execDirectoryRequest (s : State) : Out :=
  match s.call with
  | .directoryRequest die sector own part =>
    match keyOfPa s.pod (64 * sector) with
    | none => .next s
    | some key => .next (s.directory die key part own).1
  | _ => .next s

/-! ## Modules (02 R56, R57) -/

/-- The line of a module by its number. -/
def moduleLine (m line : Nat) : Nat := moduleKey m (128 * line)

/-- What the module does with the other packages' holders when it completes a request of this one (03 R74). -/
def State.holdersAfter (s : State) (line : Nat) (kind : MemKind) : State :=
  let here (h : ModHolder) : Bool := h.module = keyModule line && h.line = line
  match kind with
  | .own => { s with holders := s.holders.filter fun h => !here h }
  | .ownHeld => { s with holders := s.holders.filter fun h => !here h }
  | .readShared => { s with holders := mapWhere s.holders here fun h => { h with exclusive := false } }
  | _ => s

/-- The permission that a completion gives (02 R56). -/
def State.permAfter (s : State) (line : Nat) (kind : MemKind) : State :=
  match kind with
  | .own => s.setPerm line (some .exclusive)
  | .ownHeld => s.setPerm line (some .exclusive)
  | .readShared => if (s.permOf line).isSome then s else s.setPerm line (some .shared)
  | _ => s

/-- A snoop applied to a line (02 R57). -/
def State.snoopKind (s : State) (line : Nat) (inv : Bool) : State := if inv then s.snoopInv line else s.snoopData line

/-- The snoop after its next line. -/
def Snoop.step (x : Snoop) : Snoop := { x with next := x.next + 1, left := x.left - 1, held := false }

/-- One line of the snoop is applied, and the next ones, up to one that waits: for a Ladle channel that owns it (02 R59), or for a
request outstanding to the module, which it meets as a conflict (02 R57). -/
def State.snoopOn (s : State) : Nat → Snoop → State × Snoop
  | 0, x => (s, x)
  | n + 1, x =>
    if x.left = 0 || x.held then (s, x)
    else
      let key := moduleLine x.module x.next
      if s.ladleOwns key then (s, x)
      else
        match s.memReqs.find? fun r => r.key = key with
        | some r =>
          ({ s with memReqs := mapWhere s.memReqs (fun y => y = r) fun y => { y with snoop := if x.inv then 1 else 2 } },
           { x with held := true })
        | none => State.snoopOn (s.snoopKind key x.inv) n x.step

/-- A snoop goes as far as it can; one that is over is answered: BIRspI, BIRspS, or the block response (02 R57). -/
def State.runSnoop (s : State) (x : Snoop) : State :=
  let r := s.snoopOn (x.left + 1) x
  if r.2.left = 0 then
    r.1.answerSnoop { module := x.module, line := x.first, block := x.block, inv := x.inv }
  else { r.1 with snoops := r.1.snoops ++ [r.2] }

/-- The snoops of a test's choice go on. -/
def State.runSnoops (s : State) (f : Snoop → Bool) (g : Snoop → Snoop) : State :=
  (s.snoops.filter f).foldl (fun (t : State) x => t.runSnoop (g x)) { s with snoops := s.snoops.filter fun x => !f x }

/-- A snoop of a block of lines, or one that waits, taken up again (02 R57). -/
def State.snoop (s : State) (m line count : Nat) (inv : Bool) : State :=
  let s0 : State := { s with snoopAnswers := [] }
  let same (x : Snoop) : Bool := x.module = m && x.next = line && x.left = count && x.inv = inv
  if s0.snoops.any same then s0.runSnoops same id
  else (s0.chargeFlits false 0).runSnoop
    { module := m, first := line, next := line, left := count, block := decide (1 < count), inv := inv, held := false }

/-- The snoop that met a request is applied to its line, and goes on. -/
def State.snoopAfter (s : State) (m line n : Nat) : State :=
  if n = 0 then s
  else
    (s.snoopKind (moduleLine m line) (n = 1)).runSnoops
      (fun x => x.module = m && x.next = line && x.held && x.inv = decide (n = 1)) Snoop.step

/-- MEM_COMPLETION (02 R56, R57): the oldest request of its kind for the line ends; a snoop that met it comes next. -/
def execMemCompletion (s : State) : Out :=
  match s.call with
  | .memCompletion m line kind =>
    let key := moduleLine m line
    match s.memReqs.find? fun r => r.key = key && memKindBase r.kind = memKindBase kind with
    | none => .next s
    | some r =>
      let s1 := ({ s with memReqs := s.memReqs.erase r, snoopAnswers := [] } : State).chargeFlits false 128
      .next (((s1.holdersAfter key kind).permAfter key kind).snoopAfter m line r.snoop)
  | _ => .next s

/-- BISNPINV (02 R57). -/
def execBisnpinv (s : State) : Out :=
  match s.call with
  | .bisnpinv m line count => .next (s.snoop m line count true)
  | _ => .next s

/-- BISNPDATA (02 R57). -/
def execBisnpdata (s : State) : Out :=
  match s.call with
  | .bisnpdata m line count => .next (s.snoop m line count false)
  | _ => .next s

/-- BISNPCUR acts as BISnpData (02 R57). -/
def execBisnpcur (s : State) : Out :=
  match s.call with
  | .bisnpcur m line count => .next (s.snoop m line count false)
  | _ => .next s

/-- BICONFLICTACK (02 R57): it came before the completion, so the snoop is applied first. -/
def execBiconflictack (s : State) : Out :=
  match s.call with
  | .biconflictack m line =>
    let key := moduleLine m line
    match s.memReqs.find? fun r => r.key = key && r.snoop ≠ 0 with
    | none => .next s
    | some r =>
      let s1 : State :=
        { s with memReqs := mapWhere s.memReqs (fun x => x = r) fun x => { x with snoop := 0 }, snoopAnswers := [] }
      .next (s1.snoopAfter m line r.snoop)
  | _ => .next s

/-! ## The L2 atomic units (02 R58) -/

/-- An operation at an atomic unit: its arrival, whether it is remote, and whose it is. -/
inductive AtomJob where
  | lane (w : Wave) (o : PendOp) (p : OpPart)
  | remote (r : AtomReq)

/-- When it arrived. -/
def AtomJob.age : AtomJob → Nat
  | .lane _ _ p => p.age
  | .remote r => r.order

/-- The byte it works on. -/
def AtomJob.key : AtomJob → Nat
  | .lane _ _ p => p.key
  | .remote r => r.key

/-- The operations that wait at the unit of a slice of a die, local ones first. -/
def State.atomJobs (s : State) (die slice : Nat) : List AtomJob :=
  let mine (k : Nat) : Bool := homeDie s.pod (lineKey k) = die && l2SliceOf s.pod (lineKey k) = slice
  (s.waves.flatMap fun (w : Wave) => w.pend.flatMap fun (o : PendOp) =>
    (o.parts.filter fun (p : OpPart) => !p.done && p.route = .atomicUnit && mine p.key).map fun p => AtomJob.lane w o p)
  ++ (s.atomQ.filter fun (r : AtomReq) => mine r.key).map AtomJob.remote

/-- The first of a list with the least age. -/
def firstJob (l : List AtomJob) : Option AtomJob :=
  l.foldl (fun (b : Option AtomJob) x =>
    match b with
    | none => some x
    | some y => if x.age < y.age then some x else some y) none

/-- A word changed at its atomic unit: the line is taken in M in the home die's L2, then the new value is stored; the old
value and its poison. -/
def State.atomWord (s : State) (part key size op a b : Nat) (noAlloc : Bool) : Got × Nat × Bool :=
  let old := s.peekNat key size
  let bad := s.anyPoison key size || s.keyDown key || s.beyondModule part key size
  let bs := List.replicate (key % 64) 0 ++ natToBytes size (atomicNew op size old a b)
  (s.l2Write (homeDie s.pod (lineKey key)) part key bs (byteMask key size) false noAlloc, old, bad)

/-- A part of an operation of a wave replaced, by its lane and key. -/
def PendOp.setPart (o : PendOp) (p : OpPart) (f : OpPart → OpPart) : PendOp :=
  { o with parts := mapWhere o.parts (fun x => x = p) f }

/-- The line of a remote operation in reach of its unit: a relayed one, which no partition of this package makes, takes it in M for the
partition with the pod privilege (DESIGN CHOICE, log 29), as a lane's does for the wave's (R58, 12 R282). -/
def State.remoteLine (s : State) (q : AtomReq) : Got :=
  match s.pod.privilege with
  | some part =>
    if !q.packet.system || q.na || s.keyDown q.key || s.owns (homeDie s.pod (lineKey q.key)) q.key then (s, true)
    else s.directory (homeDie s.pod (lineKey q.key)) q.key part true
  | none => (s, true)

/-- One operation performed by a unit; one that must wait for a line is left. What the issuing quad has stored to the sector since
travels with it, and the quad's copy of the sector goes, so that no later read of the wave returns a value from before it (02 R51,
04 R101). -/
def State.atomJob (s : State) : AtomJob → State
  | .lane w o p =>
    match p.act with
    | .atomic op a b =>
      let g := s.sectorOut (coreQuad w.core) p.key
      let r := g.1.atomWord w.part p.key p.size op a b p.noAlloc
      if !g.2 then g.1
      else if r.1.2 then
        (r.1.1.l1DropSector (coreQuad w.core) p.key).modWave w.seq w.wid fun x => x.modOp o.id fun y =>
          some (y.setPart p fun q => { q with done := true, val := r.2.1, poison := r.2.2 })
      else r.1.1
    | _ => s
  | .remote q =>
    let part := if q.packet.system then 16 else q.packet.keyPart
    let g := s.remoteLine q
    let s0 := if g.1.beyondModule part q.key q.size then g.1.logAway part (packetRequester q.packet) q.key 2 else g.1
    let r := s0.atomWord part q.key q.size q.op q.a q.b (q.packet.system || q.na)
    if !g.2 then g.1
    else if r.1.2 then
      { r.1.1 with atomQ := r.1.1.atomQ.erase q }.respond q.packet (natToBytes q.size r.2.1)
        (if r.2.2 then 2 ^ q.size - 1 else 0)
    else r.1.1

/-- ATOMIC_UNIT_OP (02 R58): one operation of a slice's unit, in order of arrival, a local one before a remote one. -/
def execAtomicUnitOp (s : State) : Out :=
  match s.call with
  | .atomicUnitOp die slice =>
    match firstJob (s.atomJobs die slice) with
    | none => .next s
    | some j => .next (s.atomJob j)
  | _ => .next s

/-! ## Gather packets (02 R66, R67) -/

/-- The oldest operation with lanes in a packet for a die. -/
def State.gatherOp (s : State) (die : Nat) : Option (Wave × PendOp × Nat) :=
  (s.waves.flatMap fun (w : Wave) => w.pend.filterMap fun (o : PendOp) =>
    (o.parts.find? fun (p : OpPart) => !p.done && p.route = .gather die).map fun p => (w, o, p.age)).foldl
    (fun (b : Option (Wave × PendOp × Nat)) x =>
      match b with
      | none => some x
      | some y => if x.2.2 < y.2.2 then some x else some y) none

/-- The line is held M or O by some die, which serves the lane. -/
def State.dirtyHeld (s : State) (line : Nat) : Bool := (s.l2Holders line).any fun l => l.state.dirty

/-- The lane can be served now: no Ladle channel owns its line (02 R59), and its stack answers. -/
def State.gatherServes (s : State) (p : OpPart) : Bool :=
  !s.ladleOwns (lineKey p.key) && (s.dirtyHeld (lineKey p.key) || !s.stackHeld p.key)

/-- The reads of the array that a packet makes: each sector is counted, each row opened once. -/
def State.gatherReads (s : State) (part : Nat) (keys : List Nat) : State :=
  let fresh := keys.filter fun k => !s.dirtyHeld (lineKey k)
  let s1 := s.charge part 0x030 (dedup (fresh.map sectorKey)).length
  let rows := dedup (fresh.map fun k => (hbmBank (k % Config.hbmWindow), hbmRow (k % Config.hbmWindow)))
  rows.foldl (fun (t : State) r =>
    match fresh.find? fun k => (hbmBank (k % Config.hbmWindow), hbmRow (k % Config.hbmWindow)) = r with
    | some k => t.rowAccess k
    | none => t) s1

/-- GATHER_PACKET (02 R67): the home die serves a packet's lanes, allocating nothing and changing no line. -/
def execGatherPacket (s : State) : Out :=
  match s.call with
  | .gatherPacket die =>
    match s.gatherOp die with
    | none => .next s
    | some (w, o, _) =>
      let mine (p : OpPart) : Bool := !p.done && p.route = .gather die && s.gatherServes p
      let s1 := s.gatherReads w.part (((o.parts.filter mine).filter fun p => !s.keyDown p.key).map OpPart.key)
      let serve (p : OpPart) : OpPart :=
        let v := s.memValue p.key p.size
        { p with done := true, val := v.1, poison := v.2 || s.keyDown p.key }
      .next (s1.modWave w.seq w.wid fun x => x.modOp o.id fun y => some { y with parts := mapWhere y.parts mine serve })
  | _ => .next s

/-! ## Stack links (02 R68) -/

/-- A count of n bits that stays at its greatest value (02 R70). -/
def saturate (x n : Nat) : Nat := min x (2 ^ n - 1)

/-- A stack's link changed. -/
def State.modLink (s : State) (d : Nat) (f : StackLink → StackLink) : State :=
  match s.links[d]? with
  | some l => { s with links := s.links.set d (f l) }
  | none => s

/-- LINK_CRC_FAILURE (02 R68): four replays of a transfer, then the link retrains. -/
def execLinkCrcFailure (s : State) : Out :=
  match s.call with
  | .linkCrcFailure d =>
    .next (s.modLink d fun l =>
      if l.down || l.retraining then l
      else if l.replays < 4 then { l with replays := l.replays + 1, replayCount := saturate (l.replayCount + 1) 32 }
      else { l with replays := 0, retraining := true, retrainCount := saturate (l.retrainCount + 1) 8 })
  | _ => .next s

/-- A stack's held rows are released (02 R68). -/
def State.releaseStack (s : State) (d : Nat) : State :=
  { s with rows := mapWhere s.rows (fun r => r.stack = d && r.held) fun r => { r with held := false, dropped := true } }

/-- RETRAIN_COMPLETE (02 R68): the third failure in a row marks the stack down. -/
def execRetrainComplete (s : State) : Out :=
  match s.call with
  | .retrainComplete d ok =>
    match s.links[d]? with
    | none => .next s
    | some l =>
      if !l.retraining then .next s
      else if ok then .next (s.modLink d fun x => { x with retraining := false, failedRetrains := 0 })
      else if l.failedRetrains < 2 then
        .next (s.modLink d fun x =>
          { x with failedRetrains := x.failedRetrains + 1, retrainCount := saturate (x.retrainCount + 1) 8 })
      else
        .next ((s.modLink d fun x => { x with retraining := false, failedRetrains := 0, down := true }).releaseStack d)
  | _ => .next s

end Sys2Proof.Machine
end

