-- ==== Sys2Proof/Machine/Attach.lean ====
section
/-!
DEFINITION. Attachments going down and coming up (01_address_spaces R19; 03_pod_memory R73, R75, R92, R94 to R96, R389).
-/
namespace Sys2Proof.Machine

/-! ## What a lost attachment does to waves (03 R94) -/

/-- The part belongs to a module and waits there. -/
def OpPart.waitsAt (p : OpPart) (m : Nat) : Bool :=
  !p.done && (p.route = .cache || p.route = .atomicUnit) && isModuleKey p.key && keyModule p.key = m

/-- A write or an atomic of it is dropped. -/
def PartAct.drops : PartAct → Bool
  | .write _ => true
  | .atomic .. => true
  | _ => false

/-- An operation's parts at a lost module end: reads with poison, writes dropped. -/
def PendOp.loseModule (o : PendOp) (m : Nat) : PendOp :=
  { o with parts := mapWhere o.parts (fun p => p.waitsAt m) fun p => { p with done := true, poison := true } }

/-- The writes of one operation dropped: a record for each address, one late error for the wave (R94). -/
def State.dropWrites (s : State) (w : Wave) (o : PendOp) (m : Nat) : State :=
  let lost := o.parts.filter fun p => p.waitsAt m && p.act.drops
  match lost with
  | [] => s
  | p :: _ => (lost.foldl (fun (t : State) q => t.logWave w q.va 9 15 q.act.kind false) s).lateError w.seq w.wid 5 9 p.va

/-- The outstanding accesses of every wave at a lost module end. -/
def State.loseAccesses (s : State) (m : Nat) : State :=
  let s1 := s.waves.foldl (fun (t : State) w => w.pend.foldl (fun (x : State) o => x.dropWrites w o m) t) s
  { s1 with waves := s1.waves.map fun w => { w with pend := w.pend.map fun o => o.loseModule m } }

/-- A wave's request ends with LOST, whose VALUE no rule states: a free value (R78, log 19). -/
def State.loseService (s : State) (w : Wave) (o : PendOp) : State :=
  let (n, s1) := s.fresh
  s1.endService (s1.again w) o 12 (Config.kweutValue n % 2 ^ 64) []

/-- The outstanding Kweut requests through an attachment complete with LOST (R94); the Runner's are logged. -/
def State.loseServices (s : State) (att : Nat) : State :=
  let ops := s.waves.flatMap fun (w : Wave) =>
    (w.pend.filter fun o => o.kind = .service && o.att = att && !o.answered).map fun o => (w, o)
  let s1 := ops.foldl (fun (t : State) x => t.loseService x.1 x.2) s
  (s1.runner.tags.filter fun x => x.att = att).foldl (fun (t : State) x =>
    (t.modRunner fun r => { r with tags := r.tags.filter fun y => y ≠ x }).logRunner x 12) s1

/-- A message under way to or from a module through this package's attachment. -/
def lostMessage (m att lead : Nat) : Call → Bool
  | .qput r => r.module = m && r.lead = lead
  | .qget r => r.module = m && r.lead = lead
  | .atom r => r.module = m && r.lead = lead
  | .red r => r.module = m && r.lead = lead
  | .redrd r => r.module = m && r.lead = lead
  | .kweutResponse r => r.att = att
  | .memCompletion x _ _ => x = m
  | .bisnpinv x _ _ => x = m
  | .bisnpdata x _ _ => x = m
  | .bisnpcur x _ _ => x = m
  | .biconflictack x _ => x = m
  | _ => false

/-! ## Its L2 lines -/

/-- The record of a lost dirty line of a partition (R94). -/
def State.logLost (s : State) (part line : Nat) : State :=
  s.logError part
    { addr := paOfKey s.pod line, asid := 0, sub := 9, cls := 5, level := 15, kind := 1, reqType := 0,
      reqId := 0x3FFFFFFF, phys := true }

/-- Every L2 line of a module is invalidated and a dirty one lost; what the module recorded any-exclusive stands among its
holders (R75, R94). -/
def State.loseLines (s : State) (m lead : Nat) : State :=
  let ofModule (k : Nat) : Bool := isModuleKey k && keyModule k = m
  let s1 := (s.l2.filter fun l => ofModule l.key && l.state.dirty).foldl (fun (t : State) l => t.logLost l.tag l.key) s
  let s2 := (s1.stale.filter fun x => ofModule x.key).foldl (fun (t : State) x => t.restoreStale x.key) s1
  let mine := (s2.perms.filter fun p => ofModule p.key && p.perm = .exclusive).map fun p =>
    ({ module := m, line := p.key, lead := lead, exclusive := true } : ModHolder)
  let lines := dedup ((s2.l2.filter fun l => ofModule l.key).map L2Line.key)
  let s3 : State := lines.foldl State.wakeLine s2
  { s3 with
    l2 := s3.l2.filter fun l => !ofModule l.key,
    stale := s3.stale.filter fun x => !ofModule x.key,
    perms := s3.perms.filter fun p => !ofModule p.key,
    memReqs := s3.memReqs.filter fun r => !ofModule r.key,
    fills := s3.fills.filter fun f => !ofModule f.sector,
    snoops := s3.snoops.filter fun x => x.module ≠ m,
    l1 := s3.l1.filter fun l => !ofModule l.key,
    wq := s3.wq.filter fun e => !ofModule e.key,
    holders := s3.holders ++ mine }

/-! ## Routes (03 R95) -/

/-- The packet is a request of this package that its stream sends again by itself. -/
def State.resent (s : State) (p : Packet) : Bool :=
  p.src = s.pod.self && s.runner.ctxs.any fun c => c.streams.any fun t => t.unacked.any fun u =>
    u.packet.dst = p.dst && u.packet.seq = p.seq && u.packet.stream = p.stream && u.packet.type = p.type
      && u.packet.tag = p.tag

/-- The unacknowledged packets for a peer are sent again, along its route (R95). -/
def State.resendPeer (s : State) (peer : Nat) : State :=
  s.runner.ctxs.foldl (fun (t : State) c =>
    if c.id.peer = peer then
      (List.range 4).foldl (fun (x : State) k =>
        match (c.stream k).unacked.head? with
        | some u => x.resendFrom c.id k u.packet.seq
        | none => x) t
    else t) s

/-- A peer whose route has changed to a third package's: what waits in the send buffer for it goes along the new route, with
everything unacknowledged; without a route the peer is dead (R95). -/
def State.sever (s : State) (peer : Nat) : State :=
  match s.routeTo peer with
  | none => s.peerDead peer 0
  | some _ =>
    let waits (x : Sending) : Bool := x.packet.dst = peer
    let kept := dropSending waits s.runner.putting s.runner.sending
    let stuck := s.runner.sending.filter fun x => waits x && !kept.contains x
    let s1 := s.modRunner fun r => { r with sending := kept }
    let s2 := (stuck.filter fun x => !s.resent x.packet).foldl (fun (t : State) x =>
      if x.packet.src = t.pod.self then t.putPacket peer x.packet else t.forwardPacket x.packet) s1
    s2.resendPeer peer

/-- The routes after a change of attachment state (R95): a pair whose route now runs through another third package, or is gone, is
severed; one that returns to the shared module goes on (R96). -/
def State.reroute (s before : State) : State :=
  (List.range s.pod.size).foldl (fun (t : State) g =>
    if g = t.pod.self || s.routeTo g = before.routeTo g then t
    else match s.routeTo g with
      | some (_, false) => t
      | _ => t.sever g) s

/-- The copies whose channel owned lines of a module have lost them (05 R137); a line that none of the L2s held is recorded as the
dirty lines are (R94). -/
def State.loseDests (s : State) (m : Nat) : State :=
  let ofM (k : Nat) : Bool := isModuleKey k && keyModule k = m
  let owned := s.chans.flatMap fun c => c.copies.flatMap fun x =>
    (dedup ((x.targets.filter ofM).map lineKey)).map fun l => (l, x.part)
  let s1 := (owned.filter fun x => (s.l2Holders x.1).isEmpty).foldl (fun (t : State) x => t.logLost x.2 x.1) s
  let lose (x : Copy) : Copy :=
    if x.targets.any ofM && !x.lostMods.contains m then { x with lostMods := x.lostMods ++ [m] } else x
  { s1 with chans := s1.chans.map fun c => { c with copies := c.copies.map lose } }

/-- The incoming queues of this Runner that lie at a module. -/
def State.queuesAt (s : State) (m : Nat) : List RQueue := s.runner.queues.filter fun q => s.pod.shared q.peer = some m

/-- The Runner loses the tail lines of a module's queues with its permissions there (R94). -/
def State.loseTails (s : State) (m : Nat) : State :=
  (s.queuesAt m).foldl (fun (t : State) q => t.modRunner fun r => r.setQueue { q with tailShared := false }) s

/-- The Runner reads the tail lines of a module's queues again, and takes what has been put meanwhile (R86, R96). -/
def State.rereadTails (s : State) (m : Nat) : State :=
  (s.queuesAt m).foldl (fun (t : State) q => (t.tailRead q).pull q.peer) s

/-- AN ATTACHMENT GOES DOWN (03 R94), in the order given there; the module loses the head group (R75), and the peers on the
module are severed (R95). -/
def State.attachmentDown (s : State) (att : Nat) : State :=
  match s.pod.moduleOf att, s.pod.atts[att]? with
  | some m, some a =>
    let lead := s.pod.leadOn m
    let s1 := s.loseAccesses m
    let s2 : State := { s1 with pod := { s1.pod with atts := s1.pod.atts.set att { a with verified := false } } }
    let s3 := s2.loseServices att
    let s4 : State := { s3 with agenda := s3.agenda.filter fun c => !lostMessage m att lead c }
    let s5 := ((s4.loseDests m).loseLines m lead).loseTails m
    let s6 : State := { s5 with agenda := s5.agenda ++ [Call.headGroupLost m lead] }
    s6.reroute s
  | _, _ => s

/-- The attachment serves, or has work outstanding that its loss ends. -/
def State.attached (s : State) (att : Nat) : Bool := ((s.pod.atts[att]?).map Att.verified).getD false

/-- PORT_DOWN (01 R19, 03 R94): a pod port goes down or comes up; with its last port an attachment goes down. -/
def execPortDown (s : State) : Out :=
  match s.call with
  | .portDown port up =>
    let n := portsPerAttachment s.pod.q
    if n = 0 then .next s
    else
      let att := port / n
      match s.pod.atts[att]? with
      | none => .next s
      | some a =>
        let was := s.pod.attUp att
        let s1 : State :=
          { s with pod := { s.pod with atts := s.pod.atts.set att { a with portsUp := a.portsUp.set (port % n) up } } }
        .next (if was && !s1.pod.attUp att then s1.attachmentDown att else s1)
  | _ => .next s

/-- VIRAL (03 R73): loss of that attachment. -/
def execViral (s : State) : Out :=
  match s.call with
  | .viral att => .next (if s.attached att then s.attachmentDown att else s)
  | _ => .next s

/-- A module request has been unanswered for the completion timeout (03 R92). -/
def State.moduleTimedOut (s : State) (att : Nat) : Bool :=
  let late (t : Nat) : Bool := t + s.pod.modTimeout ≤ s.now
  (match s.pod.moduleOf att with
   | some m => s.memReqs.any fun r => keyModule r.key = m && late r.sent
   | none => false)
  || (s.runner.tags.any fun x => x.att = att && late x.sent)
  || s.waves.any fun (w : Wave) => w.pend.any fun (o : PendOp) => o.kind = .service && o.att = att && !o.answered && late o.sent

/-- MODULE_COMPLETION_TIMEOUT (03 R92). -/
def execModuleCompletionTimeout (s : State) : Out :=
  match s.call with
  | .moduleCompletionTimeout att => .next (if s.attached att && s.moduleTimedOut att then s.attachmentDown att else s)
  | _ => .next s

/-! ## The module's side (03 R75) -/

/-- A round broken (R83): GEN goes on, BROKEN is set, the result area stays. -/
def State.breakRound (s : State) (x : Round) : State :=
  let key := moduleKey x.module x.cell
  ((s.recall key 64 true).setRound x.module x.cell none).mirrorCell key ((x.gen + 1) % 65536) 0 true

/-- HEAD_GROUP_LOST (03 R75): the module poisons what the group held any-exclusive, drops it from every sharer set, and
breaks the open rounds that wait for it; a pair that has lost its module for one side is severed (R95). -/
def execHeadGroupLost (s : State) : Out :=
  match s.call with
  | .headGroupLost m lead =>
    let mine (h : ModHolder) : Bool := h.module = m && h.lead = lead
    let s1 := (s.holders.filter fun h => mine h && h.exclusive).foldl (fun (t : State) h =>
      (t.setPoison h.line).setPoison (h.line + 64)) s
    let s2 : State :=
      { s1 with
        holders := s1.holders.filter fun h => !mine h,
        lostHeads := if s1.lostHeads.contains (m, lead) then s1.lostHeads else s1.lostHeads ++ [(m, lead)] }
    .next (((s2.rounds.filter fun x => x.module = m && x.mask.testBit lead).foldl State.breakRound s2).reroute s)
  | _ => .next s

/-! ## Coming up (03 R96, R389) -/

/-- Skolis reads an attachment's capacities and programs the window limits (R389). -/
def State.readCapacities (s : State) (att : Nat) : State :=
  match s.pod.atts[att]? with
  | none => s
  | some a =>
    { s with
      pod := { s.pod with atts := s.pod.atts.set att { a with readCap := a.fabricCap } },
      parts := s.parts.map fun p => { p with windowLimit := p.windowLimit.set att (a.fabricCap.getD p.num 0) } }

/-- An attachment is verified again and serves (R96): its ports are up, the module takes the head group back, the capacities
are read, and packets for its peers go on. -/
def State.attachmentUp (s : State) (att : Nat) : State :=
  match s.pod.moduleOf att, s.pod.atts[att]? with
  | some m, some a =>
    let lead := s.pod.leadOn m
    let ports := if a.portsUp.any id then a.portsUp else a.portsUp.map fun _ => true
    let s1 : State :=
      { s with
        pod := { s.pod with atts := s.pod.atts.set att { a with verified := true, portsUp := ports } },
        lostHeads := s.lostHeads.filter fun x => x ≠ (m, lead) }
    ((s1.readCapacities att).reroute s).rereadTails m
  | _, _ => s

/-- ATTACHMENT_UP (03 R96): of an attachment that is down. -/
def execAttachmentUp (s : State) : Out :=
  match s.call with
  | .attachmentUp att => .next (if s.pod.attUp att then s else s.attachmentUp att)
  | _ => .next s

end Sys2Proof.Machine
end

