-- ==== Sys2Proof/Machine/Regs.lean ====
section
/-!
DEFINITION. The registers a word names as sources and destinations, for the scoreboard (07_execution R164) and the chain
check (09_encoding R210), and the pipe class of its major (09 R209).
-/
namespace Sys2Proof.Machine

/-- A register that a word names; `allV` stands for every vector register (09 R210, VLDX and VSTX). -/
inductive Reg where
  | v (n : Nat)
  | s (n : Nat)
  | p (n : Nat)
  | q (n : Nat)
  | t (n : Nat)
  | a (n : Nat)
  | allV
deriving DecidableEq, Repr

/-- s0, p0 and q0 never count (09 R210). -/
def Reg.counts : Reg → Bool
  | .s n => n ≠ 0
  | .p n => n ≠ 0
  | .q n => n ≠ 0
  | _ => true

/-- Two names overlap. -/
def Reg.meets : Reg → Reg → Bool
  | .allV, .allV => true
  | .allV, .v _ => true
  | .v _, .allV => true
  | x, y => x = y

/-- `n` vector registers from a field up. -/
def vGroup (d : BitVec 6) (n : Nat) : List Reg := (List.range n).map fun i => .v (d.toNat + i)

/-- `n` uniform registers from a field up. -/
def sGroup (d : BitVec 6) (n : Nat) : List Reg := (List.range n).map fun i => .s (d.toNat + i)

/-- The b operand of a "F4[3] = uniform" major. -/
def bReg (u : BitVec 1) (b : BitVec 6) : Reg := if u = 1 then .s b.toNat else .v b.toNat

/-- The registers a word reads (09 R210), before s0, p0 and q0 are left out. `fmt` is FMT at issue. -/
def regsRead (fmt : BitVec 8) : Instr → List Reg
  | .nop => []
  | .uadd _ a b g => [.s a.toNat, .s b.toNat, .q g.toNat]
  | .usub _ a b g => [.s a.toNat, .s b.toNat, .q g.toNat]
  | .umul _ a b g => [.s a.toNat, .s b.toNat, .q g.toNat]
  | .umulh _ a b g => [.s a.toNat, .s b.toNat, .q g.toNat]
  | .umulhu _ a b g => [.s a.toNat, .s b.toNat, .q g.toNat]
  | .uand _ a b g => [.s a.toNat, .s b.toNat, .q g.toNat]
  | .uor _ a b g => [.s a.toNat, .s b.toNat, .q g.toNat]
  | .uxor _ a b g => [.s a.toNat, .s b.toNat, .q g.toNat]
  | .ushl _ a b g => [.s a.toNat, .s b.toNat, .q g.toNat]
  | .ushr _ a b g => [.s a.toNat, .s b.toNat, .q g.toNat]
  | .usar _ a b g => [.s a.toNat, .s b.toNat, .q g.toNat]
  | .umin _ a b g => [.s a.toNat, .s b.toNat, .q g.toNat]
  | .umax _ a b g => [.s a.toNat, .s b.toNat, .q g.toNat]
  | .uminu _ a b g => [.s a.toNat, .s b.toNat, .q g.toNat]
  | .umaxu _ a b g => [.s a.toNat, .s b.toNat, .q g.toNat]
  | .umov _ a g => [.s a.toNat, .q g.toNat]
  | .uaddi _ a _ => [.s a.toNat]
  | .umuli _ a _ => [.s a.toNat]
  | .uandi _ a _ => [.s a.toNat]
  | .uori _ a _ => [.s a.toNat]
  | .uxori _ a _ => [.s a.toNat]
  | .ushli _ a _ => [.s a.toNat]
  | .ushri _ a _ => [.s a.toNat]
  | .usari _ a _ => [.s a.toNat]
  | .ucmp _ _ a b g => [.s a.toNat, .s b.toNat, .q g.toNat]
  | .ucmpi _ _ a _ => [.s a.toNat]
  | .uclz _ a g => [.s a.toNat, .q g.toNat]
  | .upopc _ a g => [.s a.toNat, .q g.toNat]
  | .ubrev _ a g => [.s a.toNat, .q g.toNat]
  | .ubfx _ a b g => [.s a.toNat, .s b.toNat, .q g.toNat]
  | .ubfi d a b g => [.s a.toNat, .s b.toNat, .q g.toNat, .s d.toNat]
  | .usel _ a b q => [.s a.toNat, .s b.toNat, .q q.toNat]
  | .uqop _ a b _ => [.q a.toNat, .q b.toNat]
  | .uqmovTos _ => [.q 1, .q 2, .q 3, .q 4, .q 5, .q 6, .q 7]
  | .uqmovFroms a => [.s a.toNat]
  | .uld32 _ a _ => [.s (a.toNat), .s (a.toNat + 1)]
  | .uld64 _ a _ => [.s (a.toNat), .s (a.toNat + 1)]
  | .ust32 d a _ => [.s (a.toNat), .s (a.toNat + 1), .s d.toNat]
  | .ust64 d a _ => [.s (a.toNat), .s (a.toNat + 1), .s (d.toNat), .s (d.toNat + 1)]
  | .urds _ _ => []
  | .uwrs a _ => [.s a.toNat]
  | .setfmt _ _ => []
  | .bra q _ => [.q q.toNat]
  | .bran q _ => [.q q.toNat]
  | .call q _ => [.q q.toNat]
  | .ret q => [.q q.toNat]
  | .jmpi q a => [.q q.toNat, .s a.toNat]
  | .calli q a => [.q q.toNat, .s a.toNat]
  | .split p _ => [.p p.toNat]
  | .join => []
  | .brkp p => [.p p.toNat]
  | .pmask _ => []
  | .anyp _ p => [.p p.toNat]
  | .allp _ p => [.p p.toNat]
  | .halt => []
  | .yield => []
  | .sleepuntil k => [.s (2 * k.toNat), .s (2 * k.toNat + 1)]
  | .waitline k s y => [.s (2 * k.toNat), .s (2 * k.toNat + 1), .s s.toNat, .s y.toNat]
  | .trap _ => []
  | .bkpt _ => []
  | .rte => []
  | .dispatch a => [.s (a.toNat), .s (a.toNat + 1), .s (a.toNat + 2), .s (a.toNat + 3)]
  | .phasesel => []
  | .phaseend _ => []
  | .vadd u _ a b g => [.v a.toNat, bReg u b, .p g.toNat]
  | .vsub u _ a b g => [.v a.toNat, bReg u b, .p g.toNat]
  | .vmul u _ a b g => [.v a.toNat, bReg u b, .p g.toNat]
  | .vmulh u _ a b g => [.v a.toNat, bReg u b, .p g.toNat]
  | .vmulhu u _ a b g => [.v a.toNat, bReg u b, .p g.toNat]
  | .vmin u _ a b g => [.v a.toNat, bReg u b, .p g.toNat]
  | .vmax u _ a b g => [.v a.toNat, bReg u b, .p g.toNat]
  | .vminu u _ a b g => [.v a.toNat, bReg u b, .p g.toNat]
  | .vand u _ a b g => [.v a.toNat, bReg u b, .p g.toNat]
  | .vor u _ a b g => [.v a.toNat, bReg u b, .p g.toNat]
  | .vxor u _ a b g => [.v a.toNat, bReg u b, .p g.toNat]
  | .vshl u _ a b g => [.v a.toNat, bReg u b, .p g.toNat]
  | .vshr u _ a b g => [.v a.toNat, bReg u b, .p g.toNat]
  | .vsar u _ a b g => [.v a.toNat, bReg u b, .p g.toNat]
  | .vmaxu u _ a b g => [.v a.toNat, bReg u b, .p g.toNat]
  | .vabsd u _ a b g => [.v a.toNat, bReg u b, .p g.toNat]
  | .vaddi _ a _ => [.v a.toNat]
  | .vmuli _ a _ => [.v a.toNat]
  | .vandi _ a _ => [.v a.toNat]
  | .vori _ a _ => [.v a.toNat]
  | .vxori _ a _ => [.v a.toNat]
  | .vshli _ a _ => [.v a.toNat]
  | .vshri _ a _ => [.v a.toNat]
  | .vsari _ a _ => [.v a.toNat]
  | .vicmp u _ _ a b g => [.v a.toNat, bReg u b, .p g.toNat]
  | .vicmpi _ _ a _ => [.v a.toNat]
  | .vclz _ _ a g => [.v a.toNat, .p g.toNat]
  | .vpopc _ _ a g => [.v a.toNat, .p g.toNat]
  | .vbrev _ _ a g => [.v a.toNat, .p g.toNat]
  | .vbfx u _ a b g => [.v a.toNat, bReg u b, .p g.toNat]
  | .vbfi u d a b g => [.v a.toNat, bReg u b, .p g.toNat, .v d.toNat]
  | .vsel u _ a b p => [.v a.toNat, bReg u b, .p p.toNat]
  | .vmad u d a b g => [.v a.toNat, bReg u b, .p g.toNat, .v d.toNat]
  | .vlane _ _ g => [.p g.toNat]
  | .vmov _ a g => [.v a.toNat, .p g.toNat]
  | .vmovs _ s g => [.s s.toNat, .p g.toNat]
  | .vtos _ a _ _ => [.v a.toNat]
  | .vfroms _ s _ g => [.s s.toNat, .p g.toNat]
  | .fadd u _ a b g => [.v a.toNat, bReg u b, .p g.toNat]
  | .fsub u _ a b g => [.v a.toNat, bReg u b, .p g.toNat]
  | .fmul u _ a b g => [.v a.toNat, bReg u b, .p g.toNat]
  | .ffma u d a b g => [.v a.toNat, bReg u b, .p g.toNat, .v d.toNat]
  | .ffnma u d a b g => [.v a.toNat, bReg u b, .p g.toNat, .v d.toNat]
  | .fmin u _ a b g => [.v a.toNat, bReg u b, .p g.toNat]
  | .fmax u _ a b g => [.v a.toNat, bReg u b, .p g.toNat]
  | .fabs _ _ a g => [.v a.toNat, .p g.toNat]
  | .vfcmp u _ _ a b g => [.v a.toNat, bReg u b, .p g.toNat]
  | .frcp _ _ a g => [.v a.toNat, .p g.toNat]
  | .frsq _ _ a g => [.v a.toNat, .p g.toNat]
  | .fsqrt _ _ a g => [.v a.toNat, .p g.toNat]
  | .fdiv u _ a b g => [.v a.toNat, bReg u b, .p g.toNat]
  | .fex2 _ _ a g => [.v a.toNat, .p g.toNat]
  | .flg2 _ _ a g => [.v a.toNat, .p g.toNat]
  | .frint _ _ a g => [.v a.toNat, .p g.toNat]
  | .fclass _ _ a g => [.v a.toNat, .p g.toNat]
  | .b2add u _ a b g => [.v a.toNat, bReg u b, .p g.toNat]
  | .b2sub u _ a b g => [.v a.toNat, bReg u b, .p g.toNat]
  | .b2mul u _ a b g => [.v a.toNat, bReg u b, .p g.toNat]
  | .b2fma u d a b g => [.v a.toNat, bReg u b, .p g.toNat, .v d.toNat]
  | .b2max u _ a b g => [.v a.toNat, bReg u b, .p g.toNat]
  | .b2min u _ a b g => [.v a.toNat, bReg u b, .p g.toNat]
  | .fcvt _ a _ _ g => [.v a.toNat, .p g.toNat]
  | .icvt _ a _ _ g => [.v a.toNat, .p g.toNat]
  | .qpk _ a _ _ => vGroup a (fp32GroupSize fmt)
  | .qunpk _ a s _ => .s s.toNat :: vGroup a (packedGroupSize fmt)
  | .shfl _ a b g => [.v a.toNat, .v b.toNat, .p g.toNat]
  | .shflx _ a _ g => [.v a.toNat, .p g.toNat]
  | .shflup _ a _ g => [.v a.toNat, .p g.toNat]
  | .shfldn _ a _ g => [.v a.toNat, .p g.toNat]
  | .lanebc _ a _ g => [.v a.toNat, .p g.toNat]
  | .vredf _ a _ g => [.v a.toNat, .p g.toNat]
  | .vredi _ a _ g => [.v a.toNat, .p g.toNat]
  | .vscanf _ a _ g => [.v a.toNat, .p g.toNat]
  | .vldx _ a _ => [.allV, .v a.toNat]
  | .vstx d a _ => [.allV, .v a.toNat, .v d.toNat]
  | .pand _ a b g => [.p a.toNat, .p b.toNat, .p g.toNat]
  | .por _ a b g => [.p a.toNat, .p b.toNat, .p g.toNat]
  | .pxor _ a b g => [.p a.toNat, .p b.toNat, .p g.toNat]
  | .pandn _ a b g => [.p a.toNat, .p b.toNat, .p g.toNat]
  | .pnot _ a g => [.p a.toNat, .p g.toNat]
  | .pmov _ a g => [.p a.toNat, .p g.toNat]
  | .pset _ _ g => [.p g.toNat]
  | .vballot _ a g => [.p a.toNat, .p g.toNat]
  | .vmcnt _ a g => [.p a.toNat, .p g.toNat]
  | .ldg _ _ _ _ o k _ => [.v o.toNat, .s (2 * k.toNat), .s (2 * k.toNat + 1)]
  | .stg z _ _ d o k _ => vGroup d (if z = 3 then 2 else 1) ++ [.v o.toNat, .s (2 * k.toNat), .s (2 * k.toNat + 1)]
  | .ldq _ _ _ _ o k _ => [.v o.toNat, .s (2 * k.toNat), .s (2 * k.toNat + 1)]
  | .stq z _ _ d o k _ => vGroup d (if z = 3 then 2 else 1) ++ [.v o.toNat, .s (2 * k.toNat), .s (2 * k.toNat + 1)]
  | .gather _ _ _ _ o k _ => [.v o.toNat, .s (2 * k.toNat), .s (2 * k.toNat + 1)]
  | .scatter z _ _ d o k _ => vGroup d (if z = 3 then 2 else 1) ++ [.v o.toNat, .s (2 * k.toNat), .s (2 * k.toNat + 1)]
  | .atomg p w _ _ d o k => vGroup d ((if w = 1 then 2 else 1) * (if p = 7 then 2 else 1)) ++ [.v o.toNat, .s (2 * k.toNat), .s (2 * k.toNat + 1)]
  | .atomq p _ _ _ d o k => vGroup d (if p = 7 then 2 else 1) ++ [.v o.toNat, .s (2 * k.toNat), .s (2 * k.toNat + 1)]
  | .fence _ => []
  | .fenceacq _ => []
  | .fencerel _ => []
  | .fenceeng _ => []
  | .pref o k _ => [.v o.toNat, .s (2 * k.toNat), .s (2 * k.toNat + 1)]
  | .wbl o k _ => [.v o.toNat, .s (2 * k.toNat), .s (2 * k.toNat + 1)]
  | .invl o k _ => [.v o.toNat, .s (2 * k.toNat), .s (2 * k.toNat + 1)]
  | .flushl o k _ => [.v o.toNat, .s (2 * k.toNat), .s (2 * k.toNat + 1)]
  | .rowpin _ k => [.s (2 * k.toNat), .s (2 * k.toNat + 1)]
  | .rowunpin _ a => [.s a.toNat]
  | .rowqry _ a => [.s a.toNat]
  | .mqput k _ r => [.s (2 * k.toNat), .s (2 * k.toNat + 1), .v r.toNat]
  | .mqget k _ _ => [.s (2 * k.toNat), .s (2 * k.toNat + 1)]
  | .mred k _ r => [.s (2 * k.toNat), .s (2 * k.toNat + 1), .v (r.toNat), .v (r.toNat + 1)]
  | .mredrd k d _ => [.s (2 * k.toNat), .s (2 * k.toNat + 1), .s (d.toNat + 1)]
  | .matom k _ r w _ => [.s (2 * k.toNat), .s (2 * k.toNat + 1)] ++ sGroup r (if w = 1 then 4 else 2)
  | .rwri k ctl r => [.s (2 * k.toNat), .s (2 * k.toNat + 1), .s (2 * ctl.toNat), .s (2 * ctl.toNat + 1), .v r.toNat]
  | .rrd k ctl _ => [.s (2 * k.toNat), .s (2 * k.toNat + 1), .s (2 * ctl.toNat), .s (2 * ctl.toNat + 1)]
  | .ratom k ctl r => [.s (2 * k.toNat), .s (2 * k.toNat + 1), .s (2 * ctl.toNat), .s (2 * ctl.toNat + 1), .v r.toNat]
  | .nqwait _ y => [.s y.toNat]
  | .tbinit k _ _ r => [.s (2 * k.toNat), .s (2 * k.toNat + 1), .s r.toNat]
  | .tbarrive k _ _ r => [.s (2 * k.toNat), .s (2 * k.toNat + 1), .s r.toNat]
  | .tbexpect k _ _ r => [.s (2 * k.toNat), .s (2 * k.toNat + 1), .s r.toNat]
  | .tbwait k _ _ r => [.s (2 * k.toNat), .s (2 * k.toNat + 1), .s r.toNat]
  | .tbquery k _ _ _ => [.s (2 * k.toNat), .s (2 * k.toNat + 1)]
  | .barsync _ _ r => [.s r.toNat]
  | .bararrive _ _ r _ => [.s r.toNat]
  | .barwait _ _ r => [.s r.toNat]
  | .gatepost _ a => [.s a.toNat]
  | .gatetake _ a y => [.s a.toNat, .s y.toNat]
  | .gatepoll _ a => [.s a.toNat]
  | .mloop _ t u _ _ _ _ => [.t t.toNat, .t u.toNat]
  | .mstep _ v w f _ _ g => vGroup v (mstepRegs f.toNat) ++ vGroup w (mstepRegs g.toNat)
  | .mdrain a d t _ _ => [.t d.toNat, .t t.toNat, .a a.toNat]
  | .mzero _ => []
  | .mwait a => [.a a.toNat]
  | .mload _ t => [.t t.toNat]
  | .mqry a _ => [.a a.toNat]
  | .tset _ a => [.s (a.toNat), .s (a.toNat + 1), .s (a.toNat + 2), .s (a.toNat + 3)]
  | .tget _ t => [.t t.toNat]
  | .tplset _ t a => [.t t.toNat, .s a.toNat]
  | .ctrsel _ a => [.s a.toNat]
  | .ctrrd _ _ => []
  | .ctrctl _ a => [.s a.toNat]
  | .lateError => []
  | .contextTake => []
  | .sleepuntilWake => []
  | .waitlineWake => []
  | .waitlineTimeout => []
  | .nqwaitWake => []
  | .nqwaitTimeout => []
  | .gatetakeWake => []
  | .gatetakeTimeout => []
  | .missedPromise => []
  | .watchdog => []
  | .launchComplete => []
  | .accessComplete => []
  | .qspBankService => []
  | .writeQueueMerge => []
  | .pageWalk => []
  | .walkComplete => []
  | .directoryRequest => []
  | .atomicUnitOp => []
  | .gatherPacket => []
  | .memCompletion => []
  | .bisnpinv => []
  | .bisnpdata => []
  | .bisnpcur => []
  | .biconflictack => []
  | .kweutResponse => []
  | .moduleCompletionTimeout => []
  | .relayTimeout => []
  | .qput => []
  | .qget => []
  | .atom => []
  | .red => []
  | .redrd => []
  | .headGroupLost => []
  | .rwriPacket => []
  | .rrdPacket => []
  | .ratomPacket => []
  | .relayedRead => []
  | .relayedWrite => []
  | .relayedAtomic => []
  | .ack => []
  | .nak => []
  | .fault => []
  | .resume => []
  | .resp => []
  | .busyNakResend => []
  | .ackInterval => []
  | .qputRetry => []
  | .relayContextFetch => []
  | .portDown => []
  | .viral => []
  | .attachmentUp => []
  | .linkCrcFailure => []
  | .retrainComplete => []
  | .refresh => []
  | .copyAccept => []
  | .land => []
  | .chstatClear => []
  | .engineGrant => []
  | .passComplete => []
  | .counterAdd => []
  | .wayMove => []
  | .quantumExpiry => []
  | .switchSave => []
  | .hostQueuePost => []
  | .hostMemRead => []
  | .hostMemWrite => []
  | .registerWrite => []
  | .rlyctxsizeTakesEffect => []
  | .xltinvcPage => []
  | .xltinvcAsid => []
  | .xltinvcPartition => []
  | .xltinvcComplete => []
  | .mailboxDoorbell => []
  | .revokeComplete => []
  | .resetRelease => []
  | .stageAdvance => []
  | .thermalThrottle => []
  | .thermalShutdown => []
  | .getLdInfo => []
  | .getLdAllocations => []
  | .setLdAllocations => []
  | .getQosControl => []
  | .setQosControl => []
  | .getQosStatus => []
  | .ident => []
  | .attest => []
  | .featget => []
  | .featset => []
  | .partcreate => []
  | .partdestroy => []
  | .partsetHoldPolicy => []
  | .partsetWatchdog => []
  | .partsetQuantum => []
  | .partsetWays => []
  | .partsetQuota => []
  | .partsetGrant => []
  | .launch => []
  | .wswitch => []
  | .replay => []
  | .fatal => []
  | .errlogSetRing => []
  | .errlogReadRas => []
  | .errlogClearRas => []
  | .hqset => []
  | .regreg => []
  | .regrevoke => []
  | .gatecreate => []
  | .gatefreeze => []
  | .gateexport => []
  | .gateimport => []
  | .gatethaw => []
  | .gatedestroy => []
  | .podconfigGroups => []
  | .podconfigPrivilege => []
  | .podconfigTimeouts => []
  | .podconfigRoutes => []
  | .podconfigCapacities => []
  | .podctlClearDeadpeer => []
  | .podctlDown => []
  | .podctlRetrain => []
  | .dbgopenOpen => []
  | .dbgopenClose => []
  | .dbgctlStop => []
  | .dbgctlStep => []
  | .dbgctlResume => []
  | .dbgctlCoreStop => []
  | .dbgctlCoreResume => []
  | .ctrwrite => []
  | .illegalInstruction => []
  | .packetForward => []
  | .bindVppb => []
  | .unbindVppb => []
  | .spillComplete => []

/-- The registers a word writes (09 R210), before s0, p0 and q0 are left out. `fmt` is FMT at issue. -/
def regsWritten (fmt : BitVec 8) : Instr → List Reg
  | .nop => []
  | .uadd d _ _ _ => [.s d.toNat]
  | .usub d _ _ _ => [.s d.toNat]
  | .umul d _ _ _ => [.s d.toNat]
  | .umulh d _ _ _ => [.s d.toNat]
  | .umulhu d _ _ _ => [.s d.toNat]
  | .uand d _ _ _ => [.s d.toNat]
  | .uor d _ _ _ => [.s d.toNat]
  | .uxor d _ _ _ => [.s d.toNat]
  | .ushl d _ _ _ => [.s d.toNat]
  | .ushr d _ _ _ => [.s d.toNat]
  | .usar d _ _ _ => [.s d.toNat]
  | .umin d _ _ _ => [.s d.toNat]
  | .umax d _ _ _ => [.s d.toNat]
  | .uminu d _ _ _ => [.s d.toNat]
  | .umaxu d _ _ _ => [.s d.toNat]
  | .umov d _ _ => [.s d.toNat]
  | .uaddi d _ _ => [.s d.toNat]
  | .umuli d _ _ => [.s d.toNat]
  | .uandi d _ _ => [.s d.toNat]
  | .uori d _ _ => [.s d.toNat]
  | .uxori d _ _ => [.s d.toNat]
  | .ushli d _ _ => [.s d.toNat]
  | .ushri d _ _ => [.s d.toNat]
  | .usari d _ _ => [.s d.toNat]
  | .ucmp _ q _ _ _ => [.q q.toNat]
  | .ucmpi _ q _ _ => [.q q.toNat]
  | .uclz d _ _ => [.s d.toNat]
  | .upopc d _ _ => [.s d.toNat]
  | .ubrev d _ _ => [.s d.toNat]
  | .ubfx d _ _ _ => [.s d.toNat]
  | .ubfi d _ _ _ => [.s d.toNat]
  | .usel d _ _ _ => [.s d.toNat]
  | .uqop d _ _ _ => [.q d.toNat]
  | .uqmovTos d => [.s d.toNat]
  | .uqmovFroms _ => [.q 1, .q 2, .q 3, .q 4, .q 5, .q 6, .q 7]
  | .uld32 d _ _ => [.s d.toNat]
  | .uld64 d _ _ => [.s (d.toNat), .s (d.toNat + 1)]
  | .ust32 _ _ _ => []
  | .ust64 _ _ _ => []
  | .urds d _ => [.s d.toNat]
  | .uwrs _ _ => []
  | .setfmt _ _ => []
  | .bra _ _ => []
  | .bran _ _ => []
  | .call _ _ => []
  | .ret _ => []
  | .jmpi _ _ => []
  | .calli _ _ => []
  | .split _ _ => []
  | .join => []
  | .brkp _ => []
  | .pmask d => [.s (d.toNat), .s (d.toNat + 1)]
  | .anyp d _ => [.q d.toNat]
  | .allp d _ => [.q d.toNat]
  | .halt => []
  | .yield => []
  | .sleepuntil _ => []
  | .waitline _ _ _ => []
  | .trap _ => []
  | .bkpt _ => []
  | .rte => []
  | .dispatch _ => []
  | .phasesel => []
  | .phaseend _ => []
  | .vadd _ d _ _ _ => [.v d.toNat]
  | .vsub _ d _ _ _ => [.v d.toNat]
  | .vmul _ d _ _ _ => [.v d.toNat]
  | .vmulh _ d _ _ _ => [.v d.toNat]
  | .vmulhu _ d _ _ _ => [.v d.toNat]
  | .vmin _ d _ _ _ => [.v d.toNat]
  | .vmax _ d _ _ _ => [.v d.toNat]
  | .vminu _ d _ _ _ => [.v d.toNat]
  | .vand _ d _ _ _ => [.v d.toNat]
  | .vor _ d _ _ _ => [.v d.toNat]
  | .vxor _ d _ _ _ => [.v d.toNat]
  | .vshl _ d _ _ _ => [.v d.toNat]
  | .vshr _ d _ _ _ => [.v d.toNat]
  | .vsar _ d _ _ _ => [.v d.toNat]
  | .vmaxu _ d _ _ _ => [.v d.toNat]
  | .vabsd _ d _ _ _ => [.v d.toNat]
  | .vaddi d _ _ => [.v d.toNat]
  | .vmuli d _ _ => [.v d.toNat]
  | .vandi d _ _ => [.v d.toNat]
  | .vori d _ _ => [.v d.toNat]
  | .vxori d _ _ => [.v d.toNat]
  | .vshli d _ _ => [.v d.toNat]
  | .vshri d _ _ => [.v d.toNat]
  | .vsari d _ _ => [.v d.toNat]
  | .vicmp _ _ d _ _ _ => [.p d.toNat]
  | .vicmpi _ d _ _ => [.p d.toNat]
  | .vclz _ d _ _ => [.v d.toNat]
  | .vpopc _ d _ _ => [.v d.toNat]
  | .vbrev _ d _ _ => [.v d.toNat]
  | .vbfx _ d _ _ _ => [.v d.toNat]
  | .vbfi _ d _ _ _ => [.v d.toNat]
  | .vsel _ d _ _ _ => [.v d.toNat]
  | .vmad _ d _ _ _ => [.v d.toNat]
  | .vlane _ d _ => [.v d.toNat]
  | .vmov d _ _ => [.v d.toNat]
  | .vmovs d _ _ => [.v d.toNat]
  | .vtos s _ _ _ => [.s s.toNat]
  | .vfroms d _ _ _ => [.v d.toNat]
  | .fadd _ d _ _ _ => [.v d.toNat]
  | .fsub _ d _ _ _ => [.v d.toNat]
  | .fmul _ d _ _ _ => [.v d.toNat]
  | .ffma _ d _ _ _ => [.v d.toNat]
  | .ffnma _ d _ _ _ => [.v d.toNat]
  | .fmin _ d _ _ _ => [.v d.toNat]
  | .fmax _ d _ _ _ => [.v d.toNat]
  | .fabs _ d _ _ => [.v d.toNat]
  | .vfcmp _ _ d _ _ _ => [.p d.toNat]
  | .frcp _ d _ _ => [.v d.toNat]
  | .frsq _ d _ _ => [.v d.toNat]
  | .fsqrt _ d _ _ => [.v d.toNat]
  | .fdiv _ d _ _ _ => [.v d.toNat]
  | .fex2 _ d _ _ => [.v d.toNat]
  | .flg2 _ d _ _ => [.v d.toNat]
  | .frint _ d _ _ => [.v d.toNat]
  | .fclass _ d _ _ => [.v d.toNat]
  | .b2add _ d _ _ _ => [.v d.toNat]
  | .b2sub _ d _ _ _ => [.v d.toNat]
  | .b2mul _ d _ _ _ => [.v d.toNat]
  | .b2fma _ d _ _ _ => [.v d.toNat]
  | .b2max _ d _ _ _ => [.v d.toNat]
  | .b2min _ d _ _ _ => [.v d.toNat]
  | .fcvt d _ _ _ _ => [.v d.toNat]
  | .icvt d _ _ _ _ => [.v d.toNat]
  | .qpk d _ s _ => .s s.toNat :: vGroup d (packedGroupSize fmt)
  | .qunpk d _ _ _ => vGroup d (fp32GroupSize fmt)
  | .shfl d _ _ _ => [.v d.toNat]
  | .shflx d _ _ _ => [.v d.toNat]
  | .shflup d _ _ _ => [.v d.toNat]
  | .shfldn d _ _ _ => [.v d.toNat]
  | .lanebc d _ _ _ => [.v d.toNat]
  | .vredf d _ _ _ => [.v d.toNat]
  | .vredi d _ _ _ => [.v d.toNat]
  | .vscanf d _ _ _ => [.v d.toNat]
  | .vldx _ _ _ => [.allV]
  | .vstx _ _ _ => [.allV]
  | .pand d _ _ _ => [.p d.toNat]
  | .por d _ _ _ => [.p d.toNat]
  | .pxor d _ _ _ => [.p d.toNat]
  | .pandn d _ _ _ => [.p d.toNat]
  | .pnot d _ _ => [.p d.toNat]
  | .pmov d _ _ => [.p d.toNat]
  | .pset d _ _ => [.p d.toNat]
  | .vballot s _ _ => [.s (s.toNat), .s (s.toNat + 1)]
  | .vmcnt d _ _ => [.v d.toNat]
  | .ldg z _ _ d _ _ _ => vGroup d (if z = 3 then 2 else 1)
  | .stg _ _ _ _ _ _ _ => []
  | .ldq z _ _ d _ _ _ => vGroup d (if z = 3 then 2 else 1)
  | .stq _ _ _ _ _ _ _ => []
  | .gather z _ _ d _ _ _ => vGroup d (if z = 3 then 2 else 1)
  | .scatter _ _ _ _ _ _ _ => []
  | .atomg _ w _ _ d _ _ => vGroup d (if w = 1 then 2 else 1)
  | .atomq _ _ _ _ d _ _ => [.v d.toNat]
  | .fence _ => []
  | .fenceacq _ => []
  | .fencerel _ => []
  | .fenceeng _ => []
  | .pref _ _ _ => []
  | .wbl _ _ _ => []
  | .invl _ _ _ => []
  | .flushl _ _ _ => []
  | .rowpin d _ => [.s (d.toNat), .s (d.toNat + 1)]
  | .rowunpin d _ => [.s d.toNat]
  | .rowqry d _ => [.s d.toNat]
  | .mqput _ d _ => [.s d.toNat]
  | .mqget _ d r => [.s d.toNat, .v r.toNat]
  | .mred _ d _ => [.s (d.toNat), .s (d.toNat + 1)]
  | .mredrd _ d r => [.s (d.toNat), .s (d.toNat + 1), .v (r.toNat), .v (r.toNat + 1)]
  | .matom _ d _ w _ => sGroup d (if w = 1 then 4 else 2)
  | .rwri _ _ _ => []
  | .rrd _ _ r => [.v r.toNat]
  | .ratom _ _ r => [.v r.toNat]
  | .nqwait d _ => [.s (d.toNat), .s (d.toNat + 1)]
  | .tbinit _ _ _ _ => []
  | .tbarrive _ _ _ _ => []
  | .tbexpect _ _ _ _ => []
  | .tbwait _ _ _ _ => []
  | .tbquery _ _ _ r => [.s (r.toNat), .s (r.toNat + 1), .s (r.toNat + 2), .s (r.toNat + 3)]
  | .barsync _ _ _ => []
  | .bararrive _ _ _ d => [.s d.toNat]
  | .barwait _ _ _ => []
  | .gatepost d _ => [.s d.toNat]
  | .gatetake d _ _ => [.s d.toNat]
  | .gatepoll d _ => [.s d.toNat]
  | .mloop a _ _ _ _ _ _ => [.a a.toNat]
  | .mstep a _ _ _ _ _ _ => [.a a.toNat]
  | .mdrain _ _ _ _ _ => []
  | .mzero a => [.a a.toNat]
  | .mwait _ => []
  | .mload a _ => [.a a.toNat]
  | .mqry _ d => [.s (d.toNat), .s (d.toNat + 1)]
  | .tset t _ => [.t t.toNat]
  | .tget d _ => [.s (d.toNat), .s (d.toNat + 1), .s (d.toNat + 2), .s (d.toNat + 3)]
  | .tplset d _ _ => [.t d.toNat]
  | .ctrsel _ _ => []
  | .ctrrd d _ => [.s (d.toNat), .s (d.toNat + 1)]
  | .ctrctl d _ => [.s d.toNat]
  | .lateError => []
  | .contextTake => []
  | .sleepuntilWake => []
  | .waitlineWake => []
  | .waitlineTimeout => []
  | .nqwaitWake => []
  | .nqwaitTimeout => []
  | .gatetakeWake => []
  | .gatetakeTimeout => []
  | .missedPromise => []
  | .watchdog => []
  | .launchComplete => []
  | .accessComplete => []
  | .qspBankService => []
  | .writeQueueMerge => []
  | .pageWalk => []
  | .walkComplete => []
  | .directoryRequest => []
  | .atomicUnitOp => []
  | .gatherPacket => []
  | .memCompletion => []
  | .bisnpinv => []
  | .bisnpdata => []
  | .bisnpcur => []
  | .biconflictack => []
  | .kweutResponse => []
  | .moduleCompletionTimeout => []
  | .relayTimeout => []
  | .qput => []
  | .qget => []
  | .atom => []
  | .red => []
  | .redrd => []
  | .headGroupLost => []
  | .rwriPacket => []
  | .rrdPacket => []
  | .ratomPacket => []
  | .relayedRead => []
  | .relayedWrite => []
  | .relayedAtomic => []
  | .ack => []
  | .nak => []
  | .fault => []
  | .resume => []
  | .resp => []
  | .busyNakResend => []
  | .ackInterval => []
  | .qputRetry => []
  | .relayContextFetch => []
  | .portDown => []
  | .viral => []
  | .attachmentUp => []
  | .linkCrcFailure => []
  | .retrainComplete => []
  | .refresh => []
  | .copyAccept => []
  | .land => []
  | .chstatClear => []
  | .engineGrant => []
  | .passComplete => []
  | .counterAdd => []
  | .wayMove => []
  | .quantumExpiry => []
  | .switchSave => []
  | .hostQueuePost => []
  | .hostMemRead => []
  | .hostMemWrite => []
  | .registerWrite => []
  | .rlyctxsizeTakesEffect => []
  | .xltinvcPage => []
  | .xltinvcAsid => []
  | .xltinvcPartition => []
  | .xltinvcComplete => []
  | .mailboxDoorbell => []
  | .revokeComplete => []
  | .resetRelease => []
  | .stageAdvance => []
  | .thermalThrottle => []
  | .thermalShutdown => []
  | .getLdInfo => []
  | .getLdAllocations => []
  | .setLdAllocations => []
  | .getQosControl => []
  | .setQosControl => []
  | .getQosStatus => []
  | .ident => []
  | .attest => []
  | .featget => []
  | .featset => []
  | .partcreate => []
  | .partdestroy => []
  | .partsetHoldPolicy => []
  | .partsetWatchdog => []
  | .partsetQuantum => []
  | .partsetWays => []
  | .partsetQuota => []
  | .partsetGrant => []
  | .launch => []
  | .wswitch => []
  | .replay => []
  | .fatal => []
  | .errlogSetRing => []
  | .errlogReadRas => []
  | .errlogClearRas => []
  | .hqset => []
  | .regreg => []
  | .regrevoke => []
  | .gatecreate => []
  | .gatefreeze => []
  | .gateexport => []
  | .gateimport => []
  | .gatethaw => []
  | .gatedestroy => []
  | .podconfigGroups => []
  | .podconfigPrivilege => []
  | .podconfigTimeouts => []
  | .podconfigRoutes => []
  | .podconfigCapacities => []
  | .podctlClearDeadpeer => []
  | .podctlDown => []
  | .podctlRetrain => []
  | .dbgopenOpen => []
  | .dbgopenClose => []
  | .dbgctlStop => []
  | .dbgctlStep => []
  | .dbgctlResume => []
  | .dbgctlCoreStop => []
  | .dbgctlCoreResume => []
  | .ctrwrite => []
  | .illegalInstruction => []
  | .packetForward => []
  | .bindVppb => []
  | .unbindVppb => []
  | .spillComplete => []

/-- The pipe classes (09 R209). -/
inductive PipeClass where
  | h | u | c | v | m | e
deriving DecidableEq, Repr

/-- The class of a major (09 R209); undefined majors count as hints, which never chain. -/
def pipeClass (major : Nat) : PipeClass :=
  if major < 2 then .h
  else if major = 7 then .m
  else if major < 7 then .u
  else if 8 ≤ major && major ≤ 0x0C then .c
  else if (0x10 ≤ major && major ≤ 0x16) || (0x18 ≤ major && major ≤ 0x1C) || (0x20 ≤ major && major ≤ 0x22) then .v
  else if 0x28 ≤ major && major ≤ 0x37 then .m
  else if 0x38 ≤ major && major ≤ 0x3D then .e
  else .h

/-- Some register of one list meets one of the other. -/
def regsMeet (xs ys : List Reg) : Bool := (xs.filter Reg.counts).any fun x => (ys.filter Reg.counts).any fun y => x.meets y

/-- Case 0x04 of the chain check (09 R210): one word writes a register that the other reads, or both write one. -/
def chainDependent (fmt : BitVec 8) (i j : Instr) : Bool :=
  regsMeet (regsWritten fmt i) (regsRead fmt j) || regsMeet (regsWritten fmt j) (regsRead fmt i)
    || regsMeet (regsWritten fmt i) (regsWritten fmt j)

end Sys2Proof.Machine
end

