-- ==== Sys2Proof/Machine/Fetch.lean ====
section
/-!
DEFINITION. Fetching a packet (09_encoding R205, R225), the readiness of units and their selection (07_execution R163 to
R167, R183, R184, R187), and the chain check (09 R208 to R210).
-/
namespace Sys2Proof.Machine

/-! ## Fetch -/

/-- What a fetch gives: the packet, or the state in which the unit waits or has trapped. -/
inductive Fetched where
  | packet (s : State) (p : FetchedPacket)
  | stop (s : State)
deriving DecidableEq, Repr

/-- A packet of the quad's instruction cache, filled from the L2 when it is not there (09 R225); a poisoned packet is not
kept. DESIGN CHOICE (log 56): the cache gives up no packet before a LAUNCH empties it, so that where the spec lets a wave see either
version of a rewritten packet, one that the quad has cached is the old one. -/
def State.icacheRead (s : State) (quad key : Nat) (down : Bool) : State × ICacheEntry :=
  match s.icache.find? fun e => e.quad = quad && e.key = key with
  | some e => (s, e)
  | none =>
    let e : ICacheEntry :=
      { quad := quad, key := key, words := wordsOfBytes 4 (s.peek key 16), poison := down || s.anyPoison key 16 }
    let s1 := if down then s else s.arrayAccess key
    if e.poison then (s1, e) else ({ s1 with icache := s1.icache ++ [e] }, e)

/-- A fetch of a packet waits for its line, which the quad's instruction cache does not hold. -/
def State.fetchHeld (s : State) (quad key : Nat) : Bool :=
  !(s.icache.any fun e => e.quad = quad && e.key = key) && s.lineHeld key

/-- The packet at a unit's pc (09 R205). A refused fetch, and a poisoned packet, trap on word 0. -/
def State.fetch (s : State) (w : Wave) (i : Issue) (u : UnitSt) : Fetched :=
  match u.ibuf.filter fun p => p.off = i.off with
  | some p => .packet s p
  | none =>
    let va := s.codeVa w i.off
    match s.waveXlate w u va 16 .fetch with
    | .miss pg => .stop (s.waitForWalks w i [pg])
    | .deny sub level => .stop (s.refuseWord w i i.off va sub level .fetch false)
    | .ok pa _ =>
      match keyOfPa s.pod pa with
      | none => .stop (s.refuseWord w i i.off va 6 15 .fetch false)
      | some key =>
        let down := match physPlace pa with
          | .hbm d _ => s.stackDown d
          | _ => false
        if s.fetchHeld (coreQuad w.core) key then .stop s.stall else
        let (s1, e) := s.icacheRead (coreQuad w.core) key down
        if e.poison then .stop ((s1.enterTrap w i.arm i.off 6 0 va false .none).trapped)
        else
          let p : FetchedPacket := { off := i.off, words := e.words, poison := false }
          .packet (s1.setWave (w.setUnit i.arm { u with ibuf := some p })) p

/-! ## Readiness -/

/-- An arm that the other arm holds out: by a call (10 R237), or by a handler that it runs (14 R334). -/
def Wave.heldOut (w : Wave) (a : Arm) : Bool :=
  (match w.callArm with | some (b, _) => b ≠ a | none => false)
    || (match w.handler with | some h => w.divergent && 0 < h.depth && h.arm ≠ a | none => false)

/-- A unit that is a runnable arm or the converged wave, and waits for nothing (07 R178). -/
def Wave.unitReady (w : Wave) (a : Arm) : Bool :=
  (a = .t || w.divergent) && (w.unit a).mask ≠ 0 && !(w.unit a).atJoin && (w.unit a).wait = .none
    && w.unitT.wait ≠ .spill && w.unitE.wait ≠ .spill && !w.heldOut a

/-- A wave that could issue, its units apart: resident, not stopped, its partition on its slices, its die not gated in this
cycle (07 R166, 14 R338, R342; 15 R360: which cycles are gated is the model's choice, log 2). -/
def State.waveLive (s : State) (w : Wave) : Bool :=
  w.status = .running && !w.saved && !w.dbgStop && s.holdsSet w.part && !s.dev.off
    && !(s.switches.any fun x => (s.setOf w.part).map SliceSet.num = some x.set)
    && s.dev.throttle.getD (coreDie w.core) 0 ≤ s.now % 16

/-- The unit that a single step is confined to (14 R343). -/
def Wave.stepAllows (w : Wave) (a : Arm) : Bool :=
  match w.dbgStep with
  | some (some b) => a = b
  | some none => a = .t || !w.unitReady .t
  | none => true

/-- The registers that an operation under way still owes. -/
def Wave.owes (w : Wave) (o : PendOp) : List Reg :=
  let vec (base : Nat) (wide : Bool) : List Reg :=
    (if w.winBase ≤ base then [.v (base - w.winBase)] else [])
      ++ (if wide && w.winBase ≤ base + 1 then [.v (base + 1 - w.winBase)] else [])
  match o.dest with
  | .none => []
  | .table => []
  | .vec b wd => vec b wd
  | .uni sd wd => .s sd :: (if wd then [.s (sd + 1)] else [])
  | .kweut k sd b wd =>
    [.s sd] ++ (if k = 1 || k = 4 || k = 5 then [.s (sd + 1)] else [])
      ++ (if k = 1 && wd then [.s (sd + 2), .s (sd + 3)] else []) ++ (if k = 3 || k = 5 then vec b (decide (k = 5)) else [])
  | .bytes b _ => vec b false
  | .ratom b wd => vec b wd

/-- Registers that operations under way still owe to a unit: its own, and those the wave had issued as one (07 R180). -/
def Wave.owed (w : Wave) (a : Arm) : List Reg := (w.pend.filter fun o => o.of a).flatMap w.owes

/-- Owed registers hold a word up: it reads or writes one of them; a branch of the frame, which renames registers, waits for all. -/
def holdsUp (owed : List Reg) (fmt : BitVec 8) (i : Instr) : Bool :=
  regsMeet owed (regsRead fmt i) || regsMeet owed (regsWritten fmt i)
    || (owed ≠ [] && (match i with
      | .call _ _ => true
      | .calli _ _ => true
      | .ret _ => true
      | _ => false))

/-- The word's sources and destinations are ready (07 R164): nothing under way still owes one of them. VLDX waits for every
earlier write (11 R273). -/
def Wave.sourcesReady (w : Wave) (a : Arm) (fmt : BitVec 8) (i : Instr) : Bool := !holdsUp (w.owed a) fmt i

/-- The word index of an offset. -/
def wordIndex (pc : Nat) : Nat := pc % 16 / 4

/-- The instruction at a unit's pc, when its packet has been fetched. -/
def UnitSt.nextInstr (u : UnitSt) : Option Instr :=
  match u.ibuf with
  | none => none
  | some p =>
    if p.off = u.pc / 16 * 16 then
      match decodeWord (p.words.getD (wordIndex u.pc) 0).toNat with
      | .ok i => some i
      | .error _ => none
    else none

/-- Nothing keeps the unit from issuing its next word but selection: it is ready in the sense of 07 R183 and R184. -/
def Wave.unitIssues (w : Wave) (a : Arm) : Bool :=
  w.unitReady a && (match (w.unit a).nextInstr with
    | some i => w.sourcesReady a (w.unit a).fmt i
    | none => true)

/-! ## Parking (07 R166) -/

/-- A wait in which a wave parks; a unit that waits for a walk, an operation or the spill engine has not parked. -/
def Wait.parks : Wait → Bool
  | .none => false
  | .walk _ => false
  | .spill => false
  | .op _ => false
  | _ => true

/-- Data of a load comes from beyond the L2, and has not come: from HBM, a module, a relay or a remote operation; what some die's L2
holds comes from there (02 R55). -/
def State.beyondL2 (s : State) (o : PendOp) : Bool :=
  (o.dest ≠ .none && o.parts.any fun p => !p.done && (match p.route with
    | .qsp _ => false
    | .runner => true
    | .cache => !((s.l2Holders (lineKey p.key)).any fun l => l.valid p.key)
    | .atomicUnit => !s.holds (homeDie s.pod (lineKey p.key)) p.key
    | .gather d => !s.holds d p.key))
    || ((o.kind = .service || o.kind = .rrd || o.kind = .ratom) && !o.answered)

/-- The unit waits for such a load: its next word needs a register of it, or its acquire is one. -/
def State.waitsBeyond (s : State) (w : Wave) (a : Arm) : Bool :=
  w.pend.any fun o => o.of a && s.beyondL2 o
    && ((w.unit a).wait = .op o.id || (match (w.unit a).nextInstr with
      | some i => holdsUp (w.owes o) (w.unit a).fmt i
      | none => false))

/-- A unit that is a runnable arm or the converged wave, and has not parked. -/
def State.unitAwake (s : State) (w : Wave) (a : Arm) : Bool :=
  (a = .t || w.divergent) && (w.unit a).mask ≠ 0 && !(w.unit a).atJoin && !w.heldOut a && !(w.unit a).wait.parks
    && !s.waitsBeyond w a

/-- A wave that has not parked, or whose parking has ended (07 R166, R167). -/
def State.waveReady (s : State) (w : Wave) : Bool := s.unitAwake w .t || s.unitAwake w .e

/-- A unit that the slot may select (07 R183). -/
def State.selectable (s : State) (w : Wave) (a : Arm) : Bool :=
  s.waveLive w && w.ctx.isSome && w.ctxAt ≤ s.now && w.stepAllows a && w.unitIssues a

/-! ## Selection (07 R183, R184) -/

/-- A candidate of selection. -/
structure Cand where
  wave : Wave
  arm : Arm
  core : Nat
  slot : Nat
  wait : Nat
  prio : Nat
deriving DecidableEq, Repr

/-- The cycles a unit has waited (07 R183). -/
def State.waited (s : State) (u : UnitSt) : Nat := s.now - max u.lastIssue u.ready

/-- The candidate of a unit, with its effective priority (07 R183). -/
def State.cand (s : State) (w : Wave) (a : Arm) : Cand :=
  let wait := s.waited (w.unit a)
  { wave := w, arm := a, core := w.core, slot := w.slot, wait := wait,
    prio := ((s.launch? w.seq).map Launch.prio).getD 0 + min 7 (wait / 512) }

/-- All selectable units. -/
def State.cands (s : State) : List Cand :=
  s.waves.flatMap fun w =>
    (if s.selectable w .t then [s.cand w .t] else []) ++ (if s.selectable w .e then [s.cand w .e] else [])

/-- A unit is older than another by its launch, its WID and its arm (07 R183). -/
def Cand.before (x y : Cand) : Bool :=
  x.wave.seq < y.wave.seq || (x.wave.seq = y.wave.seq &&
    (x.wave.wid < y.wave.wid || (x.wave.wid = y.wave.wid && x.arm = .t && y.arm = .e)))

/-- A wave is older than another; one that has yielded is the youngest (07 R183). DESIGN CHOICE (log 36): of two units that have
yielded, the one whose YIELD was later is the younger, and YIELD makes the unit that issued it young, so that an else arm comes
before the true arm of its wave that has yielded. -/
def Cand.older (x y : Cand) : Bool :=
  let ux := x.wave.unit x.arm
  let uy := y.wave.unit y.arm
  if ux.yielded && uy.yielded then ux.lastIssue < uy.lastIssue || (ux.lastIssue = uy.lastIssue && x.before y)
  else if ux.yielded || uy.yielded then uy.yielded
  else x.before y

/-- The slot takes x before y: a forced unit first, oldest forced first, then effective priority, then age (07 R183,
R184). -/
def Cand.beats (x y : Cand) : Bool :=
  let fx := 4032 ≤ x.wait
  let fy := 4032 ≤ y.wait
  if fx || fy then (fx && !fy) || (fx && fy && x.older y)
  else y.prio < x.prio || (x.prio = y.prio && x.older y)

/-- The latch of a unit's next word as its packet is fetched. -/
def Wave.fetching (w : Wave) (a : Arm) : Issue :=
  { seq := w.seq, wid := w.wid, arm := a, off := (w.unit a).pc / 16 * 16, idx := wordIndex (w.unit a).pc, lit := 0, second := false,
    trapped := false, stalled := false }

/-- The candidate's next word, which its fetch gives, runs in the uniform unit (07 R163, 09 R209). -/
def State.uniform (s : State) (x : Cand) : Bool :=
  let i := x.wave.fetching x.arm
  match { s with issue := some i }.fetch x.wave i (x.wave.unit x.arm) with
  | .stop _ => false
  | .packet _ p => pipeClass (majorOf (p.words.getD i.idx 0).toNat) = .u

/-! ## The watchdog's count (07 R187) -/

/-- Waits in which a unit is not charged. -/
def Wait.uncharged : Wait → Bool
  | .sleepUntil _ => true
  | .line .. => true
  | .nq .. => true
  | .gate .. => true
  | .fault .. => true
  | _ => false

/-- A unit that keeps the counter running. -/
def UnitSt.charged (u : UnitSt) : Bool := u.mask ≠ 0 && !u.atJoin && !u.wait.uncharged

/-- The counter counts this cycle. -/
def Wave.counting (w : Wave) : Bool :=
  w.status = .running && !w.saved && !w.dbgStop && (w.unitT.charged || (w.divergent && w.unitE.charged))

/-! ## The chain check (09 R210) -/

/-- The subcode of Illegal Chain that a pair raises, if any: `both` when C is set in W0 and in W1 of its packet, and W1 is no
hint. -/
def chainSub (fmt : BitVec 8) (m1 m2 : Nat) (i1 i2 : Instr) (both : Bool) : Option Nat :=
  if both then some 1
  else if pipeClass m1 = .c || pipeClass m2 = .c then some 2
  else if pipeClass m1 = pipeClass m2 then some 3
  else if chainDependent fmt i1 i2 then some 4
  else none

end Sys2Proof.Machine
end

