-- ==== Sys2Proof/Machine/Banks.lean ====
section
/-!
DEFINITION. The banks of the scratchpad (02_on_package_memory R41 to R46): the segments that waves, a Crucible engine and the Ladle
channels present to them, the order in which they serve them, and what each is served. A bank's request of a barrier word, of a
channel's acceptance or of a land is performed by its own requester's step, in the order of R44 (05 R138).
-/
namespace Sys2Proof.Machine

/-! ## Requests -/

/-- A quad's engine. -/
def State.engine (s : State) (quad : Nat) : Engine :=
  (s.engines.find? fun e => e.quad = quad).getD
    { quad := quad, entries := [], running := false, stepsRun := 0, nextId := 0, segs := [], since := 0, got := [] }

/-- The state with a quad's engine replaced. -/
def State.setEngine (s : State) (e : Engine) : State :=
  { s with engines := (s.engines.filter fun x => x.quad ≠ e.quad) ++ [e] }

/-- Who presents a request to a bank. -/
inductive BankUser where
  /-- A wave's LDQ, STQ or ATOMQ. -/
  | wave (seq wid op : Nat)
  /-- A barrier word of a unit, which waits at issue until the bank serves it. -/
  | unit (seq wid : Nat) (arm : Arm)
  /-- A segment of the quad's engine. -/
  | engine
  /-- A sector that a channel reads or writes. -/
  | move (die ch : Nat)
  /-- A channel's operation on a barrier: an acceptance or a land. -/
  | barrier (die ch : Nat)
deriving DecidableEq, Repr

/-- A request of a bank (R43, R44): who presents it, its place in the order of requesters of equal age, since when it is
presented, its segment (first byte's key, of the top row for a column; and whether it is one), and whether it only reads. -/
structure BankReq where
  who : BankUser
  cls : Nat
  place : Nat
  age : Nat
  seg : Nat × Bool
  reads : Bool
deriving DecidableEq, Repr

/-- The physical quad of a QSP byte (02 R39). -/
def qspQuad (key : Nat) : Nat := (key - 2 ^ 60) / 2 ^ 21

/-- The byte lies in a bank of a quad. -/
def inBank (quad bank key : Nat) : Bool := isQspKey key && qspQuad key = quad && qspBank key = bank

/-- A segment of a bank that a part presents: its first byte's key (of the top row for a column), and its mode (R41). -/
def OpPart.segment (p : OpPart) : Nat × Bool :=
  if p.col then (p.key / 4096 * 4096 + p.key % 256 / 4 * 4, true) else (sectorKey p.key, false)

/-- Where the issue slots of a quad stand in the order of R44, from core CYC mod 4 on; a beat ranks with the slot that it issued
from. -/
def State.slotPlace (s : State) (core slot : Nat) : Nat := (core % 4 + 4 - s.now % 4) % 4 * 2 + slot

/-- The requests of waves: their operations' beats, and the barrier words that could issue. -/
def State.waveReqs (s : State) (quad bank : Nat) : List BankReq :=
  s.waves.flatMap fun w =>
    if coreQuad w.core ≠ quad then []
    else
      let req (who : BankUser) (slot age : Nat) (seg : Nat × Bool) (reads : Bool) : BankReq :=
        { who := who, cls := 4, place := s.slotPlace w.core slot, age := age, seg := seg, reads := reads }
      let word (a : Arm) : List BankReq :=
        match (w.unit a).atBank with
        | some (key, age) =>
          if inBank quad bank key && s.selectable w a then
            [req (.unit w.seq w.wid a) w.slot age (sectorKey key, false) false]
          else []
        | none => []
      (w.pend.flatMap fun o =>
        (o.parts.filter fun p => !p.done && p.route = .qsp bank && p.age ≤ s.now).map fun p =>
          req (.wave w.seq w.wid o.id) o.slot p.age p.segment (decide (p.act = .read))) ++ word .t ++ word .e

/-- The requests of the quad's engine: the group of segments that stands first, from the cycle on in which it is presented (R46,
13 R317). -/
def State.engineReqs (s : State) (quad bank : Nat) : List BankReq :=
  let e := s.engine quad
  match e.segs with
  | [] => []
  | h :: _ => (e.segs.filter fun x => e.since ≤ s.now && x.turn = h.turn && inBank quad bank x.key).map fun x =>
      { who := .engine, cls := x.cls, place := 0, age := e.since, seg := (x.key, x.col), reads := x.write.isNone }

/-- The requests of the Ladle channels (05 R132, R138). -/
def State.chanReqs (s : State) (quad bank : Nat) : List BankReq :=
  s.chans.flatMap fun c =>
    let req (who : BankUser) (age key : Nat) (reads : Bool) : List BankReq :=
      if inBank quad bank key then
        [{ who := who, cls := 3, place := c.ch, age := age, seg := (sectorKey key, false), reads := reads }]
      else []
    (match c.copies with
     | [] => []
     | x :: _ =>
       (x.moves.flatMap fun m => match m.st with
         | .reading age => req (.move c.die c.ch) age m.src true
         | .writing age _ _ => req (.move c.die c.ch) age m.dst false
         | _ => []) ++
       (match x.lands, x.barrier with
        | (age, _) :: _, some b => if b.qsp then req (.barrier c.die c.ch) age b.key false else []
        | _, _ => [])) ++
    (match c.doors with
     | [] => []
     | d :: _ => match d.presented with
       | some (key, age) => req (.barrier c.die c.ch) age key false
       | none => [])

/-- The requests that a bank has before it in this cycle. -/
def State.bankReqs (s : State) (quad bank : Nat) : List BankReq :=
  dedup (s.waveReqs quad bank ++ s.engineReqs quad bank ++ s.chanReqs quad bank)

/-- The bank serves x before y (R44). -/
def BankReq.before (x y : BankReq) : Bool :=
  let key (r : BankReq) : List Nat := [r.age, r.cls, r.place, r.seg.1, bitOf r.seg.2]
  decide (key x < key y)

/-- The request at the head of a bank. -/
def headReq (l : List BankReq) : Option BankReq :=
  l.foldl (fun (b : Option BankReq) x =>
    match b with
    | none => some x
    | some y => if x.before y then some x else some y) none

/-- The requests that the bank serves in this cycle (R43): the head; or every request that names its segment, when each of them is
a read. DESIGN CHOICE (log 54): with a write among those that wait for the segment, the reads of it are not served together. -/
def servedReqs (l : List BankReq) : List BankReq :=
  match headReq l with
  | none => []
  | some h =>
    let same := l.filter fun x => x.seg = h.seg
    if same.all BankReq.reads then same else [h]

/-- An operation of a requester's own step on a barrier of the QSP is served in this cycle: no request of the bank comes before
it (R44, 05 R138). -/
def State.bankTurn (s : State) (r : BankReq) (key : Nat) : Bool :=
  !((s.bankReqs (qspQuad key) (qspBank key)).any fun x => x.who ≠ r.who && x.before r)

/-! ## Serving -/

/-- One lane performed at its bank (R45, R283). DESIGN CHOICE (log 46): a lane is a write of its own, so that narrow lanes of one word
that together cover a poisoned word leave it poisoned (R71). -/
def State.qspPart (s : State) (p : OpPart) : State × OpPart :=
  let old := s.peekNat p.key p.size
  let bad := s.anyPoison p.key p.size
  match p.act with
  | .write v => (s.pokeNat p.key p.size v, { p with done := true })
  | .atomic op a b =>
    let s1 := s.pokeNat p.key p.size (atomicNew op p.size old a b)
    (if bad then s1.setPoison p.key else s1, { p with done := true, val := old, poison := bad })
  | _ => (s, { p with done := true, val := old, poison := bad })

/-- The parts of an operation that a request presents, performed in ascending lane order (R100). -/
def State.qspServe (s : State) (r : BankReq) (bank : Nat) : List OpPart → State × List OpPart
  | [] => (s, [])
  | p :: ps =>
    let x := if !p.done && p.route = .qsp bank && p.age = r.age && p.segment = r.seg then s.qspPart p else (s, p)
    let y := State.qspServe x.1 r bank ps
    (y.1, x.2 :: y.2)

/-- The keys of a segment's words of four bytes, in the order of its bytes (R41). -/
def segWords (seg : Nat × Bool) : List Nat :=
  (List.range 16).map fun i => if seg.2 then seg.1 + 256 * i else seg.1 + 4 * i

/-- The 64 bytes of a segment. -/
def State.segRead (s : State) (seg : Nat × Bool) : List Byte := (segWords seg).flatMap fun k => s.peek k 4

/-- A segment's bytes written where a mask has them; a word that it covers whole loses its poison (02 R71). -/
def State.segWrite (s : State) (key : Nat) (bs : List Byte) (mask : Lanes) : State :=
  (List.range 16).foldl (fun (t : State) i =>
    let k := key + 4 * i
    let m := bitsAt mask.toNat (4 * i) 4
    if m = 0 then t
    else
      let old := t.peek k 4
      let new := (List.range 4).map fun j => if m.testBit j then bs.getD (4 * i + j) 0 else old.getD j 0
      if m = 15 then t.poke k new else { t with mem := t.mem.writeBytes k new }) s

/-- Sixteen words of a row written, each poisoned when a byte of its bytes was (03 R97). -/
def State.qspStore (s : State) (key : Nat) (bs : List Byte) (bad : Nat) : State :=
  (List.range 16).foldl (fun (t : State) i => if bitsAt bad (4 * i) 4 ≠ 0 then t.setPoison (key + 4 * i) else t) (s.poke key bs)

/-- A segment of the engine served: a read gives it the bytes, a write is performed; with the last of its group the next group is
presented from the next cycle on. -/
def State.serveEngine (s : State) (quad : Nat) (r : BankReq) : State :=
  let e := s.engine quad
  match e.segs with
  | [] => s
  | h :: _ =>
    let mine (x : EngSeg) : Bool := x.turn = h.turn && x.cls = r.cls && (x.key, x.col) = r.seg && x.write.isNone = r.reads
    match e.segs.find? mine with
    | none => s
    | some x =>
      let rest := e.segs.erase x
      let since := if rest.any fun y => y.turn = h.turn then e.since else s.now + 1
      match x.write with
      | none =>
        let d : SegData :=
          { key := x.key, col := x.col, data := s.segRead r.seg, bad := (segWords r.seg).find? s.poisoned }
        s.setEngine { e with segs := rest, since := since, got := e.got ++ [d] }
      | some (bs, mask) => (s.segWrite x.key bs mask).setEngine { e with segs := rest, since := since }

/-- A sector of a copy served at its bank (05 R132). -/
def State.serveMove (s : State) (die ch : Nat) (r : BankReq) : State :=
  let c := s.chan die ch
  match c.copies with
  | [] => s
  | x :: xs =>
    let mine (m : Move) : Bool :=
      match m.st with
      | .reading age => r.reads && age = r.age && sectorKey m.src = r.seg.1
      | .writing age _ _ => !r.reads && age = r.age && sectorKey m.dst = r.seg.1
      | _ => false
    match x.moves.find? mine with
    | none => s
    | some m =>
      let put (t : State) (y : MoveSt) : State :=
        t.setChan { c with copies := { x with moves := x.moves.map fun z => if z = m then { z with st := y } else z } :: xs }
      match m.st with
      | .reading _ =>
        let bad := (List.range 64).foldl (fun n i => if s.poisoned (m.src + i) then n + 2 ^ i else n) 0
        put s (.held (s.peek m.src 64) bad)
      | .writing _ bs bad => put (s.qspStore m.dst bs bad) .written
      | _ => s

/-- One request served. -/
def State.serveReq (s : State) (quad bank : Nat) (r : BankReq) : State :=
  match r.who with
  | .wave seq wid op =>
    match (s.wave? seq wid).bind fun w => w.pend.find? fun o => o.id = op with
    | none => s
    | some o =>
      let x := s.qspServe r bank o.parts
      x.1.modWave seq wid fun w => w.modOp op fun y => some { y with parts := x.2 }
  | .engine => s.serveEngine quad r
  | .move die ch => s.serveMove die ch r
  | _ => s

/-- The partition on its slices whose window holds a bank of a quad (02 R39). -/
def State.bankOwner (s : State) (quad bank : Nat) : Option Nat :=
  (s.launches.find? fun l => s.holdsSet l.part && l.windows.any fun x => x.1 = quad && x.2 ≤ bank && bank < x.2 + l.qsp).map Launch.part

/-- One bank's cycle; a request left waiting counts against the partition of its window (13 R330, 0x012). -/
def State.bankCycle (s : State) (quad bank : Nat) : State :=
  let l := s.bankReqs quad bank
  let served := servedReqs l
  let s1 := served.foldl (fun (t : State) r => t.serveReq quad bank r) s
  if l.any fun r => !served.contains r then
    match s.bankOwner quad bank with
    | some p => s1.charge p 0x012 1
    | none => s1
  else s1

/-- A cycle in which a segment of the engine waits holds its pass up (13 R317, R330 0x011). -/
def State.chargeConflict (s : State) (quad since : Nat) : State :=
  let e := s.engine quad
  if e.segs ≠ [] && e.since = since && since ≤ s.now then
    match (e.entries.find? EngEntry.granted).bind fun x => s.launch? x.seq with
    | some l => s.charge l.part 0x011 1
    | none => s
  else s

/-- QSP_BANK_SERVICE (R43, R44): each bank of a quad serves one segment. -/
def execQspBankService (s : State) : Out :=
  match s.call with
  | .qspBankService quad =>
    .next (((List.range 32).foldl (fun (t : State) b => t.bankCycle quad b) s).chargeConflict quad (s.engine quad).since)
  | _ => .next s

end Sys2Proof.Machine
end

