-- ==== Sys2Proof/Machine/Barrier.lean ====
section
/-!
DEFINITION. Transaction barriers (05_engines_in_memory R138 to R144; 12_isa_memory_sync R298 to R300) and scoped barriers (12
R301 to R304).
-/
namespace Sys2Proof.Machine

/-! ## The barrier word (05 R139) -/

/-- PHASE. -/
def tbPhase (x : Nat) : Nat := bitsAt x 0 4
/-- ARRIVALS. -/
def tbArrivals (x : Nat) : Nat := bitsAt x 4 20
/-- SECTORS. -/
def tbSectors (x : Nat) : Nat := bitsAt x 24 24
/-- PROMISE. -/
def tbPromise (x : Nat) : Nat := bitsAt x 48 48
/-- OWNER. -/
def tbOwner (x : Nat) : Nat := bitsAt x 96 16

/-- OWNER of a partition's barrier. -/
def ownerOf (part : Nat) : Nat := 0x8000 + part % 16

/-- complete(b) of R140. -/
def tbComplete (x : Nat) : Nat := setBits x 0 4 (tbPhase x + 1)

/-- init(b, a) of R140; `keep` are the reserved bits. -/
def tbInit (keep now part a : Nat) : Nat := keep % 2 ^ 16 * 2 ^ 112 + ownerOf part * 2 ^ 96 + now % 2 ^ 48 * 2 ^ 48 + a % 2 ^ 20 * 16

/-- expect(b, a), or Count Overflow. -/
def tbExpect (x a : Nat) : Option Nat :=
  if 2 ^ 20 - 1 < tbArrivals x + a then none else some (setBits x 4 20 (tbArrivals x + a))

/-- arrive(b, a), or Count Overflow. -/
def tbArrive (x a : Nat) : Option Nat :=
  if tbArrivals x < a then none
  else
    let y := setBits x 4 20 (tbArrivals x - a)
    some (if tbArrivals y = 0 && tbSectors y = 0 then tbComplete y else y)

/-- accept(b, n, p). -/
def tbAccept (x n p : Nat) : Nat := setBits (setBits x 24 24 (tbSectors x + n)) 48 48 (later48 (tbPromise x) (p % 2 ^ 48))

/-- land(b, k). -/
def tbLand (x k : Nat) : Nat :=
  let j := min k (tbSectors x)
  let y := setBits x 24 24 (tbSectors x - j)
  if 0 < j && tbArrivals y = 0 && tbSectors y = 0 then tbComplete y else y

/-! ## Reaching a barrier -/

/-- What a barrier's address gives: the barrier, or the word's end. -/
inductive BarrierGot where
  | ok (b : BarrierRef)
  | out (o : Out)

/-- The barrier that a word's pair names (R139, R298): misaligned, or in tier 2 or 3, it is invalid. -/
def barrierAt (s : State) (w : Wave) (i : Issue) (u : UnitSt) (q : BitVec 1) (va : Nat) (kind : AccKind) : BarrierGot :=
  if va % 16 ≠ 0 then .out (takeTrap s w i 16 6 va)
  else if q = 1 then
    match s.qspKeyOf w va with
    | none => .out (.next (s.refuseWord w i i.trapPc va 6 15 kind true))
    | some k => .ok { key := k, va := va, qsp := true }
  else
    match s.waveXlate w u va 16 kind with
    | .miss pg => .out (.next (s.waitForWalks w i [pg]))
    | .deny sub level => .out (.next (s.refuseWord w i i.trapPc va sub level kind false))
    | .ok pa e =>
      match keyOfPa s.pod pa with
      | none => .out (takeTrap s w i 16 6 va)
      | some k => if e.tier = .hbm || e.tier = .module then .ok { key := k, va := va, qsp := false }
        else .out (takeTrap s w i 16 6 va)

/-- The requester that an error-log record of a wave names (01 R35). -/
def State.waveRequester (s : State) (w : Wave) : Requester := { type := 0, id := s.waveReqId w, asid := s.waveAsid w }

/-- The barrier's bytes in reach of a wave's read-modify-write: its quad's dirty bytes have left it, and memory answers. -/
def State.barrierReach (s : State) (w : Wave) (b : BarrierRef) : Got :=
  if b.qsp then (s, true)
  else
    let g := s.sectorOut (coreQuad w.core) b.key
    if g.2 then g.1.homeReach w.part (s.waveRequester w) b.key 16 else g

/-- The barrier written whole by its atomic unit or bank (R138). -/
def State.barrierWrite (s : State) (quad part : Nat) (b : BarrierRef) (x : Nat) : Got :=
  if b.qsp then (s.pokeNat b.key 16 x, true) else s.unitWrite quad part b.key (natToBytes 16 x) false

/-- Some byte of the barrier is poisoned, or its stack or attachment is down, or its module turns the partition away (03 R389). -/
def State.barrierPoison (s : State) (part : Nat) (b : BarrierRef) : Bool :=
  s.anyPoison b.key 16 || (!b.qsp && (s.keyDown b.key || s.beyondModule part b.key 16))

/-! ## Waiters -/

/-- A wait ends in an acquire at its scope (R144, 12 R303): the unit goes on when the acquire has performed. -/
def State.returnAcquire (s : State) (w : Wave) (a : Arm) (sc : Scope) : State :=
  let o : PendOp :=
    { id := w.nextOp, arm := a, shared := !w.divergent, kind := .barrier, pc := (w.unit a).pc, scope := sc, acquire := true,
      parts := [], dest := .none, att := 0, port := 0, ktag := 0, sent := s.now, answered := true, data := [],
      dataPoison := 0, status := 0, value := 0, hidden := [], word := 0, slot := w.slot, left := false }
  let w1 := (w.addOp o).progressed
  (s.setWave (w1.setUnit a { (w1.unit a).waited with wait := .op o.id, ready := s.now })).completeOp w.seq w.wid o

/-- The unit's TBWAIT re-reads its barrier (12 R299): poison is consumed, as the TBWAIT's trap (R139); it returns when the phase has
changed. -/
def State.recheckTbar (s : State) (w : Wave) (a : Arm) : State :=
  match (w.unit a).wait with
  | .tbar b phase sc pc second =>
    if s.barrierPoison w.part b then s.enterTrap w a pc 6 0 b.va second .none
    else if tbPhase (s.peekNat b.key 16) ≠ phase then s.returnAcquire w a sc
    else s
  | _ => s

/-- The units that wait on a barrier re-read it (12 R299). -/
def State.barrierChanged (s : State) (key : Nat) : State :=
  let waits (u : UnitSt) : Bool := match u.wait with
    | .tbar b .. => b.key = key
    | _ => false
  s.waves.foldl (fun (t : State) w =>
    if w.saved || w.status ≠ .running then t
    else
      let t1 := if waits w.unitT then t.recheckTbar (t.again w) .t else t
      if waits w.unitE then t1.recheckTbar (t1.again w) .e else t1) s

/-! ## The words of TBAR (12 R298 to R300) -/

/-- A unit that presents a barrier to its bank since a time, or presents none. -/
def Wave.presents (w : Wave) (a : Arm) (x : Option (Nat × Nat)) : Wave := w.setUnit a { w.unit a with atBank := x }

/-- The operation of a barrier word on its barrier: at once at an atomic unit; at a bank of the QSP the word is presented, and
performs when the bank comes to it in the order of R44 (R138). -/
def barrierTurn (s : State) (w : Wave) (i : Issue) (b : BarrierRef) (since : Option Nat) (f : State → Wave → Out) : Out :=
  if !b.qsp then f s w
  else
    let age := since.getD s.now
    let r : BankReq :=
      { who := .unit w.seq w.wid i.arm, cls := 4, place := s.slotPlace w.core w.slot, age := age, seg := (sectorKey b.key, false),
        reads := false }
    if s.bankTurn r b.key then f s w
    else .next (s.setWave (w.presents i.arm (some (b.key, age)))).stall

/-- A barrier word: poison, the address, the barrier in reach; then what it waits for and its operation, given since when its unit
has presented the barrier. A word that waits for anything else presents nothing. -/
def barrierWord (s : State) (i : Instr) (k : BitVec 5) (q : BitVec 1) (r : Option (BitVec 6)) (kind : AccKind)
    (f : State → Wave → Issue → BarrierRef → Option Nat → Out) : Out :=
  baseAccess s i k.toNat fun w0 is u va =>
    let w := w0.presents is.arm none
    let s1 := s.setWave w
    if (r.map fun x => w.sPoison x.toNat).getD false then poisonTrap s1 w is
    else
      match barrierAt s1 w is u q va kind with
      | .out o => o
      | .ok b =>
        if w.overlaps b.key 16 true then stallWord s1
        else
          let g := s1.barrierReach w b
          if g.2 then f g.1 (g.1.again w) is b ((u.atBank.filter fun x => x.1 = b.key).map Prod.snd) else stallWord g.1

/-- The checks of a barrier that is not being initialised (R139): poison, then OWNER. -/
def checkedBarrier (s : State) (w : Wave) (i : Issue) (b : BarrierRef) (f : Nat → Out) : Out :=
  if s.barrierPoison w.part b then takeTrap s w i 6 0 b.va
  else if tbOwner (s.peekNat b.key 16) ≠ ownerOf w.part then takeTrap s w i 16 6 b.va
  else f (s.peekNat b.key 16)

/-- The scope of a barrier word clamped, and counted when the word completes (04 R106). -/
def State.clamped (s : State) (w : Wave) (sc : BitVec 3) : Scope := (s.clampScope w.part (scopeOf sc)).2

/-- A barrier word is done. -/
def finishBarrier (s : State) (w : Wave) (i : Issue) (sc : BitVec 3) : Out := finish (s.clampScope w.part (scopeOf sc)).1 w i

/-- TBINIT (R140): the reserved bits stay, or become 0 when they are poisoned; the barrier's poison is cleared. -/
def execTbinit (k : BitVec 5) (q : BitVec 1) (sc : BitVec 3) (r : BitVec 6) (s : State) : Out :=
  barrierWord s (.tbinit k q sc r) k q (some r) .write fun t0 w0 is b since =>
    let a := (w0.s r.toNat).toNat
    if 2 ^ 20 - 1 < a then takeTrap t0 w0 is 8 0 b.va
    else barrierTurn t0 w0 is b since fun t w =>
      let keep := if t.anyPoison (b.key + 14) 2 then 0 else t.peekNat (b.key + 14) 2
      let g := t.barrierWrite (coreQuad w.core) w.part b (tbInit keep t.now48 w.part a)
      if !g.2 then stallWord g.1
      else
        let t1 := g.1.clearPoison b.key
        finishBarrier t1 (t1.again w) is sc

/-- No aperture store of the wave is unperformed (05 R141; log 10: whatever barrier it names). -/
def Wave.apertureDone (w : Wave) : Bool := !(w.pend.any fun o => o.kind = .aperture && !o.answered)

/-- A barrier written by a wave, its waiters told, the word done; or Count Overflow. -/
def updateBarrier (s : State) (w : Wave) (i : Issue) (b : BarrierRef) (sc : BitVec 3) : Option Nat → Out
  | none => takeTrap s w i 8 0 b.va
  | some x =>
    let g := s.barrierWrite (coreQuad w.core) w.part b x
    if !g.2 then stallWord g.1
    else
      match finishBarrier g.1 (g.1.again w) i sc with
      | .next t => .next (t.barrierChanged b.key)
      | o => o

/-- TBARRIVE (R140, R141): a release at its scope. -/
def execTbarrive (k : BitVec 5) (q : BitVec 1) (sc : BitVec 3) (r : BitVec 6) (s : State) : Out :=
  barrierWord s (.tbarrive k q sc r) k q (some r) .write fun t0 w0 is b since =>
    if !w0.apertureDone then stallWord t0
    else
      let g := t0.releaseAt w0 is.arm (t0.clamped w0 sc)
      if !g.2 then stallWord g.1
      else barrierTurn g.1 (g.1.again w0) is b since fun t w =>
        checkedBarrier t w is b fun x => updateBarrier t w is b sc (tbArrive x (w.s r.toNat).toNat)

/-- TBEXPECT (R140, R141). -/
def execTbexpect (k : BitVec 5) (q : BitVec 1) (sc : BitVec 3) (r : BitVec 6) (s : State) : Out :=
  barrierWord s (.tbexpect k q sc r) k q (some r) .write fun t0 w0 is b since =>
    if !w0.apertureDone then stallWord t0
    else barrierTurn t0 w0 is b since fun t w =>
      checkedBarrier t w is b fun x => updateBarrier t w is b sc (tbExpect x (w.s r.toNat).toNat)

/-- The barrier's promise has passed with sectors pending, and the wave has not trapped for it (05 R143). -/
def State.promiseMissed (s : State) (w : Wave) (x : Nat) : Bool :=
  s.passed (tbPromise x) && 0 < tbSectors x && w.missed ≠ some (tbPromise x)

/-- Missed Promise taken (05 R143): TRAPPC names the TBWAIT, or its pair's first word when it is the `second` (09 R206). -/
def State.missPromise (s : State) (w : Wave) (a : Arm) (pc va promise : Nat) (second : Bool) : State :=
  ((s.charge w.part 0x043 1).enterTrap { w with missed := some promise } a pc 7 0 va second .none)

/-- TBWAIT (12 R299). -/
def execTbwait (k : BitVec 5) (q : BitVec 1) (sc : BitVec 3) (r : BitVec 6) (s : State) : Out :=
  barrierWord s (.tbwait k q sc r) k q (some r) .read fun t0 w0 is b since =>
    barrierTurn t0 w0 is b since fun t w => checkedBarrier t w is b fun x =>
      let phase := (w.s r.toNat).toNat % 16
      if tbPhase x ≠ phase then
        let g := t.acquireAt w (t.clamped w sc)
        if g.2 then finishBarrier g.1 (g.1.again w).progressed is sc else stallWord g.1
      else if t.promiseMissed w x then .next (t.missPromise w is.arm is.trapPc b.va (tbPromise x) is.second).trapped
      else
        sleepWith (t.clampScope w.part (scopeOf sc)).1 w is (.tbar b phase (t.clamped w sc) is.trapPc is.second)

/-- TBQUERY (12 R300). -/
def execTbquery (k : BitVec 5) (q : BitVec 1) (sc : BitVec 3) (r : BitVec 6) (s : State) : Out :=
  barrierWord s (.tbquery k q sc r) k q none .read fun t0 w0 is b since =>
    barrierTurn t0 w0 is b since fun t w => checkedBarrier t w is b fun x =>
      let w1 := (w.setPair r.toNat (tbPromise x) false).setS (r.toNat + 2) (BitVec.ofNat 32 (x % 2 ^ 24)) false
      finishBarrier t (w1.setS (r.toNat + 3) (BitVec.ofNat 32 (tbSectors x)) false) is sc

/-- A unit that waits in TBWAIT takes Missed Promise once its barrier's promise has passed with sectors pending (05 R143). DESIGN
CHOICE (log 31): a unit that its other arm holds out of selection takes it once it is held out no longer. A Watchdog trap that is due
comes first (14 R333). -/
def State.missAt (s : State) (seq wid : Nat) (a : Arm) : State :=
  match s.wave? seq wid with
  | none => s
  | some w =>
    match (w.unit a).wait with
    | .tbar b _ _ pc second =>
      let x := s.peekNat b.key 16
      if w.saved || w.status ≠ .running || w.heldOut a || s.barrierPoison w.part b || !s.promiseMissed w x || s.watchdogDue w then s
      else s.missPromise w a pc b.va (tbPromise x) second
    | _ => s

/-- MISSED_PROMISE (05 R143). -/
def execMissedPromise (s : State) : Out :=
  match s.call with
  | .missedPromise seq wid e => .next (s.missAt seq wid (armOf e))
  | _ => .next s

/-- Every waiting TBWAIT looked at: the trap comes at the moment its condition first holds (05 R143). -/
def State.missPromises (s : State) : State :=
  s.waves.foldl (fun (t : State) w => (t.missAt w.seq w.wid .t).missAt w.seq w.wid .e) s

/-! ## Scoped barriers (12 R301 to R304) -/

/-- The network's part that a wave's barrier belongs to (R302). -/
def State.barKey (s : State) (w : Wave) (sc : Scope) : BarKey :=
  match sc with
  | .wave => { scope := sc, inst := 0, part := w.part }
  | .core => { scope := sc, inst := w.core, part := w.part }
  | .quad => { scope := sc, inst := coreQuad w.core, part := w.part }
  | .die => { scope := sc, inst := coreDie w.core, part := w.part }
  | .pkg => { scope := sc, inst := 0, part := w.part }
  | .part => { scope := sc, inst := ((s.part? w.part).map Part.group).getD w.part, part := 16 }
  | .pod => { scope := sc, inst := 0, part := 16 }

/-- A barrier, at generation 0 when it has never been used. -/
def State.bar (s : State) (k : BarKey) (id : Nat) : Bar :=
  (s.bars.find? fun b => b.key = k && b.id = id).getD { key := k, id := id, gen := 0, count := 0, total := 0 }

/-- The state with a barrier replaced. -/
def State.setBar (s : State) (b : Bar) : State :=
  { s with bars := (s.bars.filter fun x => !(x.key = b.key && x.id = b.id)) ++ [b] }

/-- Generation `g` has completed, within the last 32,768 (R302). -/
def Bar.completed (b : Bar) (g : Nat) : Bool :=
  let d := (b.gen + 2 ^ 16 - g % 2 ^ 16) % 2 ^ 16
  1 ≤ d && d ≤ 32768

/-- One arrival with a count (R302): the first of a generation latches it; the generation completes at the latched count. -/
def Bar.arrive (b : Bar) (n : Nat) : Bar :=
  let count := if b.total = 0 then n else b.count
  if count ≤ b.total + 1 then { b with gen := (b.gen + 1) % 2 ^ 16, count := count, total := 0 }
  else { b with count := count, total := b.total + 1 }

/-- A later arrival's count differs from the latched one (R302). -/
def Bar.mismatch (b : Bar) (n : Nat) : Bool := b.total ≠ 0 && n ≠ b.count

/-- The unit's wait on a scoped barrier ends when its generation has completed. -/
def State.recheckBar (s : State) (w : Wave) (a : Arm) : State :=
  match (w.unit a).wait with
  | .bar k id g sc => if (s.bar k id).completed g then s.returnAcquire w a sc else s
  | _ => s

/-- The waits of a barrier are looked at again. -/
def State.barChanged (s : State) (k : BarKey) (id : Nat) : State :=
  let waits (u : UnitSt) : Bool := match u.wait with
    | .bar x j _ _ => x = k && j = id
    | _ => false
  s.waves.foldl (fun (t : State) w =>
    if w.saved || w.status ≠ .running then t
    else
      let t1 := if waits w.unitT then t.recheckBar (t.again w) .t else t
      if waits w.unitE then t1.recheckBar (t1.again w) .e else t1) s

/-- A scoped-barrier word that arrives: its checks (R301), the release (R303), then the arrival; `last` when it completes the
generation, and the generation joined. -/
def barArrival (s : State) (i : Instr) (sc : BitVec 3) (id : BitVec 4) (r : BitVec 6)
    (f : State → Wave → Issue → BarKey → Bool → Nat → Out) : Out :=
  whenLegal s i fun w is _ =>
    let n := (w.s r.toNat).toNat
    if w.sPoison r.toNat then poisonTrap s w is
    else if n = 0 || 65535 < n then takeTrap s w is 8 0 0
    else
      let g := s.releaseAt w is.arm (s.clamped w sc)
      if !g.2 then stallWord g.1
      else
        let k := g.1.barKey w (s.clamped w sc)
        let b := g.1.bar k id.toNat
        f g.1 (g.1.again w) is k (decide ((b.arrive n).gen ≠ b.gen)) b.gen

/-- The arrival itself: the barrier counts it, a mismatch is counted (13 R330), the waiters of a completed generation go
on. -/
def State.arriveBar (s : State) (w : Wave) (k : BarKey) (id n : Nat) : State :=
  let b := s.bar k id
  let s1 := if b.mismatch n then s.charge w.part 0x041 1 else s
  (s1.setBar (b.arrive n)).barChanged k id

/-- BARARRIVE (R302). -/
def execBararrive (sc : BitVec 3) (id : BitVec 4) (r d : BitVec 6) (s : State) : Out :=
  barArrival s (.bararrive sc id r d) sc id r fun t w is k _ gen =>
    match finishBarrier t (w.setS d.toNat (BitVec.ofNat 32 gen) false) is sc with
    | .next x => .next (x.arriveBar w k id.toNat (w.s r.toNat).toNat)
    | o => o

/-- BARSYNC (R302): an arrival, then the wait for the generation it joined. -/
def execBarsync (sc : BitVec 3) (id : BitVec 4) (r : BitVec 6) (s : State) : Out :=
  barArrival s (.barsync sc id r) sc id r fun t w is k last gen =>
    let n := (w.s r.toNat).toNat
    if last then
      let g := t.acquireAt w (t.clamped w sc)
      if !g.2 then stallWord g.1
      else
        match finishBarrier g.1 (g.1.again w).progressed is sc with
        | .next x => .next (x.arriveBar w k id.toNat n)
        | o => o
    else
      match sleepWith (t.clampScope w.part (scopeOf sc)).1 w is (.bar k id.toNat gen (t.clamped w sc)) with
      | .next x => .next (x.arriveBar w k id.toNat n)
      | o => o

/-- BARWAIT (R302). -/
def execBarwait (sc : BitVec 3) (id : BitVec 4) (r : BitVec 6) (s : State) : Out :=
  whenLegal s (.barwait sc id r) fun w is _ =>
    if w.sPoison r.toNat then poisonTrap s w is
    else
      let k := s.barKey w (s.clamped w sc)
      let g := (w.s r.toNat).toNat % 2 ^ 16
      if (s.bar k id.toNat).completed g then
        let h := s.acquireAt w (s.clamped w sc)
        if h.2 then finishBarrier h.1 (h.1.again w).progressed is sc else stallWord h.1
      else
        sleepWith (s.clampScope w.part (scopeOf sc)).1 w is (.bar k id.toNat g (s.clamped w sc))

end Sys2Proof.Machine
end

