-- ==== Sys2Proof/Machine/Gate.lean ====
section
/-!
DEFINITION. Gates (12_isa_memory_sync R305, R306; 15_partitions_host_startup R349 to R351; 04_ordering R122).
-/
namespace Sys2Proof.Machine

/-! ## Handles and rights (15 R349) -/

/-- The object at an index. -/
def State.gateAt (s : State) (index : Nat) : Option Gate := s.gates.find? fun g => g.index = index

/-- The gate that a handle names, while it is live. -/
def State.gateOf (s : State) (handle : Nat) : Option Gate :=
  match s.gateAt (handle % 65536) with
  | some g => if g.used && g.gen = handle / 65536 then some g else none
  | none => none

/-- The state with a gate's object replaced. -/
def State.setGate (s : State) (g : Gate) : State :=
  { s with gates := (s.gates.filter fun x => x.index ≠ g.index) ++ [g] }

/-- Entry e of an access list. -/
def aclEntry (acl : BitVec 32) (e : Nat) : Nat := bitsAt acl.toNat (8 * e) 8

/-- The partition has a right: bit 6 post, bit 5 take. -/
def Gate.allows (g : Gate) (part bit : Nat) : Bool :=
  (List.range 4).any fun e =>
    (aclEntry g.acl e).testBit 7 && (aclEntry g.acl e).testBit bit && aclEntry g.acl e % 16 = part

/-- The handle of a gate. -/
def Gate.handle (g : Gate) : Nat := g.gen * 65536 + g.index

/-- A Gate Fault (R306, 01 R36): one record, and the trap with the handle as address. -/
def State.logGate (s : State) (w : Wave) (handle sub kind : Nat) : State :=
  s.logError w.part
    { addr := handle, asid := s.waveAsid w, sub := sub, cls := 0x0C, level := 15, kind := kind, reqType := 0,
      reqId := s.waveReqId w, phys := false }

/-- A gate word that faults. -/
def gateFault (s : State) (w : Wave) (i : Issue) (handle sub kind : Nat) : Out :=
  takeTrap (s.logGate w handle sub kind) w i 12 sub handle

/-! ## The object's operations (15 R350) -/

/-- The bucket refilled. -/
def Gate.refill (g : Gate) (now48 : Nat) : Gate :=
  if g.rate = 0 then g
  else
    let credit := (now48 + 2 ^ 48 - g.lastFill) % 2 ^ 48 * g.rate / 2 ^ 16
    if credit = 0 then g else { g with tokens := min g.burst (g.tokens + credit), lastFill := now48 }

/-- A post on a live gate: the object and the status. -/
def Gate.post (g : Gate) (now48 : Nat) : Gate × Nat :=
  let f := g.refill now48
  if f.counter = 2 ^ 32 - 1 then (f, 4)
  else if f.rate ≠ 0 && f.tokens = 0 then (f, 1)
  else ({ f with counter := f.counter + 1, tokens := if f.rate = 0 then f.tokens else f.tokens - 1 }, 0)

/-- The wait is a sleeping take of a handle that no post has woken, with the time it began. -/
def gateSleep (handle : Nat) : Wait → Option Nat
  | .gate h _ _ b false _ _ => if h = handle then some b else none
  | _ => none

/-- The wait is a take of a handle. -/
def gateWait (handle : Nat) : Wait → Option Nat
  | .gate h _ _ b .. => if h = handle then some b else none
  | _ => none

/-- The oldest sleeper woken; a saved one's wake is recorded in its wait (20 R387). -/
def State.wakeFirst (s : State) (f : Wait → Option Nat) : State :=
  match oldestSleeper (s.sleepers f) with
  | none => s
  | some (w, a, _) => s.wakeUnit w a

/-- WCOUNT: the waiters of a handle. -/
def State.gateWaiters (s : State) (handle : Nat) : Nat := (s.sleepers (gateWait handle)).length

/-! ## The words (12 R305) -/

/-- A gate word: poison, the live gate, the right. -/
def gateWord (s : State) (i : Instr) (a : BitVec 6) (y : Option (BitVec 6)) (ok : Gate → Nat → Option Nat) (kind : Nat)
    (f : Wave → Issue → Gate → Out) : Out :=
  whenLegal s i fun w is _ =>
    if w.sPoison a.toNat || (y.map fun x => w.sPoison x.toNat).getD false then poisonTrap s w is
    else
      let handle := (w.s a.toNat).toNat
      match s.gateOf handle with
      | none => gateFault s w is handle 1 kind
      | some g =>
        match ok g w.part with
        | some sub => gateFault s w is handle sub kind
        | none => f w is g

/-- GATEPOST (R305): an accepted post is a release (04 R122) and wakes the oldest sleeping take; another one releases nothing. -/
def execGatepost (d a : BitVec 6) (s : State) : Out :=
  gateWord s (.gatepost d a) a none (fun g p => if g.allows p 6 then none else some 2) 2 fun w is g =>
    let x := g.post s.now48
    if g.state ≠ .live then finish s (w.setS d.toNat 2 false) is
    else if x.2 ≠ 0 then finish (s.setGate x.1) (w.setS d.toNat (BitVec.ofNat 32 x.2) false) is
    else
      let r := s.releaseAt w is.arm .part
      if !r.2 then stallWord r.1
      else
        match finish (r.1.setGate x.1) ((r.1.again w).setS d.toNat 0 false) is with
        | .next t => .next (t.wakeFirst (gateSleep g.handle))
        | o => o

/-- GATETAKE (R305): a successful take is an acquire (04 R122). -/
def execGatetake (d a y : BitVec 6) (s : State) : Out :=
  gateWord s (.gatetake d a y) a (some y) (fun g p => if g.allows p 5 then none else some 3) 2 fun w is g =>
    let t := (w.s y.toNat).toNat
    if g.state ≠ .live then finish s (w.setS d.toNat 2 false) is
    else if g.counter ≠ 0 then
      let r := s.acquireAt w .part
      if !r.2 then stallWord r.1
      else finish (r.1.setGate { g with counter := g.counter - 1 }) ((r.1.again w).setS d.toNat 0 false) is
    else if t = 0 || 64 ≤ s.gateWaiters g.handle then finish s (w.setS d.toNat 3 false) is
    else sleepWith s w is (.gate g.handle d.toNat (s.now + t) s.now false is.trapPc is.second)

/-- GATEPOLL (R305). -/
def execGatepoll (d a : BitVec 6) (s : State) : Out :=
  gateWord s (.gatepoll d a) a none (fun g p => if g.allows p 6 || g.allows p 5 then none else some 3) 0 fun w is g =>
    finish s (w.setS d.toNat (BitVec.ofNat 32 g.counter) false) is

/-! ## The ends of a sleeping take -/

/-- A sleeping take retries (R305, 15 R351): it takes, finds the gate frozen, finds no gate, or sleeps again in its old
place. -/
def State.retryTake (s : State) (w : Wave) (a : Arm) : State :=
  match (w.unit a).wait with
  | .gate handle sd dl b _ at_ second =>
    match s.gateOf handle with
    | none => (s.logGate w handle 1 2).enterTrap w.progressed a at_ 12 1 handle second .none
    | some g =>
      if g.state ≠ .live then s.endSleep w.seq w.wid a fun x => x.setWaited a sd 2 false
      else if g.counter = 0 then
        s.modWave w.seq w.wid fun x => x.setUnit a { x.unit a with wait := .gate handle sd dl b false at_ second }
      else
        let r := s.acquireAt w .part
        if !r.2 then r.1
        else (r.1.setGate { g with counter := g.counter - 1 }).endSleep w.seq w.wid a fun x => x.setWaited a sd 0 false
  | _ => s

/-- The wait is a take of a handle that has been woken. -/
def gateWoken (index : Nat) : Wait → Option Nat
  | .gate h _ _ b true _ _ => if h % 65536 = index then some b else none
  | _ => none

/-- GATETAKE_WAKE (R305): the oldest woken take of a gate retries. -/
def execGatetakeWake (s : State) : Out :=
  match s.call with
  | .gatetakeWake gate =>
    match oldestSleeper ((s.sleepers (gateWoken gate)).filter fun x => !x.1.saved) with
    | none => .next s
    | some (w, a, _) => .next (s.retryTake w a)
  | _ => .next s

/-- GATETAKE_TIMEOUT (R305): the take returns empty; one that a post has woken retries first. -/
def execGatetakeTimeout (s : State) : Out :=
  match s.call with
  | .gatetakeTimeout seq wid e =>
    match s.wave? seq wid with
    | none => .next s
    | some w =>
      match (w.unit (armOf e)).wait with
      | .gate _ sd dl _ false _ _ =>
        if w.saved || !s.deadlineReached dl then .next s
        else .next (s.endSleep seq wid (armOf e) fun x => x.setWaited (armOf e) sd 3 false)
      | _ => .next s
  | _ => .next s

/-- Every sleeping take of a handle ended with a status (15 R351). -/
def State.endTakes (s : State) (handle status : Nat) : State :=
  (s.sleepers (gateWait handle)).foldl (fun (t : State) x =>
    match (x.1.unit x.2.1).wait with
    | .gate _ sd .. => t.endSleep x.1.seq x.1.wid x.2.1 fun y =>
      y.setWaited x.2.1 sd (BitVec.ofNat 32 status) false
    | _ => t) s

/-- Every sleeping take of a handle woken; the resident ones retry at once (15 R351). -/
def State.wakeTakes (s : State) (handle : Nat) : State :=
  (s.sleepers (gateWait handle)).foldl (fun (t : State) x =>
    let t1 := t.wakeUnit x.1 x.2.1
    if x.1.saved then t1 else t1.retryTake (t1.again x.1) x.2.1) s

end Sys2Proof.Machine
end

