-- ==== Sys2Proof/Machine/Counters.lean ====
section
/-!
DEFINITION. The performance counters of a partition (13_isa_matrix_system R327 to R330).
-/
namespace Sys2Proof.Machine

/-- An addition to a counter (R327): VALUE wraps modulo 2^48, which sets OVF. -/
def Counter.add (c : Counter) (n : Nat) : Counter :=
  { c with value := (c.value + n) % 2 ^ 48, ovf := c.ovf || decide (2 ^ 48 ≤ c.value + n) }

/-- OVF goes from 0 to 1 with IE (R327). -/
def Counter.overflows (c : Counter) (n : Nat) : Bool := c.ie && !c.ovf && (c.add n).ovf

/-- The body of a counter-overflow record (15 R357, TYPE 0x07): the counter's number. -/
def overflowBody (i : Nat) : List Byte := packBytes [(4, i)]

/-- An addition to the counters of a mask of a partition; each overflow posts its event to that partition's host queue. -/
def State.addCounters (s : State) (p mask n : Nat) : State :=
  match s.part? p with
  | none => s
  | some x =>
    let full := (List.range 16).filter fun i =>
      mask.testBit i && (((x.counters[i]?).map fun c => c.overflows n).getD false)
    let s1 := s.modPart p fun y =>
      { y with counters := y.counters.mapIdx fun i c => if mask.testBit i then c.add n else c }
    full.foldl (fun (t : State) i => t.postEvent p 7 0 (overflowBody i)) s1

/-- The additions under way that a test picks are made. -/
def State.settle (s : State) (f : Charge → Bool) : State :=
  (s.charges.filter f).foldl (fun (t : State) c => t.addCounters c.part c.mask c.n)
    { s with charges := s.charges.filter fun c => !f c }

/-- The additions that were charged 256 cycles ago (R327). -/
def State.settleOld (s : State) : State := if s.charges = [] then s else s.settle fun c => decide (c.since + 256 ≤ s.now)

/-- COUNTER_ADD (R327): an addition that an event has charged to the partition. -/
def execCounterAdd (s : State) : Out :=
  match s.call with
  | .counterAdd p mask n =>
    match s.charges.find? fun c => c.part = p && c.mask = mask && c.n = n with
    | some c => .next ({ s with charges := s.charges.erase c }.addCounters p mask n)
    | none => .next s
  | _ => .next s

/-- An addition under way to counter `i` of a partition is void: it was charged under the selection that ends (log 43). -/
def Charge.drop (p i : Nat) (c : Charge) : Charge :=
  if c.part = p && c.mask.testBit i then { c with mask := c.mask - 2 ^ i } else c

/-- The additions under way to one counter of a partition are void. -/
def State.dropCharges (s : State) (p i : Nat) : State := { s with charges := s.charges.map (Charge.drop p i) }

/-- The counter of a wave's partition. -/
def State.counter (s : State) (p i : Nat) : Counter :=
  ((s.part? p).bind fun x => x.counters[i]?).getD Counter.zero

/-- CTRSEL (R328). -/
def execCtrsel (n : BitVec 4) (a : BitVec 6) (s : State) : Out :=
  whenLegal s (.ctrsel n a) fun w is _ =>
    if w.sPoison a.toNat then poisonTrap s w is
    else
      let s1 := s.modPart w.part fun p =>
        { p with counters := p.counters.mapIdx fun i c =>
            if i = n.toNat then { c with event := (w.s a.toNat).toNat % 2 ^ 12, value := 0, ovf := false } else c }
      finish (s1.dropCharges w.part n.toNat) w is

/-- The value that CTRRD reads (R328, R330): 0 for a pod event without the pod privilege. -/
def State.counterRead (s : State) (p i : Nat) : Nat :=
  let c := s.counter p i
  if 0x050 ≤ c.event && c.event ≤ 0x053 && !s.privileged p then 0 else c.value

/-- CTRRD (R328). -/
def execCtrrd (d : BitVec 6) (n : BitVec 4) (s : State) : Out :=
  whenLegal s (.ctrrd d n) fun w is _ => finish s (w.setPair d.toNat (s.counterRead w.part n.toNat) false) is

/-- CTRCTL's operation `op` with mask `m` on counter `i` (R329). -/
def Counter.control (op m i : Nat) (c : Counter) : Counter :=
  match op with
  | 0 => if m.testBit i then { c with en := true } else c
  | 1 => if m.testBit i then { c with en := false } else c
  | 2 => if m.testBit i then { c with value := 0, ovf := false } else c
  | _ => { c with ie := m.testBit i }

/-- OVF and EN of the counters (R329). -/
def counterStatus (l : Vector Counter 16) : Nat :=
  ((List.range 16).map fun i =>
    ((l[i]?).map fun c => bitOf c.ovf * 2 ^ (16 + i) + bitOf c.en * 2 ^ i).getD 0).sum

/-- CTRCTL (R329). -/
def execCtrctl (d a : BitVec 6) (s : State) : Out :=
  whenLegal s (.ctrctl d a) fun w is _ =>
    if w.sPoison a.toNat then poisonTrap s w is
    else
      let x := (w.s a.toNat).toNat
      let s1 := s.modPart w.part fun p =>
        { p with counters := p.counters.mapIdx (Counter.control (x / 2 ^ 30) (x % 2 ^ 16)) }
      let st := ((s1.part? w.part).map fun p => counterStatus p.counters).getD 0
      finish s1 (w.setS d.toNat (BitVec.ofNat 32 st) false) is

end Sys2Proof.Machine
end

