-- ==== Sys2Proof/Machine/Mailbox.lean ====
section
/-!
DEFINITION. Skolis's mailboxes and rings (15_partitions_host_startup R354 to R358): how a command record is read, who may send
it, how it is answered, and the writing of host-queue events.
-/
namespace Sys2Proof.Machine

/-! ## Statuses (R354) -/

/-- The status of a command. -/
inductive CmdStatus where
  | ok | badcmd | badarg | nofeat | state | nores | denied | notfound | busy | auth
deriving DecidableEq, Repr

/-- The code of a status. -/
def CmdStatus.code : CmdStatus → Nat
  | .ok => 0
  | .badcmd => 1
  | .badarg => 2
  | .nofeat => 3
  | .state => 4
  | .nores => 5
  | .denied => 6
  | .notfound => 7
  | .busy => 8
  | .auth => 9

/-- What a command comes to: the state after it with its results, or the status with which it changes nothing. -/
abbrev Done := Except CmdStatus (State × List Byte)

/-! ## Responses (R356) -/

/-- The 32 bytes of a response. -/
def responseBytes (tag status : Nat) (results : List Byte) : List Byte :=
  packBytes [(2, tag), (1, status), (5, 0)] ++ (results ++ List.replicate 24 0).take 24

/-- The responses that a mailbox holds, written in the order of its commands: that to command MBXRTAIL, while it is there, at its
place in the ring; MBXRTAIL advances, and MSI-X vector 0 is signalled. The count bounds them. -/
def State.writeAnswers (s : State) (n : Nat) : Nat → State
  | 0 => s
  | k + 1 =>
    let m := s.mbox n
    match m.held.find? fun x => x.1 = m.rtail with
    | none => s
    | some x =>
      let s1 := s.poke (hostKey (m.rspBase + 32 * (m.rtail % 2 ^ m.log2n))) x.2
      let s2 := s1.setMbox { m with rtail := (m.rtail + 1) % 2 ^ 32, held := m.held.erase x }
      State.writeAnswers { s2 with msix := s2.msix ++ [(n, 0)] } n k

/-- A command is answered: its response is written when those to the earlier commands of its mailbox have been. -/
def State.answerCmd (s : State) (c : Cmd) (st : CmdStatus) (results : List Byte) : State :=
  let m := s.mbox c.mbx
  let held := m.held ++ [(c.slot, responseBytes c.tag st.code results)]
  (s.setMbox { m with held := held, last := some (c.tag, st.code, results) }).writeAnswers c.mbx held.length

/-! ## Command records (R354, R358) -/

/-- Bytes of a 64-byte record: `n` bytes from byte `o`. -/
def recField (x o n : Nat) : Nat := bitsAt x (8 * o) (8 * n)

/-- Nothing stands outside the listed fields, each (first byte, bytes). -/
def onlyFields (x : Nat) (fields : List (Nat × Nat)) : Bool :=
  fields.foldl (fun y f => setBits y (8 * f.1) (8 * f.2) 0) x = 0

/-- How a command's record is laid out: whether it is marked H, its fields from byte 4 on but byte 5, and what it asks. -/
structure CmdForm where
  h : Bool
  fields : List (Nat × Nat)
  call : Cmd → Call

/-- PARTSET by its item. -/
def partsetForm (x : Nat) : Option CmdForm :=
  let f := recField x
  match f 4 1 with
  | 0 => some ⟨true, [(4, 1), (16, 1)], fun c => .partsetHoldPolicy c (f 16 1)⟩
  | 1 => some ⟨true, [(4, 1), (16, 8)], fun c => .partsetWatchdog c (f 16 8)⟩
  | 2 => some ⟨true, [(4, 1), (16, 1)], fun c => .partsetQuantum c (f 16 1)⟩
  | 3 => some ⟨true, [(4, 1), (16, 3)], fun c => .partsetWays c (f 16 1) (f 17 1) (f 18 1)⟩
  | 4 => some ⟨true, [(4, 1), (16, 3)], fun c => .partsetQuota c (f 16 1) (f 17 2)⟩
  | 5 => some ⟨true, [(4, 1), (16, 1), (24, 8), (32, 8)], fun c => .partsetGrant c (f 16 1) (f 24 8) (f 32 8)⟩
  | _ => none

/-- ERRLOG by its operation. -/
def errlogForm (x : Nat) : Option CmdForm :=
  let f := recField x
  match f 4 1 with
  | 0 => some ⟨false, [(4, 1), (8, 9)], fun c => .errlogSetRing c (f 8 8) (f 16 1)⟩
  | 1 => some ⟨false, [(4, 1), (8, 1)], fun c => .errlogReadRas c (f 8 1)⟩
  | 2 => some ⟨false, [(4, 1), (8, 1)], fun c => .errlogClearRas c (f 8 1)⟩
  | _ => none

/-- PODCONFIG by its operation. -/
def podconfigForm (x : Nat) : Option CmdForm :=
  let f := recField x
  match f 4 1 with
  | 0 => some ⟨true, [(4, 1), (16, 16)], fun c => .podconfigGroups c (f 16 16)⟩
  | 1 => some ⟨true, [(4, 1), (16, 1)], fun c => .podconfigPrivilege c (f 16 1)⟩
  | 2 => some ⟨true, [(4, 1), (16, 2)], fun c => .podconfigTimeouts c (f 16 1) (f 17 1)⟩
  | 3 => some ⟨true, [(4, 1)], fun c => .podconfigRoutes c⟩
  | 4 => some ⟨true, [(4, 1)], fun c => .podconfigCapacities c⟩
  | _ => none

/-- PODCTL by its operation. -/
def podctlForm (x : Nat) : Option CmdForm :=
  let f := recField x
  match f 4 1 with
  | 0 => some ⟨true, [(4, 1), (16, 1)], fun c => .podctlClearDeadpeer c (f 16 1)⟩
  | 1 => some ⟨true, [(4, 1), (16, 1)], fun c => .podctlDown c (f 16 1)⟩
  | 2 => some ⟨true, [(4, 1), (16, 1)], fun c => .podctlRetrain c (f 16 1)⟩
  | _ => none

/-- DBGCTL by its operation (20 R384). -/
def dbgctlForm (x : Nat) : Option CmdForm :=
  let f := recField x
  match f 4 1 with
  | 0 => some ⟨false, [(4, 1), (8, 9)], fun c => .dbgctlStop c (f 8 4) (f 12 4) (f 16 1)⟩
  | 1 => some ⟨false, [(4, 1), (8, 9)], fun c => .dbgctlStep c (f 8 4) (f 12 4) (f 16 1)⟩
  | 2 => some ⟨false, [(4, 1), (8, 9)], fun c => .dbgctlResume c (f 8 4) (f 12 4) (f 16 1)⟩
  | 3 => some ⟨false, [(4, 1), (8, 2)], fun c => .dbgctlCoreStop c (f 8 2)⟩
  | 4 => some ⟨false, [(4, 1), (8, 2)], fun c => .dbgctlCoreResume c (f 8 2)⟩
  | 16 => some ⟨false, [(4, 1), (8, 1), (16, 8)], fun c => .ctrwrite c (f 8 1) (f 16 8)⟩
  | _ => none

/-- The form of a record: `none` for an unknown opcode, `some none` for an unknown operation of a known one. -/
def cmdForm (x : Nat) : Option (Option CmdForm) :=
  let f := recField x
  let plain (h : Bool) (fields : List (Nat × Nat)) (call : Cmd → Call) : Option (Option CmdForm) := some (some ⟨h, fields, call⟩)
  match f 0 2 with
  | 0x01 => plain false [(8, 12)] fun c => .ident c (f 8 8) (f 16 4)
  | 0x02 => plain false [(8, 13), (32, 32)] fun c => .attest c (f 8 8) (f 16 4) (f 20 1) (f 32 32)
  | 0x03 => plain false [(8, 1)] fun c => .featget c (f 8 1)
  | 0x04 => plain false [(8, 32)] fun c => .featset c (f 8 8) (f 16 8) (f 24 8) (f 32 8)
  | 0x10 => plain true [(8, 5), (14, 3)] fun c => .partcreate c (f 8 4) (f 12 1) (f 14 2) (f 16 1)
  | 0x11 => plain true [] fun c => .partdestroy c
  | 0x12 => some (partsetForm x)
  | 0x13 => plain false [(8, 8)] fun c => .launch c (f 8 8)
  | 0x14 => plain true [(6, 1), (8, 4), (16, 16)] fun c => .wswitch c (f 5 1) (f 6 1) (f 8 4) (f 16 8) (f 24 8)
  | 0x15 => plain false [(8, 4)] fun c => .replay c (f 8 4)
  | 0x16 => plain false [(8, 4)] fun c => .fatal c (f 8 4)
  | 0x17 => some (errlogForm x)
  | 0x18 => plain false [(8, 8)] fun c => .hqset c (f 8 8)
  | 0x20 => plain false [(8, 3), (16, 24)] fun c => .regreg c (f 8 2) (f 10 1) (f 16 8) (f 24 8) (f 32 8)
  | 0x21 => plain false [(8, 4)] fun c => .regrevoke c (f 8 4)
  | 0x30 => plain true [(8, 8)] fun c => .gatecreate c (f 8 4) (f 12 2) (f 14 2)
  | 0x31 => plain true [(8, 4)] fun c => .gatefreeze c (f 8 4)
  | 0x32 => plain true [(8, 4), (16, 8)] fun c => .gateexport c (f 8 4) (f 16 8)
  | 0x33 => plain true [(8, 4), (16, 8)] fun c => .gateimport c (f 8 4) (f 16 8)
  | 0x34 => plain true [(8, 4)] fun c => .gatethaw c (f 8 4)
  | 0x35 => plain true [(8, 4)] fun c => .gatedestroy c (f 8 4)
  | 0x40 => some (podconfigForm x)
  | 0x41 => some (podctlForm x)
  | 0x50 =>
    match f 4 1 with
    | 0 => plain false [(4, 1)] fun c => .dbgopenOpen c
    | 1 => plain false [(4, 1)] fun c => .dbgopenClose c
    | _ => some none
  | 0x51 => some (dbgctlForm x)
  | _ => none

/-- A command marked H may come through the administrative mailbox, or the logical device of the partition with the pod
privilege. -/
def State.mayAdmin (s : State) (mbx : Nat) : Bool :=
  mbx = 16 || s.parts.any fun p => p.ld = some mbx && s.privileged p.num

/-- A record taken: what it asks, or the status that it is answered with. Byte 5 names a partition in an H command and
in a command of the administrative mailbox; elsewhere it is reserved (DEDUCED, log 27). -/
def State.readCmd (s : State) (mbx x : Nat) (c : Cmd) : Except CmdStatus Call :=
  match cmdForm x with
  | none => .error .badcmd
  | some f =>
    match f with
    | none => .error .badarg
    | some g =>
      if onlyFields x ([(0, 4)] ++ (if g.h || mbx = 16 then [(5, 1)] else []) ++ g.fields) then .ok (g.call c)
      else .error (if g.h && !s.mayAdmin mbx then .denied else .badarg)

/-! ## Taking commands (R356) -/

/-- Commands that Skolis can take from a mailbox now: those placed, while a response slot is free. -/
def Mbox.takes (m : Mbox) : Nat :=
  if m.en then min (ringUsed m.tail m.head) (2 ^ m.log2n - ringUsed m.head m.rtail) else 0

/-- A partition is being switched out or in. -/
def State.midSwitch (s : State) (p : Nat) : Bool := s.switches.any fun x => x.out = p || x.inn = some p

/-- The command that a message under way carries. -/
def commandOf : Call → Option Cmd
  | .ident c _ _ => some c
  | .attest c _ _ _ _ => some c
  | .featget c _ => some c
  | .featset c _ _ _ _ => some c
  | .partcreate c _ _ _ _ => some c
  | .partdestroy c => some c
  | .partsetHoldPolicy c _ => some c
  | .partsetWatchdog c _ => some c
  | .partsetQuantum c _ => some c
  | .partsetWays c _ _ _ => some c
  | .partsetQuota c _ _ => some c
  | .partsetGrant c _ _ _ => some c
  | .launch c _ => some c
  | .wswitch c _ _ _ _ _ => some c
  | .replay c _ => some c
  | .fatal c _ => some c
  | .errlogSetRing c _ _ => some c
  | .errlogReadRas c _ => some c
  | .errlogClearRas c _ => some c
  | .hqset c _ => some c
  | .regreg c _ _ _ _ _ => some c
  | .regrevoke c _ => some c
  | .gatecreate c _ _ _ => some c
  | .gatefreeze c _ => some c
  | .gateexport c _ _ => some c
  | .gateimport c _ _ => some c
  | .gatethaw c _ => some c
  | .gatedestroy c _ => some c
  | .podconfigGroups c _ => some c
  | .podconfigPrivilege c _ => some c
  | .podconfigTimeouts c _ _ => some c
  | .podconfigRoutes c => some c
  | .podconfigCapacities c => some c
  | .podctlClearDeadpeer c _ => some c
  | .podctlDown c _ => some c
  | .podctlRetrain c _ => some c
  | .dbgopenOpen c => some c
  | .dbgopenClose c => some c
  | .dbgctlStop c _ _ _ => some c
  | .dbgctlStep c _ _ _ => some c
  | .dbgctlResume c _ _ _ => some c
  | .dbgctlCoreStop c _ => some c
  | .dbgctlCoreResume c _ => some c
  | .ctrwrite c _ _ => some c
  | _ => none

/-- The partitions that a command names (15 R354). -/
def State.cmdParts (s : State) (k : Call) (c : Cmd) : List Nat :=
  match k with
  | .wswitch _ out inn _ _ _ => [out, inn]
  | .podconfigPrivilege _ p => [p]
  | _ => if c.mbx = 16 then [c.part] else (s.parts.filter fun p => p.ld = some c.mbx).map Part.num ++ [c.part]

/-- A record that asks nothing is not answered yet: a command of its mailbox, or one that names its partition, has arrived before it,
or its partition is in mid-switch (R354). -/
def State.recordHeld (s : State) (n : Nat) (c : Cmd) : Bool :=
  let ps := if n = 16 then [c.part] else (s.parts.filter fun p => p.ld = some n).map Part.num ++ [c.part]
  ps.any s.midSwitch || s.agenda.any fun k =>
    match commandOf k with
    | some y => y.mbx = n || (s.cmdParts k y).any fun p => ps.contains p
    | none => false

/-- The next command of a mailbox taken, unless it is answered as it is taken and its turn has not come. -/
def State.takeCmd (s : State) (n : Nat) : State :=
  let m := s.mbox n
  let x := s.peekNat (hostKey (m.cmdBase + 64 * (m.head % 2 ^ m.log2n))) 64
  let c : Cmd := { mbx := n, slot := m.head, tag := recField x 2 2, part := recField x 5 1 }
  let s1 := s.setMbox { m with head := (m.head + 1) % 2 ^ 32 }
  match s1.readCmd n x c with
  | .ok k => { s1 with agenda := s1.agenda ++ [k] }
  | .error st => if s.recordHeld n c then s else s1.answerCmd c st []

/-- Skolis takes what it can from a mailbox. -/
def State.takeCmds (s : State) (n : Nat) : State := (List.range (s.mbox n).takes).foldl (fun t _ => t.takeCmd n) s

/-- Skolis takes what it can from every mailbox. -/
def State.takeAll (s : State) : State := s.mboxes.foldl (fun (t : State) m => t.takeCmds m.num) s

/-- A command's end: its response, and the next commands, of its mailbox and of others that wait for it. -/
def State.endCmd (s : State) (c : Cmd) (st : CmdStatus) (results : List Byte) : State := (s.answerCmd c st results).takeAll

/-- The outcome of a command. -/
def finishCmd (s : State) (c : Cmd) : Done → Out
  | .ok (t, rs) => .next (t.endCmd c .ok rs)
  | .error st => .next (s.endCmd c st [])

/-! ## What every command checks first (R354) -/

/-- Skolis runs, and the host link it brings up in stage 1 is there (R346, R352). -/
def State.skolisUp (s : State) : Bool := s.dev.running && !s.dev.off && s.dev.failing ≠ 1

/-- The partition that a command acts on: byte 5 of an H command or of the administrative mailbox; else the one whose mailbox
received it. -/
def State.cmdPart (s : State) (h : Bool) (c : Cmd) : Option Part :=
  if h || c.mbx = 16 then s.part? c.part else s.parts.find? fun p => p.ld = some c.mbx

/-- A command waits in its place (R354). -/
def State.holdCmd (s : State) : State := { s with agenda := s.call :: s.agenda }

/-- A command of the package: the stage and the sender are checked, then it acts. -/
def devCmd (s : State) (c : Cmd) (h : Bool) (stage : Nat) (f : State → Done) : Out :=
  if !s.skolisUp then .next s
  else if h && !s.mayAdmin c.mbx then finishCmd s c (.error .denied)
  else if s.dev.stage < stage then finishCmd s c (.error .state)
  else finishCmd s c (f s)

/-- A command on a partition: it waits while the partition is in mid-switch. -/
def partCmd (s : State) (c : Cmd) (h : Bool) (f : State → Part → Done) : Out :=
  match s.cmdPart h c with
  | none => devCmd s c h 4 fun _ => .error .notfound
  | some p => if s.midSwitch p.num && s.skolisUp then .next s.holdCmd else devCmd s c h 4 fun t => f t p

/-- A command of a feature that has not been accepted (00_scope R15). -/
def needFeature (s : State) (bit : Nat) (r : Done) : Done := if s.feature bit then r else .error .nofeat

/-- A command's argument checked. -/
def need (b : Bool) (st : CmdStatus) (r : Done) : Done := if b then r else .error st

/-! ## Registers of the mailbox (R346, R356) -/

/-- A mailbox exists: the administrative one from stage 1, that of a logical device once it is bound and has a partition. -/
def State.mailboxOpen (s : State) (m : Nat) : Bool :=
  s.skolisUp && (m = 16 || ((s.lds.any fun l => l.num = m && l.bound) && s.parts.any fun p => p.ld = some m))

/-- A mailbox after a write of `size` bytes at an offset. -/
def Mbox.write (m : Mbox) (off size val : Nat) : Mbox :=
  let put (old : Nat) : Nat := mergeReg old off size val
  match off / 8 * 8 with
  | 0x00 => if m.en then m else { m with cmdBase := put m.cmdBase / 64 * 64 }
  | 0x08 => if m.en then m else { m with rspBase := put m.rspBase / 32 * 32 }
  | 0x10 =>
    let x := put (bitOf m.en * 2 ^ 31 + m.log2n)
    { m with en := x.testBit 31, log2n := if m.en then m.log2n else bitsAt x 0 5 }
  | 0x18 => { m with tail := put m.tail % 2 ^ 32 }
  | 0x30 => { m with hqHead := put m.hqHead % 2 ^ 32 }
  | 0x40 => { m with elHead := put m.elHead % 2 ^ 32 }
  | _ => m

/-- A logical device is bound. -/
def State.ldBound (s : State) (ld : Nat) : Bool := s.lds.any fun l => l.num = ld && l.bound

/-- REGISTER_WRITE (01 R26, R346, R347, R356): by the host, through BAR 2 of a bound logical device, or BAR 0. Only naturally
aligned accesses are accepted; an access to an unbound device meets Completer Abort and does nothing. -/
def execRegisterWrite (s : State) : Out :=
  match s.call with
  | .registerWrite space off size val =>
    if off % size ≠ 0 then .next s
    else
      match space with
      | .page p =>
        match s.part? p with
        | none => .next s
        | some x =>
          if s.skolisUp && (x.ld.map s.ldBound).getD false then .next (s.pageWrite x off size val) else .next s
      | .mailbox m =>
        if s.mailboxOpen m then .next ((s.setMbox ((s.mbox m).write off size val)).takeCmds m) else .next s
  | _ => .next s

/-- MAILBOX_DOORBELL (R356): MBXTAIL is written, and Skolis takes commands. -/
def execMailboxDoorbell (s : State) : Out :=
  match s.call with
  | .mailboxDoorbell m tail =>
    if s.mailboxOpen m then .next ((s.setMbox { s.mbox m with tail := tail }).takeCmds m) else .next s
  | _ => .next s

/-! ## The host queue (R357) -/

/-- The 64 bytes of an event record. -/
def Event.bytes (e : Event) (part : Nat) : List Byte :=
  packBytes [(2, e.type), (1, part), (1, 0), (4, e.seq), (8, e.cyc)] ++ (e.body ++ List.replicate 48 0).take 48

/-- The queue is set and has room. -/
def State.hqOpen (s : State) (p : Part) : Bool :=
  p.hqBase.isSome && ringUsed (s.mbox p.mbx).hqTail (s.mbox p.mbx).hqHead < 256

/-- The translation fault of a unit that has no event yet, with its tag (01 R38). -/
def unpostedFault : Wait → Option Nat
  | .fault tag _ _ _ _ false _ _ _ => some tag
  | _ => none

/-- The wait once its event is posted. -/
def Wait.markPosted : Wait → Wait
  | .fault tag va asid sub kind _ ans x y => .fault tag va asid sub kind true ans x y
  | x => x

/-- A unit's translation event posted. -/
def State.postFault (s : State) (w : Wave) (a : Arm) : State :=
  match (w.unit a).wait with
  | .fault tag va asid sub kind _ _ _ _ =>
    (s.setWave (w.setUnit a { w.unit a with wait := (w.unit a).wait.markPosted })).postEvent w.part 1 w.seq
      (translationBody va tag asid sub kind w.wid)
  | _ => s

/-- While the queue has room, the wave of a partition that faulted first without an event gets it (01 R38). -/
def State.postParked (s : State) (p : Part) : State :=
  let us := s.waves.flatMap fun (w : Wave) =>
    if w.part = p.num then
      ((unpostedFault w.unitT.wait).map fun t => (w, Arm.t, t)).toList ++ ((unpostedFault w.unitE.wait).map fun t => (w, Arm.e, t)).toList
    else []
  match us.foldl (fun (b : Option (Wave × Arm × Nat)) x =>
      match b with
      | none => some x
      | some y => if x.2.2 < y.2.2 then some x else some y) none with
  | some (w, a, _) => if s.hqRoom p then s.postFault w a else s
  | none => s

/-- HOST_QUEUE_POST: a parked wave without an event gets it once there is room; the oldest waiting event of the partition is
written, HQTAIL advances, MSI-X vector 1 is signalled. -/
def execHostQueuePost (s0 : State) : Out :=
  match s0.call with
  | .hostQueuePost n =>
    let s := ((s0.part? n).map s0.postParked).getD s0
    match s.part? n with
    | none => .next s
    | some p =>
      match p.events, p.hqBase with
      | e :: rest, some base =>
        if !s.hqOpen p then .next s
        else
          let m := s.mbox p.mbx
          let s1 := s.poke (hostKey (base + 64 * (m.hqTail % 256))) (e.bytes n)
          let s2 := (s1.setPart { p with events := rest }).setMbox { m with hqTail := (m.hqTail + 1) % 2 ^ 32 }
          .next { s2 with msix := s2.msix ++ [(p.mbx, 1)] }
      | _, _ => .next s
  | _ => .next s0

end Sys2Proof.Machine
end

