-- ==== Sys2Proof/Machine/Shake.lean ====
section
/-!
DEFINITION. SHAKE256, with which the measurement registers are extended (15_partitions_host_startup R359).
-/
namespace Sys2Proof.Machine

/-- A 64-bit word of the sponge turned left by `n` places. -/
def turnWord (w n : Nat) : Nat := w % 2 ^ (64 - n % 64) * 2 ^ (n % 64) + w / 2 ^ (64 - n % 64)

/-- The five rows of the sponge's 25 words. -/
def spongeRows (l : List Nat) : List (List Nat) := (List.range 5).map fun y => (l.drop (5 * y)).take 5

/-- The first element of a row moved to its end, `n` times. -/
def turnRow (row : List Nat) (n : Nat) : List Nat := row.drop n ++ row.take n

/-- Two rows added without carries. -/
def addRows (a b : List Nat) : List Nat := List.zipWith (fun x y => x ^^^ y) a b

/-- The first map of a round: every row takes the sum of the rows, from the column before and, turned by one, from the one
after. -/
def spongeMix (l : List Nat) : List Nat :=
  let sum := (spongeRows l).foldl addRows (List.replicate 5 0)
  let add := addRows (turnRow sum 4) ((turnRow sum 1).map fun w => turnWord w 1)
  (spongeRows l).flatMap fun row => addRows row add

/-- The walk of the words from a column and a row: each moves to where the next one stood, turned by the triangular numbers. -/
def spongeWalk (l : List Nat) : Nat → Nat → Nat → Nat → List (Nat × Nat)
  | 0, _, _, _ => []
  | n + 1, x, y, t =>
    let y1 := (2 * x + 3 * y) % 5
    (y + 5 * y1, turnWord (l.getD (x + 5 * y) 0) (t * (t + 1) / 2)) :: spongeWalk l n y y1 (t + 1)

/-- The second and third maps: 24 words walk, and the first one stays. -/
def spongeMove (l : List Nat) : List Nat := (spongeWalk l 24 1 0 1).foldl (fun m p => m.set p.1 p.2) l

/-- The fourth map, in each row: a word takes the second after it where the first after it has no bit. -/
def spongeRowMap (row : List Nat) : List Nat :=
  addRows row (List.zipWith (fun x y => (x ^^^ (2 ^ 64 - 1)) &&& y) (turnRow row 1) (turnRow row 2))

/-- The register that gives the constants' bits, one step on: its polynomial is x^8 + x^6 + x^5 + x^4 + 1. -/
def stepRegister (r : Nat) : Nat := if r < 128 then 2 * r else (2 * r - 256) ^^^ 0x71

/-- The register after seven steps, with the bits that it has given at places 0, 1, 3, 7, 15, 31 and 63. -/
def roundConstant : Nat → Nat → Nat × Nat
  | 0, r => (0, r)
  | n + 1, r =>
    let z := roundConstant n (stepRegister r)
    (r % 2 * 2 ^ (2 ^ (6 - n) - 1) + z.1, z.2)

/-- The rounds of the permutation, from a state of the register. -/
def spongeRounds : Nat → Nat → List Nat → List Nat
  | 0, _, l => l
  | n + 1, r, l =>
    let c := roundConstant 7 r
    let m := (spongeRows (spongeMove (spongeMix l))).flatMap spongeRowMap
    spongeRounds n c.2 (m.set 0 (m.getD 0 0 ^^^ c.1))

/-- A block of 136 bytes taken in. -/
def absorbBlock (l : List Nat) (bs : List Byte) : List Nat :=
  spongeRounds 24 1 (addRows l ((List.range 25).map fun i => bytesToNat ((bs.drop (8 * i)).take 8)))

/-- The message with SHAKE's padding, a whole number of blocks. -/
def shakePad (m : List Byte) : List Byte :=
  let n := 136 - m.length % 136
  m ++ (if n = 1 then [0x9F] else [0x1F] ++ List.replicate (n - 2) 0 ++ [0x80])

/-- Blocks absorbed one after another. -/
def absorbAll : Nat → List Nat → List Byte → List Nat
  | 0, l, _ => l
  | n + 1, l, bs => absorbAll n (absorbBlock l (bs.take 136)) (bs.drop 136)

/-- SHAKE256 with 512 output bits. -/
def shake256 (m : List Byte) : List Byte :=
  let p := shakePad m
  let l := absorbAll (p.length / 136) (List.replicate 25 0) p
  (l.take 8).flatMap fun x => natToBytes 8 x

/-- A measurement register extended with a digest of 64 bytes (R359), both as little-endian numbers. -/
def extendMeasure (m : BitVec 512) (d : Nat) : BitVec 512 :=
  BitVec.ofNat 512 (bytesToNat (shake256 (natToBytes 64 m.toNat ++ natToBytes 64 d)))

end Sys2Proof.Machine
end

