-- ==== Sys2Proof/Machine/Startup.lean ====
section
/-!
DEFINITION. Staged start, features, identity and attestation, power and cooling, and the fabric manager's commands
(15_partitions_host_startup R345 to R347, R352, R353, R355, R358 to R360; 03_pod_memory R389).
-/
namespace Sys2Proof.Machine

/-! ## Measurement (R359) -/

/-- A measurement register extended with what it measures. -/
def State.measure (s : State) (r k : Nat) : State :=
  { s with dev := { s.dev with
      measures := s.dev.measures.mapIdx fun i m => if i = r then extendMeasure m (Config.stageDigest r k) else m } }

/-! ## Staged start (R352) -/

/-- The state as reset release finds it: what is not on the package keeps its bytes, and a thermal trip is remembered (R360). -/
def State.released (s : State) : State :=
  let s0 := State.reset
  { s0 with
    turn := s.turn, free := s.free, call := s.call,
    mem := s.mem.filter fun c => isModuleKey c.1 || hostKey 0 ≤ c.1,
    poison := s.poison.filter isModuleKey,
    dev := { s0.dev with running := true, tripped := s.dev.tripped } }

/-- RESET_RELEASE: Skolis runs from ROM, which it measures, and begins stage 1. -/
def execResetRelease (s : State) : Out :=
  match s.call with
  | .resetRelease => .next (s.released.measure 0 0)
  | _ => .next s

/-- Stage `n` fails: the package stays at the stage before it, and IDENT reports it; without the pod, RELAY and MODRED are not
offered. -/
def State.stageFails (s : State) (n die : Nat) : State :=
  { s with dev := { s.dev with failing := n, failDie := die, offered := if n = 3 then 0xFC else s.dev.offered } }

/-- A die or stack that fails stage 2 is retired whole (log 26). -/
def State.retireDie (s : State) (d : Nat) : State :=
  if d < 8 then
    let quads := (List.range 32).map fun i => 32 * d + i
    { s with
      dev := { s.dev with failDie := d, retired := s.dev.retired ++ quads.filter fun q => !s.dev.retired.contains q },
      links := s.links.mapIdx fun i l => if i = d then { l with down := true } else l }
  else s

/-- The harvest fuses are read (R345). -/
def State.readFuses (s : State) : State :=
  { s with dev := { s.dev with retired := (List.range Config.quads).filter fun q => Config.harvested q } }

/-- An attachment as it is verified: its ports up, the capacities of its logical devices, KRSPBASE enabled (03 R72, R77, R389). -/
def attVerified (q a : Nat) : Att :=
  { verified := true, portsUp := List.replicate (portsPerAttachment q) true,
    krspBase := (List.range (portsPerAttachment q)).map fun i => Config.krspBase a i % 2 ^ 48 * 65536 + 1,
    fabricCap := (List.range 16).map fun p => min (2 ^ 42) (Config.ldCapacity a p),
    readCap := (List.range 16).map fun p => min (2 ^ 42) (Config.ldCapacity a p) }

/-- The cabling is one of the designs (00_scope R9). -/
def podCabled (q self : Nat) : Bool := differenceSet q ≠ [] && self < podSize q

/-- The pod comes up: attachments verified, routes built. -/
def State.podUp (s : State) (q self : Nat) : State :=
  { s with
    pod := { s.pod with
      order := some q, self := self, disabled := Config.podDisabled,
      atts := (List.range (modulesOf q self).length).map (attVerified q) },
    dev := { s.dev with stage := 3, offered := 0xFF } }

/-- The next stage is measured, then entered or not. -/
def State.enterStage (s : State) (ok : Bool) (die : Nat) : State :=
  match s.dev.stage with
  | 0 => if ok then { s with dev := { s.dev with stage := 1 } } else s.stageFails 1 die
  | 1 =>
    let s1 := s.measure 1 0
    if ok then
      let s2 := (s1.readFuses.measure 3 0).retireDie die
      { s2 with dev := { s2.dev with stage := 2 } }
    else s1.stageFails 2 die
  | 2 =>
    let s1 := s.measure 2 0
    if ok && podCabled Config.podOrder Config.podSelf then
      let (n, s2) := (s1.podUp Config.podOrder Config.podSelf).fresh
      s2.measure 5 n
    else s1.stageFails 3 die
  | _ => s

/-- STAGE_ADVANCE. -/
def execStageAdvance (s : State) : Out :=
  match s.call with
  | .stageAdvance ok die =>
    if !s.skolisUp || s.dev.failing ≠ 0 then .next s else .next (s.enterStage ok die)
  | _ => .next s

/-! ## Features (R353) -/

/-- The feature words have been settled: stage 3 has been reached, or has failed. -/
def Dev.offers (d : Dev) : Bool := 3 ≤ d.stage || d.failing = 3

/-- FEATGET. -/
def execFeatget (s : State) : Out :=
  match s.call with
  | .featget c idx =>
    devCmd s c false 0 fun t =>
      need t.dev.offers .state (need (idx ≤ 3) .badarg (.ok (t, natToBytes 8 (if idx = 0 then t.dev.offered.toNat else 0))))
  | _ => .next s

/-- The features committed: stage 4. -/
def State.commitFeatures (s : State) (w0 : Nat) : State :=
  { s with dev := { s.dev with accepted := BitVec.ofNat 64 w0, committed := true, stage := 4 } }.measure 4 w0

/-- FEATSET. -/
def execFeatset (s : State) : Out :=
  match s.call with
  | .featset c w0 w1 w2 w3 =>
    devCmd s c false 0 fun t =>
      need (t.dev.offers && !t.dev.committed) .state
        (need (BitVec.ofNat 64 w0 &&& ~~~t.dev.offered = 0 && w1 = 0 && w2 = 0 && w3 = 0) .badarg
          (.ok (t.commitFeatures w0, [])))
  | _ => .next s

/-! ## Identity and attestation (R355, R358, R359) -/

/-- The first `n` bytes of a block written to a host buffer of `len` bytes. -/
def State.fillBuffer (s : State) (buf len : Nat) (bs : List Byte) : State := s.poke (hostKey buf) (bs.take len)

/-- IDENT. -/
def execIdent (s : State) : Out :=
  match s.call with
  | .ident c buf len =>
    devCmd s c false 0 fun t =>
      let block := (List.range (min len Config.identLength)).map (Config.identByte t.dev.tripped)
      .ok (t.fillBuffer buf len block,
        packBytes [(4, Config.identLength), (1, t.dev.stage), (1, t.dev.failing), (1, t.dev.failDie)])
  | _ => .next s

/-- The report that is signed: the nonce, the selected registers, the stage, CYC. -/
def State.report (s : State) (mask nonce : Nat) : List Byte :=
  natToBytes 32 nonce
    ++ (onesOf mask 8).flatMap (fun i => natToBytes 64 (s.dev.measures.getD i 0).toNat)
    ++ natToBytes 1 s.dev.stage ++ natToBytes 8 s.now

/-- ATTEST: the signature is of a Falcon-1024 key that no rule gives (log 13). -/
def execAttest (s : State) : Out :=
  match s.call with
  | .attest c buf len mask nonce =>
    devCmd s c false 1 fun t =>
      let (n, t1) := t.fresh
      let body := t1.report mask nonce ++ (List.range Config.signatureLength).map (Config.signatureByte n)
      .ok (t1.fillBuffer buf len body, natToBytes 4 body.length)
  | _ => .next s

/-! ## Power and cooling (R360) -/

/-- THERMAL_THROTTLE: issue on a die is gated in `steps` sixteenths of the cycles. -/
def execThermalThrottle (s : State) : Out :=
  match s.call with
  | .thermalThrottle die steps => .next { s with dev := { s.dev with throttle := s.dev.throttle.set die steps } }
  | _ => .next s

/-- THERMAL_SHUTDOWN: the package shuts down, and the trip is reported at the next start. -/
def execThermalShutdown (s : State) : Out :=
  match s.call with
  | .thermalShutdown => .next { s with dev := { s.dev with off := true, tripped := true } }
  | _ => .next s

/-! ## The fabric manager (R346, R347) -/

/-- A fabric-manager command answered: bytes that CXL defines, then values that State holds (log 15). -/
def State.fabric (s : State) (cmd : Nat) (values : List Byte) : State :=
  { s with fabricAnswer := (List.range (Config.fabricLength cmd)).map (Config.fabricByte cmd) ++ values }

/-- The host link answers the fabric manager. -/
def fabricCmd (s : State) (f : State → State) : Out := if s.skolisUp then .next (f s) else .next s

/-- GET_LD_INFO. -/
def execGetLdInfo (s : State) : Out :=
  match s.call with
  | .getLdInfo => fabricCmd s fun t => t.fabric 0 []
  | _ => .next s

/-- The allocations of logical devices from `start` on. -/
def State.ldAllocations (s : State) (start count : Nat) : List Byte :=
  ((s.lds.drop start).take count).flatMap fun l => natToBytes 8 l.allocation

/-- GET_LD_ALLOCATIONS. -/
def execGetLdAllocations (s : State) : Out :=
  match s.call with
  | .getLdAllocations start count => fabricCmd s fun t => t.fabric 1 (t.ldAllocations start count)
  | _ => .next s

/-- Values put over a list from a place on. -/
def putFrom {α : Type} (l : List α) (start : Nat) (vs : List α) : List α :=
  l.mapIdx fun i x => if start ≤ i then vs.getD (i - start) x else x

/-- SET_LD_ALLOCATIONS: of the package's own logical devices (target 8), or, by a module's fabric manager, of the logical
devices at an attachment's module (03 R389), which the package reads only later. -/
def execSetLdAllocations (s : State) : Out :=
  match s.call with
  | .setLdAllocations target start sizes =>
    fabricCmd s fun t =>
      match t.pod.atts[target]? with
      | some a =>
        let caps := putFrom a.fabricCap start (sizes.map (min (2 ^ 42)))
        { t with pod := { t.pod with atts := t.pod.atts.set target { a with fabricCap := caps } } }.fabric 2 []
      | none =>
        if target = 8 then
          let lds := t.lds.mapIdx fun i l =>
            if start ≤ i then { l with allocation := sizes.getD (i - start) l.allocation } else l
          { t with lds := lds }.fabric 2 []
        else t
  | _ => .next s

/-- GET_QOS_CONTROL. -/
def execGetQosControl (s : State) : Out :=
  match s.call with
  | .getQosControl => fabricCmd s fun t => t.fabric 3 (t.lds.map fun l => BitVec.ofNat 8 l.qos)
  | _ => .next s

/-- The state with a logical device changed. -/
def State.modLd (s : State) (ld : Nat) (f : LogDev → LogDev) : State :=
  { s with lds := mapWhere s.lds (fun l => l.num = ld) f }

/-- SET_QOS_CONTROL. -/
def execSetQosControl (s : State) : Out :=
  match s.call with
  | .setQosControl ld val => fabricCmd s fun t => (t.modLd ld fun l => { l with qos := val }).fabric 4 []
  | _ => .next s

/-- GET_QOS_STATUS. -/
def execGetQosStatus (s : State) : Out :=
  match s.call with
  | .getQosStatus => fabricCmd s fun t => t.fabric 5 []
  | _ => .next s

/-- BIND_VPPB: a logical device is bound to a host. -/
def execBindVppb (s : State) : Out :=
  match s.call with
  | .bindVppb ld => fabricCmd s fun t => t.modLd ld fun l => { l with bound := true }
  | _ => .next s

/-- UNBIND_VPPB: every access to it meets Completer Abort; its partition runs on. -/
def execUnbindVppb (s : State) : Out :=
  match s.call with
  | .unbindVppb ld => fabricCmd s fun t => t.modLd ld fun l => { l with bound := false, cacheEnabled := false }
  | _ => .next s

end Sys2Proof.Machine
end

