-- ==== Sys2Proof/Machine/Ladle.lean ====
section
/-!
DEFINITION. The Ladle channels (05_engines_in_memory R128 to R142): accepting an aperture store, landing its sectors, and
clearing LASTERR.
-/
namespace Sys2Proof.Machine

/-! ## Templates and descriptors (R130 to R132) -/

/-- Signed field of 32 bits. -/
def field32 (x lo : Nat) : Int := signed (bitsAt x lo 32) 32

/-- The shape of a copy, from its template and descriptor. -/
structure CopyShape where
  src : Int
  dst : Int
  sstr1 : Int
  sstr2 : Int
  dstr1 : Int
  dstr2 : Int
  xbytes : Nat
  ycount : Nat
  zcount : Nat
  srcQsp : Bool
  dstQsp : Bool
  aligned : Bool
deriving DecidableEq, Repr

/-- The fields of a template and a descriptor. -/
def copyShape (t d : Nat) : CopyShape :=
  let src : Int := bitsAt t 448 64
  let dst : Int := bitsAt t 384 64
  let fields : List Int :=
    [src, dst, field32 d 64, field32 d 96, field32 t 352, field32 t 320, field32 t 288, field32 t 256]
  { src := src + field32 d 64, dst := dst + field32 d 96, sstr1 := field32 t 352, sstr2 := field32 t 320,
    dstr1 := field32 t 288, dstr2 := field32 t 256, xbytes := bitsAt t 240 16, ycount := bitsAt t 224 16,
    zcount := bitsAt t 208 16, srcQsp := t.testBit 0, dstQsp := t.testBit 1,
    aligned := fields.all fun x => x % 64 = 0 }

/-- A field is out of its range, or not a multiple of 64 (R131, R132). -/
def CopyShape.bad (c : CopyShape) : Bool :=
  c.xbytes % 64 ≠ 0 || c.xbytes < 64 || 65472 < c.xbytes || c.ycount = 0 || c.zcount = 0 || !c.aligned

/-- n, the sectors of a copy (R132). -/
def CopyShape.count (c : CopyShape) : Nat := c.xbytes / 64 * c.ycount * c.zcount

/-- The addresses of the sectors, z outer, then y, then x, from a base and strides. -/
def CopyShape.addresses (c : CopyShape) (base str1 str2 : Int) : List Nat :=
  (List.range c.zcount).flatMap fun z => (List.range c.ycount).flatMap fun y =>
    (List.range (c.xbytes / 64)).map fun x => wrap (base + z * str2 + y * str1 + 64 * x) 64

/-- The source addresses. -/
def CopyShape.sources (c : CopyShape) : List Nat := c.addresses c.src c.sstr1 c.sstr2
/-- The destination addresses. -/
def CopyShape.dests (c : CopyShape) : List Nat := c.addresses c.dst c.dstr1 c.dstr2

/-- The barrier that a descriptor names (05 R130): none with NOTB, else whether it is in the QSP and its address. DESIGN CHOICE (log
32): the bits of TBADDR above [20:4], which R130 has zero for a barrier of the QSP, stay in the address, so that a barrier named
with one of them set lies outside the window. -/
def descBarrier (d : Nat) : Option (Bool × Nat) :=
  if d.testBit 9 then none
  else if d.testBit 10 then some (true, bitsAt d 11 53 * 16)
  else some (false, wrap (signed (bitsAt d 11 53) 53 * 16) 64)

/-! ## Translation by a channel (R133) -/

/-- Where a sector lies: its key, its tier (none for a QSP), and whether its page allocates nothing. -/
structure SectorAt where
  key : Nat
  tier : Option Tier
  na : Bool
deriving DecidableEq, Repr

/-- How a sector's address is resolved. -/
inductive SectorGot where
  | ok (a : SectorAt)
  /-- A page of tier 2 or 3. -/
  | badTier
  /-- Refused; with the translation's subcode and level when it is one. -/
  | refused (va : Nat) (sub : Option (Nat × Nat))
  /-- The page has to be walked (01 R30). -/
  | miss (page : Nat)
deriving DecidableEq, Repr

/-- What a channel has of a page for the doorbell at its head: an entry of its TLB, or one that a walk brought for the doorbell. -/
def State.ladleEntry (s : State) (c : Chan) (d : Doorbell) (part asid page : Nat) : Option TlbEntry :=
  (s.tlbFind (.ladle c.die c.ch) part asid page).orElse fun _ =>
    d.pages.find? fun e => e.part = part && e.asid = asid && e.page ≤ page && page < e.page + e.pages

/-- A sector's address resolved, in the wave's QSP window or in its address space. -/
def State.sectorAt (s : State) (c : Chan) (d : Doorbell) (w : Wave) (p : Part) (qsp : Bool) (size : Nat) (kind : AccKind)
    (va : Nat) : SectorGot :=
  if qsp then
    match s.qspKeyOf w va with
    | some k => .ok { key := k, tier := none, na := false }
    | none => .refused va none
  else if !canonical va then .refused va (some (1, 15))
  else
    match s.ladleEntry c d p.num (s.waveAsid w) (pageOf va) with
    | some e =>
      if e.tier = .relay || e.tier = .aperture then .badTier
      else
        match s.throughEntry p e va size kind with
        | .ok pa _ =>
          match keyOfPa s.pod pa with
          | some k => .ok { key := k, tier := some e.tier, na := e.na }
          | none => .badTier
        | .deny sub level => .refused va (some (sub, level))
        | .miss pg => .miss pg
    | none =>
      match d.refusals.find? fun r => r.page = pageOf va with
      | some r => .refused va (some (r.subAt va, r.level))
      | none => .miss (pageOf va)

/-- The sectors that are resolved. -/
def resolved (l : List SectorGot) : List SectorAt := l.filterMap fun g => match g with
  | .ok a => some a
  | _ => none

/-- The first refused one. -/
def firstRefused (l : List SectorGot) : Option (Nat × Option (Nat × Nat)) := l.findSome? fun g => match g with
  | .refused va x => some (va, x)
  | _ => none

/-- The pages that have to be walked. -/
def missedPages (l : List SectorGot) : List Nat := dedup (l.filterMap fun g => match g with
  | .miss pg => some pg
  | _ => none)

/-- A channel asks for walks, as far as its four miss entries leave room (01 R29, R30). -/
def State.chanWalks (s : State) (c : Chan) (w : Wave) (pages : List Nat) : State :=
  pages.foldl (fun (t : State) pg => (t.askWalk (.chan c.die c.ch) w.part (t.waveAsid w) pg).1) s

/-! ## Refusing (R134) -/

/-- An aperture store's doorbell is over: the store performs when each of its doorbells is. -/
def State.endDoor (s : State) (d : Doorbell) : State :=
  match (s.wave? d.seq d.wid).bind fun w => w.pend.find? fun o => o.id = d.op with
  | none => s
  | some o => s.completeOp d.seq d.wid { o with att := o.att - 1, answered := o.att ≤ 1 }

/-- The doorbell at a channel's head taken from it. -/
def State.takeDoor (s : State) (die ch : Nat) : State :=
  let c := s.chan die ch
  s.setChan { c with doors := c.doors.drop 1 }

/-- The channel's last refusal (R135). -/
def State.chanError (s : State) (die ch sub : Nat) : State := s.setChan { s.chan die ch with lastErr := sub }

/-- A refused aperture store (R134): LASTERR, and the late error. -/
def State.refuseDoor (s : State) (c : Chan) (d : Doorbell) (sub : Nat) : State :=
  (((s.takeDoor c.die c.ch).chanError c.die c.ch sub).endDoor d).lateError d.seq d.wid (if sub = 0x0B then 8 else 16) sub d.va

/-- A channel as the requester of an access for a wave's launch (01 R35). -/
def State.chanRequester (s : State) (die ch seq : Nat) : Requester :=
  { type := 1, id := die * 16 + ch, asid := ((s.launch? seq).map Launch.asid).getD 0 }

/-- The record of a translation refusal of a channel (R134, 01 R35). -/
def State.logEngine (s : State) (c : Chan) (w : Wave) (kind : AccKind) : Nat × Option (Nat × Nat) → State
  | (va, some (sub, level)) =>
    let r := s.chanRequester c.die c.ch w.seq
    s.logError w.part
      { addr := va, asid := r.asid, sub := sub, cls := 16, level := level, kind := kind.code, reqType := r.type,
        reqId := r.id, phys := false }
  | (_, none) => s

/-! ## Accepting (R133) -/

/-- The lines of tier 0 and tier 1 sectors, and whether their pages allocate nothing. -/
def destLines (l : List SectorAt) : List (Nat × Bool) := dedup ((l.filter fun a => a.tier.isSome).map fun a => (lineKey a.key, a.na))

/-- A destination line can be taken: no channel owns it, and a module's permission is held, or has been asked for (R133). -/
def State.lineReady (s : State) (die part : Nat) (x : Nat × Bool) : Got :=
  if s.keyDown x.1 then (s, true) else if s.ladleOwns x.1 then (s, false) else s.permitted die part x.1 true

/-- A destination line taken in M in the channel's die's L2 (R133, R136); where it has no place there, every other copy goes. -/
def State.ownLine (s : State) (die part : Nat) (x : Nat × Bool) : State :=
  if s.keyDown x.1 then s
  else
    let g := s.directoryRoom x.1
    let nowhere := ((x.2 || !s.ownsWay die x.1 part) && (s.l2Find die x.1).isNone) || !s.wayFree die x.1 (s.fillTag die x.1 part)
    if nowhere || !g.2 then (s.dropCopies x.1).wakeLine x.1 else (g.1.dirOwn die x.1 part).filled die x.1

/-- Lsrc of R142 for one sector of a channel's die. -/
def srcLatency (die : Nat) (a : SectorAt) : Nat :=
  match a.tier with
  | none => 12
  | some .hbm => if a.key / Config.hbmWindow = die then 450 else 550
  | some _ => 700

/-- Ldst. -/
def dstLatency (a : SectorAt) : Nat := if a.tier.isNone then 12 else 120

/-- The promise of a copy accepted now (R142): Pch is that of the channel's previous copy while it has sectors unlanded. -/
def State.promiseFor (s : State) (c : Chan) (src dst : List SectorAt) : Nat :=
  let prev := match c.copies.getLast? with
    | some x => if x.sectors = [] then 0 else x.promise
    | none => 0
  max s.now prev + (src.length + 3) / 4 + (src.map (srcLatency c.die)).foldl max 0 + (dst.map dstLatency).foldl max 0 + 64

/-- A barrier written by a channel: at its bank, or at its home slice; in a line that a channel owns, where it lies. -/
def State.chanBarrierWrite (s : State) (part : Nat) (r : Requester) (b : BarrierRef) (x : Nat) : Got :=
  if b.qsp || s.ladleOwns (lineKey b.key) then (s.pokeNat b.key 16 x, true)
  else s.homeWrite part r b.key (natToBytes 16 x) false

/-- A channel's operation on a barrier can be performed now: the home slice has its line; otherwise it has been asked for. A
barrier of the QSP, or of a line that a channel owns, waits for no line. -/
def State.chanBarrierReady (s : State) (part : Nat) (r : Requester) (b : BarrierRef) : Got :=
  if b.qsp || s.barrierPoison part b || s.ladleOwns (lineKey b.key) then (s, true)
  else
    let g := s.homeReach part r b.key 16
    if g.2 then g.1.permitted (homeDie s.pod (lineKey b.key)) part (lineKey b.key) true else g

/-- The barrier of a copy resolved: none when the copy has none. -/
def State.copyBarrier (s : State) (c : Chan) (d : Doorbell) (w : Wave) (p : Part) : Option (BarrierRef × SectorGot) :=
  (descBarrier d.desc).map fun x =>
    let g := s.sectorAt c d w p x.1 16 .write x.2
    match g with
    | .ok a => ({ key := a.key, va := x.2, qsp := x.1 }, g)
    | _ => ({ key := 0, va := x.2, qsp := x.1 }, g)

/-- A copy's barrier is invalid (R139): refused, in tier 2 or 3, poisoned, or of another owner; with the record to write. -/
def State.barrierInvalid (s : State) (part : Nat) : BarrierRef × SectorGot → Option (Nat × Option (Nat × Nat))
  | (b, .ok _) => if s.barrierPoison part b || tbOwner (s.peekNat b.key 16) ≠ ownerOf part then some (b.va, none) else none
  | (_, .refused va r) => some (va, r)
  | (b, _) => some (b.va, none)

/-- The doorbell at the channel's head presents a barrier to its bank since a time, or presents none. -/
def State.presentDoor (s : State) (die ch : Nat) (x : Option (Nat × Nat)) : State :=
  let c := s.chan die ch
  match c.doors with
  | [] => s
  | d :: ds => s.setChan { c with doors := { d with presented := x } :: ds }

/-- The acceptance's operation on a barrier of the QSP as a request of its bank (R138, 02 R44). -/
def chanReq (die ch key age : Nat) : BankReq :=
  { who := .barrier die ch, cls := 3, place := ch, age := age, seg := (sectorKey key, false), reads := false }

/-- The copy is accepted: it enters its channel, its barrier has its sectors and its promise (R133 step 3), and its destination
lines become the channel's. -/
def State.putCopy (s : State) (c : Chan) (d : Doorbell) (w : Wave) (src dst : List SectorAt) (b : Option BarrierRef) : State :=
  let promise := s.promiseFor c src dst
  let copy : Copy :=
    { seq := w.seq, wid := w.wid, part := w.part, barrier := b, door := d.va,
      sectors := List.zip (src.map SectorAt.key) (dst.map SectorAt.key), promise := promise, accepted := s.now, lost := false,
      moves := [], lands := [], lostMods := [] }
  let s1 := s.takeDoor c.die c.ch
  let c1 := s1.chan c.die c.ch
  let s2 := s1.setChan { c1 with copies := c1.copies ++ [copy] }
  let s3 := match b with
    | none => s2
    | some x =>
      (s2.chanBarrierWrite w.part (s.chanRequester c.die c.ch w.seq) x (tbAccept (s2.peekNat x.key 16) src.length promise)).1
  ((destLines dst).foldl (fun (t : State) x => t.ownLine c.die w.part x) s3).endDoor d

/-- The steps of R133 once every check of R134 has passed: room, the lines, then the barrier in its place at its bank or home. -/
def State.acceptCopy (s : State) (c : Chan) (w : Wave) (d : Doorbell) (src dst : List SectorAt) (b : Option BarrierRef) :
    State :=
  let lines := destLines dst
  if 64 ≤ c.copies.length || 16384 < c.owned + lines.length then s.presentDoor c.die c.ch none
  else
    let r := s.chanRequester c.die c.ch w.seq
    let g := gotAll s lines fun t x => t.lineReady c.die w.part x
    let h := match b with
      | some x => if g.2 then g.1.chanBarrierReady w.part r x else g
      | none => g
    if !h.2 then h.1.presentDoor c.die c.ch none
    else
      match b with
      | some x =>
        let age := ((d.presented.filter fun y => y.1 = x.key).map Prod.snd).getD s.now
        if x.qsp && !h.1.bankTurn (chanReq c.die c.ch x.key age) x.key then h.1.presentDoor c.die c.ch (some (x.key, age))
        else h.1.putCopy c d w src dst b
      | none => h.1.putCopy c d w src dst b

/-- The doorbell at a channel's head checked once its pages are there (R134: the lowest subcode that applies), and refused or
accepted. -/
def State.checkDoor (s : State) (c : Chan) (w : Wave) (d : Doorbell) (count : Nat) (x y : List SectorGot)
    (z : Option (BarrierRef × SectorGot)) : State :=
  if (x ++ y).any fun g => g = .badTier then s.refuseDoor c d 2
  else
    match firstRefused x, firstRefused y with
    | some r, _ => (s.logEngine c w .read r).refuseDoor c d 3
    | none, some r => (s.logEngine c w .write r).refuseDoor c d 4
    | none, none =>
      let src := resolved x
      let dst := resolved y
      if 16384 < (dedup (dst.map fun a => lineKey a.key)).length || 32768 < count then s.refuseDoor c d 5
      else
        match z with
        | none => s.acceptCopy c w d src dst none
        | some b =>
          match s.barrierInvalid w.part b with
          | some r => (s.logEngine c w .write r).refuseDoor c d 6
          | none =>
            if 2 ^ 24 - 1 < tbSectors (s.peekNat b.1.key 16) + src.length then s.refuseDoor c d 0x0B
            else s.acceptCopy c w d src dst (some b.1)

/-- The doorbell at a channel's head: malformed or out of its ranges it is refused; it waits for the walks of its pages (01 R30),
and is then checked. -/
def State.acceptDoor (s : State) (c : Chan) (w : Wave) (p : Part) (d : Doorbell) : State :=
  let t := (c.tmpl.getD (bitsAt d.desc 0 5) 0).toNat
  let sh := copyShape t d.desc
  if d.malformed then s.refuseDoor c d 1
  else if sh.bad || ((sh.srcQsp || sh.dstQsp) && c.die ≠ coreDie w.core) then s.refuseDoor c d 2
  else
    let x := sh.sources.map (s.sectorAt c d w p sh.srcQsp 64 .read)
    let y := sh.dests.map (s.sectorAt c d w p sh.dstQsp 64 .write)
    let z := s.copyBarrier c d w p
    let misses := missedPages (x ++ y ++ (z.map Prod.snd).toList)
    if misses = [] then s.checkDoor c w d sh.count x y z
    else (s.chanWalks c w misses).presentDoor c.die c.ch none

/-- COPY_ACCEPT (R133, R134): the aperture store at the head of a channel. -/
def execCopyAccept (s : State) : Out :=
  match s.call with
  | .copyAccept die ch =>
    let c := s.chan die ch
    match c.doors with
    | [] => .next s
    | d :: _ =>
      match s.wave? d.seq d.wid with
      | none => .next (s.takeDoor die ch)
      | some w =>
        match s.part? w.part with
        | none => .next (s.takeDoor die ch)
        | some p => .next (s.acceptDoor c w p d)
  | _ => .next s

/-! ## Reading a source (R136, R137) -/

/-- The line of memory that the copy at a channel's head reads next. -/
def Chan.nextSource (c : Chan) : Option Nat :=
  match c.copies with
  | [] => none
  | x :: _ => ((x.sectors.drop x.moves.length).head?.filter fun p => !isQspKey p.1).map fun p => lineKey p.1

/-- A channel owns a line for some copy. -/
def Chan.ownsLine (c : Chan) (line : Nat) : Bool :=
  c.copies.any fun x => x.targets.any fun k => !isQspKey k && lineKey k = line

/-- The other channels whose write a source read of a channel is ordered after (R123, R136). -/
def State.lineWaits (s : State) (c : Chan) (line : Nat) : List Chan :=
  s.chans.filter fun y => !(y.die = c.die && y.ch = c.ch) && y.ownsLine line

/-- The channels that a channel's next source read waits for. -/
def State.chanWaits (s : State) (c : Chan) : List Chan := (c.nextSource.map (s.lineWaits c)).getD []

/-- The channels that a channel's read waits for, and those that they wait for in turn. -/
def State.chanReach (s : State) : Nat → List Chan → List Chan
  | 0, l => l
  | n + 1, l => State.chanReach s n (dedup (l ++ l.flatMap s.chanWaits))

/-- The order in which channels' heads were accepted. -/
def Chan.headOrder (c : Chan) : List Nat := [(c.copies.head?.map Copy.accepted).getD 0, c.die, c.ch]

/-- A channel's source read of a line need not wait for other channels' writes. DESIGN CHOICE (log 23): of channels that wait for one another
in a circle, for which no order of R136 exists, the one whose copy was accepted first reads before the write. -/
def State.sourceFree (s : State) (c : Chan) (line : Nat) : Bool :=
  let waits := s.lineWaits c line
  let reach (l : List Chan) : List Chan := s.chanReach s.chans.length l
  waits = []
    || ((reach waits).contains c
          && (reach waits).all fun y => !(reach (s.chanWaits y)).contains c || decide (c.headOrder ≤ y.headOrder))

/-- A source sector of memory read through the directory: its bytes and poison, once it can be read. -/
def State.readSource (s : State) (die ch : Nat) (x : Copy) (key : Nat) : State × Option (List Byte × Nat) :=
  if s.keyDown key then (s, some (s.peek key 64, 2 ^ 64 - 1))
  else if !s.sourceFree (s.chan die ch) (lineKey key) then (s, none)
  else if s.beyondModule x.part key 64 then
    (s.logAway x.part (s.chanRequester die ch x.seq) key 0, some (s.peek key 64, 2 ^ 64 - 1))
  else
    let g := s.permitted (homeDie s.pod (lineKey key)) x.part (lineKey key) false
    if g.2 then (g.1.chargeFetch x.part key, some (s.peek key 64, s.poisonMask x.part key 64)) else (g.1, none)

/-! ## Landing (R136, R137, R140) -/

/-- The destination sector was lost with its attachment after the acceptance (R137). -/
def State.destLost (s : State) (x : Copy) (key : Nat) : Bool :=
  isModuleKey key && (s.keyDown key || x.lostMods.contains (keyModule key))

/-- A destination sector of memory written, in the line that the channel owns. -/
def State.writeDest (s : State) (die ch : Nat) (x : Copy) (key : Nat) (bs : List Byte) (bad : Nat) : State :=
  if s.destLost x key || s.keyDown key then s
  else if s.beyondModule x.part key 64 then s.logAway x.part (s.chanRequester die ch x.seq) key 1
  else
    let s1 :=
      if (s.l2Find die (lineKey key)).isSome then s.l2Store die key bs allLanes
      else
        (({ s with mem := s.mem.writeBytes key bs }.clearPoison key).wakeLine (lineKey key)).rowAccess key |>.cleanLine (lineKey key)
    if bad ≠ 0 then s1.setPoison key else s1

/-- What a landing has done: the state, the sectors and the moves left, how many sectors landed, and whether one was lost. -/
structure Landed where
  state : State
  sectors : List (Nat × Nat)
  moves : List Move
  count : Nat
  lost : Bool

/-- Up to `k` sectors that land, in order, as far as they are ready. Between memory and memory a sector is read and written at
once; one that the QSP has part in has been served at its bank before. -/
def State.landSectors (s : State) (die ch : Nat) (x : Copy) : Nat → List (Nat × Nat) → List Move → Landed
  | 0, l, ms => { state := s, sectors := l, moves := ms, count := 0, lost := false }
  | _, [], ms => { state := s, sectors := [], moves := ms, count := 0, lost := false }
  | k + 1, p :: ps, m :: ms =>
    let next (t : State) (lost : Bool) : Landed :=
      let y := State.landSectors t die ch x k ps ms
      { y with count := y.count + 1, lost := y.lost || lost }
    match m.st with
    | .written => next s false
    | .held bs bad =>
      if isQspKey p.2 then { state := s, sectors := p :: ps, moves := m :: ms, count := 0, lost := false }
      else next (s.writeDest die ch x p.2 bs bad) (s.destLost x p.2)
    | _ => { state := s, sectors := p :: ps, moves := m :: ms, count := 0, lost := false }
  | k + 1, p :: ps, [] =>
    let stop (t : State) : Landed := { state := t, sectors := p :: ps, moves := [], count := 0, lost := false }
    if isQspKey p.1 || isQspKey p.2 then stop s
    else
      match s.readSource die ch x p.1 with
      | (s1, none) => stop s1
      | (s1, some (bs, bad)) =>
        let y := State.landSectors (s1.writeDest die ch x p.2 bs bad) die ch x k ps []
        { y with count := y.count + 1, lost := y.lost || s1.destLost x p.2 }

/-- A sector that the QSP has part in begins: its read is presented, or a source of memory is read and its write presented; none
while it waits. -/
def State.beginMove (s : State) (die ch : Nat) (x : Copy) (p : Nat × Nat) : State × Option Move :=
  if isQspKey p.1 then (s, some { src := p.1, dst := p.2, st := .reading s.now })
  else
    match s.readSource die ch x p.1 with
    | (s1, none) => (s1, none)
    | (s1, some (bs, bad)) => (s1, some { src := p.1, dst := p.2, st := .writing s.now bs bad })

/-- A sector that has been read from the QSP for the QSP presents its write. -/
def State.turnMove (s : State) (m : Move) : Move :=
  match m.st with
  | .held bs bad => if isQspKey m.dst then { m with st := .writing s.now bs bad } else m
  | _ => m

/-- The next sectors begin, while fewer than four are under way. -/
def State.beginMoves (s : State) (die ch : Nat) (x : Copy) : Nat → List (Nat × Nat) → State × List Move
  | 0, _ => (s, [])
  | _, [] => (s, [])
  | n + 1, p :: ps =>
    if !isQspKey p.1 && !isQspKey p.2 then (s, [])
    else
      match s.beginMove die ch x p with
      | (s1, none) => (s1, [])
      | (s1, some m) =>
        let r := State.beginMoves s1 die ch x n ps
        (r.1, m :: r.2)

/-- The copy at the head of a channel replaced. -/
def State.setHead (s : State) (die ch : Nat) (x : Copy) : State :=
  let c := s.chan die ch
  s.setChan { c with copies := x :: c.copies.drop 1 }

/-- The copy at the head of a channel goes on with its next sectors; with every sector landed and every land performed it
leaves. -/
def State.nextMoves (s : State) (die ch : Nat) (x : Copy) : State :=
  if x.sectors = [] && x.lands = [] then
    let c := s.chan die ch
    s.setChan { c with copies := c.copies.drop 1 }
  else
    let z := (s.setHead die ch x).beginMoves die ch x (4 - x.moves.length) (x.sectors.drop x.moves.length)
    z.1.setHead die ch { x with moves := x.moves ++ z.2 }

/-- The land on a copy's barrier (R139, R140): a poisoned barrier is left, the wave has a late error, and the units that wait on the
barrier re-read it (12 R299). DESIGN CHOICE (log 60): LASTERR of the channel stays as it is, since no store or copy is refused (R135). -/
def State.landBarrier (s : State) (die ch : Nat) (x : Copy) (b : BarrierRef) (k : Nat) : State :=
  if s.barrierPoison x.part b then (s.lateError x.seq x.wid 16 6 b.va).barrierChanged b.key
  else
    (s.chanBarrierWrite x.part (s.chanRequester die ch x.seq) b (tbLand (s.peekNat b.key 16) k)).1.barrierChanged b.key

/-- The oldest land that waits for the bank of a QSP barrier performed, when its turn has come (R138). -/
def State.landPresented (s : State) (die ch : Nat) (x : Copy) : State × Copy :=
  match x.lands, x.barrier with
  | (age, k) :: rest, some b =>
    if s.bankTurn (chanReq die ch b.key age) b.key then (s.landBarrier die ch x b k, { x with lands := rest }) else (s, x)
  | _, _ => (s, x)

/-- Permission of a module line that no die holds is given back once the channel has written it (02 R56). -/
def State.releaseDests (s : State) (die : Nat) (x : Copy) (left : List (Nat × Nat)) : State :=
  (dedup (x.sectors.map fun p => lineKey p.2)).foldl (fun (t : State) l =>
    if isModuleKey l && !(left.any fun p => lineKey p.2 = l) && t.l2Holders l = [] && (t.permOf l).isSome then
      (t.setPerm l none).askModule die x.part l .writeInvalid
    else t) s

/-- A destination was lost (R137): LASTERR, and the wave's late error, once for the copy. -/
def State.reportLost (s : State) (die ch : Nat) (x : Copy) : State :=
  (s.chanError die ch 7).lateError x.seq x.wid 16 7 x.door

/-- The copy at a channel's head goes on: sectors land, the land acts on its barrier or is presented to its bank, and the next
sectors begin. -/
def State.landCopy (s : State) (die ch k : Nat) (x0 : Copy) : State :=
  let f := s.landPresented die ch x0
  let x := f.2
  let s0 := f.1
  let ready := match x.barrier with
    | some b => s0.chanBarrierReady x.part (s0.chanRequester die ch x.seq) b
    | none => (s0, true)
  let n := if ready.2 then k else 0
  let r := ready.1.landSectors die ch x n x.sectors x.moves
  let s1 := if r.lost && !x.lost then r.state.reportLost die ch x else r.state
  let x1 : Copy := { x with sectors := r.sectors, moves := r.moves.map s1.turnMove, lost := x.lost || r.lost }
  let y : State × Copy := match x.barrier with
    | none => (s1, x1)
    | some b =>
      if r.count = 0 then (s1, x1)
      else if b.qsp then (s1, { x1 with lands := x1.lands ++ [(s1.now, r.count)] })
      else (s1.landBarrier die ch x b r.count, x1)
  (y.1.nextMoves die ch y.2).releaseDests die x r.sectors

/-- LAND (R140): the copy at a channel's head in a cycle, of which up to `k` sectors land. -/
def execLand (s : State) : Out :=
  match s.call with
  | .land die ch k =>
    match (s.chan die ch).copies with
    | [] => .next s
    | x :: _ => .next (s.landCopy die ch k x)
  | _ => .next s

/-- CHSTAT_CLEAR (R135). -/
def execChstatClear (s : State) : Out :=
  match s.call with
  | .chstatClear die ch bits => .next (s.setChan ((s.chan die ch).clearErr bits))
  | _ => .next s

end Sys2Proof.Machine
end

