-- ==== Sys2Proof/Machine/Vector.lean ====
section
/-!
DEFINITION. Integer, move, cross-lane, indirect and predicate words of the vector pipe (11_isa_vector R251 to R258, R270 to
R274).
-/
namespace Sys2Proof.Machine

/-- A V-format word under its guard predicate (11 R251, R252): `f` gets the lanes that are written. -/
def vGuarded (s : State) (i : Instr) (g : BitVec 3) (f : Wave → Lanes → Wave) : Out :=
  whenLegal s i fun w is u =>
    if w.guardPoison u g then poisonTrap s w is
    else finish s (f w (w.written u g)) is

/-- v(d) := f(v(a), b) in the lanes of a mask. -/
def Wave.vBin (w : Wave) (f : Word → Word → Word) (u : BitVec 1) (d a b : BitVec 6) (m : Lanes) : Wave :=
  w.writeV d.toNat m (zipElems f (w.v a.toNat).elems (w.opB u b))

/-- v(d) := f(v(a)) in the lanes of a mask. -/
def Wave.vUn (w : Wave) (f : Word → Word) (d a : BitVec 6) (m : Lanes) : Wave :=
  w.writeV d.toNat m (mapElems f (w.v a.toNat).elems)

/-- v(d) := f(v(d), v(a), b) in the lanes of a mask. -/
def Wave.vTer (w : Wave) (f : Word → Word → Word → Word) (u : BitVec 1) (d a b : BitVec 6) (m : Lanes) : Wave :=
  let ab := List.zip (w.v a.toNat).elems (w.opB u b)
  w.writeV d.toNat m
    (List.zipWith (fun (z : Elem) (xy : Elem × Elem) =>
      (f z.1 xy.1.1 xy.2.1, z.2 || xy.1.2 || xy.2.2)) (w.v d.toNat).elems ab)

/-- A VI word: v(d) := f(v(a), immediate) in the active lanes (11 R255). -/
def vImm (s : State) (i : Instr) (f : Word → Word → Word) (d a : BitVec 6) (imm : BitVec 10) : Out :=
  whenLegal s i fun w is u => finish s (w.vUn (fun x => f x (immediate imm is.lit)) d a u.mask) is

/-- A predicate from a test of two elements: the bits, and the poison of the sources. -/
def testElems (f : Word → Word → Bool) (a b : List Elem) : Lanes × Lanes :=
  (maskOf (List.zipWith (fun (x y : Elem) => f x.1 y.1) a b),
   maskOf (List.zipWith (fun (x y : Elem) => x.2 || y.2) a b))

/-- VADD: a + b (11 R254). -/
def execVadd (u : BitVec 1) (d a b : BitVec 6) (g : BitVec 3) (s : State) : Out :=
  vGuarded s (.vadd u d a b g) g fun w m => w.vBin (fun x y => x + y) u d a b m

/-- VSUB: a − b (11 R254). -/
def execVsub (u : BitVec 1) (d a b : BitVec 6) (g : BitVec 3) (s : State) : Out :=
  vGuarded s (.vsub u d a b g) g fun w m => w.vBin (fun x y => x - y) u d a b m

/-- VMUL: a × b (11 R254). -/
def execVmul (u : BitVec 1) (d a b : BitVec 6) (g : BitVec 3) (s : State) : Out :=
  vGuarded s (.vmul u d a b g) g fun w m => w.vBin (fun x y => x * y) u d a b m

/-- VMULH: the high half of the signed product (11 R254). -/
def execVmulh (u : BitVec 1) (d a b : BitVec 6) (g : BitVec 3) (s : State) : Out :=
  vGuarded s (.vmulh u d a b g) g fun w m => w.vBin (fun x y => mulHigh x y) u d a b m

/-- VMULHU: the high half of the unsigned product (11 R254). -/
def execVmulhu (u : BitVec 1) (d a b : BitVec 6) (g : BitVec 3) (s : State) : Out :=
  vGuarded s (.vmulhu u d a b g) g fun w m => w.vBin (fun x y => mulHighU x y) u d a b m

/-- VMIN: signed minimum (11 R254). -/
def execVmin (u : BitVec 1) (d a b : BitVec 6) (g : BitVec 3) (s : State) : Out :=
  vGuarded s (.vmin u d a b g) g fun w m => w.vBin (fun x y => minS x y) u d a b m

/-- VMAX: signed maximum (11 R254). -/
def execVmax (u : BitVec 1) (d a b : BitVec 6) (g : BitVec 3) (s : State) : Out :=
  vGuarded s (.vmax u d a b g) g fun w m => w.vBin (fun x y => maxS x y) u d a b m

/-- VMINU: unsigned minimum (11 R254). -/
def execVminu (u : BitVec 1) (d a b : BitVec 6) (g : BitVec 3) (s : State) : Out :=
  vGuarded s (.vminu u d a b g) g fun w m => w.vBin (fun x y => minU x y) u d a b m

/-- VAND: a and b (11 R254). -/
def execVand (u : BitVec 1) (d a b : BitVec 6) (g : BitVec 3) (s : State) : Out :=
  vGuarded s (.vand u d a b g) g fun w m => w.vBin (fun x y => x &&& y) u d a b m

/-- VOR: a or b (11 R254). -/
def execVor (u : BitVec 1) (d a b : BitVec 6) (g : BitVec 3) (s : State) : Out :=
  vGuarded s (.vor u d a b g) g fun w m => w.vBin (fun x y => x ||| y) u d a b m

/-- VXOR: a xor b (11 R254). -/
def execVxor (u : BitVec 1) (d a b : BitVec 6) (g : BitVec 3) (s : State) : Out :=
  vGuarded s (.vxor u d a b g) g fun w m => w.vBin (fun x y => x ^^^ y) u d a b m

/-- VSHL: shift left (11 R254). -/
def execVshl (u : BitVec 1) (d a b : BitVec 6) (g : BitVec 3) (s : State) : Out :=
  vGuarded s (.vshl u d a b g) g fun w m => w.vBin (fun x y => shl x y) u d a b m

/-- VSHR: shift right, zero fill (11 R254). -/
def execVshr (u : BitVec 1) (d a b : BitVec 6) (g : BitVec 3) (s : State) : Out :=
  vGuarded s (.vshr u d a b g) g fun w m => w.vBin (fun x y => shr x y) u d a b m

/-- VSAR: shift right, sign fill (11 R254). -/
def execVsar (u : BitVec 1) (d a b : BitVec 6) (g : BitVec 3) (s : State) : Out :=
  vGuarded s (.vsar u d a b g) g fun w m => w.vBin (fun x y => sar x y) u d a b m

/-- VMAXU: unsigned maximum (11 R254). -/
def execVmaxu (u : BitVec 1) (d a b : BitVec 6) (g : BitVec 3) (s : State) : Out :=
  vGuarded s (.vmaxu u d a b g) g fun w m => w.vBin (fun x y => maxU x y) u d a b m

/-- VABSD: absolute signed difference (11 R254). -/
def execVabsd (u : BitVec 1) (d a b : BitVec 6) (g : BitVec 3) (s : State) : Out :=
  vGuarded s (.vabsd u d a b g) g fun w m => w.vBin (fun x y => absDiff x y) u d a b m

/-- VADDI: a + imm (11 R255). -/
def execVaddi (d a : BitVec 6) (imm : BitVec 10) (s : State) : Out :=
  vImm s (.vaddi d a imm) (fun x y => x + y) d a imm

/-- VMULI: a × imm (11 R255). -/
def execVmuli (d a : BitVec 6) (imm : BitVec 10) (s : State) : Out :=
  vImm s (.vmuli d a imm) (fun x y => x * y) d a imm

/-- VANDI: a and imm (11 R255). -/
def execVandi (d a : BitVec 6) (imm : BitVec 10) (s : State) : Out :=
  vImm s (.vandi d a imm) (fun x y => x &&& y) d a imm

/-- VORI: a or imm (11 R255). -/
def execVori (d a : BitVec 6) (imm : BitVec 10) (s : State) : Out :=
  vImm s (.vori d a imm) (fun x y => x ||| y) d a imm

/-- VXORI: a xor imm (11 R255). -/
def execVxori (d a : BitVec 6) (imm : BitVec 10) (s : State) : Out :=
  vImm s (.vxori d a imm) (fun x y => x ^^^ y) d a imm

/-- VSHLI: shift left (11 R255). -/
def execVshli (d a : BitVec 6) (imm : BitVec 10) (s : State) : Out :=
  vImm s (.vshli d a imm) (fun x y => shl x y) d a imm

/-- VSHRI: shift right, zero fill (11 R255). -/
def execVshri (d a : BitVec 6) (imm : BitVec 10) (s : State) : Out :=
  vImm s (.vshri d a imm) (fun x y => shr x y) d a imm

/-- VSARI: shift right, sign fill (11 R255). -/
def execVsari (d a : BitVec 6) (imm : BitVec 10) (s : State) : Out :=
  vImm s (.vsari d a imm) (fun x y => sar x y) d a imm

/-- VICMP: pd := the condition between a and b (11 R256). -/
def execVicmp (u : BitVec 1) (cc : BitVec 3) (d a b : BitVec 6) (g : BitVec 3) (s : State) : Out :=
  vGuarded s (.vicmp u cc d a b g) g fun w m =>
    let r := testElems (condition cc.toNat) (w.v a.toNat).elems (w.opB u b)
    w.setP d.toNat m r.1 r.2

/-- VICMPI: pd := the condition between a and the immediate, in the active lanes (11 R256). -/
def execVicmpi (cc : BitVec 3) (d a : BitVec 6) (imm : BitVec 10) (s : State) : Out :=
  whenLegal s (.vicmpi cc d a imm) fun w is u =>
    let r := testElems (condition cc.toNat) (w.v a.toNat).elems (List.replicate 64 (immediate imm is.lit, false))
    finish s (w.setP d.toNat u.mask r.1 r.2) is

/-- VCLZ: leading zeros (11 R257). -/
def execVclz (u : BitVec 1) (d a : BitVec 6) (g : BitVec 3) (s : State) : Out :=
  vGuarded s (.vclz u d a g) g fun w m => w.vUn clz d a m

/-- VPOPC: 1 bits (11 R257). -/
def execVpopc (u : BitVec 1) (d a : BitVec 6) (g : BitVec 3) (s : State) : Out :=
  vGuarded s (.vpopc u d a g) g fun w m => w.vUn popc d a m

/-- VBREV: bits reversed (11 R257). -/
def execVbrev (u : BitVec 1) (d a : BitVec 6) (g : BitVec 3) (s : State) : Out :=
  vGuarded s (.vbrev u d a g) g fun w m => w.vUn brev d a m

/-- VBFX: field extract (11 R257). -/
def execVbfx (u : BitVec 1) (d a b : BitVec 6) (g : BitVec 3) (s : State) : Out :=
  vGuarded s (.vbfx u d a b g) g fun w m => w.vBin bfx u d a b m

/-- VBFI: field insert into vd (11 R257). -/
def execVbfi (u : BitVec 1) (d a b : BitVec 6) (g : BitVec 3) (s : State) : Out :=
  vGuarded s (.vbfi u d a b g) g fun w m => w.vTer bfi u d a b m

/-- VSEL: a where p is 1, else b, in every active lane; poison of the selector and of the selected source (11 R257). -/
def execVsel (u : BitVec 1) (d a b : BitVec 6) (p : BitVec 3) (s : State) : Out :=
  whenLegal s (.vsel u d a b p) fun w is un =>
    let pr := w.p p.toNat
    let bs := w.opB u b
    let es := laneNumbers.map fun i =>
      let x := if pr.bits.getLsbD i then (w.v a.toNat).elem i else bs.getD i (0, false)
      (x.1, x.2 || pr.poison.getLsbD i)
    finish s (w.writeV d.toNat un.mask es) is

/-- VMAD: a × b + vd (11 R257). -/
def execVmad (u : BitVec 1) (d a b : BitVec 6) (g : BitVec 3) (s : State) : Out :=
  vGuarded s (.vmad u d a b g) g fun w m => w.vTer (fun z x y => x * y + z) u d a b m

/-- VLANE: the lane number (11 R257). -/
def execVlane (u : BitVec 1) (d : BitVec 6) (g : BitVec 3) (s : State) : Out :=
  vGuarded s (.vlane u d g) g fun w m => w.writeV d.toNat m (laneNumbers.map fun i => (BitVec.ofNat 32 i, false))

/-- VMOV: a (11 R258). -/
def execVmov (d a : BitVec 6) (g : BitVec 3) (s : State) : Out :=
  vGuarded s (.vmov d a g) g fun w m => w.vUn (fun x => x) d a m

/-- VMOVS: s(sa) in every written lane (11 R258). -/
def execVmovs (d s1 : BitVec 6) (g : BitVec 3) (s : State) : Out :=
  vGuarded s (.vmovs d s1 g) g fun w m =>
    w.writeV d.toNat m (List.replicate 64 (w.s s1.toNat, w.sPoison s1.toNat))

/-- VTOS: s(sd) := lane L of v(a), active or not (11 R258). -/
def execVtos (s1 a l : BitVec 6) (g : BitVec 3) (s : State) : Out :=
  whenLegal s (.vtos s1 a l g) fun w is _ =>
    let x := (w.v a.toNat).elem l.toNat
    finish s (w.setS s1.toNat x.1 x.2) is

/-- VFROMS: lane L of v(d) := s(sa) when that lane is written (11 R258). -/
def execVfroms (d s1 l : BitVec 6) (g : BitVec 3) (s : State) : Out :=
  vGuarded s (.vfroms d s1 l g) g fun w m =>
    w.writeV d.toNat (m &&& BitVec.ofNat 64 (2 ^ l.toNat)) (List.replicate 64 (w.s s1.toNat, w.sPoison s1.toNat))

/-! ## Cross-lane words (11 R270, R271) -/

/-- v(d) := the element of v(a) at the lane that `f` names, in the written lanes. -/
def Wave.shuffle (w : Wave) (d a : BitVec 6) (m : Lanes) (f : Nat → Nat) : Wave :=
  w.writeV d.toNat m (laneNumbers.map fun i => (w.v a.toNat).elem (f i))

/-- SHFL: the lane that v(b)[5:0] names; a poisoned index poisons the result (11 R270). -/
def execShfl (d a b : BitVec 6) (g : BitVec 3) (s : State) : Out :=
  vGuarded s (.shfl d a b g) g fun w m =>
    w.writeV d.toNat m (laneNumbers.map fun i =>
      let idx := (w.v b.toNat).elem i
      let x := (w.v a.toNat).elem (idx.1.toNat % 64)
      (x.1, x.2 || idx.2))

/-- SHFLX: lane i xor k (11 R270). -/
def execShflx (d a k : BitVec 6) (g : BitVec 3) (s : State) : Out :=
  vGuarded s (.shflx d a k g) g fun w m => w.shuffle d a m fun i => i ^^^ k.toNat

/-- SHFLUP: lane i − k, or i itself (11 R270). -/
def execShflup (d a k : BitVec 6) (g : BitVec 3) (s : State) : Out :=
  vGuarded s (.shflup d a k g) g fun w m => w.shuffle d a m fun i => if k.toNat ≤ i then i - k.toNat else i

/-- SHFLDN: lane i + k, or i itself (11 R270). -/
def execShfldn (d a k : BitVec 6) (g : BitVec 3) (s : State) : Out :=
  vGuarded s (.shfldn d a k g) g fun w m => w.shuffle d a m fun i => if i + k.toNat ≤ 63 then i + k.toNat else i

/-- LANEBC: lane k (11 R270). -/
def execLanebc (d a k : BitVec 6) (g : BitVec 3) (s : State) : Out :=
  vGuarded s (.lanebc d a k g) g fun w m => w.shuffle d a m fun _ => k.toNat

/-- Neighbours of a list combined: op(t[0], t[1]), op(t[2], t[3]), …. -/
def pairUp {α : Type} (op : α → α → α) : List α → List α
  | x :: y :: rest => op x y :: pairUp op rest
  | l => l

/-- VREDI: the exact reduction of the written lanes, in every written lane (11 R271). -/
def execVredi (d a o : BitVec 6) (g : BitVec 3) (s : State) : Out :=
  vGuarded s (.vredi d a o g) g fun w m =>
    let r := w.v a.toNat
    let x := ((lanesOf m).map fun i => r.lanes.getD i 0).foldl (redOp o.toNat) (redIdentity o.toNat)
    w.writeV d.toNat m (List.replicate 64 (x, decide (r.poison &&& m ≠ 0)))

/-! ## Indirect access (11 R273) -/

/-- A word with indirect access, once its lanes are checked: an index out of range is illegal (09 R210). -/
def vIndirect (s : State) (i : Instr) (a : BitVec 6) (imm : BitVec 10) (f : Wave → UnitSt → Word → Wave) : Out :=
  whenLegal s i fun w is u =>
    if w.indexCheck a (immediate imm is.lit) u.mask = some .poison then poisonTrap s w is
    else finish s (f w u (immediate imm is.lit)) is

/-- VLDX: each active lane of v(d) := its element of the register it names (11 R273). -/
def execVldx (d a : BitVec 6) (imm : BitVec 10) (s : State) : Out :=
  vIndirect s (.vldx d a imm) a imm fun w u x =>
    w.writeV d.toNat u.mask (laneNumbers.map fun i => (w.logV (w.indexOf a x i).toNat).elem i)

/-- VSTX: each active lane's element of the register it names := v(d) (11 R273). -/
def execVstx (d a : BitVec 6) (imm : BitVec 10) (s : State) : Out :=
  vIndirect s (.vstx d a imm) a imm fun w u x =>
    (lanesOf u.mask).foldl (fun (t : Wave) i =>
      t.writeLogV (w.indexOf a x i).toNat (BitVec.ofNat 64 (2 ^ i)) (w.v d.toNat).elems) w

/-! ## Predicate operations (11 R274) -/

/-- pd := f(pa, pb) in the written lanes. -/
def Wave.pBin (w : Wave) (f : Lanes → Lanes → Lanes) (d a b : BitVec 6) (m : Lanes) : Wave :=
  w.setP d.toNat m (f (w.p a.toNat).bits (w.p b.toNat).bits) ((w.p a.toNat).poison ||| (w.p b.toNat).poison)

/-- PAND: pa and pb (11 R274). -/
def execPand (d a b : BitVec 6) (g : BitVec 3) (s : State) : Out :=
  vGuarded s (.pand d a b g) g fun w m => w.pBin (fun x y => x &&& y) d a b m

/-- POR: pa or pb (11 R274). -/
def execPor (d a b : BitVec 6) (g : BitVec 3) (s : State) : Out :=
  vGuarded s (.por d a b g) g fun w m => w.pBin (fun x y => x ||| y) d a b m

/-- PXOR: pa xor pb (11 R274). -/
def execPxor (d a b : BitVec 6) (g : BitVec 3) (s : State) : Out :=
  vGuarded s (.pxor d a b g) g fun w m => w.pBin (fun x y => x ^^^ y) d a b m

/-- PANDN: pa and not pb (11 R274). -/
def execPandn (d a b : BitVec 6) (g : BitVec 3) (s : State) : Out :=
  vGuarded s (.pandn d a b g) g fun w m => w.pBin (fun x y => x &&& ~~~y) d a b m

/-- PNOT: not pa (11 R274). -/
def execPnot (d a : BitVec 6) (g : BitVec 3) (s : State) : Out :=
  vGuarded s (.pnot d a g) g fun w m => w.setP d.toNat m (~~~(w.p a.toNat).bits) (w.p a.toNat).poison

/-- PMOV: pa (11 R274). -/
def execPmov (d a : BitVec 6) (g : BitVec 3) (s : State) : Out :=
  vGuarded s (.pmov d a g) g fun w m => w.setP d.toNat m (w.p a.toNat).bits (w.p a.toNat).poison

/-- PSET: the constant c (11 R274). -/
def execPset (d : BitVec 6) (v : BitVec 1) (g : BitVec 3) (s : State) : Out :=
  vGuarded s (.pset d v g) g fun w m => w.setP d.toNat m (if v = 1 then allLanes else 0) 0

/-- VBALLOT: the pair := the written lanes whose pa is 1 (11 R274). -/
def execVballot (s1 a : BitVec 6) (g : BitVec 3) (s : State) : Out :=
  vGuarded s (.vballot s1 a g) g fun w m =>
    w.setPair s1.toNat ((w.p a.toNat).bits &&& m).toNat (decide ((w.p a.toNat).poison &&& m ≠ 0))

/-- VMCNT: the count of written lanes below with pa = 1 (11 R274). -/
def execVmcnt (d a : BitVec 6) (g : BitVec 3) (s : State) : Out :=
  vGuarded s (.vmcnt d a g) g fun w m =>
    w.writeV d.toNat m (laneNumbers.map fun i =>
      (BitVec.ofNat 32 ((lanesOf (m &&& (w.p a.toNat).bits)).filter fun j => j < i).length,
       (lanesOf (m &&& (w.p a.toNat).poison)).any fun j => j < i))

end Sys2Proof.Machine
end

