-- ==== Sys2Proof/Machine/Float.lean ====
section
/-!
DEFINITION. Floating-point words of the vector pipe: FP32, packed BF16, conversions, reductions and scans
(08_number_formats R189 to R195, R203, R204; 11_isa_vector R259 to R266, R271).
-/
namespace Sys2Proof.Machine

/-- An element and the flags it raised. -/
abbrev FElem := Elem × Flags

/-- The flags of the lanes of a mask. -/
def flagsOf (m : Lanes) (l : List FElem) : Flags :=
  (lanesOf m).foldl (fun acc i => acc ||| (l.getD i ((0, false), 0)).2) 0

/-- v(d) written in the lanes of a mask, and FPFLAGS raised by those lanes (11 R252). -/
def Wave.writeF (w : Wave) (d : BitVec 6) (m : Lanes) (l : List FElem) : Wave :=
  (w.writeV d.toNat m (l.map Prod.fst)).raise (flagsOf m l)

/-- A binary floating-point word, its rounding mode and FTZ from the unit's FMT. -/
def fBin (s : State) (i : Instr) (op : Rm → Bool → Word → Word → Word × Flags) (u : BitVec 1) (d a b : BitVec 6)
    (g : BitVec 3) : Out :=
  whenLegal s i fun w is un =>
    if w.guardPoison un g then poisonTrap s w is
    else
      finish s (w.writeF d (w.written un g)
        (List.zipWith (fun (x y : Elem) =>
          let r := op (fmtRm un.fmt) (fmtFtz un.fmt) x.1 y.1
          ((r.1, x.2 || y.2), r.2)) (w.v a.toNat).elems (w.opB u b))) is

/-- A unary floating-point word. -/
def fUn (s : State) (i : Instr) (op : BitVec 8 → Word → Word × Flags) (d a : BitVec 6) (g : BitVec 3) : Out :=
  whenLegal s i fun w is un =>
    if w.guardPoison un g then poisonTrap s w is
    else
      finish s (w.writeF d (w.written un g)
        ((w.v a.toNat).elems.map fun x =>
          let r := op un.fmt x.1
          ((r.1, x.2), r.2))) is

/-- A ternary floating-point word: `op` gets a, b and v(d). -/
def fTer (s : State) (i : Instr) (op : Rm → Bool → Word → Word → Word → Word × Flags) (u : BitVec 1)
    (d a b : BitVec 6) (g : BitVec 3) : Out :=
  whenLegal s i fun w is un =>
    if w.guardPoison un g then poisonTrap s w is
    else
      let ab := List.zip (w.v a.toNat).elems (w.opB u b)
      finish s (w.writeF d (w.written un g)
        (List.zipWith (fun (z : Elem) (xy : Elem × Elem) =>
          let r := op (fmtRm un.fmt) (fmtFtz un.fmt) xy.1.1 xy.2.1 z.1
          ((r.1, xy.1.2 || xy.2.2 || z.2), r.2)) (w.v d.toNat).elems ab)) is

/-- FADD: a + b, rounded (11 R259). -/
def execFadd (u : BitVec 1) (d a b : BitVec 6) (g : BitVec 3) (s : State) : Out :=
  fBin s (.fadd u d a b g) (fun rm z => word2 (fpAdd fp32 rm z)) u d a b g

/-- FSUB: a − b, rounded (11 R259). -/
def execFsub (u : BitVec 1) (d a b : BitVec 6) (g : BitVec 3) (s : State) : Out :=
  fBin s (.fsub u d a b g) (fun rm z => word2 (fpSub fp32 rm z)) u d a b g

/-- FMUL: a × b, rounded (11 R259). -/
def execFmul (u : BitVec 1) (d a b : BitVec 6) (g : BitVec 3) (s : State) : Out :=
  fBin s (.fmul u d a b g) (fun rm z => word2 (fpMul fp32 rm z)) u d a b g

/-- FFMA: a × b + vd, one rounding (11 R259). -/
def execFfma (u : BitVec 1) (d a b : BitVec 6) (g : BitVec 3) (s : State) : Out :=
  fTer s (.ffma u d a b g) (fun rm z => word3 (fpFma fp32 rm z)) u d a b g

/-- FFNMA: −(a × b) + vd, one rounding (11 R259). -/
def execFfnma (u : BitVec 1) (d a b : BitVec 6) (g : BitVec 3) (s : State) : Out :=
  fTer s (.ffnma u d a b g) (fun rm z => word3 (fpFnma fp32 rm z)) u d a b g

/-- FMIN: the lesser of a and b, unchanged (11 R260). -/
def execFmin (u : BitVec 1) (d a b : BitVec 6) (g : BitVec 3) (s : State) : Out :=
  fBin s (.fmin u d a b g) (fun _ z => word2 (fpMaxMin fp32 false z)) u d a b g

/-- FMAX: the greater of a and b, unchanged (11 R260). -/
def execFmax (u : BitVec 1) (d a b : BitVec 6) (g : BitVec 3) (s : State) : Out :=
  fBin s (.fmax u d a b g) (fun _ z => word2 (fpMaxMin fp32 true z)) u d a b g

/-- FABS: a with its sign bit cleared (11 R259). -/
def execFabs (u : BitVec 1) (d a : BitVec 6) (g : BitVec 3) (s : State) : Out :=
  fUn s (.fabs u d a g) (fun f => word1 (fpAbs fp32 (fmtFtz f))) d a g

/-- VFCMP: pd := the condition between a and b (11 R261). -/
def execVfcmp (u : BitVec 1) (cc : BitVec 3) (d a b : BitVec 6) (g : BitVec 3) (s : State) : Out :=
  whenLegal s (.vfcmp u cc d a b g) fun w is un =>
    if w.guardPoison un g then poisonTrap s w is
    else
      let m := w.written un g
      let rs := List.zipWith (fun (x y : Elem) =>
        let r := fpCond fp32 (fmtFtz un.fmt) cc.toNat x.1.toNat y.1.toNat
        (r.1, x.2 || y.2, r.2)) (w.v a.toNat).elems (w.opB u b)
      let fl := (lanesOf m).foldl (fun acc i => acc ||| (rs.getD i (false, false, 0)).2.2) 0
      finish s ((w.setP d.toNat m (maskOf (rs.map fun r => r.1)) (maskOf (rs.map fun r => r.2.1))).raise fl) is

/-- FRCP: 1 / a (08 R203, 11 R262). -/
def execFrcp (u : BitVec 1) (d a : BitVec 6) (g : BitVec 3) (s : State) : Out :=
  fUn s (.frcp u d a g) (fun f => word1 (fpDiv fp32 (fmtRm f) (fmtFtz f) 0x3F800000)) d a g

/-- FRSQ: 1 / sqrt(a) (08 R203, 11 R262). -/
def execFrsq (u : BitVec 1) (d a : BitVec 6) (g : BitVec 3) (s : State) : Out :=
  fUn s (.frsq u d a g) (fun f => word1 (fpRsqrt fp32 (fmtRm f) (fmtFtz f))) d a g

/-- FSQRT: sqrt(a) (08 R203, 11 R262). -/
def execFsqrt (u : BitVec 1) (d a : BitVec 6) (g : BitVec 3) (s : State) : Out :=
  fUn s (.fsqrt u d a g) (fun f => word1 (fpSqrt fp32 (fmtRm f) (fmtFtz f))) d a g

/-- FEX2: 2^a (08 R203, 11 R262). -/
def execFex2 (u : BitVec 1) (d a : BitVec 6) (g : BitVec 3) (s : State) : Out :=
  fUn s (.fex2 u d a g) (fun f => word1 (fpExp2 fp32 (fmtRm f) (fmtFtz f))) d a g

/-- FLG2: log2(a) (08 R203, 11 R262). -/
def execFlg2 (u : BitVec 1) (d a : BitVec 6) (g : BitVec 3) (s : State) : Out :=
  fUn s (.flg2 u d a g) (fun f => word1 (fpLog2 fp32 (fmtRm f) (fmtFtz f))) d a g

/-- FRINT: a rounded to an integral value (08 R203, 11 R262). -/
def execFrint (u : BitVec 1) (d a : BitVec 6) (g : BitVec 3) (s : State) : Out :=
  fUn s (.frint u d a g) (fun f => word1 (fpRint fp32 (fmtRm f) (fmtFtz f))) d a g

/-- FDIV: a / b (08 R203, 11 R262). -/
def execFdiv (u : BitVec 1) (d a b : BitVec 6) (g : BitVec 3) (s : State) : Out :=
  fBin s (.fdiv u d a b g) (fun rm z => word2 (fpDiv fp32 rm z)) u d a b g

/-- FCLASS: the class mask of the raw encoding (11 R262). -/
def execFclass (u : BitVec 1) (d a : BitVec 6) (g : BitVec 3) (s : State) : Out :=
  fUn s (.fclass u d a g) (fun _ x => (BitVec.ofNat 32 (fpClass fp32 x.toNat), 0)) d a g

/-- B2ADD: a + b in each BF16 half (11 R263). -/
def execB2add (u : BitVec 1) (d a b : BitVec 6) (g : BitVec 3) (s : State) : Out :=
  fBin s (.b2add u d a b g) (fun _ z => packed2 (fpAdd bf16 .rne z)) u d a b g

/-- B2SUB: a − b in each BF16 half (11 R263). -/
def execB2sub (u : BitVec 1) (d a b : BitVec 6) (g : BitVec 3) (s : State) : Out :=
  fBin s (.b2sub u d a b g) (fun _ z => packed2 (fpSub bf16 .rne z)) u d a b g

/-- B2MUL: a × b in each BF16 half (11 R263). -/
def execB2mul (u : BitVec 1) (d a b : BitVec 6) (g : BitVec 3) (s : State) : Out :=
  fBin s (.b2mul u d a b g) (fun _ z => packed2 (fpMul bf16 .rne z)) u d a b g

/-- B2MAX: the greater in each BF16 half (11 R263). -/
def execB2max (u : BitVec 1) (d a b : BitVec 6) (g : BitVec 3) (s : State) : Out :=
  fBin s (.b2max u d a b g) (fun _ z => packed2 (fpMaxMin bf16 true z)) u d a b g

/-- B2MIN: the lesser in each BF16 half (11 R263). -/
def execB2min (u : BitVec 1) (d a b : BitVec 6) (g : BitVec 3) (s : State) : Out :=
  fBin s (.b2min u d a b g) (fun _ z => packed2 (fpMaxMin bf16 false z)) u d a b g

/-- B2FMA: a × b + vd in each BF16 half, one rounding (11 R263). -/
def execB2fma (u : BitVec 1) (d a b : BitVec 6) (g : BitVec 3) (s : State) : Out :=
  fTer s (.b2fma u d a b g) (fun _ z => packed3 (fpFma bf16 .rne z)) u d a b g

/-! ## Conversions (11 R264 to R266) -/

/-- The floating-point format of a code (11 R264). -/
def convFormat (c : BitVec 3) : FpFormat :=
  match c.toNat with
  | 0 => fp32
  | 1 => bf16
  | 2 => fp16
  | 3 => e4m3
  | _ => e5m2

/-- FP32 and BF16 are the formats that FTZ acts on (08 R191). -/
def ftzActs (c : BitVec 3) : Bool := c.toNat < 2

/-- The low bits of an element that hold a format (11 R264). -/
def narrowBits (f : FpFormat) (x : Word) : Nat := x.toNat % 2 ^ f.width

/-- FCVT: the conversion between two floating-point formats (11 R265). FTZ acts on one from FP32 or BF16 to the other only: it never
affects FP16 and FP8 conversions (08 R191; DEDUCED, log 11, for a source that R265 names). -/
def execFcvt (d a : BitVec 6) (dst src : BitVec 3) (g : BitVec 3) (s : State) : Out :=
  fUn s (.fcvt d a dst src g)
    (fun f => word1 fun x =>
      fpConvert (convFormat src) (convFormat dst) (fmtSat f) (fmtFtz f && ftzActs src && ftzActs dst) (fmtFtz f && ftzActs dst)
        (narrowBits (convFormat src) (BitVec.ofNat 32 x))) d a g

/-- One element of an integer conversion (11 R266, 08 R194); FTZ does not act on it (08 R191). -/
def icvtElem (dst src : BitVec 3) (x : Word) : Word × Flags :=
  if src.toNat < 2 then
    let fmt := convFormat src
    let r := fpToInt (fmt.input false (narrowBits fmt x)) (if dst = 6 then 8 else 32)
    (BitVec.ofInt 32 r.1, r.2)
  else
    let v : Int := if src = 6 then signed x.toNat 8 else x.toInt
    let r := intToFp (convFormat dst) false v
    (BitVec.ofNat 32 r.1, r.2)

/-- ICVT: between an integer and FP32 or BF16 (11 R266). -/
def execIcvt (d a : BitVec 6) (dst src : BitVec 3) (g : BitVec 3) (s : State) : Out :=
  fUn s (.icvt d a dst src g) (fun _ x => icvtElem dst src x) d a g

/-! ## Reductions and scans (08 R204, 11 R271) -/

/-- The identity of a floating-point reduction (08 R204): −0, −∞, +∞. -/
def redfIdentity (o : Nat) : Word :=
  match o with
  | 0 => 0x80000000
  | 1 => 0xFF800000
  | _ => 0x7F800000

/-- One combination of a floating-point reduction, with the flags so far. -/
def redfOp (f : BitVec 8) (o : Nat) (x y : Word × Flags) : Word × Flags :=
  let r := match o with
    | 0 => word2 (fpAdd fp32 (fmtRm f) (fmtFtz f)) x.1 y.1
    | 1 => word2 (fpMaxMin fp32 true (fmtFtz f)) x.1 y.1
    | _ => word2 (fpMaxMin fp32 false (fmtFtz f)) x.1 y.1
  (r.1, x.2 ||| y.2 ||| r.2)

/-- The contributions of the lanes: the element where a lane is written, else the identity. -/
def Wave.contributions (w : Wave) (a : BitVec 6) (o : Nat) (m : Lanes) : List (Word × Flags) :=
  laneNumbers.map fun i => (if m.getLsbD i then (w.v a.toNat).lanes.getD i 0 else redfIdentity o, 0)

/-- The tree of 08 R204: neighbours combined, `n` times. -/
def treeOf (f : BitVec 8) (o : Nat) : Nat → List (Word × Flags) → List (Word × Flags)
  | 0, l => l
  | n + 1, l => treeOf f o n (pairUp (redfOp f o) l)

/-- VREDF: the tree reduction of the written lanes, in every written lane (11 R271). -/
def execVredf (d a o : BitVec 6) (g : BitVec 3) (s : State) : Out :=
  whenLegal s (.vredf d a o g) fun w is un =>
    if w.guardPoison un g then poisonTrap s w is
    else
      let m := w.written un g
      let t := (treeOf un.fmt o.toNat 6 (w.contributions a o.toNat m)).headD (0, 0)
      let p := decide ((w.v a.toNat).poison &&& m ≠ 0)
      finish s ((w.writeV d.toNat m (List.replicate 64 (t.1, p))).raise t.2) is

/-- The stages of the scan (11 R271), from distance 2^k, `n` of them; the flags of every combination stay with its lane. -/
def scanOf (f : BitVec 8) (o : Nat) : Nat → Nat → List (Word × Flags) → List (Word × Flags)
  | _, 0, t => t
  | k, n + 1, t =>
    scanOf f o (k + 1) n
      (t.take (2 ^ k) ++ List.zipWith (redfOp f o) t (t.drop (2 ^ k)))

/-- VSCANF: the inclusive scan; a poisoned contribution poisons the results at and above its lane (11 R271). -/
def execVscanf (d a o : BitVec 6) (g : BitVec 3) (s : State) : Out :=
  whenLegal s (.vscanf d a o g) fun w is un =>
    if w.guardPoison un g then poisonTrap s w is
    else
      let m := w.written un g
      let t := scanOf un.fmt o.toNat 0 6 (w.contributions a o.toNat m)
      let pm := (w.v a.toNat).poison &&& m
      let fl := (lanesOf m).foldl (fun acc l => acc ||| (t.getD l (0, 0)).2) 0
      finish s ((w.writeV d.toNat m
        (laneNumbers.map fun i => ((t.getD i (0, 0)).1, (lanesOf pm).any fun j => j ≤ i))).raise fl) is

end Sys2Proof.Machine
end

