-- ==== Sys2Proof/Machine/Quant.lean ====
section
/-!
DEFINITION. OX4, the quantisers and the packed words (08_number_formats R196 to R199; 11_isa_vector R267 to R269).
-/
namespace Sys2Proof.Machine

/-! ## OX4 elements (08 R196) -/

/-- A nibble as a signed number. -/
def nibble (n : Nat) : Int := signed n 4

/-- The outlier of a nibble: (−1)^n[3] × 2^(3 + n[2:0]). -/
def outlier (n : Nat) : Int := signedMag (n.testBit 3) (2 ^ (3 + n % 8))

/-- The two numbers of a byte (08 R196). -/
def decodePair (b : Nat) : Int × Int :=
  let lo := b % 16
  let hi := b / 16 % 16
  if lo = 8 then (outlier hi, 0) else if hi = 8 then (0, outlier lo) else (nibble lo, nibble hi)

/-- Element k of an OX4 stream. -/
def ox4Elem (bytes : List Byte) (k : Nat) : Int :=
  let p := decodePair (bytes.getD (k / 2) 0).toNat
  if k % 2 = 0 then p.1 else p.2

/-! ## Exact quotients -/

/-- A finite FP32 magnitude as m × 2^e. -/
structure Mag where
  m : Nat
  e : Int
deriving DecidableEq, Repr

/-- The magnitude of an FP32 input of a quantiser: NaN as 0, ∞ as the largest finite (08 R198); with its sign. -/
def quantInput (x : Word) : Bool × Mag :=
  match fp32.decode x.toNat with
  | .nan _ => (false, { m := 0, e := 0 })
  | .inf n => (n, { m := 2 ^ 24 - 1, e := 104 })
  | .fin n m e => (n, { m := m, e := e })

/-- The order of two magnitudes: their bits as FP32 encodings order as they do. -/
def magKey (x : Word) : Nat :=
  match fp32.decode x.toNat with
  | .nan _ => 0
  | .inf _ => 0x7F7FFFFF
  | .fin .. => x.toNat % 2 ^ 31

/-- An element put into a list in descending order. -/
def insertDesc (x : Nat) : List Nat → List Nat
  | [] => [x]
  | y :: ys => if y ≤ x then x :: y :: ys else y :: insertDesc x ys

/-- The `k` largest of a list, in descending order. -/
def largest (k : Nat) (l : List Nat) : List Nat := l.foldl (fun acc x => (insertDesc x acc).take k) []

/-- bf16_round_up(v / d), at most 0x7F7F (08 R198, R199): v not 0. -/
def scaleUp (v : Mag) (d : Nat) : Nat :=
  let (m, e, st) := divExact v.m v.e d 0
  min (bf16.roundMag .ru false m e st).mag 0x7F7F

/-- The magnitude of a BF16 scale. -/
def scaleMag (s : Nat) : Mag :=
  match bf16.decode s with
  | .fin _ m e => { m := m, e := e }
  | _ => { m := 0, e := 0 }

/-- |x| / s as a quotient of naturals. -/
def quotient (x s : Mag) : Nat × Nat :=
  (x.m * 2 ^ (x.e - s.e).toNat, s.m * 2 ^ (s.e - x.e).toNat)

/-- A quotient rounded to the nearest integer, ties to even. -/
def roundQuotient (q : Nat × Nat) : Nat :=
  let k := q.1 / q.2
  let r := 2 * (q.1 % q.2)
  if r < q.2 then k else if q.2 < r then k + 1 else k + k % 2

/-- The exponent of the power of two nearest to a quotient, 3 to 10, ties to the larger (08 R198 pow2). -/
def pow2Exp (q : Nat × Nat) : Nat :=
  3 + ((List.range 7).filter fun i => 3 * 2 ^ (i + 2) * q.2 ≤ q.1).length

/-- The code of an outlier (08 R198). -/
def outlierCode (neg : Bool) (q : Nat × Nat) : Nat := 8 * bitOf neg + (pow2Exp q - 3)

/-- One element of a quantiser: its sign, its quotient, its rounded magnitude and whether it is an outlier. -/
structure QElem where
  neg : Bool
  q : Nat × Nat
  n : Nat
  out : Bool
deriving DecidableEq, Repr

/-- x / s. -/
def qelem (s : Mag) (x : Word) : QElem :=
  let (neg, v) := quantInput x
  let q := quotient v s
  let n := roundQuotient q
  { neg := neg, q := q, n := n, out := decide (7 < n) }

/-- The nibble of an element that is no outlier. -/
def QElem.nib (x : QElem) : Nat := wrap (signedMag x.neg x.n) 4

/-- The element clamped to ±7. -/
def QElem.clamp (x : QElem) : QElem := { x with n := 7, out := false }

/-- The byte of a pair (08 R198). -/
def pairByte (a b : QElem) : Nat :=
  let (a1, b1) := if a.out && b.out then
      (if b.q.1 * a.q.2 ≤ a.q.1 * b.q.2 then (a, b.clamp) else (a.clamp, b)) else (a, b)
  let b2 := if b1.out && b1.neg && pow2Exp b1.q = 3 then b1.clamp else b1
  if a1.out then 16 * outlierCode a1.neg a1.q + 8
  else if b2.out then 128 + outlierCode b2.neg b2.q
  else 16 * b2.nib + a1.nib

/-- The bytes of a list of elements, two by two. -/
def pairBytes : List QElem → List Byte
  | a :: b :: rest => BitVec.ofNat 8 (pairByte a b) :: pairBytes rest
  | _ => []

/-- The scale of an OX4 tile (08 R198). -/
def ox4Scale (xs : List Word) (t : Nat) : Nat :=
  let k := if t = 16 then 4 else 8
  let top := largest k (xs.map magKey)
  let m := top.getD (k - 1) 0
  let mag (x : Nat) : Mag := (quantInput (BitVec.ofNat 32 x)).2
  if m ≠ 0 then scaleUp (mag m) 7
  else
    let big := top.headD 0
    if big = 0 then 0x3F80 else scaleUp { m := (mag big).m, e := (mag big).e - 10 } 7

/-- quantise_ox4 (08 R198): the bytes and the scale. -/
def quantiseOx4 (xs : List Word) (t : Nat) : List Byte × Nat :=
  let s := ox4Scale xs t
  (pairBytes (xs.map (qelem (scaleMag s))), s)

/-- The scale of an FP8 tile (08 R199). -/
def fp8Scale (xs : List Word) (f : FpFormat) : Nat :=
  let m := (largest 1 (xs.map magKey)).headD 0
  if m = 0 then 0x3F80
  else scaleUp (quantInput (BitVec.ofNat 32 m)).2 (if f.exp = 4 then 448 else 57344)

/-- An element of an FP8 tile: the R193 conversion of the exact quotient x / s (08 R199). -/
def fp8Elem (f : FpFormat) (sat : Bool) (s : Mag) (x : Word) : Nat :=
  match fp32.decode x.toNat with
  | .nan _ => f.nan
  | .inf n => if f.hasInf then f.infinity n else if sat then f.largest n else f.nan
  | .fin n m e =>
    if m = 0 then f.zero n
    else
      let (m1, e1, st) := divExact m e s.m s.e
      (f.roundNarrow sat false n m1 e1 st).1

/-- quantise_fp8: the encodings and the scale. -/
def quantiseFp8 (f : FpFormat) (sat : Bool) (xs : List Word) : List Nat × Nat :=
  let s := fp8Scale xs f
  (xs.map (fp8Elem f sat (scaleMag s)), s)

/-! ## QPK and QUNPK (11 R267 to R269) -/

/-- What QPK writes: the packed stream, the scale and the flags. -/
structure Packed where
  bytes : List Byte
  scale : Nat
  flags : Flags
deriving DecidableEq, Repr

/-- The packed stream of a tile (11 R268). -/
def packTile (fmt : BitVec 8) (xs : List Word) : Packed :=
  match fmtNfmt fmt with
  | 2 =>
    let r := quantiseOx4 xs (fmtT fmt)
    { bytes := r.1, scale := r.2, flags := 0 }
  | 3 =>
    let rs := xs.map fun x => fpConvert fp32 bf16 (fmtSat fmt) false false x.toNat
    { bytes := rs.flatMap fun r => natToBytes 2 r.1, scale := 0x3F80,
      flags := rs.foldl (fun acc r => acc ||| r.2) 0 }
  | n =>
    let r := quantiseFp8 (if n = 0 then e4m3 else e5m2) (fmtSat fmt) xs
    { bytes := r.1.map fun x => BitVec.ofNat 8 x, scale := r.2, flags := 0 }

/-- QPK: quantises the FP32 group at va into the packed group at vd, and s(sb) := the scale (11 R268). -/
def execQpk (d a s1 : BitVec 6) (g : BitVec 3) (s : State) : Out :=
  whenLegal s (.qpk d a s1 g) fun w is u =>
    let src := w.groupElems (w.winBase + a.toNat) (fp32GroupSize u.fmt)
    let p := src.any Prod.snd
    let r := packTile u.fmt (src.map Prod.fst)
    let k := packedGroupSize u.fmt
    let es := (wordsOfBytes (64 * k) r.bytes).map fun x => (x, p)
    let w1 := w.setGroupElems (w.winBase + d.toNat) k es
    finish s ((w1.setS s1.toNat (BitVec.ofNat 32 r.scale) p).raise r.flags) is

/-- The decoded number of element e of a packed stream (11 R269); an FP8 NaN is quiet. -/
def packedValue (nfmt : Nat) (bytes : List Byte) (e : Nat) : FpVal :=
  match nfmt with
  | 2 => let v := ox4Elem bytes e; .fin (decide (v < 0)) v.natAbs 0
  | 3 => bf16.decode (bytesToNat [bytes.getD (2 * e) 0, bytes.getD (2 * e + 1) 0])
  | n =>
    match (if n = 0 then e4m3 else e5m2).decode (bytes.getD e 0).toNat with
    | .nan _ => .nan false
    | v => v

/-- The word of the packed group that element e comes from. -/
def packedWord (nfmt e : Nat) : Nat :=
  match nfmt with
  | 2 => e / 8
  | 3 => e / 2
  | _ => e / 4

/-- An unpacked element (11 R269): a zero keeps its own sign, whatever the scale; else the rounded product. -/
def unpackElem (v s : FpVal) : Nat × Flags :=
  match v with
  | .fin n 0 _ => (fp32.zero n, 0)
  | _ => fpMulVal fp32 .rne false v s

/-- QUNPK: decodes the packed group at va, times s(sb)[15:0], into the FP32 group at vd (11 R269). -/
def execQunpk (d a s1 : BitVec 6) (g : BitVec 3) (s : State) : Out :=
  whenLegal s (.qunpk d a s1 g) fun w is u =>
    let n := fmtNfmt u.fmt
    let k := packedGroupSize u.fmt
    let src := w.groupElems (w.winBase + a.toNat) k
    let bytes := src.flatMap fun x => natToBytes 4 x.1.toNat
    let sv := bf16.decode ((w.s s1.toNat).toNat % 65536)
    let t := fmtT u.fmt
    let rs := (List.range (t * t)).map fun e =>
      let r := unpackElem (packedValue n bytes e) sv
      ((BitVec.ofNat 32 r.1, (src.getD (packedWord n e) (0, false)).2 || w.sPoison s1.toNat), r.2)
    let w1 := w.setGroupElems (w.winBase + d.toNat) (fp32GroupSize u.fmt) (rs.map Prod.fst)
    finish s (w1.raise (rs.foldl (fun acc r => acc ||| r.2) 0)) is

end Sys2Proof.Machine
end

