-- ==== Sys2Proof/Machine/Tile.lean ====
section
/-!
DEFINITION. Tile descriptors, and stored tiles and scales in a wave's QSP window (13_isa_matrix_system R308 to R311).
-/
namespace Sys2Proof.Machine

/-- The fields of a tile descriptor (R308). -/
structure Tile where
  mbase : Nat
  sbase : Nat
  scl : Bool
  t : Nat
  orient : Bool
  fmt : Nat
  gstride : Nat
  stride : Nat
  cols : Nat
  rows : Nat
  base : Nat
deriving DecidableEq, Repr

/-- A descriptor's fields (R308). -/
def tileOf (d : BitVec 128) : Tile :=
  let x := d.toNat
  { mbase := bitsAt x 113 15, sbase := bitsAt x 98 15, scl := x.testBit 97, t := if x.testBit 96 then 32 else 16,
    orient := x.testBit 95, fmt := bitsAt x 92 3, gstride := bitsAt x 79 13, stride := bitsAt x 64 15,
    cols := bitsAt x 55 9 + 1, rows := bitsAt x 47 8 + 1, base := bitsAt x 0 21 }

/-- A descriptor with its reserved bits [46:21] zero. -/
def tileMask (x : Nat) : BitVec 128 := BitVec.ofNat 128 (setBits (x % 2 ^ 128) 21 26 0)

/-! ## The words (R311) -/

/-- TSET. -/
def execTset (t : BitVec 4) (a : BitVec 6) (s : State) : Out :=
  whenLegal s (.tset t a) fun w is _ =>
    let n := a.toNat
    if w.sPairPoison n || w.sPairPoison (n + 2) then poisonTrap s w is
    else finish s (w.setTile t.toNat (tileMask (w.sPair n + 2 ^ 64 * w.sPair (n + 2)))) is

/-- TGET. -/
def execTget (d : BitVec 6) (t : BitVec 4) (s : State) : Out :=
  whenLegal s (.tget d t) fun w is _ => finish s (w.setGroup d.toNat 4 (w.tile t.toNat).toNat false) is

/-- TPLSET. -/
def execTplset (d t : BitVec 4) (a : BitVec 6) (s : State) : Out :=
  whenLegal s (.tplset d t a) fun w is _ =>
    if w.sPoison a.toNat then poisonTrap s w is
    else finish s (w.setTile d.toNat (BitVec.ofNat 128 (setBits (w.tile t.toNat).toNat 0 21 (w.s a.toNat).toNat))) is

/-! ## Stored elements (R309) -/

/-- The element width in nibbles. -/
def tileNibbles (fmt : Nat) : Nat :=
  match fmt with
  | 0 => 8
  | 1 => 4
  | 4 => 1
  | _ => 2

/-- The address of stored element (r, 0) relative to base b. -/
def Tile.rowAt (d : Tile) (b : Int) (r : Nat) : Int := b + (r % 16 * 64 * d.stride : Nat) + (r / 16 * 256 * d.gstride : Nat)

/-- Bytes of `n` elements of a stored row. -/
def rowBytes (nib n : Nat) : Nat := (n * nib + 1) / 2

/-- The first of `n` elements from address `a` up that lies outside a window of `size` bytes. -/
def firstOutside (a : Int) (n nib size : Nat) : Option Int :=
  if a < 0 then some a
  else
    let d := size - a.toNat
    let i := (2 * d + nib - 1) / nib
    if i < n then some (a + (i * nib / 2 : Nat)) else none

/-- The lowest of some addresses. -/
def lowest (l : List Int) : Option Int :=
  l.foldl (fun (m : Option Int) x =>
    match m with
    | none => some x
    | some y => some (min x y)) none

/-- The lowest element outside the window among `n` elements of each of the stored rows 0 to `k` − 1. -/
def Tile.outside (d : Tile) (b : Int) (k n size : Nat) : Option Int :=
  lowest ((List.range k).filterMap fun r => firstOutside (d.rowAt b r) n (tileNibbles d.fmt) size)

/-- The values of `n` elements of a stored row's bytes; OX4 pairs run along the row (08 R196). -/
def rowValues (fmt : Nat) (bytes : List Byte) (n : Nat) : List FpVal :=
  match fmt with
  | 0 => (valuesOf 4 n bytes).map fp32.decode
  | 1 => (valuesOf 2 n bytes).map bf16.decode
  | 2 => (valuesOf 1 n bytes).map e4m3.decode
  | 3 => (valuesOf 1 n bytes).map e5m2.decode
  | _ => ((bytes.flatMap fun x =>
      let p := decodePair x.toNat
      [FpVal.fin (decide (p.1 < 0)) p.1.natAbs 0, FpVal.fin (decide (p.2 < 0)) p.2.natAbs 0]).take n)

/-- The key of QSP address 0 of a wave's window, and the window's size. -/
def State.windowOf (s : State) (w : Wave) : Nat × Nat :=
  let win := s.qspWindow w
  (qspKey (coreQuad w.core) (win.1 * 65536), win.2 * 65536)

/-! ## Scales (R310) -/

/-- Scale tiles along the outer dimension. -/
def Tile.outerTiles (d : Tile) : Nat := 128 / d.t

/-- The address of the scale of tile (k', o'). -/
def Tile.scaleAt (d : Tile) (k o : Nat) : Nat := d.sbase * 64 + 2 * (k * d.outerTiles + o)

/-- The tile (k', o') of stored element (r, c) under the descriptor's own orientation (R322). -/
def Tile.scaleTile (d : Tile) (r c : Nat) : Nat × Nat := if d.orient then (c / d.t, r / d.t) else (r / d.t, c / d.t)

/-- The descriptor's elements carry scales: OX4, and FP8 with SCL. -/
def Tile.scaled (d : Tile) : Bool := d.fmt = 4 || ((d.fmt = 2 || d.fmt = 3) && d.scl)

/-- The scale at an address of a window. -/
def scaleBits (m : Memory) (key0 a : Nat) : Nat := m.readNat (key0 + a) 2

end Sys2Proof.Machine
end

