-- ==== Sys2Proof/Machine/Matrix.lean ====
section
/-!
DEFINITION. The Crucible engine: MLOOP, MSTEP, MDRAIN, MZERO, MLOAD, MWAIT and MQRY, the reservation table, its
arbitration, and the passes (13_isa_matrix_system R307 to R326; 07_execution R185, R186; 08_number_formats R200 to R202; 05
R146, R147). A pass reads and writes the scratchpad by segments that it presents to the banks (02 R43, R46).
-/
namespace Sys2Proof.Machine

/-! ## The reservation table (07 R185) -/

/-- The entries of a wave on an accumulator. -/
def State.slotEntries (s : State) (w : Wave) (a : Nat) : List EngEntry :=
  (s.engine (coreQuad w.core)).entries.filter fun e => e.seq = w.seq && e.wid = w.wid && e.acc = a

/-- A new entry of a wave. -/
def State.newEntry (s : State) (w : Wave) (u : UnitSt) (i : Issue) (op : EngOp) (acc : BitVec 3) (j : Instr) (steps : Nat) :
    EngEntry :=
  { seq := w.seq, wid := w.wid, acc := acc.toNat, op := op, d1 := 0, d2 := 0, word := (encode j).getD 0, lit := i.lit,
    remaining := steps, nextStep := 0, sat := fmtSat u.fmt, regs := [],
    prio := ((s.launch? w.seq).map Launch.prio).getD 0, age := s.now, lastGrant := 0, granted := false, id := 0 }

/-- An entry put into a table, under a number of its own. -/
def Engine.enter (e : Engine) (x : EngEntry) : Engine :=
  { e with entries := e.entries ++ [{ x with id := e.nextId }], nextId := e.nextId + 1 }

/-- The word enters its operation into the table, or stalls while the table is full. -/
def enterEngine (s : State) (w : Wave) (i : Issue) (x : EngEntry) : Out :=
  let e := s.engine (coreQuad w.core)
  if Config.reservationSize ≤ e.entries.length then stallWord (s.charge w.part 0x013 1)
  else finish (s.setEngine (e.enter x)) w i

/-- The wave has accesses of the QSP that no bank has served: an engine operation that reads or writes the QSP stands after them
(R325, 05 R146). -/
def Wave.qspOpen (w : Wave) : Bool := w.pend.any fun o => o.parts.any fun p => !p.done && match p.route with
  | .qsp _ => true
  | _ => false

/-- An operation that reads or writes the QSP enters the table once the wave's accesses before it have been served. -/
def enterOrdered (s : State) (w : Wave) (i : Issue) (x : EngEntry) : Out :=
  if w.qspOpen then stallWord s else enterEngine s w i x

/-- An Engine Fault at the word (R313, R321): cause 0x10. -/
def engineFault (s : State) (w : Wave) (i : Issue) (sub : Nat) (addr : Int) : Out := takeTrap s w i 16 sub (wrap addr 64)

/-! ## MLOOP at issue (R312 to R316) -/

/-- Ks of a format (R314). -/
def stepK (fmt : Nat) : Nat :=
  match fmt with
  | 1 => 16
  | 4 => 64
  | _ => 32

/-- The loop of an MLOOP: its operands, orientations, increments and whether B is sparse. -/
structure MLoop where
  a : Tile
  b : Tile
  oa : Bool
  ob : Bool
  sp : Bool
  incA : Int
  incB : Int
deriving DecidableEq, Repr

/-- The captured loop of an entry: fields of the word, and increments of W3 (R312). -/
def loopOf (d1 d2 : BitVec 128) (word : Nat) (lit : Word) : MLoop :=
  { a := tileOf d1, b := tileOf d2, oa := word.testBit 13, ob := word.testBit 12, sp := word.testBit 11,
    incA := signed (lit.toNat / 65536) 16, incB := signed (lit.toNat % 65536) 16 }

/-- The format pair is accepted (R315). -/
def MLoop.accepted (l : MLoop) : Bool :=
  let fp8 (x : Nat) := x = 2 || x = 3
  (l.a.fmt = 1 && l.b.fmt = 1) || (fp8 l.a.fmt && fp8 l.b.fmt) || (l.a.fmt = 4 && l.b.fmt = 4 && l.a.scl && l.b.scl)

/-- Ks, and the K that a step reads of A (R314). -/
def MLoop.ks (l : MLoop) : Nat := stepK l.a.fmt
def MLoop.kl (l : MLoop) : Nat := if l.sp then 2 * l.ks else l.ks

/-- The bases of step s (R314). -/
def MLoop.baseA (l : MLoop) (s : Nat) : Int := l.a.base + 32 * s * l.incA
def MLoop.baseB (l : MLoop) (s : Nat) : Int := l.b.base + 32 * s * l.incB

/-- A base keeps the placement rules of R314, for a column operand with `bytes` of K. -/
def placementOk (d : Tile) (col : Bool) (b : Int) (bytes : Nat) : Bool :=
  if col then
    d.stride = 4 && d.gstride % 16 = 0 && b / 256 % 16 = 0 && b % 4 = 0 && b % 256 + bytes ≤ 256
  else b % 64 = 0

/-- The first offending address among the elements of an operand (R313): the base when misplaced, else the lowest outside. -/
def operandFault (d : Tile) (col : Bool) (b : Int) (k size : Nat) : Option Int :=
  if !placementOk d col b (rowBytes (tileNibbles d.fmt) k) then some b
  else if col then d.outside b 128 k size
  else d.outside b k 128 size

/-- The first scale outside the window among those that K positions `k0` to `k0` + `k` − 1 use. -/
def scaleFault (d : Tile) (k0 k size : Nat) : Option Int :=
  if d.scaled then
    let lo := k0 / d.t
    let hi := (k0 + k - 1) / d.t
    firstOutside (d.scaleAt lo 0 : Nat) ((hi + 1 - lo) * d.outerTiles) 4 size
  else none

/-- The bytes of a step's metadata (R316): where they start. -/
def MLoop.metaAt (l : MLoop) (s : Nat) : Nat := l.b.mbase * 64 + 48 * l.ks * s

/-- The first reason that a step faults for (R313). -/
def MLoop.stepFault (l : MLoop) (size s : Nat) : Option Int :=
  (operandFault l.a l.oa (l.baseA s) l.kl size).orElse fun _ =>
  (operandFault l.b l.ob (l.baseB s) l.ks size).orElse fun _ =>
  (scaleFault l.a (s * l.kl) l.kl size).orElse fun _ =>
  (scaleFault l.b (s * l.ks) l.ks size).orElse fun _ =>
  if l.sp then firstOutside (l.metaAt s : Nat) (48 * l.ks) 2 size else none

/-- MLOOP (R312, R313). -/
def execMloop (a : BitVec 3) (t u : BitVec 4) (o p sp : BitVec 1) (n : BitVec 11) (s : State) : Out :=
  whenLegal s (.mloop a t u o p sp n) fun w is us =>
    let x := { s.newEntry w us is .mloop a (.mloop a t u o p sp n) n.toNat with d1 := w.tile t.toNat, d2 := w.tile u.toNat }
    let l := loopOf x.d1 x.d2 x.word x.lit
    if !l.accepted then engineFault s w is 9 0
    else
      match (List.range n.toNat).findSome? (l.stepFault (s.windowOf w).2) with
      | some at' => engineFault s w is 8 at'
      | none => enterOrdered s w is x

/-! ## MSTEP at issue (R319, R320) -/

/-- Bytes of a fragment. -/
def fragmentBytes (f : Nat) : Nat := if f = 3 then 128 else 512

/-- MSTEP (R319). -/
def execMstep (a : BitVec 3) (v w2 : BitVec 6) (f : BitVec 2) (i j : BitVec 3) (g : BitVec 2) (s : State) : Out :=
  whenLegal s (.mstep a v w2 f i j g) fun w is us =>
    let n := fragmentBytes f.toNat
    let frag (r : BitVec 6) : List Byte := (w.groupBytes (w.winBase + r.toNat) 2).take n
    let bad (r : BitVec 6) : Bool := ((w.groupPoison (w.winBase + r.toNat) 2).take (n / 4)).any id
    if bad v || bad w2 then poisonTrap s w is
    else enterEngine s w is { s.newEntry w us is .mstep a (.mstep a v w2 f i j g) 1 with regs := frag v ++ frag w2 }

/-! ## MDRAIN, MLOAD and MZERO at issue (R321, R324) -/

/-- A target's format is not accepted (R321). -/
def Tile.badFormat (d : Tile) : Bool := 4 < d.fmt || (d.fmt = 4 && !d.scl)

/-- A target is too large, or its BASE is no multiple of 64 (R321). -/
def Tile.badShape (d : Tile) : Bool := 128 < d.rows || 128 < d.cols || d.base % 64 ≠ 0

/-- The scale tiles that hold an element of the target, row by row of tiles. -/
def Tile.scaleTiles (d : Tile) : List (Nat × Nat) :=
  let n (x : Nat) := (x + d.t - 1) / d.t
  (List.range (n d.rows)).flatMap fun i => (List.range (n d.cols)).map fun j => (i, j)

/-- The address of the scale of the target's tile (i, j) of rows and columns. -/
def Tile.scaleOfTile (d : Tile) (ij : Nat × Nat) : Nat :=
  let k := d.scaleTile (ij.1 * d.t) (ij.2 * d.t)
  d.scaleAt k.1 k.2

/-- The lowest byte of the target, or of its scales, outside the window (R321). -/
def Tile.targetOutside (d : Tile) (size : Nat) : Option Int :=
  lowest ((d.outside d.base d.rows d.cols size).toList ++
    (if d.scaled then (d.scaleTiles.map d.scaleOfTile).filterMap fun a => firstOutside (a : Nat) 1 4 size else []))

/-- The Engine Fault of an operation on some targets (R321): its subcode and address. -/
def targetFault (size : Nat) (ds : List Tile) : Option (Nat × Int) :=
  if ds.any Tile.badFormat then some (9, 0)
  else
    match ds.find? Tile.badShape with
    | some d => some (8, d.base)
    | none => (ds.findSome? fun d => d.targetOutside size).map fun a => (8, a)

/-- MDRAIN (R321). -/
def execMdrain (a : BitVec 3) (d t : BitVec 4) (r z : BitVec 1) (s : State) : Out :=
  whenLegal s (.mdrain a d t r z) fun w is us =>
    let x :=
      { s.newEntry w us is .mdrain a (.mdrain a d t r z) 1 with
        d1 := w.tile d.toNat, d2 := if r = 1 then w.tile t.toNat else 0 }
    match targetFault (s.windowOf w).2 (tileOf x.d1 :: (if r = 1 then [tileOf x.d2] else [])) with
    | some (sub, at') => engineFault s w is sub at'
    | none => enterOrdered s w is x

/-- MLOAD (R324). -/
def execMload (a : BitVec 3) (t : BitVec 4) (s : State) : Out :=
  whenLegal s (.mload a t) fun w is us =>
    let x := { s.newEntry w us is .mload a (.mload a t) 1 with d1 := w.tile t.toNat }
    match targetFault (s.windowOf w).2 [tileOf x.d1] with
    | some (sub, at') => engineFault s w is sub at'
    | none => enterOrdered s w is x

/-- MZERO (R324). -/
def execMzero (a : BitVec 3) (s : State) : Out :=
  whenLegal s (.mzero a) fun w is us => enterEngine s w is (s.newEntry w us is .mzero a (.mzero a) 1)

/-! ## MWAIT and MQRY (R324) -/

/-- MWAIT. -/
def execMwait (a : BitVec 3) (s : State) : Out :=
  whenLegal s (.mwait a) fun w is _ => if s.slotEntries w a.toNat = [] then finish s w is else stallWord s

/-- The second word of MQRY: BUSY, POISON, FAULTED and the count of entries. -/
def State.slotStatus (s : State) (w : Wave) (a : Nat) : Nat :=
  let es := s.slotEntries w a
  let busy := (s.engine (coreQuad w.core)).running && es.any EngEntry.granted
  let p := ((w.accs[a]?).map AccSlot.poison).getD false
  let f := ((w.accs[a]?).map AccSlot.faulted).getD false
  bitOf busy + 2 * bitOf p + 4 * bitOf f + 256 * es.length

/-- MQRY. -/
def execMqry (a : BitVec 3) (d : BitVec 6) (s : State) : Out :=
  whenLegal s (.mqry a d) fun w is _ =>
    let left := ((s.slotEntries w a.toNat).map EngEntry.remaining).sum
    finish s (w.setPair d.toNat (left + 2 ^ 32 * s.slotStatus w a.toNat) false) is

/-! ## Summation (08 R200 to R202) -/

/-- The sum of some exact products: whether a NaN or an infinity of either sign is among them, and the finite ones' sum. -/
structure GroupSum where
  nan : Bool
  pos : Bool
  neg : Bool
  fin : Option (Bool × Nat × Int)
deriving DecidableEq, Repr

/-- A finite value added exactly; −0 only when both are −0 (R201). -/
def addFinite (x : Option (Bool × Nat × Int)) (n : Bool) (m : Nat) (e : Int) : Bool × Nat × Int :=
  match x with
  | none => (n, m, e)
  | some (n1, m1, e1) => addExact n1 m1 e1 n m e false

/-- A value added to a sum. -/
def GroupSum.add (g : GroupSum) (v : FpVal) : GroupSum :=
  match v with
  | .nan _ => { g with nan := true }
  | .inf n => if n then { g with neg := true } else { g with pos := true }
  | .fin n m e => { g with fin := some (addFinite g.fin n m e) }

/-- The product of A and B; a pruned position of a sparse B is an exact +0 (R202). -/
def product (a : FpVal) : Option FpVal → FpVal
  | none => .fin false 0 0
  | some b => mulExact a b

/-- C after one group of products (R200, R201): rounded once. -/
def accumulate (c : Word) (as : List FpVal) (bs : List (Option FpVal)) : Word :=
  let g := (List.zipWith product as bs).foldl GroupSum.add { nan := false, pos := false, neg := false, fin := none }
  let h := match fp32.decode c.toNat with
    | .nan _ => { g with nan := true }
    | .inf n => if n then { g with neg := true } else { g with pos := true }
    | .fin .. => g
  if h.nan || (h.pos && h.neg) then BitVec.ofNat 32 fp32.nan
  else if h.pos || h.neg then BitVec.ofNat 32 (fp32.infinity h.neg)
  else
    match fp32.decode c.toNat, h.fin with
    | .fin n m e, some (n1, m1, e1) =>
      let x := addExact n m e n1 m1 e1 false
      BitVec.ofNat 32 (fp32.roundArith .rne false x.1 x.2.1 x.2.2 false).1
    | _, _ => c

/-- C after K-groups of `g` products in ascending K. -/
def accumulateK (g : Nat) : Nat → Word → List FpVal → List (Option FpVal) → Word
  | 0, c, _, _ => c
  | n + 1, c, as, bs => accumulateK g n (accumulate c (as.take g) (bs.take g)) (as.drop g) (bs.drop g)

/-- The values of one outer index of an operand, scales applied; `bad` when a scale of it is no positive finite BF16 (log
12). -/
structure OpRow where
  vals : List (Option FpVal)
  bad : Bool
deriving DecidableEq, Repr

/-- The element of a row of A: never pruned. -/
def OpRow.dense (r : OpRow) : List FpVal := r.vals.map fun v => v.getD (.fin false 0 0)

/-- One row of C: `free` numbers the free values of bad scales. -/
def gemmRow (g n : Nat) (a : OpRow) (free : Nat) : List OpRow → List Word → List Word
  | b :: bs, c :: cs =>
    (if a.bad || b.bad then Config.scaleless free else accumulateK g n c a.dense b.vals) :: gemmRow g n a (free + 1) bs cs
  | _, cs => cs

/-- The rows of C from the first on, 128 elements each, in the columns from `j0` up. -/
def gemmRows (g n j0 free : Nat) (bs : List OpRow) : List OpRow → List Word → List Word
  | a :: as, cs =>
    let row := cs.take 128
    row.take j0 ++ gemmRow g n a free bs (row.drop j0) ++ gemmRows g n j0 (free + bs.length) bs as (cs.drop 128)
  | [], cs => cs

/-! ## The operands of a step (R314 to R316) -/

/-- A list of rows transposed into `n` rows. -/
def transposed (n : Nat) (rows : List (List FpVal)) : List (List FpVal) :=
  (List.range n).map fun p => rows.map fun r => r.getD p (.fin false 0 0)

/-- The values (p, k) of an operand of a step, by outer index, from the bytes that the banks have given. -/
def operand (m : Memory) (key0 : Nat) (d : Tile) (col : Bool) (b : Int) (k : Nat) : List (List FpVal) :=
  let row (r n : Nat) : List FpVal :=
    rowValues d.fmt (m.readBytes (key0 + (d.rowAt b r).toNat) (rowBytes (tileNibbles d.fmt) n)) n
  if col then (List.range 128).map fun p => row p k
  else transposed 128 ((List.range k).map fun r => row r 128)

/-- The operand with its scales applied exactly: K positions from `k0` on (R310). -/
def scaledRows (m : Memory) (key0 : Nat) (d : Tile) (k0 : Nat) (rows : List (List FpVal)) : List OpRow :=
  rows.mapIdx fun p vals =>
    if !d.scaled then { vals := vals.map some, bad := false }
    else
      let sc (k : Nat) : Nat := scaleBits m key0 (d.scaleAt ((k0 + k) / d.t) (p / d.t))
      { vals := vals.mapIdx fun k v => some (mulExact v (bf16.decode (sc k)))
        bad := (List.range vals.length).any fun k => !positiveFiniteBf16 (sc k) }

/-- Field F of the metadata: 12 bits at a position (R316). -/
def metaField (m pos : Nat) : Nat := m / 2 ^ (12 * pos) % 4096

/-- The four indices of a field. -/
def fieldIndices (f : Nat) : List Nat := (List.range 4).map fun q => f / 2 ^ (3 * q) % 8

/-- The indices ascend strictly. -/
def ascending : List Nat → Bool
  | a :: b :: rest => a < b && ascending (b :: rest)
  | _ => true

/-- The kept elements of a row of a sparse B put at their logical positions, 8 at a time. -/
def spread (m ks p : Nat) (r : OpRow) : OpRow :=
  { r with vals := (List.range (ks / 4)).flatMap fun g =>
      let ix := fieldIndices (metaField m (p * (ks / 4) + g))
      (List.range 8).map fun x => if ix.contains x then r.vals.getD (4 * g + ix.idxOf x) none else none }

/-- The address of the first malformed field of a step's metadata (R316). -/
def MLoop.malformed (l : MLoop) (m s : Nat) : Option Int :=
  if !l.sp then none
  else
    ((List.range (32 * l.ks)).find? fun i => !ascending (fieldIndices (metaField m i))).map fun i =>
      ((l.metaAt s + 12 * i / 8 : Nat) : Int)

/-- G of a pair (R315). -/
def MLoop.group (l : MLoop) : Nat :=
  match l.a.fmt with
  | 1 => 4
  | 4 => min l.a.t l.b.t
  | _ => 8

/-! ## Passes -/

/-- What a pass did: the accumulator, and how many free values it took; or a late error of a cause, a subcode and an address. -/
inductive PassGot where
  | done (a : AccSlot) (free : Nat)
  | late (cause sub : Nat) (addr : Int) (a : AccSlot)
deriving DecidableEq, Repr

/-- A poisoned read (R318, R324): POISON and FAULTED are set, nothing else changes. -/
def poisonPass (addr : Int) (a : AccSlot) : PassGot := .late 6 0 addr { a with poison := true, faulted := true }

/-- One K-step of an MLOOP (R314 to R317) on the bytes that the banks have given. -/
def loopStep (m : Memory) (key0 free : Nat) (x : EngEntry) (a : AccSlot) : PassGot :=
  let l := loopOf x.d1 x.d2 x.word x.lit
  let n := x.nextStep
  let md := if l.sp then m.readNat (key0 + l.metaAt n) (48 * l.ks) else 0
  match l.malformed md n with
  | some at' => .late 16 10 at' { a with faulted := true }
  | none =>
    let ra := scaledRows m key0 l.a (n * l.kl) (operand m key0 l.a l.oa (l.baseA n) l.kl)
    let rb := scaledRows m key0 l.b (n * l.ks) (operand m key0 l.b l.ob (l.baseB n) l.ks)
    let cb := if l.sp then rb.mapIdx fun p r => spread md l.ks p r else rb
    .done { a with elems := gemmRows l.group (l.kl / l.group) 0 free cb ra a.elems } 16384

/-- Element `e` of a fragment (R320). -/
def fragmentElem (f : Nat) (bytes : List Byte) (e : Nat) : FpVal :=
  match f with
  | 0 => bf16.decode (bytesToNat ((bytes.drop (2 * e)).take 2))
  | 3 => let v := ox4Elem bytes e; .fin (decide (v < 0)) v.natAbs 0
  | 1 => e4m3.decode (bytes.getD e 0).toNat
  | _ => e5m2.decode (bytes.getD e 0).toNat

/-- An MSTEP (R319, R320). -/
def stepPass (x : EngEntry) (a : AccSlot) : AccSlot :=
  let f := bitsAt x.word 8 2
  let g := bitsAt x.word 0 2
  let i := bitsAt x.word 5 3
  let j := bitsAt x.word 2 3
  let kf := if f = 1 || f = 2 then 32 else 16
  let grp := match f with
    | 0 => 4
    | 3 => 16
    | _ => 8
  let scale (bits : Nat) (v : FpVal) : FpVal := if f = 3 then mulExact v (bf16.decode bits) else v
  let ra := (List.range 16).map fun m =>
    ({ vals := (List.range kf).map fun k =>
         some (scale (x.lit.toNat % 65536) (fragmentElem f (x.regs.take (fragmentBytes f)) (kf * m + k))),
       bad := false } : OpRow)
  let rb := (List.range 16).map fun n =>
    ({ vals := (List.range kf).map fun k =>
         some (scale (x.lit.toNat / 65536) (fragmentElem g (x.regs.drop (fragmentBytes f)) (16 * k + n))),
       bad := false } : OpRow)
  { a with elems := a.elems.take (2048 * i) ++ gemmRows grp (kf / grp) (16 * j) 0 rb ra (a.elems.drop (2048 * i)) }

/-- C[r][c], or C[c][r] for a transposed copy. -/
def AccSlot.at (a : AccSlot) (tr : Bool) (r c : Nat) : Word := a.elems.getD (if tr then 128 * c + r else 128 * r + c) 0

/-- The inputs of a target's scale tile (i, j): elements beyond ROWS or COLS count as +0 (R322). -/
def tileInputs (d : Tile) (a : AccSlot) (tr : Bool) (ij : Nat × Nat) : List Word :=
  (List.range (d.t * d.t)).map fun e =>
    let r := ij.1 * d.t + e / d.t
    let c := ij.2 * d.t + e % d.t
    if r < d.rows && c < d.cols then a.at tr r c else 0

/-- The stored bytes of one scale tile, by rows, and its scale. -/
def quantTile (d : Tile) (sat : Bool) (xs : List Word) : List Byte × Nat :=
  if d.fmt = 4 then quantiseOx4 xs d.t
  else
    let r := quantiseFp8 (if d.fmt = 2 then e4m3 else e5m2) sat xs
    (r.1.map fun x => BitVec.ofNat 8 x, r.2)

/-- A scaled copy: the bytes of each tile's rows, and its scale, with their keys. A byte that holds an element is written whole. -/
def scaledChunks (key0 : Nat) (d : Tile) (sat tr : Bool) (a : AccSlot) : List (Nat × List Byte) :=
  d.scaleTiles.flatMap fun ij =>
    let q := quantTile d sat (tileInputs d a tr ij)
    let per := rowBytes (tileNibbles d.fmt) d.t
    let n := min d.t (d.cols - ij.2 * d.t)
    ((List.range (min d.t (d.rows - ij.1 * d.t))).map fun i =>
      (key0 + (d.rowAt d.base (ij.1 * d.t + i)).toNat + ij.2 * per,
       ((q.1.drop (i * per)).take per).take (rowBytes (tileNibbles d.fmt) n)))
      ++ [(key0 + d.scaleOfTile ij, natToBytes 2 q.2)]

/-- An element of an unscaled copy (R193, R322). -/
def drainElem (fmt : Nat) (sat : Bool) (x : Word) : List Byte :=
  match fmt with
  | 0 => natToBytes 4 x.toNat
  | 1 => natToBytes 2 (fpConvert fp32 bf16 sat false false x.toNat).1
  | 2 => natToBytes 1 (fpConvert fp32 e4m3 sat false false x.toNat).1
  | _ => natToBytes 1 (fpConvert fp32 e5m2 sat false false x.toNat).1

/-- The bytes of one copy of a drain (R322), with their keys. -/
def drainChunks (key0 : Nat) (d : Tile) (sat tr : Bool) (a : AccSlot) : List (Nat × List Byte) :=
  if d.scaled then scaledChunks key0 d sat tr a
  else
    (List.range d.rows).map fun r =>
      (key0 + (d.rowAt d.base r).toNat, (List.range d.cols).flatMap fun c => drainElem d.fmt sat (a.at tr r c))

/-- The accumulator with every element +0. -/
def AccSlot.zeroed (a : AccSlot) : AccSlot := { a with elems := List.replicate 16384 0 }

/-- The end of an MDRAIN's pass, its segments written (R322); of a poisoned slot, nothing but the late error. -/
def drainPass (x : EngEntry) (a : AccSlot) : PassGot :=
  if a.poison then .late 6 0 (tileOf x.d1).base a
  else .done (if x.word.testBit 12 then a.zeroed else a) 0

/-- An element that MLOAD reads, as FP32 (R324); a NaN of another format is the canonical one (08 R190). -/
def loadElem (m : Memory) (key0 : Nat) (d : Tile) (r c : Nat) (bytes : List Byte) : Word :=
  let scaled (v : FpVal) : Word :=
    let k := d.scaleTile r c
    BitVec.ofNat 32 (fpMulVal fp32 .rne false v (bf16.decode (scaleBits m key0 (d.scaleAt k.1 k.2)))).1
  let v := (rowValues d.fmt (if d.fmt = 4 then (bytes.drop (c / 2)).take 1 else
    (bytes.drop (c * tileNibbles d.fmt / 2)).take (tileNibbles d.fmt / 2)) 2).getD (if d.fmt = 4 then c % 2 else 0) (.nan false)
  match d.fmt with
  | 0 => BitVec.ofNat 32 (bytesToNat ((bytes.drop (4 * c)).take 4))
  | 1 =>
    match v with
    | .nan _ => BitVec.ofNat 32 fp32.nan
    | _ => BitVec.ofNat 32 (65536 * bytesToNat ((bytes.drop (2 * c)).take 2))
  | _ => if d.scaled then scaled v else BitVec.ofNat 32 (match v with
      | .nan _ => fp32.nan
      | .inf n => fp32.infinity n
      | .fin n m e => (fp32.roundArith .rne false n m e false).1)

/-- An MLOAD (R324) on the bytes that the banks have given. -/
def loadPass (m : Memory) (key0 : Nat) (x : EngEntry) (a : AccSlot) : PassGot :=
  let d := tileOf x.d1
  let row (r : Nat) : List Word :=
    let bytes := m.readBytes (key0 + (d.rowAt d.base r).toNat) (rowBytes (tileNibbles d.fmt) d.cols)
    (List.range 128).map fun c => if c < d.cols then loadElem m key0 d r c bytes else 0
  .done { a with
    elems := ((List.range 128).flatMap fun r => if r < d.rows then row r else List.replicate 128 0),
    poison := false, faulted := false } 0

/-- The end of an entry's pass on its accumulator, given the bytes that the banks have given it and the first free value. -/
def passOf (m : Memory) (key0 free : Nat) (x : EngEntry) (a : AccSlot) : PassGot :=
  match x.op with
  | .mloop => loopStep m key0 free x a
  | .mstep => .done (stepPass x a) 0
  | .mdrain => drainPass x a
  | .mzero => .done { a.zeroed with poison := false, faulted := false } 0
  | .mload => loadPass m key0 x a

/-! ## The segments of a pass (02 R46, R317, R322, R324) -/

/-- A segment that is read. -/
def readSeg (cls turn key : Nat) (col : Bool) : EngSeg := { cls := cls, turn := turn, key := key, col := col, write := none }

/-- The row segments that `n` bytes from a key up lie in, ascending. -/
def rowSegs (key n : Nat) : List Nat :=
  if n = 0 then [] else (List.range ((key + n - 1) / 64 + 1 - key / 64)).map fun i => (key / 64 + i) * 64

/-- The segments of an operand of a step, in the order of R317: the stored row varies fastest in row mode, the group of 16 stored
rows in column mode; and their mode. -/
def operandSegs (key0 : Nat) (d : Tile) (col : Bool) (b : Int) (k : Nat) : List (Nat × Bool) :=
  let nib := tileNibbles d.fmt
  if col then
    (List.range (rowBytes nib k / 4)).flatMap fun j => (List.range 8).map fun g =>
      (key0 + (d.rowAt b (16 * g)).toNat + 4 * j, true)
  else
    (List.range (rowBytes nib 128 / 64)).flatMap fun j => (List.range k).map fun r =>
      (key0 + (d.rowAt b r).toNat + 64 * j, false)

/-- An operand's segments in the sixteen turns of a step. -/
def turnsOf (cls per : Nat) (l : List (Nat × Bool)) : List EngSeg := l.mapIdx fun i x => readSeg cls (i / per) x.1 x.2

/-- The row segments of an operand's scales in a step (R310, R317). -/
def scaleSegs (key0 : Nat) (d : Tile) (k0 k : Nat) : List Nat :=
  if d.scaled then
    let lo := k0 / d.t
    rowSegs (key0 + d.scaleAt lo 0) (2 * ((k0 + k - 1) / d.t + 1 - lo) * d.outerTiles)
  else []

/-- The segments of one K-step of an MLOOP (R317): in its first cycle those of the scales and the metadata, and in each of sixteen
the next four of A (eight with a sparse B) and the next four of B. -/
def loopSegs (key0 : Nat) (x : EngEntry) : List EngSeg :=
  let l := loopOf x.d1 x.d2 x.word x.lit
  let n := x.nextStep
  let first (cls : Nat) (ks : List Nat) : List EngSeg := ks.map fun k => readSeg cls 0 k false
  let segs :=
    first 0 (scaleSegs key0 l.a (n * l.kl) l.kl)
      ++ first 1 (scaleSegs key0 l.b (n * l.ks) l.ks ++ (if l.sp then rowSegs (key0 + l.metaAt n) (48 * l.ks) else []))
      ++ turnsOf 0 (if l.sp then 8 else 4) (operandSegs key0 l.a l.oa (l.baseA n) l.kl)
      ++ turnsOf 1 4 (operandSegs key0 l.b l.ob (l.baseB n) l.ks)
  (List.range 16).flatMap fun t => dedup (segs.filter fun y => y.turn = t)

/-- A number put into an ascending list without repeats. -/
def insertKey : Nat → List Nat → List Nat
  | x, [] => [x]
  | x, y :: ys => if x < y then x :: y :: ys else if x = y then y :: ys else y :: insertKey x ys

/-- The row segments that some bytes lie in, ascending. -/
def chunkKeys (cs : List (Nat × List Byte)) : List Nat :=
  (cs.flatMap fun c => rowSegs c.1 c.2.length).foldl (fun l k => insertKey k l) []

/-- The bytes of a row segment that some bytes cover, later ones over earlier ones, and their mask. -/
def segmentBytes (cs : List (Nat × List Byte)) (key : Nat) : List Byte × Lanes :=
  let near := (cs.filter fun c => rangesMeet key 64 c.1 c.2.length).reverse
  let byte (i : Nat) : Option Byte := near.findSome? fun c => if c.1 ≤ key + i then c.2[key + i - c.1]? else none
  (laneNumbers.map fun i => (byte i).getD 0, maskOf (laneNumbers.map fun i => (byte i).isSome))

/-- The row segments of one copy of a drain, ascending, four in each turn from one on (R322). -/
def copySegs (turn : Nat) (cs : List (Nat × List Byte)) : List EngSeg :=
  (chunkKeys cs).mapIdx fun i k => { cls := 2, turn := turn + i / 4, key := k, col := false, write := some (segmentBytes cs k) }

/-- The segments of an MDRAIN: the main copy's, then the transposed copy's (R322); a poisoned slot writes nothing. -/
def drainSegs (key0 : Nat) (x : EngEntry) (a : AccSlot) : List EngSeg :=
  if a.poison then []
  else
    let s1 := copySegs 0 (drainChunks key0 (tileOf x.d1) x.sat false a)
    if x.word.testBit 13 then
      s1 ++ copySegs ((s1.length + 3) / 4) (drainChunks key0 (tileOf x.d2) x.sat true a)
    else s1

/-- The segments of an MLOAD: the row segments of the tile and of its scales. DESIGN CHOICE (log 34): four in each turn, ascending,
at the priority of A. -/
def loadSegs (key0 : Nat) (x : EngEntry) : List EngSeg :=
  let d := tileOf x.d1
  let n := rowBytes (tileNibbles d.fmt) d.cols
  let keys := ((List.range d.rows).flatMap fun r => rowSegs (key0 + (d.rowAt d.base r).toNat) n)
    ++ (if d.scaled then d.scaleTiles.flatMap fun ij => rowSegs (key0 + d.scaleOfTile ij) 2 else [])
  turnsOf 0 4 ((keys.foldl (fun l k => insertKey k l) []).map fun k => (k, false))

/-- The segments that an entry's pass presents. -/
def passSegs (key0 : Nat) (x : EngEntry) (a : AccSlot) : List EngSeg :=
  match x.op with
  | .mloop => loopSegs key0 x
  | .mdrain => drainSegs key0 x a
  | .mload => loadSegs key0 x
  | _ => []

/-- The bytes that the banks have given to a pass. -/
def gotMemory (l : List SegData) : Memory :=
  l.foldl (fun (m : Memory) d =>
    ((segWords (d.key, d.col)).zipIdx).foldl (fun (x : Memory) k => x.writeBytes k.1 ((d.data.drop (4 * k.2)).take 4)) m) []

/-! ## Arbitration (07 R186) -/

/-- An entry is eligible: no older entry of its wave names its accumulator. The table lists entries oldest first. -/
def eligibleEntries : List EngEntry → List EngEntry → List EngEntry
  | _, [] => []
  | seen, x :: rest =>
    (if seen.any fun y => y.seq = x.seq && y.wid = x.wid && y.acc = x.acc then [] else [x]) ++ eligibleEntries (x :: seen) rest

/-- The effective priority (R186). -/
def EngEntry.effective (x : EngEntry) (now : Nat) : Nat := x.prio + min 7 ((now - max x.age x.lastGrant) / 2048)

/-- The entry of the highest effective priority, the oldest first. -/
def bestEntry (now : Nat) (l : List EngEntry) : Option EngEntry :=
  l.foldl (fun (b : Option EngEntry) x =>
    match b with
    | none => some x
    | some y => if y.effective now < x.effective now then some x else some y) none

/-- The entry that the engine grants, and whether it goes on with the current MLOOP. -/
def Engine.choose (e : Engine) (now : Nat) : Option (EngEntry × Bool) :=
  let el := eligibleEntries [] e.entries
  match el.find? fun x => x.granted && x.op = .mloop with
  | none => (bestEntry now el).map fun x => (x, false)
  | some cur =>
    let others := el.filter fun x => x ≠ cur
    match bestEntry now others with
    | none => some (cur, true)
    | some x =>
      if cur.effective now < x.effective now || (16 ≤ e.stepsRun && x.effective now = cur.effective now) then some (x, false)
      else some (cur, true)

/-- An entry granted; no other is. Its pass begins, and presents its segments. -/
def Engine.grant (e : Engine) (x : EngEntry) (now : Nat) (again : Bool) (segs : List EngSeg) : Engine :=
  { e with
    entries := e.entries.map fun y =>
      if y.id = x.id then { y with granted := true, lastGrant := now } else { y with granted := false },
    running := true, stepsRun := if again then e.stepsRun else 0, segs := segs, since := now + 1, got := [] }

/-- The launch of an entry belongs to a partition that is being taken off its slices: its work stops (05 R149). -/
def State.entryStopped (s : State) (x : EngEntry) : Bool := ((s.launch? x.seq).map fun l => s.leaving l.part).getD false

/-- The wave and the accumulator of an entry. -/
def State.entrySlot (s : State) (x : EngEntry) : Option (Wave × AccSlot) :=
  (s.wave? x.seq x.wid).bind fun w => (w.accs[x.acc]?).map fun a => (w, a)

/-- ENGINE_GRANT (07 R186): at a pass boundary. -/
def execEngineGrant (s : State) : Out :=
  match s.call with
  | .engineGrant quad =>
    let e := s.engine quad
    if e.running then .next s
    else
      match ({ e with entries := e.entries.filter fun x => !s.entryStopped x } : Engine).choose s.now with
      | none => .next s
      | some (x, again) =>
        let segs := match s.entrySlot x with
          | some (w, a) => passSegs (s.windowOf w).1 x a
          | none => []
        .next (s.setEngine (e.grant x s.now again segs))
  | _ => .next s

/-- The granted entry after its pass: gone, or with one step less. -/
def Engine.passed (e : Engine) (ended : Bool) : Engine :=
  { e with
    running := false, stepsRun := e.stepsRun + 1, segs := [], got := [],
    entries := e.entries.filterMap fun y =>
      if !y.granted then some y
      else if ended || y.remaining ≤ 1 then none
      else some { y with remaining := y.remaining - 1, nextStep := y.nextStep + 1 } }

/-- The end of a pass on its accumulator: a poisoned segment that it read ends it with a late error (R318, R324). -/
def Engine.pass (e : Engine) (key0 free : Nat) (x : EngEntry) (a : AccSlot) : PassGot :=
  match e.got.findSome? SegData.bad with
  | some k => poisonPass ((k - key0 : Nat) : Int) a
  | none => passOf (gotMemory e.got) key0 free x a

/-- PASS_COMPLETE (R317 to R319, R322, R324): once the banks have served every segment of the pass. -/
def execPassComplete (s : State) : Out :=
  match s.call with
  | .passComplete quad =>
    let e := s.engine quad
    if !e.running then .next s
    else
      match e.entries.find? EngEntry.granted with
      | none => .next (s.setEngine { e with running := false, segs := [], got := [] })
      | some x =>
        match s.entrySlot x with
        | none => .next (s.setEngine (e.passed true))
        | some (w, a) =>
          if e.segs ≠ [] then .next s
          else
            let s0 := s.charge w.part 0x010 1
            match e.pass (s.windowOf w).1 s.free x a with
            | .done a1 n =>
              .next (({ s0 with free := s0.free + n }.setEngine (e.passed false)).setWave ((s0.again w).setAcc x.acc a1))
            | .late cause sub addr a1 =>
              let s1 := (s0.setEngine (e.passed true)).setWave ((s0.again w).setAcc x.acc a1)
              .next (s1.lateError w.seq w.wid cause sub (wrap addr 64))
  | _ => .next s

end Sys2Proof.Machine
end

