-- ==== Sys2Proof/Machine/Sched.lean ====
section
/-!
DEFINITION. What becomes of a wave between its words: the return from a trap, late errors, the watchdog, sleeps, contexts,
and the end of a launch (03_pod_memory R91; 07_execution R166, R167, R171, R187, R188; 10 R245 to R247; 14 R331 to R334).
-/
namespace Sys2Proof.Machine

/-! ## A wait taken up again (14 R332, R339) -/

/-- The trap of a fault declared FATAL (01 R38, 14 R337), which a Watchdog trap and late errors that are due come before (R333): the fault
stays, and traps after their RTE. A single step ends with it (R343). -/
def State.fatalTrap (s : State) (w : Wave) (a : Arm) (wordAt cause sub va : Nat) (second : Bool) : State :=
  if s.watchdogDue w then s
  else
    match w.late, w.handler with
    | x :: rest, none =>
      s.enterTrap { w with late := rest } a (w.unit a).pc x.cause x.sub x.addr false (w.unit a).wait
    | _, _ =>
      let t := s.enterTrap w a wordAt cause sub va second .none
      if w.stepAllows a then t.stopStep w.seq w.wid else t

/-- The unit's wait is looked at again: what it waits for may have come while it was not looking. An answer to its fault that
was recorded takes effect (R337). -/
def State.resumeWait (s : State) (w : Wave) (a : Arm) : State :=
  match (w.unit a).wait with
  | .tbar .. => s.recheckTbar w a
  | .bar .. => s.recheckBar w a
  | .nq .. => s.retryNq w a
  | .gate _ _ _ _ woken _ _ => if woken then s.retryTake w a else s
  | .op id =>
    if w.pend.any fun o => o.id = id then s
    else s.setWave (w.setUnit a { w.unit a with wait := .none, ready := s.now })
  | .fault _ va _ sub _ _ answer wordAt second =>
    if answer = 1 then s.setWave (w.setUnit a { w.unit a with wait := .none, ready := s.now })
    else if answer = 2 then s.fatalTrap w a wordAt (refusalCause sub) sub va second
    else s
  | _ => s

/-- A wait that a Watchdog trap interrupts, as it goes on after the RTE: walks are asked for again, and a sleep that an event
may have ended meanwhile tries again; the monitor of a WAITLINE stays armed. -/
def Wait.interrupted : Wait → Wait
  | .walk _ => .none
  | .nq desc sd d b _ => .nq desc sd d b true
  | .gate h sd d b _ at_ second => .gate h sd d b true at_ second
  | x => x

/-- A fault of the other arm whose FATAL a trap of this one came before is looked at again. -/
def State.resumeOther (s : State) (w : Wave) (a : Arm) : State :=
  match (w.unit a).wait with
  | .fault .. => s.resumeWait w a
  | _ => s

/-- RTE (10 R247, 14 R332, R334): returns; with an entry that the handler opened still open, a double trap. -/
def execRte (s : State) : Out :=
  whenLegal s .rte fun w is u =>
    match w.handler with
    | none => takeTrap s w is 1 4 0
    | some h =>
      if h.depth < u.open then takeTrap s w is 1 4 0
      else
        let s1 := s.returnFromTrap w is.arm h
        let s2 := s1.resumeWait (s1.again w) is.arm
        .next (s2.resumeOther (s2.again w) is.arm.other)

/-! ## Traps that no word raises -/

/-- ILLEGAL_INSTRUCTION (09 R217): a word that decodes to no instruction; `sub` is 0x01 or 0x02. -/
def execIllegalInstruction (s : State) : Out :=
  match s.call, s.issue with
  | .illegalInstruction sub, some _ => onUnit s fun w is _ => takeTrap s w is 1 sub 0
  | _, _ => .next s

/-- LATE_ERROR (03 R91, 14 R332, R333): the oldest pending error is taken at the unit's instruction boundary, unless a Watchdog trap is
due, which comes first. -/
def execLateError (s : State) : Out :=
  match s.call with
  | .lateError seq wid e =>
    match s.wave? seq wid with
    | none => .next s
    | some w =>
      match w.late with
      | [] => .next s
      | x :: rest =>
        if w.status ≠ .running || w.saved || w.handler.isSome || !w.unitReady (armOf e) || s.watchdogDue w then .next s
        else .next (s.enterTrap { w with late := rest } (armOf e) (w.unit (armOf e)).pc x.cause x.sub x.addr false .none)
  | _ => .next s

/-- The arm that takes a Watchdog trap (14 R334): the true arm when it is runnable and not at its JOIN, else the else arm. -/
def Wave.watchdogArm (w : Wave) : Arm :=
  if w.unitReady .t || !w.divergent || w.unitE.mask = 0 then .t else .e

/-- The body of a Watchdog record (15 R357, TYPE 0x04). -/
def watchdogBody (w : Wave) : List Byte := packBytes [(4, w.wid), (4, 0), (4, w.unitT.pc), (4, w.unitE.pc)]

/-- WATCHDOG (07 R188, 14 R332, R334): the wave takes the trap; without a handler, in its handler, or at the second time
with no progress it is killed. -/
def execWatchdog (s : State) : Out :=
  match s.call with
  | .watchdog seq wid =>
    match s.wave? seq wid with
    | none => .next s
    | some w =>
      if !s.watchdogDue w || w.unitT.wait = .spill || w.unitE.wait = .spill then .next s
      else if w.trapBase = 0 || w.watchdogFired || w.handler.isSome then
        .next ((s.setWave { w.stopped with progress := 0 }).postEvent w.part 4 w.seq (watchdogBody w))
      else
        let a := w.watchdogArm
        let u := w.unit a
        let w1 := { w.setUnit a { u with atJoin := false } with progress := 0, watchdogFired := true }
        .next (s.enterTrap w1 a u.pc 13 0 0 false u.wait.interrupted)
  | _ => .next s

/-! ## Sleeps (10 R245, R246) -/

/-- SLEEPUNTIL_WAKE: the target has passed. -/
def execSleepuntilWake (s : State) : Out :=
  match s.call with
  | .sleepuntilWake seq wid e =>
    match s.wave? seq wid with
    | none => .next s
    | some w =>
      match (w.unit (armOf e)).wait with
      | .sleepUntil t => if w.saved || !s.passed t then .next s else .next (s.endSleep seq wid (armOf e) id)
      | _ => .next s
  | _ => .next s

/-- WAITLINE_WAKE: an event of the line has come, or its directory entry has been given up. -/
def execWaitlineWake (s : State) : Out :=
  match s.call with
  | .waitlineWake seq wid e =>
    match s.wave? seq wid with
    | none => .next s
    | some w =>
      match (w.unit (armOf e)).wait with
      | .line _ _ woken => if w.saved || !woken then .next s else .next (s.endSleep seq wid (armOf e) id)
      | _ => .next s
  | _ => .next s

/-- WAITLINE_TIMEOUT: the timeout has expired. -/
def execWaitlineTimeout (s : State) : Out :=
  match s.call with
  | .waitlineTimeout seq wid e =>
    match s.wave? seq wid with
    | none => .next s
    | some w =>
      match (w.unit (armOf e)).wait with
      | .line _ dl _ => if w.saved || !s.deadlineReached dl then .next s else .next (s.endSleep seq wid (armOf e) id)
      | _ => .next s
  | _ => .next s

/-! ## Contexts (07 R167) -/

/-- A wave that can hold an issue context of its core. -/
def Wave.resident (w : Wave) : Bool := w.status = .running && !w.saved

/-- The waves of a core that hold issue contexts. -/
def State.ctxHolders (s : State) (core : Nat) : List Wave := s.waves.filter fun w => w.resident && w.core = core && w.ctx.isSome

/-- The ready waves of a core without a context, the oldest ready first. -/
def State.contextless (s : State) (core : Nat) : Option Wave :=
  (s.waves.filter fun w => w.resident && w.core = core && w.ctx.isNone && s.waveReady w && s.holdsSet w.part).foldl
    (fun (b : Option Wave) w =>
      match b with
      | none => some w
      | some x => if w.readyAt < x.readyAt then some w else some x) none

/-- A wave's effective priority: the greater of its units'. -/
def State.wavePrio (s : State) (w : Wave) : Nat := max (s.cand w .t).prio (if w.divergent then (s.cand w .e).prio else 0)

/-- When a wave last issued. -/
def Wave.lastIssued (w : Wave) : Nat := max w.unitT.lastIssue w.unitE.lastIssue

/-- The wave that gives its context up to one that has been ready since `readyAt` (R167): the parked one that parked
earliest; after 2,048 cycles the holder of the lowest effective priority that issued most recently. -/
def State.giver (s : State) (core readyAt : Nat) : Option Wave :=
  let hs := s.ctxHolders core
  let parked := (hs.filter fun w => !s.waveReady w).foldl (fun (b : Option Wave) w =>
    match b with
    | none => some w
    | some x => if w.parkedAt < x.parkedAt then some w else some x) none
  match parked with
  | some w => some w
  | none =>
    if s.now + 1 < readyAt + 2048 then none
    else hs.foldl (fun (b : Option Wave) w =>
      match b with
      | none => some w
      | some x =>
        if s.wavePrio w < s.wavePrio x || (s.wavePrio w = s.wavePrio x && x.lastIssued < w.lastIssued) then some w
        else some x) none

/-- The lowest free context of a core. -/
def State.freeContext (s : State) (core : Nat) : Option Nat :=
  (List.range Config.contextsPerCore).find? fun k => !((s.ctxHolders core).any fun w => w.ctx = some k)

/-- The state after a wave has taken a context: it issues no earlier than 16 cycles later. -/
def State.takeContext (s : State) (w : Wave) (k : Nat) : State :=
  s.modWave w.seq w.wid fun x => { x with ctx := some k, ctxAt := s.now + 16 }

/-- CONTEXT_TAKE (R167): of the core's ready waves without a context, the oldest ready takes one. -/
def execContextTake (s : State) : Out :=
  match s.call with
  | .contextTake seq wid =>
    match s.wave? seq wid with
    | none => .next s
    | some w =>
      if (s.contextless w.core).map (fun x => (x.seq, x.wid)) ≠ some (seq, wid) then .next s
      else
        match s.freeContext w.core with
        | some k => .next (s.takeContext w k)
        | none =>
          match s.giver w.core w.readyAt with
          | none => .next s
          | some x =>
            let s1 := s.modWave x.seq x.wid fun y =>
              { y with ctx := none, readyAt := if s.waveReady y then s.now + 1 else y.readyAt }
            .next (s1.takeContext w (x.ctx.getD 0))
  | _ => .next s

/-! ## The end of a launch (07 R171) -/

/-- Every wave of a launch has stopped, and its operations have completed. -/
def State.launchDone (s : State) (seq : Nat) : Bool :=
  (s.waves.filter fun w => w.seq = seq).all fun w =>
    w.status ≠ .running && w.pend = [] && s.engineIdle w && w.withdrawn = []

/-- LAUNCH_COMPLETE: the launch's waves and windows are freed, and the completion event is posted. -/
def execLaunchComplete (s : State) : Out :=
  match s.call with
  | .launchComplete seq =>
    match s.launch? seq with
    | none => .next s
    | some l =>
      if !s.launchDone seq then .next s
      else
        let of (x : WaveStatus) : Nat := (s.waves.filter fun w => w.seq = seq && w.status = x).length
        let s1 := { s with
          waves := s.waves.filter fun w => w.seq ≠ seq, launches := s.launches.filter fun x => x.seq ≠ seq }
        .next (s1.postEvent l.part 6 seq (packBytes [(4, of .halted), (4, of .killed)]))
  | _ => .next s

end Sys2Proof.Machine
end

