-- ==== Sys2Proof/Machine/Switch.lean ====
section
/-!
DEFINITION. The world switch (14_traps_preemption R337 to R341; 05 R148 to R150; 02 R65; 12 R297, R304; 15 R344; 20 R386,
R387). State keeps what is saved in its own records; the bytes of the save area are written beside it and not read back
(log 28).
-/
namespace Sys2Proof.Machine

/-! ## What is switched -/

/-- The waves of a partition that stand in its slices' cores, those that have stopped among them (05 R150). -/
def State.wavesOn (s : State) (p : Nat) : List Wave := s.waves.filter fun w => w.part = p && !w.saved

/-- The waves of a partition that are saved. -/
def State.wavesOff (s : State) (p : Nat) : List Wave := s.waves.filter fun w => w.part = p && w.saved

/-- The usable quads of a slice set. -/
def State.setQuads (s : State) (g : SliceSet) : List Nat := (slicesOf g.slices).flatMap s.sliceQuads

/-- A slice set by its number. -/
def State.set? (s : State) (n : Nat) : Option SliceSet := s.sets.find? fun g => g.num = n

/-- The state with a slice set changed. -/
def State.modSet (s : State) (n : Nat) (f : SliceSet → SliceSet) : State :=
  { s with sets := mapWhere s.sets (fun g => g.num = n) f }

/-! ## Stopping (R338 steps 1 and 2) -/

/-- A doorbell waiting at a channel, of a wave. -/
def Wave.rings (w : Wave) (d : Doorbell) : Bool := d.seq = w.seq && d.wid = w.wid

/-- A withdrawn operation put among others in program order, by the number of its operation. -/
def insertByOp (x : Nat × Withdrawn) : List (Nat × Withdrawn) → List (Nat × Withdrawn)
  | [] => [x]
  | y :: ys => if x.1 < y.1 then x :: y :: ys else y :: insertByOp x ys

/-- The aperture stores of a wave that have not performed (05 R148), in program order. -/
def State.unrung (s : State) (w : Wave) : List (Nat × Withdrawn) :=
  (s.chans.flatMap fun c => (c.doors.filter w.rings).map fun d =>
    let o := w.pend.find? fun o => o.id = d.op
    (d.op, ({ op := d.op, door := some (c.die, c.ch), arm := (o.map PendOp.arm).getD .t, data := d.desc, va := d.va,
              pc := (o.map PendOp.pc).getD 0, word := (o.map PendOp.word).getD 0, bad := d.malformed } : Withdrawn))).foldl
    (fun l x => insertByOp x l) []

/-- The barrier word that a unit has issued behind an aperture store (05 R141): it has been fetched, and nothing else holds it up. -/
def Wave.heldBarrier (w : Wave) (a : Arm) : Option Withdrawn :=
  let u := w.unit a
  let held (k : BitVec 5) (r : BitVec 6) : Withdrawn :=
    { op := 0, door := none, arm := a, data := (w.s r.toNat).toNat, va := w.sPair (2 * k.toNat), pc := u.pc,
      word := ((u.ibuf.bind fun p => p.words[wordIndex u.pc]?).map BitVec.toNat).getD 0, bad := false }
  if w.status = .running && w.unitIssues a && (w.pend.any fun o => o.of a && o.kind = .aperture && !o.answered) then
    match u.nextInstr with
    | some (.tbarrive k _ _ r) => some (held k r)
    | some (.tbexpect k _ _ r) => some (held k r)
    | _ => none
  else none

/-- A unit goes on after a barrier word that is withdrawn. -/
def Wave.passHeld (w : Wave) (x : Withdrawn) : Wave := w.goto x.arm (nextWord x.pc)

/-- They are withdrawn, and kept with the wave. A store's operation stays outstanding, with the order that it owes (04 R107). -/
def State.withdraw (s : State) (w : Wave) : State :=
  let xs := s.unrung w
  let hs := [w.heldBarrier .t, w.heldBarrier .e].filterMap id
  let s1 : State := { s with chans := s.chans.map fun c => { c with doors := c.doors.filter fun d => !w.rings d } }
  s1.modWave w.seq w.wid fun y =>
    hs.foldl Wave.passHeld
      { y with withdrawn := y.withdrawn ++ xs.map Prod.snd ++ hs }

/-- A world switch begins: issue stops on the set (its waves are no longer live), and Ladle stores are withdrawn. -/
def State.startSwitch (s : State) (x : Switch) : State :=
  (s.wavesOn x.out).foldl State.withdraw { s with switches := s.switches ++ [x] }

/-! ## Draining (R338 steps 2 to 5) -/

/-- An operation that need only leave the quad: RWRI, a relayed write, or an aperture store of the wave that has been withdrawn. -/
def Wave.leavesQuad (w : Wave) (o : PendOp) : Bool :=
  o.kind = .rwri || ((o.kind = .store || (o.kind = .aperture && w.withdrawn.any fun x => x.door.isSome && x.op = o.id))
    && o.parts.all fun p => p.done || (p.route = .runner && (match p.act with
    | .write _ => true
    | _ => false)))

/-- What must end before a partition's state is written: copies, passes, spills, operations that return data. -/
def State.drained (s : State) (p : Nat) : Bool :=
  (s.chans.all fun c => c.copies.all fun x => x.part ≠ p)
    && (s.engines.all fun e => !e.running || (e.entries.all fun x => !(x.granted && ((s.launch? x.seq).map Launch.part = some p))))
    && (s.wavesOn p).all fun w =>
      w.unitT.wait ≠ .spill && w.unitE.wait ≠ .spill && w.pend.all w.leavesQuad

/-! ## The save area (R340, R341) -/

/-- A counter's entry (R340). -/
def Counter.entry (c : Counter) : Nat :=
  bitOf c.ovf * 2 ^ 62 + bitOf c.ie * 2 ^ 61 + bitOf c.en * 2 ^ 60 + c.event % 2 ^ 12 * 2 ^ 48 + c.value % 2 ^ 48

/-- A kept wait as its record has it (log 28: the kinds' numbers): kind, address or target, expected value, remaining timeout. -/
def Wait.fields : Wait → Nat × Nat × Nat × Nat
  | .none => (0, 0, 0, 0)
  | .sleepUntil t => (1, t, 0, 0)
  | .line l d _ => (2, l, 0, d - 1)
  | .nq desc sd d _ _ => (3, desc, sd, d - 1)
  | .gate h sd d .. => (4, h, sd, d - 1)
  | .tbar b ph .. => (5, b.va, ph, 0)
  | .bar k id gen _ => (6, k.scope.rank * 2 ^ 32 + k.inst * 16 + id, gen, 0)
  | .fault tag va _ _ _ _ _ _ _ => (7, va, tag, 0)
  | .walk _ => (0, 0, 0, 0)
  | .op _ => (0, 0, 0, 0)
  | .spill => (0, 0, 0, 0)

/-- The 16 bytes of a wait. -/
def waitBytes (w : Wait) : List Byte :=
  let x := w.fields
  packBytes [(2, x.1), (8, x.2.1), (2, x.2.2.1), (4, x.2.2.2)]

/-- The fault tag that a wait holds, and what has been recorded of it. -/
def Wait.faultTag : Wait → Nat × Nat
  | .fault tag _ _ _ _ _ ans _ _ => (tag, ans)
  | _ => (0, 0)

/-- The state bits of a record. -/
def Wave.stateBits (w : Wave) : Nat :=
  let ft := w.unitT.wait.faultTag
  let fe := w.unitE.wait.faultTag
  bitOf w.divergent + 2 * bitOf w.handler.isSome + 4 * bitOf w.unitT.atJoin + 8 * bitOf w.unitE.atJoin
    + 16 * bitOf (ft.1 ≠ 0 || fe.1 ≠ 0) + 32 * bitOf (ft.2 = 1 || fe.2 = 1) + 64 * bitOf (ft.2 = 2 || fe.2 = 2)
    + 128 * bitOf w.dbgStop

/-- A reservation entry's 64 bytes (R341). -/
def EngEntry.bytes (x : EngEntry) : List Byte :=
  natToBytes 64 (x.d1.toNat + x.d2.toNat * 2 ^ 128 + x.word % 2 ^ 32 * 2 ^ 256 + x.lit.toNat * 2 ^ 288
    + x.remaining % 2 ^ 11 * 2 ^ 320 + x.nextStep % 2 ^ 11 * 2 ^ 331 + bitOf x.sat * 2 ^ 342)

/-- A withdrawn operation's 32 bytes (R341). -/
def Withdrawn.bytes (x : Withdrawn) : List Byte := packBytes [(16, x.data), (8, x.va), (4, x.word), (4, 0)]

/-- Lanes as 8 bytes. -/
def lanes8 (m : Lanes) : Nat × Nat := (8, m.toNat)

/-- The first eight divergence entries of a unit that stand in hardware. -/
def UnitSt.divBytes (u : UnitSt) : List Byte := padTo 256 (packBytes (u.entries.map fun x => (32, x.word)))

/-- POISON and FAULTED of a wave's slots (R341). -/
def Wave.slotBits (w : Wave) : Nat :=
  ((w.accs.mapIdx fun i a => 2 ^ (2 * i) * bitOf a.poison + 2 ^ (2 * i + 1) * bitOf a.faulted)).sum

/-- A wave record's first 0x2000 bytes (R341). DESIGN CHOICE (log 28): a pending late error's TRAPPC is the true arm's next word. -/
def waveHead (w : Wave) (es : List EngEntry) : List Byte :=
  padTo 0x00A0 (packBytes ([(4, w.wid), (4, w.seq), (8, w.stateBits), (4, w.unitT.pc), (4, w.unitE.pc), lanes8 w.unitT.mask,
      lanes8 w.unitE.mask, (4, w.winBase), (4, w.lo), (4, w.unitT.fmt.toNat), (4, w.unitE.fmt.toNat), (4, w.fpFlags.toNat),
      (4, w.savedFmt.toNat), (4, w.trapCause.toNat), (4, w.trapPc.toNat), (4, w.trapBase.toNat), (2, w.openCalls),
      (1, w.unitT.open), (1, w.unitE.open), (8, w.trapAddr.toNat), (4, w.bucket.toNat), (4, w.phaseVar.toNat)]
      ++ w.bounds.map (fun b => (4, b.toNat))
      ++ [(8, w.cycCapture.toNat), (8, w.phaseStart), (8, w.progress), (8, w.missed.getD 0)]))
    ++ padTo 0x20 (waitBytes w.unitT.wait ++ waitBytes w.unitE.wait)
    ++ padTo 0x40 (w.late.flatMap fun e =>
        packBytes [(4, (trapCauseWord e.cause e.sub false).toNat), (4, w.unitT.pc), (8, e.addr)])
    ++ padTo 0x100 (packBytes [(8, max w.unitT.wait.faultTag.1 w.unitE.wait.faultTag.1), (4, w.slotBits), (2, es.length),
        (2, w.withdrawn.length)])
    ++ padTo 0x100 (packBytes (w.sregs.toList.map fun x => (4, x.toNat)))
    ++ padTo 0x40 (packBytes [lanes8 w.spoison, (1, w.qregs.toNat), (1, w.qpoison.toNat)])
    ++ padTo 0x100 (packBytes (w.tiles.toList.map fun x => (16, x.toNat)))
    ++ padTo 0x200 (packBytes (w.pregs.toList.map fun x => lanes8 x.bits))
    ++ padTo 0x200 (packBytes (w.pregs.toList.map fun x => lanes8 x.poison))
    ++ padTo 0x80 (packBytes (w.calls.map fun r => (8, r.word)))
    ++ w.unitT.divBytes ++ w.unitE.divBytes
    ++ padTo 0x540 (padTo 0x400 (es.flatMap EngEntry.bytes))
    ++ padTo 0x1000 (padTo 0x7E0 (w.withdrawn.flatMap Withdrawn.bytes))

/-- A wave record (R341), each part at its offset: the head, the vector registers from logical `lo` up with their poison, and the
accumulator slots. -/
def waveRecord (w : Wave) (es : List EngEntry) : List (Nat × List Byte) :=
  let regs := (List.range w.vregs.length).map fun i => w.logV (w.lo + i)
  let abase := (0x2000 + 264 * w.vregs.length + 65535) / 65536 * 65536
  [(0, waveHead w es),
   (0x2000, packBytes (regs.flatMap fun v => v.lanes.map fun x => (4, x.toNat)) ++ packBytes (regs.map fun v => lanes8 v.poison))]
    ++ w.accs.mapIdx fun i a => (abase + 65536 * i, packBytes (a.elems.map fun x => (4, x.toNat)))

/-- The bytes of a wave record, in 64 KiB units. -/
def Wave.recordUnits (w : Wave) : Nat := (0x2000 + 264 * w.vregs.length + 65535) / 65536 + w.accs.length

/-- The entries of the reservation tables that belong to a wave. -/
def State.waveEntries (s : State) (w : Wave) : List EngEntry :=
  (s.engine (coreQuad w.core)).entries.filter fun x => x.seq = w.seq && x.wid = w.wid

/-- The saved entries of a wave. -/
def Part.entriesOf (p : Part) (w : Wave) : List EngEntry := p.savedEng.filter fun x => x.seq = w.seq && x.wid = w.wid

/-- Wave records one after another from a unit of 64 KiB on. -/
def Part.recordsAt (p : Part) : Nat → List Wave → List (Nat × List Byte)
  | _, [] => []
  | n, w :: ws =>
    (waveRecord w (p.entriesOf w)).map (fun x => (n * 65536 + x.1, x.2)) ++ Part.recordsAt p (n + w.recordUnits) ws

/-- The QSP windows of a partition's launches: dense quad, physical quad, first bank, banks. -/
def State.partWindows (s : State) (p : Part) : List (Nat × Nat × Nat × Nat) :=
  (s.launches.filter fun l => l.part = p.num).flatMap fun l => l.windows.map fun w => (s.denseQuad p w.1, w.1, w.2, l.qsp)

/-- The saved bytes of a partition's QSP windows. -/
def Part.qspMemory (p : Part) : Memory := (p.savedQsp.filter fun c => c.2.2 = 0).map fun c => (c.1, BitVec.ofNat 8 c.2.1)

/-- QSP images one after another. -/
def Part.imagesAt (p : Part) : Nat → List (Nat × Nat × Nat × Nat) → List (Nat × List Byte)
  | _, [] => []
  | o, (dq, q, b, n) :: rest =>
    (o, padTo 64 (packBytes [(4, dq), (4, b), (4, n)]))
      :: (o + 64, p.qspMemory.readBytes (qspKey q (b * 65536)) (n * 65536)) :: Part.imagesAt p (o + 64 + n * 65536) rest

/-- The channels granted to a partition on the dies of its slices. -/
def State.partChans (s : State) (p : Part) : List Chan :=
  (dedup ((slicesOf p.sliceMask).map sliceDie)).flatMap fun die =>
    ((List.range 16).filter fun ch => p.granted (Config.ladleBase + die * 0x100000 + ch * 0x10000) 4096).map (s.chan die)

/-- Every network instance of CORE, QUAD and DIE scope on a partition's slices. -/
def State.netInstances (s : State) (p : Part) : List BarKey :=
  let qs := s.denseQuads p
  let key (sc : Scope) (i : Nat) : BarKey := { scope := sc, inst := i, part := p.num }
  (qs.flatMap fun q => (List.range 4).map fun k => key .core (4 * q + k)) ++ qs.map (key .quad)
    ++ (dedup (qs.map quadDie)).map (key .die)

/-- The 16 barriers of an instance. -/
def State.netBytes (s : State) (k : BarKey) : List Byte :=
  packBytes ([(4, k.scope.rank), (4, k.inst)] ++ (List.range 16).map fun i =>
    match s.bars.find? fun b => b.key = k && b.id = i with
    | some b => (8, b.gen % 65536 + b.count % 65536 * 65536 + b.total % 65536 * 2 ^ 32)
    | none => (8, 0))

/-- The held-row list. -/
def heldList (rows : List RowSlot) : List Byte :=
  packBytes ((4, rows.length) :: rows.map fun r =>
    (8, 2 ^ 63 + r.row % 2 ^ 17 * 2 ^ 32 + rowHandle r.gen r.stack r.bank))

/-- The waves of a saved partition that have records: those that run, and stopped ones with work that goes on (log 28). -/
def State.recorded (s : State) (p : Part) : List Wave :=
  (s.wavesOff p.num).filter fun w => w.status = .running || w.withdrawn ≠ [] || p.entriesOf w ≠ []

/-- The template tables of a partition's channels: as they were saved, or as the channel holds them for one that has no saved table. -/
def State.keptTmpl (s : State) (p : Part) : List Chan :=
  (s.partChans p).map fun c => (p.savedTmpl.find? fun x => x.die = c.die && x.ch = c.ch).getD c

/-- Everything of the save area of a saved partition, each part at its offset, and the area's size in 64 KiB units. The sections
follow one another on 64 KiB boundaries. -/
def State.saveBytes (s : State) (p : Part) : List (Nat × List Byte) × Nat :=
  let ws := s.recorded p
  let wins := s.partWindows p
  let up (n : Nat) : Nat := (n + 65535) / 65536
  let o1 := 1
  let o2 := o1 + (ws.map Wave.recordUnits).sum
  let o3 := o2 + up (wins.map fun x => 64 + x.2.2.2 * 65536).sum
  let tm := (s.keptTmpl p).flatMap fun c => packBytes ([(4, c.die), (4, c.ch)] ++ c.tmpl.map fun t => (64, t.toNat))
  let o4 := o3 + up tm.length
  let hl := heldList (s.rows.filter fun r => r.recorded && r.part = p.num)
  let o5 := o4 + up hl.length
  let nb := (s.netInstances p).flatMap s.netBytes
  let o6 := o5 + up nb.length
  ([(0, padTo 0x100 (packBytes ([(2, 1), (2, 0), (4, ws.length), (4, o6), (4, 0), (8, p.savedAt), (8, 0), (8, o1 * 65536),
      (8, o2 * 65536), (8, o3 * 65536), (8, o4 * 65536), (8, o5 * 65536), (8, 0), (8, 0), (8, 0)]
      ++ p.counters.toList.map fun c => (8, c.entry))))]
    ++ p.recordsAt o1 ws ++ p.imagesAt (o2 * 65536) wins ++ [(o3 * 65536, tm), (o4 * 65536, hl), (o5 * 65536, nb)], o6)

/-- A partition's save area written as it stands now, where its address is memory of the package; what translated to it before
goes (R340). -/
def State.writeSaveArea (s : State) (n : Nat) : State :=
  match s.part? n with
  | none => s
  | some p =>
    match p.saveArea with
    | none => s.setPart { p with resave := false }
    | some area =>
      let b := s.saveBytes p
      let meets (e : TlbEntry) : Bool := e.frame < area + b.2 * 65536 && area < e.frame + e.pages * 4096
      let s1 := ({ s with tlb := s.tlb.filter fun e => !meets e } : State).setPart { p with resave := false, areaUnits := b.2 }
      b.1.foldl (fun (t : State) x =>
        match keyOfPa t.pod (area + x.1) with
        | some k => t.poke k x.2
        | none => t) s1

/-- The save areas of saved partitions of which something has changed, written again (R337, R338, 20 R383, R384). -/
def State.writeAreas (s : State) : State :=
  (s.parts.filter fun p => p.resave).foldl (fun (t : State) p =>
    if t.holdsSet p.num then t.modPart p.num fun x => { x with resave := false } else t.writeSaveArea p.num) s

/-! ## Saving (R338 step 6) -/

/-- A deadline as it is kept while the wave is saved: what remains of it, plus one; 0 for none. -/
def keepDeadline (now d : Nat) : Nat := if d = 0 then 0 else d - now + 1

/-- A kept deadline running again. -/
def runDeadline (now r : Nat) : Nat := if r = 0 then 0 else max 1 (now + (r - 1))

/-- A wait as it is kept: timeouts stop; a wait for walks becomes the word's issuing again. -/
def Wait.kept (now : Nat) : Wait → Wait
  | .walk _ => .none
  | .nq desc sd d b k => .nq desc sd (keepDeadline now d) b k
  | .gate h sd d b k x y => .gate h sd (keepDeadline now d) b k x y
  | .line .. => .none
  | w => w

/-- A kept wait as it goes on. -/
def Wait.resumed (now : Nat) : Wait → Wait
  | .nq desc sd d b k => .nq desc sd (runDeadline now d) b k
  | .gate h sd d b k x y => .gate h sd (runDeadline now d) b k x y
  | w => w

/-- A unit with its wait changed, and nothing fetched. -/
def UnitSt.rewait (u : UnitSt) (f : Wait → Wait) : UnitSt :=
  { u with wait := f u.wait, ibuf := none, refusals := [], looked := false, table := [], atBank := none }

/-- A wave with its waits changed. -/
def Wave.rewait (w : Wave) (f : Wait → Wait) : Wave :=
  { w with
    unitT := w.unitT.rewait f, unitE := w.unitE.rewait f,
    handler := w.handler.map fun h => { h with wait := f h.wait } }

/-- WAITLINE continues after itself (10 R246). -/
def State.endLineWaits (s : State) (w : Wave) : State :=
  let one (t : State) (a : Arm) : State :=
    match (w.unit a).wait with
    | .line .. => t.endSleep w.seq w.wid a id
    | _ => t
  one (one s .t) .e

/-- A wave leaves its core: OUTST is 0, its context is free. Its operations that have left the quad stay outstanding for what orders
after them (04 R107, R126). -/
def Wave.save (w : Wave) (now : Nat) : Wave :=
  { w.rewait (Wait.kept now) with
    saved := true, ctx := none, pend := w.pend.map fun o => { o with left := true }, parkedAt := 0, readyAt := 0 }

/-- The additions under way to a partition's counters are made (20 R386). -/
def State.settleCounters (s : State) (p : Nat) : State := s.settle fun c => decide (c.part = p)

/-- The QSP of a partition's slices moved out, and left empty. -/
def State.takeQsp (s : State) (quads : List Nat) : State × List (Nat × Nat × Nat) :=
  let mine (k : Nat) : Bool := isQspKey k && quads.contains ((k - 2 ^ 60) / 2 ^ 21)
  let cells := (s.mem.filter fun c => mine c.1).map fun c => (c.1, c.2.toNat, 0)
  let marks := (s.poison.filter mine).map fun k => (k, 0, 1)
  ({ s with mem := s.mem.filter fun c => !mine c.1, poison := s.poison.filter fun k => !mine k }, cells ++ marks)

/-- The entry of a reservation table belongs to a partition's launch. -/
def State.entryOf (s : State) (p : Nat) (x : EngEntry) : Bool := (s.launch? x.seq).map Launch.part = some p

/-- The state after a partition has been saved: the set is held by none, and the save area is written. -/
def State.savePart (s : State) (g : SliceSet) (p : Part) (area : Nat) : State :=
  let s1 := (s.wavesOn p.num).foldl State.endLineWaits s
  let s2 := s1.settleCounters p.num
  let es := s2.engines.flatMap fun e => e.entries.filter (s2.entryOf p.num)
  let tm := s2.partChans p
  let s3 := s2.switchRowsOut p
  let q := s3.takeQsp (s3.setQuads g)
  let s4 : State :=
    { q.1 with
      engines := q.1.engines.map fun e => { e with entries := e.entries.filter fun x => !s2.entryOf p.num x },
      waves := mapWhere q.1.waves (fun w => w.part = p.num && !w.saved) fun w => w.save s.now }
  let s5 := s4.modPart p.num fun x =>
    { x with savedTmpl := tm, savedEng := es, savedQsp := q.2, saveArea := some area, savedAt := s.now }
  (s5.modSet g.num fun y => { y with holder := none }).writeSaveArea p.num

/-! ## Restoring (R338 step 7, R339) -/

/-- The QSP of a partition moved in. -/
def State.putQsp (s : State) (cells : List (Nat × Nat × Nat)) : State :=
  cells.foldl (fun (t : State) c =>
    if c.2.2 = 1 then { t with poison := insertMark t.poison c.1 }
    else { t with mem := t.mem.write c.1 (BitVec.ofNat 8 c.2.1) }) s

/-- The templates of a partition's channels put back. -/
def State.putTmpl (s : State) (cs : List Chan) : State :=
  cs.foldl (fun (t : State) c => let x := t.chan c.die c.ch; t.setChan { x with tmpl := c.tmpl }) s

/-- Reservation entries put back, with fresh ages (05 R149). -/
def State.putEntries (s : State) (es : List EngEntry) : State :=
  es.foldl (fun (t : State) x =>
    match t.wave? x.seq x.wid with
    | none => t
    | some w =>
      t.setEngine ((t.engine (coreQuad w.core)).enter { x with age := t.now, lastGrant := 0, granted := false })) s

/-- The place of a wave among the running waves of its partition on its core, by resident place. -/
def State.ctxRank (s : State) (w : Wave) : Nat :=
  (s.waves.filter fun x => x.part = w.part && x.core = w.core && x.status = .running && x.place < w.place).length

/-- A wave back on its core, in an issue context while there is one (07 R167). -/
def State.unsave (s : State) (w : Wave) : Wave :=
  let k := s.ctxRank w
  { w.rewait (Wait.resumed s.now) with
    saved := false, ctx := if w.status = .running && k < Config.contextsPerCore then some k else none, ctxAt := 0 }

/-- A withdrawn operation presented again (R339): a store counts in OUTST, and waits at its channel; a barrier word is its unit's
next word again, after the stores. -/
def State.present (s : State) (seq wid : Nat) (x : Withdrawn) : State :=
  match x.door with
  | some (die, ch) =>
    (s.modWave seq wid fun w => w.modOp x.op fun o => some { o with left := false }).ringDoor
      (die, ch, { seq := seq, wid := wid, op := x.op, desc := x.data, va := x.va, malformed := x.bad, pages := [],
                  refusals := [], presented := none })
  | none => s.modWave seq wid fun w => w.goto x.arm x.pc

/-- A restored wave takes up what it had: its withdrawn operations, its waits, the answers to its faults. An NQWAIT retries (12
R297). -/
def State.takeUp (s : State) (w : Wave) : State :=
  let s1 := w.withdrawn.foldl (fun (t : State) x => t.present w.seq w.wid x) s
  let nq (u : UnitSt) : UnitSt := match u.wait with
    | .nq .. => u.wake
    | _ => u
  let s2 := s1.modWave w.seq w.wid fun y => { y with withdrawn := [], unitT := nq y.unitT, unitE := nq y.unitE }
  let s3 := s2.resumeWait (s2.again w) .t
  s3.resumeWait (s3.again w) .e

/-- A partition is put on its slices. -/
def State.restorePart (s : State) (n : Nat) : State :=
  match s.part? n, s.setOf n with
  | some p, some g =>
    let s1 := ((s.modSet g.num fun y => { y with holder := some n, since := s.now }).putQsp p.savedQsp).putTmpl p.savedTmpl
    let s2 := s1.switchRowsIn n
    let back (w : Wave) : Bool := w.part = n && w.saved
    let ws := s2.waves.filter back
    let s3 : State := { s2 with waves := mapWhere s2.waves back s2.unsave }
    let s4 := s3.putEntries p.savedEng
    let s5 := s4.modPart n fun x => { x with savedTmpl := [], savedEng := [], savedQsp := [], resave := false }
    (ws.filter fun w => w.status = .running || w.withdrawn ≠ []).foldl (fun (t : State) w => t.takeUp (t.again w)) s5
  | _, _ => s

/-! ## The steps -/

/-- A partition that has never been saved takes the save area named for it, in which its waves stand as unstarted records (20
R383). -/
def State.nameArea (s : State) (n area : Nat) : State :=
  match (s.part? n).bind Part.saveArea with
  | some _ => s
  | none => (s.modPart n fun p => { p with saveArea := some area }).writeSaveArea n

/-- A switch ends: its WSWITCH is answered. -/
def State.endSwitch (s : State) (x : Switch) : State :=
  let s1 : State := { s with switches := s.switches.filter fun y => y.set ≠ x.set }
  match x.cmd with
  | some c => s1.endCmd c .ok []
  | none => s1.takeAll

/-- SWITCH_SAVE: the drains have ended, the L1s are written back and invalidated; then the outgoing partition is saved and the
incoming one restored. -/
def execSwitchSave (s : State) : Out :=
  match s.call with
  | .switchSave n =>
    match s.switches.find? fun x => x.set = n, s.set? n with
    | some x, some g =>
      if !s.drained x.out then .next s
      else
        let r := gotAll s (s.setQuads g) fun t q => t.acquireQuad q
        if !r.2 then .next r.1
        else
          let s1 := match r.1.part? x.out with
            | some p => if g.holder = some x.out then r.1.savePart g p x.saveOut else r.1
            | none => r.1
          let s2 := match x.inn with
            | some m => (s1.nameArea m x.saveIn).restorePart m
            | none => s1
          .next (s2.endSwitch x)
    | _, _ => .next s
  | _ => .next s

/-- Memory of the package that no partition need hold: tier 0 or tier 1. -/
def State.areaOk (s : State) (pa : Nat) : Bool := (keyOfPa s.pod pa).isSome

/-- What keeps a WSWITCH from starting. -/
def State.switchRefusal (s : State) (out : Part) (inn slices saveOut saveIn : Nat) : Option CmdStatus :=
  let g := s.setOf out.num
  let into := s.part? inn
  if inn ≠ 0xFF && into.isNone then some .notfound
  else if (g.map SliceSet.holder) ≠ some (some out.num) || slices ≠ out.sliceMask then some .state
  else if inn ≠ 0xFF && (inn = out.num || !((g.map fun y => y.members.contains inn).getD false)) then some .state
  else if !s.areaOk saveOut || (inn ≠ 0xFF && ((into.bind Part.saveArea).map fun a => decide (a ≠ saveIn)).getD false) then some .badarg
  else none

/-- WSWITCH (R338, 15 R358): starts the switch; it is answered when the switch has ended. -/
def execWswitch (s : State) : Out :=
  match s.call with
  | .wswitch c out inn slices saveOut saveIn =>
    if !s.skolisUp then .next s
    else if !s.mayAdmin c.mbx then finishCmd s c (.error .denied)
    else if s.dev.stage < 4 then finishCmd s c (.error .state)
    else if s.midSwitch out || s.midSwitch inn then .next s.holdCmd
    else
      match s.part? out with
      | none => finishCmd s c (.error .notfound)
      | some p =>
        match s.switchRefusal p inn slices saveOut saveIn, s.setOf out with
        | some st, _ => finishCmd s c (.error st)
        | none, none => finishCmd s c (.error .state)
        | none, some g =>
          .next (s.startSwitch
            { set := g.num, out := out, inn := if inn = 0xFF then none else some inn, saveOut := saveOut, saveIn := saveIn,
              cmd := some c })
  | _ => .next s

/-! ## Rotation (15 R344) -/

/-- A wait in which a wave sleeps, and that nothing has ended yet. -/
def State.asleep (s : State) : Wait → Bool
  | .sleepUntil t => !s.passed t
  | .line _ _ woken => !woken
  | .nq _ _ _ _ woken => !woken
  | .gate _ _ _ _ woken _ _ => !woken
  | _ => false

/-- A wave that is halted or sleeps, so that its partition may be skipped. -/
def State.idleWave (s : State) (w : Wave) : Bool :=
  w.status ≠ .running
    || ((w.unitT.mask = 0 || w.unitT.atJoin || s.asleep w.unitT.wait)
        && (!w.divergent || w.unitE.mask = 0 || w.unitE.atJoin || s.asleep w.unitE.wait))

/-- A partition that the rotation does not skip. -/
def State.wantsTurn (s : State) (p : Nat) : Bool := s.waves.any fun w => w.part = p && !s.idleWave w

/-- The members of a set in rotation order after its holder. -/
def SliceSet.after (g : SliceSet) : List Nat :=
  match g.holder with
  | none => g.members
  | some h => (g.members.drop (g.members.idxOf h + 1)) ++ g.members.take (g.members.idxOf h)

/-- The next member of a set's rotation. -/
def State.nextMember (s : State) (g : SliceSet) : Option Nat := g.after.find? s.wantsTurn

/-- The quantum of a set's holder has ended; a set that none holds waits for none. -/
def State.quantumOver (s : State) (g : SliceSet) : Bool :=
  match g.holder with
  | none => true
  | some h => ((s.part? h).map fun p => decide (g.since + p.quantum ≤ s.now)).getD true

/-- The save area of a partition in a rotation: the last that was named for it (log 28). -/
def State.areaOf (s : State) (p : Nat) : Nat := ((s.part? p).bind Part.saveArea).getD (Config.saveArea p)

/-- QUANTUM_EXPIRY: a world switch to the next partition of the set; with no other that wants the slices, a new quantum. -/
def execQuantumExpiry (s : State) : Out :=
  match s.call with
  | .quantumExpiry n =>
    match s.set? n with
    | none => .next s
    | some g =>
      if !s.skolisUp || !s.quantumOver g || s.switches.any fun x => x.set = n then .next s
      else
        match s.nextMember g, g.holder with
        | none, _ => .next (s.modSet n fun y => { y with since := s.now })
        | some m, some h =>
          .next (s.startSwitch
            { set := n, out := h, inn := some m, saveOut := s.areaOf h, saveIn := s.areaOf m, cmd := none })
        | some m, none => .next (s.restorePart m)
  | _ => .next s

end Sys2Proof.Machine
end

