-- ==== Sys2Proof/Machine/Walks.lean ====
section
/-!
DEFINITION. Page walks (01_address_spaces R23, R28 to R30), invalidations (R26, R27), the deferred write of RLYCTXSIZE (03
R88), and the movement of L2 ways (15_partitions_host_startup R348).
-/
namespace Sys2Proof.Machine

/-! ## Walks (01 R30) -/

/-- The first element of a list that passes a test, changed. -/
def modFirst {α : Type} (p : α → Bool) (f : α → α) : List α → List α
  | [] => []
  | x :: xs => if p x then f x :: xs else x :: modFirst p f xs

/-- PAGE_WALK: a walker starts its oldest queued walk, while fewer than 64 (the Runner's: 16) are in flight; it starts at the root table that
XLTBASE names now (R27). -/
def execPageWalk (s : State) : Out :=
  match s.call with
  | .pageWalk die =>
    if (walkerSize die).1 ≤ (s.walks.filter fun k => k.die = die && k.started).length then .next s
    else
      let start (k : Walk) : Walk :=
        { k with started := true, root := ((s.part? k.part).map Part.xltBase).getD 0 }
      .next { s with walks := modFirst (fun k => k.die = die && !k.started) start s.walks }
  | _ => .next s

/-- A unit's wait for a page is over: when it waited for no other page its word issues again, and meets the refusal if there
is one. -/
def UnitSt.pageDone (u : UnitSt) (page : Nat) (r : Option WalkRefusal) : UnitSt :=
  match u.wait with
  | .walk ps =>
    if ps.contains page then
      let left := ps.filter fun x => x ≠ page
      { u with wait := if left = [] then .none else .walk left, refusals := u.refusals ++ r.toList }
    else u
  | _ => u

/-- The doorbell at a channel's head takes what a walk of its wave's ASID answers. -/
def Doorbell.walked (b : Doorbell) (e : Option TlbEntry) (r : Option WalkRefusal) : Doorbell :=
  { b with pages := b.pages ++ e.toList, refusals := b.refusals ++ r.toList }

/-- A client of a walk released, with the translation or the refusal: the unit's word issues again; the channel goes on with its
head; the Runner takes up the request in its stream's hand. -/
def State.releaseClient (s : State) (k : Walk) (e : Option TlbEntry) (r : Option WalkRefusal) : WalkClient → State
  | .wave seq wid arm _ => s.modWave seq wid fun w => w.setUnit arm ((w.unit arm).pageDone k.page r)
  | .chan die ch =>
    let c := s.chan die ch
    match c.doors with
    | [] => s
    | b :: rest =>
      match s.wave? b.seq b.wid with
      | some w => if w.part = k.part && s.waveAsid w = k.asid then s.setChan { c with doors := b.walked e r :: rest } else s
      | none => s
  | .runner id n => s.takeInHand id n r

/-- The clients of a walk released together. -/
def State.releaseClients (s : State) (k : Walk) (e : Option TlbEntry) (r : Option WalkRefusal) : State :=
  k.clients.foldl (fun (t : State) c => t.releaseClient k e r c) s

/-- The structures that a walk for a client fills (01 R30). -/
def WalkClient.places : WalkClient → List TlbPlace
  | .wave _ _ _ core => [.core core, .quad (coreQuad core)]
  | .chan die ch => [.ladle die ch]
  | .runner _ _ => [.runner]

/-- A translation put into the structures of a walk's clients. -/
def State.fillClients (s : State) (k : Walk) (e : TlbEntry) : State :=
  (dedup (k.clients.flatMap WalkClient.places)).foldl (fun (t : State) pl => t.tlbFill { e with place := pl }) s

/-- The die whose walk cache serves a walk; the Runner's walker has none (01 R29). -/
def Walk.cacheDie (k : Walk) : Option Nat := if k.die = 8 then none else some k.die

/-- A walk waits for a sector that it reads: a Ladle channel owns the line, or the stack's link retrains (02 R68, 04 R123). -/
def State.walkHeld (s : State) (k : Walk) : Bool :=
  match s.part? k.part with
  | none => false
  | some p =>
    (s.walkSectors k.die p.num k.asid k.root k.page (s.walk k.cacheDie p k.asid k.root k.page).2).any s.lineHeld

/-- A walk ends: its entries are read now, its clients' TLBs are filled, or it is refused. -/
def State.endWalk (s : State) (k : Walk) : State :=
  match s.part? k.part with
  | none => s.releaseClients k none (some { page := k.page, sub := 7, level := 15, ras := false })
  | some p =>
    let r := s.walk k.cacheDie p k.asid k.root k.page
    let s0 := s.walkReads k.die p.num k.asid k.root k.page r.2
    let s1 := if k.cacheDie.isSome then s0.walkCacheFill k.die p.num k.asid r.2 else s0
    match r.1 with
    | .refused sub level => s1.releaseClients k none (some { page := k.page, sub := sub, level := level, ras := false })
    | .ras level => s1.releaseClients k none (some { page := k.page, sub := 7, level := level, ras := true })
    | .leaf pages frame w x na tier =>
      let e : TlbEntry :=
        { place := .runner, part := p.num, asid := k.asid, page := k.page / pages * pages, pages := pages, frame := frame,
          w := w, x := x, na := na, tier := tier }
      (s1.fillClients k e).releaseClients k (some e) none

/-- WALK_COMPLETE: the k-th walk in flight on a die ends, unless a line that it reads is held. -/
def execWalkComplete (s : State) : Out :=
  match s.call with
  | .walkComplete die k =>
    match (s.walks.filter fun x => x.die = die && x.started)[k]? with
    | none => .next s
    | some x => if s.walkHeld x then .next s else .next ({ s with walks := s.walks.erase x }.endWalk x)
  | _ => .next s

/-! ## Invalidation (01 R27) -/

/-- Pages of 4 KiB in a page of each SIZE. -/
def sizePages (size : Nat) : Nat :=
  match size with
  | 0 => 1
  | 1 => 16
  | 2 => 512
  | _ => 262144

/-- The entry translates a byte of the aligned page of `n` 4 KiB pages that contains `page`. -/
def TlbEntry.meetsPage (e : TlbEntry) (page n : Nat) : Bool := rangesMeet e.page e.pages (page / n * n) n

/-- The channel without the translations that its doorbells have gathered and a test picks. -/
def Chan.dropPages (c : Chan) (t : TlbEntry → Bool) : Chan :=
  { c with doors := c.doors.map fun b => { b with pages := b.pages.filter fun e => !t e } }

/-- The state without the TLB entries and walk-cache entries that two tests pick. -/
def State.dropEntries (s : State) (t : TlbEntry → Bool) (c : WalkCacheEntry → Bool) : State :=
  { s with tlb := s.tlb.filter fun e => !t e, walkCache := s.walkCache.filter fun e => !c e,
           chans := s.chans.map fun x => x.dropPages t }

/-- XLTINVC_PAGE: KIND 0. The walk caches give up the ASID's table entries. -/
def execXltinvcPage (s : State) : Out :=
  match s.call with
  | .xltinvcPage part asid size =>
    match s.part? part with
    | none => .next s
    | some p =>
      .next (s.dropEntries
        (fun e => e.part = part && e.asid = asid && e.meetsPage (p.xltInvaVa / 4096) (sizePages size))
        (fun e => e.part = part && e.asid = asid))
  | _ => .next s

/-- XLTINVC_ASID: KIND 1. -/
def execXltinvcAsid (s : State) : Out :=
  match s.call with
  | .xltinvcAsid part asid =>
    .next (s.dropEntries (fun e => e.part = part && e.asid = asid) (fun e => e.part = part && e.asid = asid))
  | _ => .next s

/-- XLTINVC_PARTITION: KIND 2. -/
def execXltinvcPartition (s : State) : Out :=
  match s.call with
  | .xltinvcPartition part => .next (s.dropEntries (fun e => e.part = part) (fun e => e.part = part))
  | _ => .next s

/-- A command of XLTINVC that a partition has started stands among the messages. -/
def invalidates (part : Nat) : Call → Bool
  | .xltinvcPage p _ _ => p = part
  | .xltinvcAsid p _ => p = part
  | .xltinvcPartition p => p = part
  | _ => false

/-- The partition's operations that translated an address have been performed at PKG scope, but for what its L1s hold. -/
def State.partQuiet (s : State) (part : Nat) : Bool :=
  (s.waves.all fun w => w.part ≠ part || w.pend.all fun o =>
      o.kind = .rwri || o.kind = .rrd || o.kind = .ratom || o.performedAt .pkg)
    && (s.chans.all fun c => c.copies.all fun x => x.part ≠ part)
    && (s.atomQ.all fun r => r.packet.system || r.packet.keyPart ≠ part)

/-- The quads whose L1 or write queue holds bytes of a partition. -/
def State.quadsOf (s : State) (part : Nat) : List Nat :=
  dedup ((s.l1.filter fun l => l.part = part).map L1Line.quad ++ (s.wq.filter fun e => e.part = part).map WqEntry.quad)

/-- XLTINVC_COMPLETE: no structure holds a covered entry, and every access translated through a removed one has been
performed at PKG scope, the L1s written back: GO reads 0. -/
def execXltinvcComplete (s : State) : Out :=
  match s.call with
  | .xltinvcComplete part =>
    match s.part? part with
    | none => .next s
    | some p =>
      if !p.xltGo || s.agenda.any (invalidates part) || !s.partQuiet part then .next s
      else
        let g := gotAll s (s.quadsOf part) fun (t : State) q => t.releaseQuad q
        if !g.2 then .next g.1 else .next (g.1.modPart part fun x => { x with xltGo := false })
  | _ => .next s

/-- RLYCTXSIZE_TAKES_EFFECT (03 R88). -/
def execRlyctxsizeTakesEffect (s : State) : Out :=
  match s.call with
  | .rlyctxsizeTakesEffect part =>
    match s.part? part with
    | none => .next s
    | some p =>
      match p.ctxSizeNext with
      | none => .next s
      | some v =>
        if s.runnerBusy part then .next s else .next (s.setPart { p with ctxSize := v, ctxSizeNext := none })
  | _ => .next s

/-! ## L2 ways (15 R348) -/

/-- The partitions that hold a slice on a die, ascending. -/
def State.partsOn (s : State) (die : Nat) : List Part :=
  (List.range 16).filterMap fun p => (s.part? p).filter fun x => (slicesOf x.sliceMask).any fun sl => sliceDie sl = die

/-- The allotment of a partition on a die: floor 0 and ceiling 16 until PARTSET sets them. -/
def Part.wayLimit (p : Part) (die : Nat) : WayLimit :=
  (p.ways.find? fun w => w.die = die).getD { die := die, floor := 0, ceil := 16 }

/-- The best of a list by a key, the first among equals. -/
def leastBy {α : Type} (key : α → Int) (l : List α) : Option α :=
  l.foldl (fun (b : Option α) x =>
    match b with
    | none => some x
    | some y => if key x < key y then some x else some y) none

/-- The move that a slice of a die makes, if any: the way, and the partition that gains it. -/
def State.wayMove (s : State) (die slice n : Nat) : Option (Nat × Nat) :=
  let owners := s.wayOwners die slice
  let count (p : Nat) : Nat := (owners.filter fun o => o = p).length
  let est (p k : Nat) : Int := Config.missEstimate n p k
  let ps := s.partsOn die
  let losers := ps.filter fun p => 0 < count p.num && (p.wayLimit die).floor < count p.num
  let gainers := ps.filter fun p => count p.num < (p.wayLimit die).ceil
  let rise (p : Part) : Int := est p.num (count p.num - 1) - est p.num (count p.num)
  let fall (p : Part) : Int := est p.num (count p.num) - est p.num (count p.num + 1)
  match leastBy rise losers, leastBy (fun p => -fall p) gainers with
  | some l, some g =>
    if l.num ≠ g.num && rise l < fall g then
      let ways := (List.range 16).filter fun i => owners.getD i 16 = l.num
      (ways[Config.victim ways.length n % ways.length]?).map fun i => (i, g.num)
    else none
  | _, _ => none

/-- The period of 2^20 cycles in which a move of a slice falls (15 R348). -/
def State.wayPeriod (s : State) : Nat := s.now / 2 ^ 20

/-- The slice has made its move of this period. -/
def State.wayMoved (s : State) (die slice : Nat) : Bool :=
  s.ways.any fun r => r.die = die && r.slice = some slice && r.moved = some s.wayPeriod

/-- WAY_MOVE: one in each period of a slice, by the shadow tags' estimates (log 16); which way of the loser's moves is free (log
14). -/
def execWayMove (s : State) : Out :=
  match s.call with
  | .wayMove die slice =>
    if s.wayMoved die slice then .next s else
    let (n, s1) := s.fresh
    match s1.wayMove die slice n with
    | none => .next s1
    | some (i, g) =>
      let row : WayRow := { die := die, slice := some slice, owners := (s1.wayOwners die slice).set i g,
                              moved := some s1.wayPeriod }
      .next { s1 with ways := (s1.ways.filter fun r => !(r.die = die && r.slice = some slice)) ++ [row] }
  | _ => .next s

end Sys2Proof.Machine
end

