-- ==== Sys2Proof/Machine/Partition.lean ====
section
/-!
DEFINITION. Skolis's commands on partitions: PARTCREATE, PARTDESTROY, PARTSET, LAUNCH, REPLAY and FATAL, ERRLOG, HQSET, and the
region grants (15_partitions_host_startup R344, R345, R348, R355, R358; 07_execution R168 to R170, R187; 01 R22, R31, R32,
R34, R38; 02 R63, R65, R70; 14 R337).
-/
namespace Sys2Proof.Machine

/-! ## L2 ways (R348) -/

/-- Ways of a list that an owner holds. -/
def waysHeld (owners : List Nat) (p : Nat) : Nat := (owners.filter fun o => o = p).length

/-- A way that its owner may not keep: the owner is gone from the die, or has more than its ceiling. -/
def surplusWay (owners : List Nat) (ps : List Part) (die : Nat) : Option Nat :=
  (List.range 16).find? fun i =>
    let o := owners.getD i 16
    o ≠ 16 && (match ps.find? fun p => p.num = o with
      | none => true
      | some p => decide ((p.wayLimit die).ceil < waysHeld owners o))

/-- A way for a partition below its floor: an unowned one, else one of a partition above its own. -/
def spareWay (owners : List Nat) (ps : List Part) (die : Nat) : Option Nat :=
  match (List.range 16).find? fun i => owners.getD i 16 = 16 with
  | some i => some i
  | none => (List.range 16).find? fun i =>
      match ps.find? fun p => p.num = owners.getD i 16 with
      | some p => decide ((p.wayLimit die).floor < waysHeld owners p.num)
      | none => false

/-- One change towards an allotment within floors and ceilings, in which no way that can be owned is unowned (log 7). -/
def allotStep (ps : List Part) (die : Nat) (owners : List Nat) : List Nat :=
  match surplusWay owners ps die with
  | some i => owners.set i 16
  | none =>
    match ps.find? fun p => waysHeld owners p.num < (p.wayLimit die).floor with
    | some p =>
      match spareWay owners ps die with
      | some i => owners.set i p.num
      | none => owners
    | none =>
      match (List.range 16).find? (fun i => owners.getD i 16 = 16), ps.find? fun p => waysHeld owners p.num < (p.wayLimit die).ceil with
      | some i, some p => owners.set i p.num
      | _, _ => owners

/-- The allotment reached. -/
def allot (ps : List Part) (die : Nat) (owners : List Nat) : List Nat :=
  (List.range 64).foldl (fun l _ => allotStep ps die l) owners

/-- The ways of every die allotted anew. -/
def State.allotWays (s : State) : State :=
  let one (die : Nat) : List WayRow :=
    match s.partsOn die, s.ways.filter fun r => r.die = die with
    | [], _ => []
    | ps, [] => [{ die := die, slice := none, owners := allot ps die (List.replicate 16 16), moved := none }]
    | ps, rs => rs.map fun r => { r with owners := allot ps die r.owners }
  { s with ways := (List.range Config.dies).flatMap one }

/-! ## PARTCREATE (R344, R345) -/

/-- Local ASIDs granted in all. -/
def State.asidsGranted (s : State) : Nat := (s.parts.map Part.asidCount).sum

/-- The lowest dense number that is free. -/
def State.freePart (s : State) : Option Nat := (List.range 16).find? fun n => (s.part? n).isNone

/-- The operands of PARTCREATE are in range. -/
def State.createOk (s : State) (slices ld asids quantum : Nat) : Bool :=
  slices ≠ 0 && (slicesOf slices).all (fun sl => s.sliceQuads sl ≠ []) && (ld < 16 || ld = 0xFF) && asids ≤ 16384
    && 16 ≤ quantum && quantum ≤ 32

/-- A mask meets a set without being it. -/
def State.partlyOverlaps (s : State) (slices : Nat) : Bool := s.sets.any fun g => g.slices &&& slices ≠ 0 && g.slices ≠ slices

/-- The lowest set number that is free. -/
def State.freeSet (s : State) : Nat := ((List.range 17).find? fun n => (s.set? n).isNone).getD 16

/-- A partition put into the slice set of its mask: at the end of an existing rotation, or into a new set that it holds at
once. -/
def State.joinSet (s : State) (n slices : Nat) : State :=
  match s.sets.find? fun g => g.slices = slices with
  | some g => s.modSet g.num fun y => { y with members := y.members ++ [n] }
  | none =>
    { s with sets := s.sets ++ [{ num := s.freeSet, slices := slices, members := [n], holder := some n, since := s.now }] }

/-- The window limits as they were last read (03 R389). -/
def State.windowLimits (s : State) (n : Nat) : List Nat :=
  (List.range 8).map fun a => ((s.pod.atts[a]?).map fun (t : Att) => t.readCap.getD n 0).getD 0

/-- The partition made. -/
def State.createPart (s : State) (n slices ld asids quantum : Nat) : State :=
  let p := Part.fresh n slices (if ld = 0xFF then none else some ld) asids (2 ^ quantum) (s.windowLimits n)
  let (k, s1) := s.fresh
  let p1 : Part :=
    match s.pod.groups[n]? with
    | some g => { p with group := g, peerGroups := onesOf (Config.groupPeers k g) 64 }
    | none => p
  (({ s1 with parts := s1.parts ++ [p1] } : State).joinSet n slices).allotWays

/-- PARTCREATE. -/
def execPartcreate (s : State) : Out :=
  match s.call with
  | .partcreate c slices ld asids quantum =>
    devCmd s c true 4 fun t =>
      need (t.createOk slices ld asids quantum && !t.partlyOverlaps slices) .badarg
        (need (ld = 0xFF || !(t.parts.any fun p => p.ld = some ld)) .state
          (match t.freePart with
           | none => .error .nores
           | some n =>
             need (t.asidsGranted + asids ≤ 16384 && t.sets.all fun g => g.slices ≠ slices || g.members.length < 16) .nores
               (.ok (t.createPart n slices ld asids quantum, natToBytes 1 n))))
  | _ => .next s

/-! ## PARTDESTROY -/

/-- The stores withdrawn with a wave are never presented again: they have nothing more to do. -/
def Wave.dropWithdrawn (w : Wave) : Wave :=
  { w with
    withdrawn := [],
    pend := mapWhere w.pend (fun o => w.withdrawn.any fun x => x.door.isSome && x.op = o.id) fun o => { o with att := 0, answered := true } }

/-- Every wave of a partition killed; its doorbells and its waiting entries of the engines go. -/
def State.killWaves (s : State) (n : Nat) : State :=
  let s1 := (s.wavesOn n).foldl State.withdraw s
  let ofPart (seq : Nat) : Bool := (s1.launch? seq).map Launch.part = some n
  { s1 with
    waves := mapWhere s1.waves (fun w => w.part = n) fun w =>
      if w.status = .running then w.dropWithdrawn.stopped else w.dropWithdrawn,
    engines := s1.engines.map fun e =>
      { e with entries := e.entries.filter fun x => !ofPart x.seq || (e.running && x.granted) } }

/-- The operations of a partition's waves have completed. -/
def State.partIdle (s : State) (n : Nat) : Bool :=
  (s.waves.all fun w => w.part ≠ n || (w.pend = [] && s.engineIdle w)) && (s.chans.all fun c => c.copies.all fun x => x.part ≠ n)
    && s.atomQ.all fun r => r.packet.system || r.packet.keyPart ≠ n

/-- Everything of a partition gone: waves, launches, holds, grants, translations, barriers, relay contexts. -/
def State.erasePart (s : State) (n : Nat) : State :=
  { s with
    parts := s.parts.filter fun p => p.num ≠ n,
    sets := (s.sets.map fun g =>
      { g with members := g.members.filter fun m => m ≠ n, holder := if g.holder = some n then none else g.holder }).filter
        fun g => g.members ≠ [],
    launches := s.launches.filter fun l => l.part ≠ n,
    waves := s.waves.filter fun w => w.part ≠ n,
    charges := s.charges.filter fun c => c.part ≠ n,
    tlb := s.tlb.filter fun e => e.part ≠ n,
    walkCache := s.walkCache.filter fun e => e.part ≠ n,
    walks := s.walks.filter fun k => k.part ≠ n,
    rows := (s.rows.filter fun r => !(r.recorded && r.part = n)).map fun r =>
      if r.part = n && !r.recorded then { r with held := false, dropped := false, part := 16 } else r,
    bars := s.bars.filter fun b => b.key.part ≠ n,
    runner := { s.runner with ctxs := s.runner.ctxs.filter fun c => c.id.system || c.id.part ≠ n },
    pod := { s.pod with privilege := if s.pod.privilege = some n then none else s.pod.privilege },
    agenda := s.agenda.filter fun c => !invalidates n c }

/-- The revocations of a partition that have not been answered. -/
def Part.revokers (p : Part) : List Cmd := p.grants.filterMap Grant.revoker

/-- The partition destroyed; the next of its set's rotation is put on the slices it held. -/
def State.destroyPart (s : State) (p : Part) : State :=
  let g := s.setOf p.num
  let held := s.holdsSet p.num
  let s1 := s.erasePart p.num
  let s2 := (p.revokers.foldl (fun (t : State) c => t.endCmd c .ok []) s1).allotWays
  match g with
  | some x =>
    match held, x.after.filter fun m => m ≠ p.num with
    | true, m :: _ => s2.restorePart m
    | _, _ => s2
  | none => s2

/-- PARTDESTROY: kills every wave; their operations complete (07 R188), the quads give up what they hold, then the partition
goes. -/
def execPartdestroy (s : State) : Out :=
  match s.call with
  | .partdestroy c =>
    match s.cmdPart true c with
    | none => devCmd s c true 4 fun _ => .error .notfound
    | some p =>
      if !s.skolisUp || !s.mayAdmin c.mbx || s.dev.stage < 4 then devCmd s c true 4 fun _ => .error .notfound
      else if s.midSwitch p.num then .next s.holdCmd
      else
        let s1 := s.killWaves p.num
        if !s1.partIdle p.num then .next s1.holdCmd
        else
          let r := gotAll s1 (s1.quadsOf p.num) fun (t : State) q => t.acquireQuad q
          if !r.2 then .next r.1.holdCmd else .next ((r.1.destroyPart p).endCmd c .ok [])
  | _ => .next s

/-! ## PARTSET (R358) -/

/-- A partition's record replaced. -/
def putPart (s : State) (p : Part) : Done := .ok (s.setPart p, [])

/-- PARTSET_HOLD_POLICY (02 R65): 0 KEEP, 1 DROP. -/
def execPartsetHoldPolicy (s : State) : Out :=
  match s.call with
  | .partsetHoldPolicy c val => partCmd s c true fun t p => need (val < 2) .badarg (putPart t { p with holdDrop := decide (val = 1) })
  | _ => .next s

/-- PARTSET_WATCHDOG (07 R187). -/
def execPartsetWatchdog (s : State) : Out :=
  match s.call with
  | .partsetWatchdog c val =>
    partCmd s c true fun t p => need (val = 0 || (2 ^ 16 ≤ val && val ≤ 2 ^ 40)) .badarg (putPart t { p with watchdog := val })
  | _ => .next s

/-- PARTSET_QUANTUM (R344). -/
def execPartsetQuantum (s : State) : Out :=
  match s.call with
  | .partsetQuantum c val =>
    partCmd s c true fun t p => need (16 ≤ val && val ≤ 32) .badarg (putPart t { p with quantum := 2 ^ val })
  | _ => .next s

/-- The floors of the other partitions on a die. -/
def State.otherFloors (s : State) (p die : Nat) : Nat :=
  ((s.parts.filter fun q => q.num ≠ p).map fun q => (q.wayLimit die).floor).sum

/-- PARTSET_WAYS (R348). -/
def execPartsetWays (s : State) : Out :=
  match s.call with
  | .partsetWays c die floor ceil =>
    partCmd s c true fun t p =>
      need (die < 8 && floor ≤ ceil && ceil ≤ 16 && t.otherFloors p.num die + floor ≤ 16) .badarg
        (.ok ((t.setPart { p with
          ways := (p.ways.filter fun w => w.die ≠ die) ++ [{ die := die, floor := floor, ceil := ceil }] }).allotWays, []))
  | _ => .next s

/-- PARTSET_QUOTA (02 R63). -/
def execPartsetQuota (s : State) : Out :=
  match s.call with
  | .partsetQuota c stack quota =>
    partCmd s c true fun t p =>
      need (stack < 8 && quota ≤ 256) .badarg (putPart t { p with quotas := p.quotas.set stack quota })
  | _ => .next s

/-- A range put in its place by index. -/
def insertRange (x : Nat × Nat × Nat) : List (Nat × Nat × Nat) → List (Nat × Nat × Nat)
  | [] => [x]
  | y :: ys => if x.1 < y.1 then x :: y :: ys else if x.1 = y.1 then x :: ys else y :: insertRange x ys

/-- The partition's ranges replaced: no TLB entry holds a frame outside them (01 R22). -/
def State.setRanges (s : State) (p : Part) (rs : List (Nat × Nat × Nat)) : State :=
  let q := { p with ranges := rs }
  (s.setPart q).dropEntries (fun e => e.part = p.num && !q.granted e.frame (e.pages * 4096)) fun _ => false

/-- PARTSET_GRANT (01 R22): a length of 0 removes. -/
def execPartsetGrant (s : State) : Out :=
  match s.call with
  | .partsetGrant c idx base len =>
    partCmd s c true fun t p =>
      need (idx < 32) .badarg
        (.ok ((t.setRanges p
          (if len = 0 then p.ranges.filter (fun r => r.1 ≠ idx) else insertRange (idx, base, len) p.ranges)).touched p.num, []))
  | _ => .next s

/-! ## LAUNCH (07 R168 to R170) -/

/-- A launch record's fields. -/
structure LaunchRec where
  code : Nat
  slices : Nat
  nwaves : Nat
  asid : Nat
  vstack : Nat
  acc : Nat
  qsp : Nat
  prio : Nat
  dtab : Nat
  args : List Word
  reserved : Nat
deriving DecidableEq, Repr

/-- A launch record from its 192 bytes as a number (R168). -/
def LaunchRec.ofNat (x : Nat) : LaunchRec :=
  { code := bitsAt x 448 64, slices := bitsAt x 416 32, nwaves := bitsAt x 400 16, asid := bitsAt x 386 14,
    vstack := bitsAt x 373 13, acc := bitsAt x 369 4, qsp := bitsAt x 363 6, prio := bitsAt x 360 3, dtab := bitsAt x 256 64,
    args := (List.range 32).map fun i => BitVec.ofNat 32 (bitsAt x (32 * i + 512) 32),
    reserved := bitsAt x 320 40 + bitsAt x 0 256 }

/-- Its fields are in range for a partition. -/
def LaunchRec.ok (r : LaunchRec) (p : Part) : Bool :=
  r.reserved = 0 && 1 ≤ r.nwaves && r.nwaves ≤ 24576 && 64 ≤ r.vstack && r.vstack ≤ 1536 && r.vstack % 8 = 0 && r.acc ≤ 8
    && r.qsp ≤ 32 && r.code % 16 = 0 && r.dtab % 128 = 0 && r.asid < p.asidCount && 0 < r.slices
    && r.slices < 2 ^ (slicesOf p.sliceMask).length

/-- The physical quads of the launch's slices, in dense order. -/
def State.launchQuads (s : State) (p : Part) (dense : Nat) : List Nat :=
  (onesOf dense 32).flatMap fun i =>
    match (slicesOf p.sliceMask)[i]? with
    | some sl => s.sliceQuads sl
    | none => []

/-- The cores on which a launch's waves are placed, in order of WID (R169). -/
def placedCores (cores : List Nat) (n : Nat) : List Nat := (List.range n).map fun i => cores.getD (i % cores.length) 0

/-- The waves of a partition on a core or a quad: its own occupancy alone (15 R344). -/
def State.partWaves (s : State) (p : Nat) (here : Nat → Bool) : List Wave := s.waves.filter fun w => w.part = p && here w.core

/-- The lowest resident place of a core that is free among a partition's waves. -/
def State.freePlace (s : State) (p core : Nat) : Option Nat :=
  (List.range Config.placesPerCore).find? fun k => !((s.partWaves p fun c => c = core).any fun w => w.place = k)

/-- The accumulator slots of a quad that are free for a partition, ascending. -/
def State.freeAccs (s : State) (p quad : Nat) : List Nat :=
  (List.range Config.accPerQuad).filter fun k =>
    !((s.partWaves p fun c => coreQuad c = quad).any fun w => w.accs.any fun a => a.slot = k)

/-- The lowest run of `n` banks of a quad that no window of the partition meets. -/
def State.freeBanks (s : State) (p quad n : Nat) : Option Nat :=
  let used (b : Nat) : Bool := s.launches.any fun l => l.part = p && l.windows.any fun w => w.1 = quad && w.2 ≤ b && b < w.2 + l.qsp
  (List.range (Config.banksPerQuad + 1 - n)).find? fun b => (List.range n).all fun i => !used (b + i)

/-- Bytes of a wave's spill area (10 R234): none while EN or SIZE is 0. -/
def Part.spillBytes (p : Part) : Nat := if p.spillSize.testBit 31 then p.spillSize % 256 * 65536 else 0

/-- A wave with the spill area of its resident place, as SPILLBASE and SPILLSIZE have it when it is placed (10 R234). -/
def State.withSpillArea (s : State) (w : Wave) : Wave :=
  match s.part? w.part with
  | none => w
  | some p =>
    { w with spillBase := p.spillBase + (s.denseCore p w.core * 32 + w.place) * p.spillBytes, spillSize := p.spillBytes }

/-- A wave of the launch placed on a core, when there is room for it (R169). -/
def State.placeWave (s : State) (l : Launch) (wid core : Nat) : Option State :=
  let regs := ((s.partWaves l.part fun c => c = core).map fun w => w.vregs.length).sum
  let accs := s.freeAccs l.part (coreQuad core)
  match s.freePlace l.part core with
  | none => none
  | some k =>
    if Config.vregsPerCore < regs + l.vstack || accs.length < l.acc then none
    else
      let w : Wave :=
        { s.withSpillArea (Wave.fresh l.seq wid l.part core k l.vstack) with
          saved := !s.holdsSet l.part,
          readyAt := s.now + 1,
          dbgStop := ((s.part? l.part).map fun p => p.stoppedCores.contains core).getD false,
          accs := (accs.take l.acc).map fun a =>
            { slot := a, elems := List.replicate 16384 0, poison := false, faulted := false } }
      some { s with waves := s.waves ++ [w] }

/-- The waves of a launch placed, from a WID up, on cores in turn. -/
def State.placeWaves (s : State) (l : Launch) : Nat → List Nat → Option State
  | _, [] => some s
  | wid, c :: cs =>
    match s.placeWave l wid c with
    | none => none
    | some t => State.placeWaves t l (wid + 1) cs

/-- The windows of a launch, one on each quad that hosts waves. -/
def State.findWindows (s : State) (p n : Nat) : List Nat → Option (List (Nat × Nat))
  | [] => some []
  | q :: qs =>
    match s.freeBanks p q n, State.findWindows s p n qs with
    | some b, some ws => some ((q, b) :: ws)
    | _, _ => none

/-- A window that reads as zero (02 R40), in the quad or in the partition's save area. -/
def State.zeroWindow (s : State) (p quad bank n : Nat) : State :=
  let lo := qspKey quad (bank * 65536)
  let hi := lo + n * 65536
  let inside (k : Nat) : Bool := lo ≤ k && k < hi
  if s.holdsSet p then { s with mem := s.mem.clear lo (n * 65536), poison := s.poison.filter fun k => !inside k }
  else s.modPart p fun x => { x with savedQsp := x.savedQsp.filter fun c => !inside c.1 }

/-- The launch started, when all of it fits at once; its waves fetch what was performed before now (09 R225, log 46). -/
def State.startLaunch (s : State) (p : Part) (r : LaunchRec) : Option State :=
  let cores := (s.launchQuads p r.slices).flatMap fun q => (List.range 4).map fun k => 4 * q + k
  let used := placedCores cores r.nwaves
  let quads := if r.qsp = 0 then [] else dedup (used.map coreQuad)
  match s.findWindows p.num r.qsp quads with
  | none => none
  | some wins =>
    let l : Launch :=
      { seq := s.nextSeq, part := p.num, asid := r.asid, code := r.code, slices := r.slices, nwaves := r.nwaves,
        vstack := r.vstack, acc := r.acc, qsp := r.qsp, prio := r.prio, dtab := r.dtab, args := r.args, windows := wins }
    let s1 := wins.foldl (fun (t : State) w => t.zeroWindow p.num w.1 w.2 r.qsp) s
    (State.placeWaves { s1 with launches := s1.launches ++ [l], nextSeq := s1.nextSeq + 1, icache := [] } l 0 used).map fun t =>
      t.touched p.num

/-- LAUNCH. DESIGN CHOICE (log 38): it is never answered NOFEAT, which 15 R355 lists for it: no rule names a feature that a launch
needs. -/
def execLaunch (s : State) : Out :=
  match s.call with
  | .launch c pa =>
    partCmd s c false fun t p =>
      match keyOfPa t.pod pa with
      | none => .error .badarg
      | some key =>
        let r := LaunchRec.ofNat (t.peekNat key 192)
        need (p.granted pa 192 && r.ok p && t.launchQuads p r.slices ≠ []) .badarg
          (match t.startLaunch p r with
           | some t1 => .ok (t1, natToBytes 4 t.nextSeq)
           | none => .error .nores)
  | _ => .next s

/-! ## REPLAY and FATAL (01 R38, 14 R337, 03 R90) -/

/-- The wait with an answer to its fault recorded. -/
def Wait.answered (tag ans : Nat) : Wait → Wait
  | .fault t va asid sub kind posted a x y => if t = tag then .fault t va asid sub kind posted ans x y else .fault t va asid sub kind posted a x y
  | w => w

/-- The wait is a fault of a tag. -/
def Wait.isFault (tag : Nat) (w : Wait) : Bool := tag ≠ 0 && w.faultTag.1 = tag

/-- A wave with an answer recorded wherever it holds the tag. -/
def Wave.recordAnswer (w : Wave) (tag ans : Nat) : Wave :=
  { w with
    unitT := { w.unitT with wait := w.unitT.wait.answered tag ans }, unitE := { w.unitE with wait := w.unitE.wait.answered tag ans },
    handler := w.handler.map fun h => { h with wait := h.wait.answered tag ans } }

/-- The running wave of a partition that holds a fault tag. -/
def State.faultWave (s : State) (p tag : Nat) : Option Wave :=
  s.waves.find? fun w => w.part = p && w.status = .running &&
    (w.unitT.wait.isFault tag || w.unitE.wait.isFault tag || (w.handler.map fun h => h.wait.isFault tag).getD false)

/-- The answer recorded; a wave that is not saved takes it now. -/
def State.answerWave (s : State) (w : Wave) (tag ans : Nat) : State :=
  let s1 := s.setWave (w.recordAnswer tag ans)
  if w.saved then s1.resave w.part
  else
    let s2 := s1.resumeWait (s1.again w) .t
    s2.resumeWait (s2.again w) .e

/-- A frozen stream of a partition's keys with a fault tag: its context, its number and the refused request. -/
def State.faultStream (s : State) (p tag : Nat) : Option (CtxId × Nat × Packet) :=
  s.runner.ctxs.findSome? fun c =>
    if decide (c.id.part = p) && !c.id.system then
      (List.range 4).findSome? fun k =>
        let t := c.stream k
        if t.frozen && t.faultTag = tag && tag ≠ 0 then t.faultPacket.map fun q => (c.id, k, q) else none
    else none

/-- The effect of a remote request by its type. -/
def performRemote (q : Packet) : State → Packet → Served :=
  match q.type with
  | .rwri => performRwri
  | .rrd => performRrd
  | _ => performRatom

/-- The target performs the refused request again; the source is told to go on once it has been performed (03 R90). -/
def State.replayStream (s : State) (x : CtxId × Nat × Packet) : State :=
  (s.modStream x.1 x.2.1 fun t => { t with frozen := false, faultTag := 0 }).receive x.2.2 (performRemote x.2.2)

/-- The refusal of a request becomes final. -/
def State.fatalStream (s : State) (x : CtxId × Nat × Packet) : State :=
  let sub := ((s.ctx? x.1).map fun c => (c.stream x.2.1).faultSub).getD 0
  s.finalFault x.2.2 sub

/-- A fault tag answered. -/
def State.answerFault (s : State) (p tag ans : Nat) : Done :=
  match s.faultWave p tag with
  | some w => .ok (s.answerWave w tag ans, [])
  | none =>
    match s.faultStream p tag with
    | some x => .ok (if ans = 1 then s.replayStream x else s.fatalStream x, [])
    | none => .error .notfound

/-- REPLAY. -/
def execReplay (s : State) : Out :=
  match s.call with
  | .replay c tag => partCmd s c false fun t p => t.answerFault p.num tag 1
  | _ => .next s

/-- FATAL. -/
def execFatal (s : State) : Out :=
  match s.call with
  | .fatal c tag => partCmd s c false fun t p => t.answerFault p.num tag 2
  | _ => .next s

/-! ## ERRLOG, HQSET (01 R34, 02 R70, R357) -/

/-- ERRLOG_SET_RING. -/
def execErrlogSetRing (s : State) : Out :=
  match s.call with
  | .errlogSetRing c base log2n =>
    partCmd s c false fun t p =>
      need (log2n ≤ 16) .badarg (.ok (t.setPart { p with elBase := some base, elLog2 := log2n }, natToBytes 4 p.dropped))
  | _ => .next s

/-- The three registers of a stack's RAS block (02 R70). -/
def StackLink.registers (l : StackLink) : List Nat :=
  [l.retrainCount % 2 ^ 8 * 2 ^ 40 + l.replayCount % 2 ^ 32 * 2 ^ 8 + bitOf l.down,
   l.corr % 2 ^ 32 * 2 ^ 32 + l.uncorr % 2 ^ 24 * 2 ^ 8, l.addr / 32 * 32 % 2 ^ 52]

/-- ERRLOG_READ_RAS. -/
def execErrlogReadRas (s : State) : Out :=
  match s.call with
  | .errlogReadRas c stack =>
    devCmd s c false 2 fun t =>
      match t.links[stack]? with
      | none => .error .badarg
      | some l => .ok (t, packBytes (l.registers.map fun x => (8, x)))
  | _ => .next s

/-- ERRLOG_CLEAR_RAS: the counts are written 0. -/
def execErrlogClearRas (s : State) : Out :=
  match s.call with
  | .errlogClearRas c stack =>
    devCmd s c false 2 fun t =>
      need (stack < 8) .badarg
        (.ok (t.modLink stack fun l => { l with retrainCount := 0, replayCount := 0, corr := 0, uncorr := 0 }, []))
  | _ => .next s

/-- HQSET. -/
def execHqset (s : State) : Out :=
  match s.call with
  | .hqset c base => partCmd s c false fun t p => putPart t { p with hqBase := some base }
  | _ => .next s

/-! ## Region grants (01 R31, R32) -/

/-- The grant is in force, or its revocation has not completed: it holds its index (R31, R32). -/
def Grant.held (g : Grant) : Bool := !g.revoked || g.revoker.isSome

/-- The lowest free grant index. -/
def Part.freeGrant (p : Part) : Option Nat := (List.range 1024).find? fun i => !(p.grants.any fun g => g.held && g.idx = i)

/-- REGREG. -/
def execRegreg (s : State) : Out :=
  match s.call with
  | .regreg c asid rights base len peers =>
    partCmd s c false fun t p =>
      needFeature t 0
        (need (asid < p.asidCount && rights < 8 && base % 4096 = 0 && len % 4096 = 0 && base + len ≤ 2 ^ 64) .badarg
          (match p.freeGrant with
           | none => .error .nores
           | some i =>
             .ok (t.setPart { p with
               grants := p.grants ++ [{ idx := i, asid := asid, base := base, len := len, rights := rights, peers := peers,
                                        revoked := false, revoker := none }] }, natToBytes 4 i)))
  | _ => .next s

/-- REGREVOKE: the marker is placed; the command is answered once the revocation has completed. -/
def execRegrevoke (s : State) : Out :=
  match s.call with
  | .regrevoke c idx =>
    match s.cmdPart false c with
    | none => devCmd s c false 4 fun _ => .error .notfound
    | some p =>
      if !s.skolisUp then .next s
      else if s.midSwitch p.num then .next s.holdCmd
      else if !s.feature 0 then finishCmd s c (.error .nofeat)
      else if !(p.grants.any fun g => g.idx = idx && !g.revoked) then finishCmd s c (.error .notfound)
      else
        .next (s.setPart { p with
          grants := mapWhere p.grants (fun g => g.idx = idx && !g.revoked) fun g => { g with revoked := true, revoker := some c } })
  | _ => .next s

/-- A request of the grant's key that meets its range. -/
def Grant.covers (g : Grant) (p : Packet) : Bool := p.keyAsid = g.asid && rangesMeet p.addr (max 1 p.len) g.base g.len

/-- A request that a grant let through remains: at an atomic unit, in the Runner's hand, or refused and not resolved. -/
def State.grantBusy (s : State) (part : Nat) (g : Grant) : Bool :=
  (s.atomQ.any fun r => !r.packet.system && r.packet.keyPart = part && g.covers r.packet)
    || s.runner.ctxs.any fun c => !c.id.system && c.id.part = part &&
        c.streams.any fun t => (t.faultPacket.map g.covers).getD false || (t.inHand.map g.covers).getD false

/-- REVOKE_COMPLETE. The grant's index is free; what it was stays known, so that a later request for its range alone is refused as
revoked (R32). -/
def execRevokeComplete (s : State) : Out :=
  match s.call with
  | .revokeComplete part idx =>
    match s.part? part with
    | none => .next s
    | some p =>
      match p.grants.find? fun g => g.idx = idx && g.revoked && g.revoker.isSome with
      | none => .next s
      | some g =>
        if s.grantBusy part g then .next s
        else
          let s1 := s.setPart { p with grants := mapWhere p.grants (fun x => x = g) fun x => { x with revoker := none } }
          .next (match g.revoker with
            | some c => s1.endCmd c .ok []
            | none => s1)
  | _ => .next s

end Sys2Proof.Machine
end

