-- ==== Sys2Proof/Machine/Admin.lean ====
section
/-!
DEFINITION. Skolis's commands on gates, on the pod, and of the debugger (15_partitions_host_startup R349, R351, R355, R358; 03
R92, R94 to R96, R389; 04 R105; 14 R342, R343; 20 R384).
-/
namespace Sys2Proof.Machine

/-! ## Gates (R349, R351) -/

/-- A command on gates: the feature GATES must have been accepted. -/
def gateCmd (s : State) (c : Cmd) (f : State → Done) : Out := devCmd s c true 4 fun t => needFeature t 4 (f t)

/-- The lowest index that holds no gate. -/
def State.freeGate (s : State) : Option Nat :=
  (List.range 4096).find? fun i => !((s.gateAt i).map Gate.used).getD false

/-- The GEN that a gate made at an index has: 1 where there never was one. -/
def State.gateGen (s : State) (i : Nat) : Nat := ((s.gateAt i).map Gate.gen).getD 1

/-- An access list without reserved bits. -/
def aclOk (acl : Nat) : Bool := (List.range 4).all fun e => !acl.testBit (8 * e + 4)

/-- GATECREATE. -/
def execGatecreate (s : State) : Out :=
  match s.call with
  | .gatecreate c acl burst rate =>
    gateCmd s c fun t =>
      need (aclOk acl && 1 ≤ burst) .badarg
        (match t.freeGate with
         | none => .error .nores
         | some i =>
           let g : Gate :=
             { index := i, used := true, gen := t.gateGen i, counter := 0, state := .live, acl := BitVec.ofNat 32 acl,
               burst := burst, rate := rate, tokens := burst, lastFill := t.now48 }
           .ok (t.setGate g, natToBytes 4 g.handle))
  | _ => .next s

/-- A command on the gate of a live handle. -/
def gateHandleCmd (s : State) (c : Cmd) (handle : Nat) (f : State → Gate → Done) : Out :=
  gateCmd s c fun t =>
    match t.gateOf handle with
    | none => .error .notfound
    | some g => f t g

/-- GATEFREEZE: every sleeping take returns 2. -/
def execGatefreeze (s : State) : Out :=
  match s.call with
  | .gatefreeze c handle =>
    gateHandleCmd s c handle fun t g =>
      need (g.state = .live) .state (.ok ((t.setGate { g with state := .frozen }).endTakes handle 2, []))
  | _ => .next s

/-- The number of a gate's state. -/
def GateState.code : GateState → Nat
  | .live => 0
  | .frozen => 1
  | .exported => 2

/-- The 64-byte object of a gate as a number (R349). -/
def State.gateObject (s : State) (g : Gate) : Nat :=
  g.counter % 2 ^ 32 + g.gen % 2 ^ 16 * 2 ^ 32 + g.tokens % 2 ^ 16 * 2 ^ 256 + g.rate % 2 ^ 16 * 2 ^ 272
    + g.burst % 2 ^ 16 * 2 ^ 288 + g.acl.toNat * 2 ^ 304 + g.state.code * 2 ^ 342
    + s.gateWaiters g.handle % 2 ^ 8 * 2 ^ 344 + g.lastFill % 2 ^ 48 * 2 ^ 352

/-- GATEEXPORT. -/
def execGateexport (s : State) : Out :=
  match s.call with
  | .gateexport c handle buf =>
    gateHandleCmd s c handle fun t g =>
      need (g.state = .frozen) .state
        (.ok ((t.pokeNat (hostKey buf) 64 (t.gateObject g)).setGate { g with state := .exported }, []))
  | _ => .next s

/-- An access list with its reserved bits zero (R349, 00 R14). -/
def aclMask (acl : Nat) : BitVec 32 := BitVec.ofNat 32 acl &&& 0xEFEFEFEF

/-- The gate that an object becomes at an index (R349): frozen, with its tokens, its refill starting now; reserved bits of the
object are ignored. -/
def Gate.ofObject (index x now48 : Nat) : Gate :=
  { index := index, used := true, gen := bitsAt x 32 16, counter := bitsAt x 0 32, state := .frozen,
    acl := aclMask (bitsAt x 304 32), burst := bitsAt x 288 16, rate := bitsAt x 272 16, tokens := bitsAt x 256 16,
    lastFill := now48 }

/-- GATEIMPORT: at the handle's index and GEN; an index in use is BUSY. -/
def execGateimport (s : State) : Out :=
  match s.call with
  | .gateimport c handle buf =>
    gateCmd s c fun t =>
      let g := Gate.ofObject (handle % 65536) (t.peekNat (hostKey buf) 64) t.now48
      need (handle % 65536 < 4096 && g.gen = handle / 65536 && g.gen ≠ 0) .badarg
        (need (!((t.gateAt (handle % 65536)).map Gate.used).getD false) .busy (.ok (t.setGate g, [])))
  | _ => .next s

/-- GATETHAW. -/
def execGatethaw (s : State) : Out :=
  match s.call with
  | .gatethaw c handle =>
    gateHandleCmd s c handle fun t g => need (g.state = .frozen) .state (.ok (t.setGate { g with state := .live }, []))
  | _ => .next s

/-- GATEDESTROY: the index is free with its next GEN; every take that sleeps on it retries at once. -/
def execGatedestroy (s : State) : Out :=
  match s.call with
  | .gatedestroy c handle =>
    gateHandleCmd s c handle fun t g => .ok ((t.setGate { g with used := false, gen := nextGen g.gen }).wakeTakes handle, [])
  | _ => .next s

/-! ## PODCONFIG -/

/-- A pod configuration command: the pod is up; what it configures is measured (R359). -/
def podCmd (s : State) (c : Cmd) (f : State → Done) : Out :=
  devCmd s c true 3 fun t =>
    match need t.pod.order.isSome .state (f t) with
    | .ok (u, rs) => let (n, u1) := u.fresh; .ok (u1.measure 5 n, rs)
    | .error st => .error st

/-- The pod-wide groups of the partitions; which packages have a partition of a group is free (log 17). -/
def State.setGroups (s : State) (groups : List Nat) : State :=
  let (n, s1) := s.fresh
  { s1 with
    pod := { s1.pod with groups := groups },
    parts := s1.parts.map fun p =>
      let g := groups.getD p.num p.num
      { p with group := g, peerGroups := onesOf (Config.groupPeers n g) 64 } }

/-- PODCONFIG_GROUPS (04 R105). -/
def execPodconfigGroups (s : State) : Out :=
  match s.call with
  | .podconfigGroups c groups =>
    podCmd s c fun t => .ok (t.setGroups ((List.range 16).map fun p => bitsAt groups (8 * p) 8), [])
  | _ => .next s

/-- PODCONFIG_PRIVILEGE (04 R105). -/
def execPodconfigPrivilege (s : State) : Out :=
  match s.call with
  | .podconfigPrivilege c part =>
    if s.midSwitch part && s.skolisUp then .next s.holdCmd
    else podCmd s c fun t =>
      need (part = 0xFF || (t.part? part).isSome) .badarg
        (.ok ({ t with pod := { t.pod with privilege := if part = 0xFF then none else some part } }, []))
  | _ => .next s

/-- PODCONFIG_TIMEOUTS (03 R92): both as powers of 2; CYC has 64 bits. -/
def execPodconfigTimeouts (s : State) : Out :=
  match s.call with
  | .podconfigTimeouts c rly completion =>
    podCmd s c fun t =>
      need (rly < 64 && completion < 64) .badarg
        (.ok ({ t with pod := { t.pod with rlyTimeout := 2 ^ rly, modTimeout := 2 ^ completion } }, []))
  | _ => .next s

/-- The capacities of every attachment read. -/
def State.readAllCapacities (s : State) : State := (List.range s.pod.atts.length).foldl State.readCapacities s

/-- PODCONFIG_ROUTES (03 R95, R389): routes follow the attachments at all times, so what is rebuilt stands already; the
capacities are read. -/
def execPodconfigRoutes (s : State) : Out :=
  match s.call with
  | .podconfigRoutes c => podCmd s c fun t => .ok (t.readAllCapacities, [])
  | _ => .next s

/-- PODCONFIG_CAPACITIES (03 R389). -/
def execPodconfigCapacities (s : State) : Out :=
  match s.call with
  | .podconfigCapacities c => podCmd s c fun t => .ok (t.readAllCapacities, [])
  | _ => .next s

/-! ## PODCTL -/

/-- PODCTL_CLEAR_DEADPEER (03 R92). -/
def execPodctlClearDeadpeer (s : State) : Out :=
  match s.call with
  | .podctlClearDeadpeer c peer =>
    partCmd s c true fun t p =>
      need (peer < 64) .badarg (putPart t { p with dead := if p.dead.testBit peer then p.dead - 2 ^ peer else p.dead })
  | _ => .next s

/-- A command on an attachment of the pod. -/
def attCmd (s : State) (c : Cmd) (att : Nat) (f : State → Att → Done) : Out :=
  devCmd s c true 3 fun t =>
    match t.pod.atts[att]? with
    | none => .error .badarg
    | some a => f t a

/-- PODCTL_DOWN (03 R94): each port of the attachment goes down. -/
def execPodctlDown (s : State) : Out :=
  match s.call with
  | .podctlDown c att =>
    attCmd s c att fun t a =>
      need (t.pod.attUp att) .state
        (.ok (({ t with pod := { t.pod with
          atts := t.pod.atts.set att { a with portsUp := a.portsUp.map fun _ => false } } } : State).attachmentDown att, []))
  | _ => .next s

/-- PODCTL_RETRAIN (03 R96): an attachment that is down is retrained; it comes up as ATTACHMENT_UP. -/
def execPodctlRetrain (s : State) : Out :=
  match s.call with
  | .podctlRetrain c att =>
    attCmd s c att fun t _ =>
      need (!t.pod.attUp att) .state (.ok ({ t with agenda := t.agenda ++ [.attachmentUp att] }, []))
  | _ => .next s

/-! ## DBGOPEN, DBGCTL (14 R342, R343) -/

/-- DBGOPEN_OPEN. -/
def execDbgopenOpen (s : State) : Out :=
  match s.call with
  | .dbgopenOpen c => partCmd s c false fun t p => need (!p.debug) .state (putPart t { p with debug := true })
  | _ => .next s

/-- A wave that goes on. -/
def Wave.dbgGo (w : Wave) : Wave := { w with dbgStop := false, dbgStep := none }

/-- DBGOPEN_CLOSE: what the session stopped goes on. -/
def execDbgopenClose (s : State) : Out :=
  match s.call with
  | .dbgopenClose c =>
    partCmd s c false fun t p =>
      need p.debug .state
        (.ok ({ t.setPart { p with debug := false, stoppedCores := [] } with
          waves := mapWhere t.waves (fun w => w.part = p.num) Wave.dbgGo }, []))
  | _ => .next s

/-- A command of an open session on a running wave of its partition. -/
def dbgWave (s : State) (c : Cmd) (seq wid : Nat) (f : State → Wave → Done) : Out :=
  partCmd s c false fun t p =>
    need p.debug .state
      (match t.wave? seq wid with
       | none => .error .notfound
       | some w => need (w.part = p.num && w.status = .running) .notfound (f t w))

/-- The unit that a DBGCTL names (15 R358): one of the arms, or any. -/
def dbgUnit (unit : Nat) : Option (Option Arm) :=
  match unit with
  | 0 => some (some .t)
  | 1 => some (some .e)
  | 0xFF => some none
  | _ => none

/-- A command of an open session on a wave and a unit of it. -/
def dbgOn (s : State) (c : Cmd) (seq wid unit : Nat) (f : State → Wave → Option Arm → Done) : Out :=
  dbgWave s c seq wid fun t w =>
    match dbgUnit unit with
    | none => .error .badarg
    | some u => f t w u

/-- DBGCTL_STOP: the whole wave stops, both arms (14 R342), whichever unit is named. -/
def execDbgctlStop (s : State) : Out :=
  match s.call with
  | .dbgctlStop c seq wid unit =>
    dbgOn s c seq wid unit fun t w _ => .ok (t.setWave { w with dbgStop := true, dbgStep := none }, [])
  | _ => .next s

/-- DBGCTL_STEP: a stopped wave issues one word, or one chained pair, of one unit. -/
def execDbgctlStep (s : State) : Out :=
  match s.call with
  | .dbgctlStep c seq wid unit =>
    dbgOn s c seq wid unit fun t w u =>
      need w.dbgStop .state (.ok (t.setWave { w with dbgStop := false, dbgStep := some u }, []))
  | _ => .next s

/-- DBGCTL_RESUME: the whole wave goes on, whichever unit is named. -/
def execDbgctlResume (s : State) : Out :=
  match s.call with
  | .dbgctlResume c seq wid unit =>
    dbgOn s c seq wid unit fun t w _ => need (w.dbgStop || w.dbgStep.isSome) .state (.ok (t.setWave w.dbgGo, []))
  | _ => .next s

/-- A command of an open session on a dense core of its partition. -/
def dbgCore (s : State) (c : Cmd) (core : Nat) (f : State → Part → Nat → Done) : Out :=
  partCmd s c false fun t p =>
    need p.debug .state
      (match t.physCore p core with
       | none => .error .badarg
       | some k => f t p k)

/-- DBGCTL_CORE_STOP: every wave of the core stops, and each stop is posted. -/
def execDbgctlCoreStop (s : State) : Out :=
  match s.call with
  | .dbgctlCoreStop c core =>
    dbgCore s c core fun t p k =>
      need (!p.stoppedCores.contains k) .state
        (let ws := t.waves.filter fun w => w.part = p.num && w.core = k && w.status = .running && !w.dbgStop
         .ok (ws.foldl (fun (x : State) w => x.debugStop w 2) (t.setPart { p with stoppedCores := p.stoppedCores ++ [k] }), []))
  | _ => .next s

/-- DBGCTL_CORE_RESUME. -/
def execDbgctlCoreResume (s : State) : Out :=
  match s.call with
  | .dbgctlCoreResume c core =>
    dbgCore s c core fun t p k =>
      need (p.stoppedCores.contains k) .state
        (.ok ({ t.setPart { p with stoppedCores := p.stoppedCores.filter fun x => x ≠ k } with
          waves := mapWhere t.waves (fun w => w.part = p.num && w.core = k) Wave.dbgGo }, []))
  | _ => .next s

/-! ## CTRWRITE (20 R384) -/

/-- A counter from its entry (14 R340). -/
def Counter.ofEntry (x : Nat) : Counter :=
  { value := bitsAt x 0 48, event := bitsAt x 48 12, en := x.testBit 60, ie := x.testBit 61, ovf := x.testBit 62 }

/-- CTRWRITE, to the live block or to the save area: additions under way to the counter are void. -/
def execCtrwrite (s : State) : Out :=
  match s.call with
  | .ctrwrite c n entry =>
    partCmd s c false fun t p =>
      need p.debug .state
        (need (n < 16 && entry < 2 ^ 63) .badarg
          (.ok (((t.setPart { p with counters := p.counters.setIfInBounds n (Counter.ofEntry entry) }).dropCharges
            p.num n).touched p.num, [])))
  | _ => .next s

end Sys2Proof.Machine
end

