-- ==== Sys2Proof/Machine/HostPort.lean ====
section
/-!
DEFINITION. CXL.mem accesses of the host to a logical device (04_ordering R124; 01_address_spaces R34, R35;
15_partitions_host_startup R346).
-/
namespace Sys2Proof.Machine

/-- The decoder's ranges: the granted tier 0 and tier 1 ranges in grant order, each (base, length) (R346). -/
def Part.hdmRanges (p : Part) : List (Nat × Nat) :=
  (p.ranges.map fun r => (r.2.1, r.2.2)).filter fun r => (physPlace r.1).tier = some .hbm || (physPlace r.1).tier = some .module

/-- The package physical addresses of `n` bytes at an offset of the decoder, with how many lie at each; none when the decoder does not
cover them all. -/
def hdmPieces : List (Nat × Nat) → Nat → Nat → Option (List (Nat × Nat))
  | [], _, n => if n = 0 then some [] else none
  | (base, len) :: rest, off, n =>
    if n = 0 then some []
    else if off < len then
      let k := min n (len - off)
      (hdmPieces rest 0 (n - k)).map fun l => (base + off, k) :: l
    else hdmPieces rest (off - len) n

/-- The 64-byte transfers of an access: each address, and its bytes. -/
def transfers (addr len : Nat) : List (Nat × Nat) :=
  (List.range ((addr % 64 + len + 63) / 64)).map fun i =>
    let lo := max addr (addr / 64 * 64 + 64 * i)
    (lo, min (addr + len) (addr / 64 * 64 + 64 * i + 64) - lo)

/-- The record of a refused host access (R34). -/
def State.logHost (s : State) (p : Part) (ld addr sub kind : Nat) : State :=
  s.logError p.num
    { addr := addr, asid := 0, sub := sub, cls := 5, level := 15, kind := kind, reqType := 2, reqId := ld, phys := true }

/-- Where one piece of a transfer goes: its key and length, or the address and subcode of its refusal. -/
def State.piecePlace (s : State) (p : Part) (kind : AccKind) (x : Nat × Nat) : Except (Nat × Nat) (Nat × Nat) :=
  match s.physRefusal p x.1 x.2 kind, keyOfPa s.pod x.1 with
  | some sub, _ => .error (x.1, sub)
  | none, none => .error (x.1, 6)
  | none, some k => .ok (k, x.2)

/-- Where a transfer goes: memory keys with their lengths, or the address and subcode of its refusal. -/
def State.hostPlace (s : State) (p : Part) (ld addr n : Nat) (kind : AccKind) : Except (Nat × Nat) (List (Nat × Nat)) :=
  if addr < Config.hdmBase ld then .error (addr, 7)
  else
    match hdmPieces p.hdmRanges (addr - Config.hdmBase ld) n with
    | none => .error (addr, 7)
    | some l => l.mapM (s.piecePlace p kind)

/-- A logical device as the requester of an access (01 R35). -/
def ldRequester (ld : Nat) : Requester := { type := 2, id := ld, asid := 0 }

/-- One transfer of a read: its bytes and whether they are poisoned; none while a line must be waited for. -/
def State.hostReadOne (s : State) (p : Part) (ld addr n : Nat) : State × Option (List Byte × Bool) :=
  match s.hostPlace p ld addr n .read with
  | .error (a, sub) =>
    let (k, s1) := (s.logHost p ld a sub 0).fresh
    (s1, some ((List.range n).map (Config.refusedByte k), true))
  | .ok ks =>
    let g := gotAll s ks fun t x => t.homeReach p.num (ldRequester ld) x.1 x.2
    (g.1, if g.2 then
      some (ks.flatMap fun x => g.1.peek x.1 x.2, ks.any fun x => decide (g.1.poisonMask p.num x.1 x.2 ≠ 0)) else none)

/-- The transfers of a read in order; the answer, with the poison of transfer i at bit i. -/
def State.hostReadAll (s : State) (p : Part) (ld : Nat) : Nat → List (Nat × Nat) → State × Option (List Byte × Nat)
  | _, [] => (s, some ([], 0))
  | i, t :: ts =>
    match s.hostReadOne p ld t.1 t.2 with
    | (s1, none) => (s1, none)
    | (s1, some (bs, bad)) =>
      match State.hostReadAll s1 p ld (i + 1) ts with
      | (s2, some (rest, m)) => (s2, some (bs ++ rest, m + 2 ^ i * bitOf bad))
      | (s2, none) => (s2, none)

/-- The lines of some bytes can be read at once; otherwise they have been asked for. -/
def State.linesReached (s : State) (part key n : Nat) : Got :=
  gotAll s (linesOf key n) fun t l =>
    if t.keyDown l || t.beyondModule part l 128 then (t, true)
    else if t.ladleOwns l then (t, false)
    else t.permitted (homeDie t.pod l) part l false

/-- Every line that a host access reaches can answer now; otherwise it has been asked for. -/
def State.hostReach (s : State) (p : Part) (ld : Nat) (kind : AccKind) (ts : List (Nat × Nat)) : Got :=
  gotAll s ts fun u t =>
    match u.hostPlace p ld t.1 t.2 kind with
    | .error _ => (u, true)
    | .ok ks => gotAll u ks fun v x => v.linesReached p.num x.1 x.2

/-- The partition behind a bound logical device. -/
def State.ldPart (s : State) (ld : Nat) : Option Part :=
  if s.skolisUp && s.ldBound ld then s.parts.find? fun p => p.ld = some ld else none

/-- HOST_MEM_READ (R124): at PKG scope; refused bytes are answered with poison. An unbound device answers nothing (Completer
Abort). -/
def execHostMemRead (s : State) : Out :=
  match s.call with
  | .hostMemRead ld addr len =>
    match s.ldPart ld with
    | none => .next s
    | some p =>
      let ts := transfers addr len
      let g := s.hostReach p ld .read ts
      if !g.2 then .next { g.1 with agenda := g.1.agenda ++ [s.call] }
      else
        match g.1.hostReadAll p ld 0 ts with
        | (s1, some (bs, m)) => .next { s1 with hostAnswer := bs, hostPoison := m }
        | (s1, none) => .next { s1 with agenda := s1.agenda ++ [s.call] }
  | _ => .next s

/-- One transfer of a write; it is dropped when refused. -/
def State.hostWriteOne (s : State) (p : Part) (ld addr : Nat) (bs : List Byte) : Got :=
  match s.hostPlace p ld addr bs.length .write with
  | .error (a, sub) => (s.logHost p ld a sub 1, true)
  | .ok ks =>
    (ks.foldl (fun (g : Got × List Byte) x =>
      let r := g.1.1.homeWrite p.num (ldRequester ld) x.1 (g.2.take x.2) false
      ((r.1, g.1.2 && r.2), g.2.drop x.2)) ((s, true), bs)).1

/-- HOST_MEM_WRITE (R124): at PKG scope. Transfers perform in order; those that must wait are asked again. -/
def State.hostWriteAll (s : State) (p : Part) (ld addr : Nat) (data : List Byte) : List (Nat × Nat) → State
  | [] => s
  | t :: ts =>
    let g := s.hostWriteOne p ld t.1 ((data.drop (t.1 - addr)).take t.2)
    if g.2 then State.hostWriteAll g.1 p ld addr data ts
    else { g.1 with agenda := g.1.agenda ++ [.hostMemWrite ld t.1 (data.drop (t.1 - addr))] }

/-- HOST_MEM_WRITE. -/
def execHostMemWrite (s : State) : Out :=
  match s.call with
  | .hostMemWrite ld addr data =>
    match s.ldPart ld with
    | none => .next s
    | some p => .next (s.hostWriteAll p ld addr data (transfers addr data.length))
  | _ => .next s

end Sys2Proof.Machine
end

