-- ==== Sys2Proof/Machine/Sreg.lean ====
section
/-!
DEFINITION. The special registers (09_encoding R219 to R223; 10_isa_uniform_control R231).
-/
namespace Sys2Proof.Machine

/-- The bits of TRAPCAUSE that exist (09 R222): SECOND, SUB, CAUSE. -/
def trapCauseMask : Word := 0x0001FFFF

/-- The value of a special register that URDS reads, but for CYCLO and CYCHI (09 R219). -/
def State.special (s : State) (w : Wave) (u : UnitSt) (n : Nat) : Word :=
  let part := s.part? w.part
  let l := s.launch? w.seq
  match n with
  | 0x002 => BitVec.ofNat 32 w.wid
  | 0x003 => BitVec.ofNat 32 ((part.map fun p => s.denseCore p w.core).getD 0)
  | 0x004 => BitVec.ofNat 32 ((part.map fun p => s.denseQuad p (coreQuad w.core)).getD 0)
  | 0x005 => BitVec.ofNat 32 (coreDie w.core)
  | 0x006 => BitVec.ofNat 32 s.pod.self
  | 0x007 => BitVec.ofNat 32 w.part
  | 0x008 => BitVec.ofNat 32 ((l.map Launch.nwaves).getD 0)
  | 0x009 => BitVec.ofNat 32 w.winBase
  | 0x00A => BitVec.ofNat 32 w.outst
  | 0x00B => u.fmt.setWidth 32
  | 0x00C => w.trapCause
  | 0x00D => lowWord w.trapAddr
  | 0x00E => highWord w.trapAddr
  | 0x00F => w.trapPc
  | 0x010 => w.trapBase
  | 0x011 => BitVec.ofNat 32 ((part.map Part.dead).getD 0)
  | 0x012 => BitVec.ofNat 32 ((part.map Part.dead).getD 0 / 2 ^ 32)
  | 0x013 => w.phaseVar
  | 0x014 => w.bucket
  | 0x01D => w.fpFlags.setWidth 32
  | _ =>
    if 0x015 ≤ n && n ≤ 0x01C then w.bounds.getD (n - 0x015) 0
    else if 0x020 ≤ n && n ≤ 0x03F then (l.map fun x => x.args.getD (n - 0x020) 0).getD 0
    else 0

/-- URDS: sd := the special register; a read of CYCLO captures CYC (09 R219, R220; 10 R231). -/
def execUrds (d : BitVec 6) (n : BitVec 10) (s : State) : Out :=
  whenLegal s (.urds d n) fun w is u =>
    match n.toNat with
    | 0x000 => finish s ({ w with cycCapture := s.cyc }.setS d.toNat (lowWord s.cyc) false) is
    | 0x001 => finish s (w.setS d.toNat (highWord w.cycCapture) false) is
    | k => finish s (w.setS d.toNat (s.special w u k) false) is

/-- A special register written (09 R219, R221 to R223; 10 R231). -/
def Wave.setSpecial (w : Wave) (a : Arm) (n : Nat) (x : Word) : Wave :=
  match n with
  | 0x00B => w.setUnit a { w.unit a with fmt := x.setWidth 8 }
  | 0x00C => { w with trapCause := x &&& trapCauseMask }
  | 0x00D => { w with trapAddr := pair x (highWord w.trapAddr) }
  | 0x00E => { w with trapAddr := pair (lowWord w.trapAddr) x }
  | 0x00F => { w with trapPc := x &&& 0xFFFFFFFC }
  | 0x010 => { w with trapBase := x &&& 0xFFFFFFF0 }
  | 0x014 => { w with bucket := x }
  | 0x01D => { w with fpFlags := x.setWidth 5 }
  | _ => if 0x015 ≤ n && n ≤ 0x01C then { w with bounds := w.bounds.set (n - 0x015) x } else w

/-- UWRS: the special register := s(sa); a poisoned source traps (10 R226, R231). -/
def execUwrs (a : BitVec 6) (n : BitVec 10) (s : State) : Out :=
  whenLegal s (.uwrs a n) fun w is _ =>
    if w.sPoison a.toNat then poisonTrap s w is
    else finish s (w.setSpecial is.arm n.toNat (w.s a.toNat)) is

/-- SETFMT: FMT := (FMT and not MASK) or (VALUE and MASK), of the issuing unit (10 R231, 07 R181). -/
def execSetfmt (m v : BitVec 8) (s : State) : Out :=
  whenLegal s (.setfmt m v) fun w is u =>
    finish s (w.setUnit is.arm { u with fmt := (u.fmt &&& ~~~m) ||| (v &&& m) }) is

end Sys2Proof.Machine
end

