-- ==== Sys2Proof/Machine/Dispatch.lean ====
section
/-!
DEFINITION. The dispatch: one arm for each constructor of Instr, each one direct call of its meaning.
-/
namespace Sys2Proof.Machine

/-- What an instruction does to the state. -/
def exec (i : Instr) (s : State) : Host.Outcome State Fault Refusal :=
  match i with
  | .nop => Sys2Proof.Machine.execNop s
  | .uadd d a b g => Sys2Proof.Machine.execUadd d a b g s
  | .usub d a b g => Sys2Proof.Machine.execUsub d a b g s
  | .umul d a b g => Sys2Proof.Machine.execUmul d a b g s
  | .umulh d a b g => Sys2Proof.Machine.execUmulh d a b g s
  | .umulhu d a b g => Sys2Proof.Machine.execUmulhu d a b g s
  | .uand d a b g => Sys2Proof.Machine.execUand d a b g s
  | .uor d a b g => Sys2Proof.Machine.execUor d a b g s
  | .uxor d a b g => Sys2Proof.Machine.execUxor d a b g s
  | .ushl d a b g => Sys2Proof.Machine.execUshl d a b g s
  | .ushr d a b g => Sys2Proof.Machine.execUshr d a b g s
  | .usar d a b g => Sys2Proof.Machine.execUsar d a b g s
  | .umin d a b g => Sys2Proof.Machine.execUmin d a b g s
  | .umax d a b g => Sys2Proof.Machine.execUmax d a b g s
  | .uminu d a b g => Sys2Proof.Machine.execUminu d a b g s
  | .umaxu d a b g => Sys2Proof.Machine.execUmaxu d a b g s
  | .umov d a g => Sys2Proof.Machine.execUmov d a g s
  | .uaddi d a imm => Sys2Proof.Machine.execUaddi d a imm s
  | .umuli d a imm => Sys2Proof.Machine.execUmuli d a imm s
  | .uandi d a imm => Sys2Proof.Machine.execUandi d a imm s
  | .uori d a imm => Sys2Proof.Machine.execUori d a imm s
  | .uxori d a imm => Sys2Proof.Machine.execUxori d a imm s
  | .ushli d a imm => Sys2Proof.Machine.execUshli d a imm s
  | .ushri d a imm => Sys2Proof.Machine.execUshri d a imm s
  | .usari d a imm => Sys2Proof.Machine.execUsari d a imm s
  | .ucmp cc q a b g => Sys2Proof.Machine.execUcmp cc q a b g s
  | .ucmpi cc q a imm => Sys2Proof.Machine.execUcmpi cc q a imm s
  | .uclz d a g => Sys2Proof.Machine.execUclz d a g s
  | .upopc d a g => Sys2Proof.Machine.execUpopc d a g s
  | .ubrev d a g => Sys2Proof.Machine.execUbrev d a g s
  | .ubfx d a b g => Sys2Proof.Machine.execUbfx d a b g s
  | .ubfi d a b g => Sys2Proof.Machine.execUbfi d a b g s
  | .usel d a b q => Sys2Proof.Machine.execUsel d a b q s
  | .uqop d a b o => Sys2Proof.Machine.execUqop d a b o s
  | .uqmovTos d => Sys2Proof.Machine.execUqmovTos d s
  | .uqmovFroms a => Sys2Proof.Machine.execUqmovFroms a s
  | .uld32 d a imm => Sys2Proof.Machine.execUld32 d a imm s
  | .uld64 d a imm => Sys2Proof.Machine.execUld64 d a imm s
  | .ust32 d a imm => Sys2Proof.Machine.execUst32 d a imm s
  | .ust64 d a imm => Sys2Proof.Machine.execUst64 d a imm s
  | .urds d n => Sys2Proof.Machine.execUrds d n s
  | .uwrs a n => Sys2Proof.Machine.execUwrs a n s
  | .setfmt m v => Sys2Proof.Machine.execSetfmt m v s
  | .bra q o => Sys2Proof.Machine.execBra q o s
  | .bran q o => Sys2Proof.Machine.execBran q o s
  | .call q o => Sys2Proof.Machine.execCall q o s
  | .ret q => Sys2Proof.Machine.execRet q s
  | .jmpi q a => Sys2Proof.Machine.execJmpi q a s
  | .calli q a => Sys2Proof.Machine.execCalli q a s
  | .split p e => Sys2Proof.Machine.execSplit p e s
  | .join => Sys2Proof.Machine.execJoin s
  | .brkp p => Sys2Proof.Machine.execBrkp p s
  | .pmask d => Sys2Proof.Machine.execPmask d s
  | .anyp d p => Sys2Proof.Machine.execAnyp d p s
  | .allp d p => Sys2Proof.Machine.execAllp d p s
  | .halt => Sys2Proof.Machine.execHalt s
  | .yield => Sys2Proof.Machine.execYield s
  | .sleepuntil k => Sys2Proof.Machine.execSleepuntil k s
  | .waitline k s1 y => Sys2Proof.Machine.execWaitline k s1 y s
  | .trap n => Sys2Proof.Machine.execTrap n s
  | .bkpt n => Sys2Proof.Machine.execBkpt n s
  | .rte => Sys2Proof.Machine.execRte s
  | .dispatch a => Sys2Proof.Machine.execDispatch a s
  | .phasesel => Sys2Proof.Machine.execPhasesel s
  | .phaseend g => Sys2Proof.Machine.execPhaseend g s
  | .vadd u d a b g => Sys2Proof.Machine.execVadd u d a b g s
  | .vsub u d a b g => Sys2Proof.Machine.execVsub u d a b g s
  | .vmul u d a b g => Sys2Proof.Machine.execVmul u d a b g s
  | .vmulh u d a b g => Sys2Proof.Machine.execVmulh u d a b g s
  | .vmulhu u d a b g => Sys2Proof.Machine.execVmulhu u d a b g s
  | .vmin u d a b g => Sys2Proof.Machine.execVmin u d a b g s
  | .vmax u d a b g => Sys2Proof.Machine.execVmax u d a b g s
  | .vminu u d a b g => Sys2Proof.Machine.execVminu u d a b g s
  | .vand u d a b g => Sys2Proof.Machine.execVand u d a b g s
  | .vor u d a b g => Sys2Proof.Machine.execVor u d a b g s
  | .vxor u d a b g => Sys2Proof.Machine.execVxor u d a b g s
  | .vshl u d a b g => Sys2Proof.Machine.execVshl u d a b g s
  | .vshr u d a b g => Sys2Proof.Machine.execVshr u d a b g s
  | .vsar u d a b g => Sys2Proof.Machine.execVsar u d a b g s
  | .vmaxu u d a b g => Sys2Proof.Machine.execVmaxu u d a b g s
  | .vabsd u d a b g => Sys2Proof.Machine.execVabsd u d a b g s
  | .vaddi d a imm => Sys2Proof.Machine.execVaddi d a imm s
  | .vmuli d a imm => Sys2Proof.Machine.execVmuli d a imm s
  | .vandi d a imm => Sys2Proof.Machine.execVandi d a imm s
  | .vori d a imm => Sys2Proof.Machine.execVori d a imm s
  | .vxori d a imm => Sys2Proof.Machine.execVxori d a imm s
  | .vshli d a imm => Sys2Proof.Machine.execVshli d a imm s
  | .vshri d a imm => Sys2Proof.Machine.execVshri d a imm s
  | .vsari d a imm => Sys2Proof.Machine.execVsari d a imm s
  | .vicmp u cc d a b g => Sys2Proof.Machine.execVicmp u cc d a b g s
  | .vicmpi cc d a imm => Sys2Proof.Machine.execVicmpi cc d a imm s
  | .vclz u d a g => Sys2Proof.Machine.execVclz u d a g s
  | .vpopc u d a g => Sys2Proof.Machine.execVpopc u d a g s
  | .vbrev u d a g => Sys2Proof.Machine.execVbrev u d a g s
  | .vbfx u d a b g => Sys2Proof.Machine.execVbfx u d a b g s
  | .vbfi u d a b g => Sys2Proof.Machine.execVbfi u d a b g s
  | .vsel u d a b p => Sys2Proof.Machine.execVsel u d a b p s
  | .vmad u d a b g => Sys2Proof.Machine.execVmad u d a b g s
  | .vlane u d g => Sys2Proof.Machine.execVlane u d g s
  | .vmov d a g => Sys2Proof.Machine.execVmov d a g s
  | .vmovs d s1 g => Sys2Proof.Machine.execVmovs d s1 g s
  | .vtos s1 a l g => Sys2Proof.Machine.execVtos s1 a l g s
  | .vfroms d s1 l g => Sys2Proof.Machine.execVfroms d s1 l g s
  | .fadd u d a b g => Sys2Proof.Machine.execFadd u d a b g s
  | .fsub u d a b g => Sys2Proof.Machine.execFsub u d a b g s
  | .fmul u d a b g => Sys2Proof.Machine.execFmul u d a b g s
  | .ffma u d a b g => Sys2Proof.Machine.execFfma u d a b g s
  | .ffnma u d a b g => Sys2Proof.Machine.execFfnma u d a b g s
  | .fmin u d a b g => Sys2Proof.Machine.execFmin u d a b g s
  | .fmax u d a b g => Sys2Proof.Machine.execFmax u d a b g s
  | .fabs u d a g => Sys2Proof.Machine.execFabs u d a g s
  | .vfcmp u cc d a b g => Sys2Proof.Machine.execVfcmp u cc d a b g s
  | .frcp u d a g => Sys2Proof.Machine.execFrcp u d a g s
  | .frsq u d a g => Sys2Proof.Machine.execFrsq u d a g s
  | .fsqrt u d a g => Sys2Proof.Machine.execFsqrt u d a g s
  | .fdiv u d a b g => Sys2Proof.Machine.execFdiv u d a b g s
  | .fex2 u d a g => Sys2Proof.Machine.execFex2 u d a g s
  | .flg2 u d a g => Sys2Proof.Machine.execFlg2 u d a g s
  | .frint u d a g => Sys2Proof.Machine.execFrint u d a g s
  | .fclass u d a g => Sys2Proof.Machine.execFclass u d a g s
  | .b2add u d a b g => Sys2Proof.Machine.execB2add u d a b g s
  | .b2sub u d a b g => Sys2Proof.Machine.execB2sub u d a b g s
  | .b2mul u d a b g => Sys2Proof.Machine.execB2mul u d a b g s
  | .b2fma u d a b g => Sys2Proof.Machine.execB2fma u d a b g s
  | .b2max u d a b g => Sys2Proof.Machine.execB2max u d a b g s
  | .b2min u d a b g => Sys2Proof.Machine.execB2min u d a b g s
  | .fcvt d a dst src g => Sys2Proof.Machine.execFcvt d a dst src g s
  | .icvt d a dst src g => Sys2Proof.Machine.execIcvt d a dst src g s
  | .qpk d a s1 g => Sys2Proof.Machine.execQpk d a s1 g s
  | .qunpk d a s1 g => Sys2Proof.Machine.execQunpk d a s1 g s
  | .shfl d a b g => Sys2Proof.Machine.execShfl d a b g s
  | .shflx d a k g => Sys2Proof.Machine.execShflx d a k g s
  | .shflup d a k g => Sys2Proof.Machine.execShflup d a k g s
  | .shfldn d a k g => Sys2Proof.Machine.execShfldn d a k g s
  | .lanebc d a k g => Sys2Proof.Machine.execLanebc d a k g s
  | .vredf d a o g => Sys2Proof.Machine.execVredf d a o g s
  | .vredi d a o g => Sys2Proof.Machine.execVredi d a o g s
  | .vscanf d a o g => Sys2Proof.Machine.execVscanf d a o g s
  | .vldx d a imm => Sys2Proof.Machine.execVldx d a imm s
  | .vstx d a imm => Sys2Proof.Machine.execVstx d a imm s
  | .pand d a b g => Sys2Proof.Machine.execPand d a b g s
  | .por d a b g => Sys2Proof.Machine.execPor d a b g s
  | .pxor d a b g => Sys2Proof.Machine.execPxor d a b g s
  | .pandn d a b g => Sys2Proof.Machine.execPandn d a b g s
  | .pnot d a g => Sys2Proof.Machine.execPnot d a g s
  | .pmov d a g => Sys2Proof.Machine.execPmov d a g s
  | .pset d v g => Sys2Proof.Machine.execPset d v g s
  | .vballot s1 a g => Sys2Proof.Machine.execVballot s1 a g s
  | .vmcnt d a g => Sys2Proof.Machine.execVmcnt d a g s
  | .ldg z s1 r d o k n => Sys2Proof.Machine.execLdg z s1 r d o k n s
  | .stg z s1 r d o k n => Sys2Proof.Machine.execStg z s1 r d o k n s
  | .ldq z s1 r d o k n => Sys2Proof.Machine.execLdq z s1 r d o k n s
  | .stq z s1 r d o k n => Sys2Proof.Machine.execStq z s1 r d o k n s
  | .gather z s1 r d o k n => Sys2Proof.Machine.execGather z s1 r d o k n s
  | .scatter z s1 r d o k n => Sys2Proof.Machine.execScatter z s1 r d o k n s
  | .atomg p w s1 r d o k => Sys2Proof.Machine.execAtomg p w s1 r d o k s
  | .atomq p n s1 r d o k => Sys2Proof.Machine.execAtomq p n s1 r d o k s
  | .fence s1 => Sys2Proof.Machine.execFence s1 s
  | .fenceacq s1 => Sys2Proof.Machine.execFenceacq s1 s
  | .fencerel s1 => Sys2Proof.Machine.execFencerel s1 s
  | .fenceeng s1 => Sys2Proof.Machine.execFenceeng s1 s
  | .pref o k n => Sys2Proof.Machine.execPref o k n s
  | .wbl o k n => Sys2Proof.Machine.execWbl o k n s
  | .invl o k n => Sys2Proof.Machine.execInvl o k n s
  | .flushl o k n => Sys2Proof.Machine.execFlushl o k n s
  | .rowpin d k => Sys2Proof.Machine.execRowpin d k s
  | .rowunpin d a => Sys2Proof.Machine.execRowunpin d a s
  | .rowqry d a => Sys2Proof.Machine.execRowqry d a s
  | .mqput k d r => Sys2Proof.Machine.execMqput k d r s
  | .mqget k d r => Sys2Proof.Machine.execMqget k d r s
  | .mred k d r => Sys2Proof.Machine.execMred k d r s
  | .mredrd k d r => Sys2Proof.Machine.execMredrd k d r s
  | .matom k d r w p => Sys2Proof.Machine.execMatom k d r w p s
  | .rwri k ctl r => Sys2Proof.Machine.execRwri k ctl r s
  | .rrd k ctl r => Sys2Proof.Machine.execRrd k ctl r s
  | .ratom k ctl r => Sys2Proof.Machine.execRatom k ctl r s
  | .nqwait d y => Sys2Proof.Machine.execNqwait d y s
  | .tbinit k q s1 r => Sys2Proof.Machine.execTbinit k q s1 r s
  | .tbarrive k q s1 r => Sys2Proof.Machine.execTbarrive k q s1 r s
  | .tbexpect k q s1 r => Sys2Proof.Machine.execTbexpect k q s1 r s
  | .tbwait k q s1 r => Sys2Proof.Machine.execTbwait k q s1 r s
  | .tbquery k q s1 r => Sys2Proof.Machine.execTbquery k q s1 r s
  | .barsync s1 imm r => Sys2Proof.Machine.execBarsync s1 imm r s
  | .bararrive s1 imm r d => Sys2Proof.Machine.execBararrive s1 imm r d s
  | .barwait s1 imm r => Sys2Proof.Machine.execBarwait s1 imm r s
  | .gatepost d a => Sys2Proof.Machine.execGatepost d a s
  | .gatetake d a y => Sys2Proof.Machine.execGatetake d a y s
  | .gatepoll d a => Sys2Proof.Machine.execGatepoll d a s
  | .mloop a t u o p s1 n => Sys2Proof.Machine.execMloop a t u o p s1 n s
  | .mstep a v w f imm j g => Sys2Proof.Machine.execMstep a v w f imm j g s
  | .mdrain a d t r z => Sys2Proof.Machine.execMdrain a d t r z s
  | .mzero a => Sys2Proof.Machine.execMzero a s
  | .mwait a => Sys2Proof.Machine.execMwait a s
  | .mload a t => Sys2Proof.Machine.execMload a t s
  | .mqry a d => Sys2Proof.Machine.execMqry a d s
  | .tset t a => Sys2Proof.Machine.execTset t a s
  | .tget d t => Sys2Proof.Machine.execTget d t s
  | .tplset d t a => Sys2Proof.Machine.execTplset d t a s
  | .ctrsel n a => Sys2Proof.Machine.execCtrsel n a s
  | .ctrrd d n => Sys2Proof.Machine.execCtrrd d n s
  | .ctrctl d a => Sys2Proof.Machine.execCtrctl d a s
  | .lateError => Sys2Proof.Machine.execLateError s
  | .contextTake => Sys2Proof.Machine.execContextTake s
  | .sleepuntilWake => Sys2Proof.Machine.execSleepuntilWake s
  | .waitlineWake => Sys2Proof.Machine.execWaitlineWake s
  | .waitlineTimeout => Sys2Proof.Machine.execWaitlineTimeout s
  | .nqwaitWake => Sys2Proof.Machine.execNqwaitWake s
  | .nqwaitTimeout => Sys2Proof.Machine.execNqwaitTimeout s
  | .gatetakeWake => Sys2Proof.Machine.execGatetakeWake s
  | .gatetakeTimeout => Sys2Proof.Machine.execGatetakeTimeout s
  | .missedPromise => Sys2Proof.Machine.execMissedPromise s
  | .watchdog => Sys2Proof.Machine.execWatchdog s
  | .launchComplete => Sys2Proof.Machine.execLaunchComplete s
  | .accessComplete => Sys2Proof.Machine.execAccessComplete s
  | .qspBankService => Sys2Proof.Machine.execQspBankService s
  | .writeQueueMerge => Sys2Proof.Machine.execWriteQueueMerge s
  | .pageWalk => Sys2Proof.Machine.execPageWalk s
  | .walkComplete => Sys2Proof.Machine.execWalkComplete s
  | .directoryRequest => Sys2Proof.Machine.execDirectoryRequest s
  | .atomicUnitOp => Sys2Proof.Machine.execAtomicUnitOp s
  | .gatherPacket => Sys2Proof.Machine.execGatherPacket s
  | .memCompletion => Sys2Proof.Machine.execMemCompletion s
  | .bisnpinv => Sys2Proof.Machine.execBisnpinv s
  | .bisnpdata => Sys2Proof.Machine.execBisnpdata s
  | .bisnpcur => Sys2Proof.Machine.execBisnpcur s
  | .biconflictack => Sys2Proof.Machine.execBiconflictack s
  | .kweutResponse => Sys2Proof.Machine.execKweutResponse s
  | .moduleCompletionTimeout => Sys2Proof.Machine.execModuleCompletionTimeout s
  | .relayTimeout => Sys2Proof.Machine.execRelayTimeout s
  | .qput => Sys2Proof.Machine.execQput s
  | .qget => Sys2Proof.Machine.execQget s
  | .atom => Sys2Proof.Machine.execAtom s
  | .red => Sys2Proof.Machine.execRed s
  | .redrd => Sys2Proof.Machine.execRedrd s
  | .headGroupLost => Sys2Proof.Machine.execHeadGroupLost s
  | .rwriPacket => Sys2Proof.Machine.execRwriPacket s
  | .rrdPacket => Sys2Proof.Machine.execRrdPacket s
  | .ratomPacket => Sys2Proof.Machine.execRatomPacket s
  | .relayedRead => Sys2Proof.Machine.execRelayedRead s
  | .relayedWrite => Sys2Proof.Machine.execRelayedWrite s
  | .relayedAtomic => Sys2Proof.Machine.execRelayedAtomic s
  | .ack => Sys2Proof.Machine.execAck s
  | .nak => Sys2Proof.Machine.execNak s
  | .fault => Sys2Proof.Machine.execFault s
  | .resume => Sys2Proof.Machine.execResume s
  | .resp => Sys2Proof.Machine.execResp s
  | .busyNakResend => Sys2Proof.Machine.execBusyNakResend s
  | .ackInterval => Sys2Proof.Machine.execAckInterval s
  | .qputRetry => Sys2Proof.Machine.execQputRetry s
  | .relayContextFetch => Sys2Proof.Machine.execRelayContextFetch s
  | .portDown => Sys2Proof.Machine.execPortDown s
  | .viral => Sys2Proof.Machine.execViral s
  | .attachmentUp => Sys2Proof.Machine.execAttachmentUp s
  | .linkCrcFailure => Sys2Proof.Machine.execLinkCrcFailure s
  | .retrainComplete => Sys2Proof.Machine.execRetrainComplete s
  | .refresh => Sys2Proof.Machine.execRefresh s
  | .copyAccept => Sys2Proof.Machine.execCopyAccept s
  | .land => Sys2Proof.Machine.execLand s
  | .chstatClear => Sys2Proof.Machine.execChstatClear s
  | .engineGrant => Sys2Proof.Machine.execEngineGrant s
  | .passComplete => Sys2Proof.Machine.execPassComplete s
  | .counterAdd => Sys2Proof.Machine.execCounterAdd s
  | .wayMove => Sys2Proof.Machine.execWayMove s
  | .quantumExpiry => Sys2Proof.Machine.execQuantumExpiry s
  | .switchSave => Sys2Proof.Machine.execSwitchSave s
  | .hostQueuePost => Sys2Proof.Machine.execHostQueuePost s
  | .hostMemRead => Sys2Proof.Machine.execHostMemRead s
  | .hostMemWrite => Sys2Proof.Machine.execHostMemWrite s
  | .registerWrite => Sys2Proof.Machine.execRegisterWrite s
  | .rlyctxsizeTakesEffect => Sys2Proof.Machine.execRlyctxsizeTakesEffect s
  | .xltinvcPage => Sys2Proof.Machine.execXltinvcPage s
  | .xltinvcAsid => Sys2Proof.Machine.execXltinvcAsid s
  | .xltinvcPartition => Sys2Proof.Machine.execXltinvcPartition s
  | .xltinvcComplete => Sys2Proof.Machine.execXltinvcComplete s
  | .mailboxDoorbell => Sys2Proof.Machine.execMailboxDoorbell s
  | .revokeComplete => Sys2Proof.Machine.execRevokeComplete s
  | .resetRelease => Sys2Proof.Machine.execResetRelease s
  | .stageAdvance => Sys2Proof.Machine.execStageAdvance s
  | .thermalThrottle => Sys2Proof.Machine.execThermalThrottle s
  | .thermalShutdown => Sys2Proof.Machine.execThermalShutdown s
  | .getLdInfo => Sys2Proof.Machine.execGetLdInfo s
  | .getLdAllocations => Sys2Proof.Machine.execGetLdAllocations s
  | .setLdAllocations => Sys2Proof.Machine.execSetLdAllocations s
  | .getQosControl => Sys2Proof.Machine.execGetQosControl s
  | .setQosControl => Sys2Proof.Machine.execSetQosControl s
  | .getQosStatus => Sys2Proof.Machine.execGetQosStatus s
  | .ident => Sys2Proof.Machine.execIdent s
  | .attest => Sys2Proof.Machine.execAttest s
  | .featget => Sys2Proof.Machine.execFeatget s
  | .featset => Sys2Proof.Machine.execFeatset s
  | .partcreate => Sys2Proof.Machine.execPartcreate s
  | .partdestroy => Sys2Proof.Machine.execPartdestroy s
  | .partsetHoldPolicy => Sys2Proof.Machine.execPartsetHoldPolicy s
  | .partsetWatchdog => Sys2Proof.Machine.execPartsetWatchdog s
  | .partsetQuantum => Sys2Proof.Machine.execPartsetQuantum s
  | .partsetWays => Sys2Proof.Machine.execPartsetWays s
  | .partsetQuota => Sys2Proof.Machine.execPartsetQuota s
  | .partsetGrant => Sys2Proof.Machine.execPartsetGrant s
  | .launch => Sys2Proof.Machine.execLaunch s
  | .wswitch => Sys2Proof.Machine.execWswitch s
  | .replay => Sys2Proof.Machine.execReplay s
  | .fatal => Sys2Proof.Machine.execFatal s
  | .errlogSetRing => Sys2Proof.Machine.execErrlogSetRing s
  | .errlogReadRas => Sys2Proof.Machine.execErrlogReadRas s
  | .errlogClearRas => Sys2Proof.Machine.execErrlogClearRas s
  | .hqset => Sys2Proof.Machine.execHqset s
  | .regreg => Sys2Proof.Machine.execRegreg s
  | .regrevoke => Sys2Proof.Machine.execRegrevoke s
  | .gatecreate => Sys2Proof.Machine.execGatecreate s
  | .gatefreeze => Sys2Proof.Machine.execGatefreeze s
  | .gateexport => Sys2Proof.Machine.execGateexport s
  | .gateimport => Sys2Proof.Machine.execGateimport s
  | .gatethaw => Sys2Proof.Machine.execGatethaw s
  | .gatedestroy => Sys2Proof.Machine.execGatedestroy s
  | .podconfigGroups => Sys2Proof.Machine.execPodconfigGroups s
  | .podconfigPrivilege => Sys2Proof.Machine.execPodconfigPrivilege s
  | .podconfigTimeouts => Sys2Proof.Machine.execPodconfigTimeouts s
  | .podconfigRoutes => Sys2Proof.Machine.execPodconfigRoutes s
  | .podconfigCapacities => Sys2Proof.Machine.execPodconfigCapacities s
  | .podctlClearDeadpeer => Sys2Proof.Machine.execPodctlClearDeadpeer s
  | .podctlDown => Sys2Proof.Machine.execPodctlDown s
  | .podctlRetrain => Sys2Proof.Machine.execPodctlRetrain s
  | .dbgopenOpen => Sys2Proof.Machine.execDbgopenOpen s
  | .dbgopenClose => Sys2Proof.Machine.execDbgopenClose s
  | .dbgctlStop => Sys2Proof.Machine.execDbgctlStop s
  | .dbgctlStep => Sys2Proof.Machine.execDbgctlStep s
  | .dbgctlResume => Sys2Proof.Machine.execDbgctlResume s
  | .dbgctlCoreStop => Sys2Proof.Machine.execDbgctlCoreStop s
  | .dbgctlCoreResume => Sys2Proof.Machine.execDbgctlCoreResume s
  | .ctrwrite => Sys2Proof.Machine.execCtrwrite s
  | .illegalInstruction => Sys2Proof.Machine.execIllegalInstruction s
  | .packetForward => Sys2Proof.Machine.execPacketForward s
  | .bindVppb => Sys2Proof.Machine.execBindVppb s
  | .unbindVppb => Sys2Proof.Machine.execUnbindVppb s
  | .spillComplete => Sys2Proof.Machine.execSpillComplete s

end Sys2Proof.Machine
end

