-- ==== Sys2Proof/Machine/Issue.lean ====
section
/-!
DEFINITION. What a step does around exec: latching the operands of an event, issuing a unit's next word or chained pair
(09_encoding R205 to R211, R217; 14_traps_preemption R333, R343), and the end of a step.
-/
namespace Sys2Proof.Machine

/-- An event runs: its operands are latched, and its row is executed. A package that has shut down does nothing until it is
released from reset (15 R360). -/
def runCall (s : State) (c : Call) : Out :=
  if s.dev.off && c ≠ .resetRelease then .next s else exec c.row { s with issue := none, call := c }

/-- The counters see a word of a class (13 R330): vector words, uniform words. -/
def State.chargeWord (s : State) (part major : Nat) : State :=
  match pipeClass major with
  | .v => s.charge part 0x002 1
  | .u => s.charge part 0x003 1
  | _ => s

/-- The uniform registers that a word has written: a result that an earlier word of the other arm still owes to one of them comes
before it in issue order, and no longer reaches it (07 R180). -/
def State.hide (s : State) (i : Issue) (fmt : BitVec 8) (j : Instr) : State :=
  let ns := (regsWritten fmt j).filterMap fun r => match r with
    | .s n => some n
    | _ => none
  if ns = [] then s
  else s.modWave i.seq i.wid fun w =>
    let b := i.arm.other
    let u := w.unit b
    { w.setUnit b { u with hidden := if u.wait = .none then u.hidden else u.hidden ++ ns } with
      pend := mapWhere w.pend (fun o => !o.of i.arm && o.dest ≠ .none) fun o => { o with hidden := o.hidden ++ ns } }

/-- The lanes that a word's guard predicate leaves to it (11 R251); the predicate of VSEL is no guard (R257). -/
def Wave.guardLanes (w : Wave) (i : Instr) : Lanes :=
  match i, (regsRead 0 i).getLast? with
  | .vsel .., _ => allLanes
  | _, some (.p k) => (w.p k).bits
  | _, _ => allLanes

/-- The vector registers that a word writes in some of their lanes, and not in all 64: a count. -/
def Wave.partWrites (w : Wave) (u : UnitSt) (lit : Word) (i : Instr) : Nat :=
  let m := u.mask &&& w.guardLanes i
  let n := ((regsWritten u.fmt i).filter fun r => match r with
    | .v _ => true
    | _ => false).length
  match i with
  | .vfroms _ _ l _ => bitOf (m.getLsbD l.toNat)
  | .vldx _ _ _ => bitOf (u.mask ≠ 0 && u.mask ≠ allLanes)
  | .vstx _ a imm =>
    let rs := dedup ((lanesOf u.mask).map fun k => (w.indexOf a (immediate imm lit) k).toNat)
    if u.mask = allLanes && rs.length = 1 then 0 else rs.length
  | .qpk _ _ _ _ => 0
  | .qunpk _ _ _ _ => 0
  | .mqget _ _ _ => 0
  | .mredrd _ _ _ => 0
  | .rrd _ _ _ => 0
  | .ratom _ _ _ => n
  | _ => if m = 0 || m = allLanes then 0 else n

/-- A vector register that a word writes in fewer than 64 lanes may have to be expanded first (11 R253), which its counter sees (13
R330): how many are is a free value, since no rule says which registers are held in another form (log 43). -/
def State.chargeExpansion (s : State) (w : Wave) (u : UnitSt) (lit : Word) (i : Instr) : State :=
  let n := w.partWrites u lit i
  if n = 0 then s
  else
    let (k, s1) := s.fresh
    s1.charge w.part 0x005 (Config.expansions k % (n + 1))

/-- What follows a word that has performed: its registers come after what the other arm is owed, and the counters see it. -/
def State.wordDone (s : State) (w : Wave) (u : UnitSt) (i : Issue) (x : Nat) (a : Instr) : State :=
  ((s.hide i u.fmt a).chargeWord w.part (majorOf x)).chargeExpansion w u i.lit a

/-- The latched word had an effect: it neither trapped nor stalled. -/
def State.performed (s : State) : Bool :=
  match s.issue with
  | some i => !i.trapped && !i.stalled
  | none => true

/-- A word that waits with no effect, latched. -/
def State.waiting (s : State) (i : Issue) : State := { s with issue := some { i with stalled := true } }

/-- The latched word stalled, with no effect. -/
def State.stalled (s : State) : Bool :=
  match s.issue with
  | some i => i.stalled
  | none => false

/-- The state in which the word `i` of a unit is latched for exec; the unit's stamps of selection start anew. -/
def State.latch (s : State) (i : Issue) : State :=
  match s.wave? i.seq i.wid with
  | none => { s with issue := some i }
  | some w =>
    let u := w.unit i.arm
    let w1 := w.setUnit i.arm { u with lastIssue := s.now, yielded := false }
    let w2 := if w.started then w1 else { w1 with started := true, phaseStart := s.now }
    { s.setWave w2 with issue := some i }

/-- A word that stalled has not issued (07 R170, R183): its unit's stamps are those it had in `s`, and its wait is counted from the
next cycle at the earliest (log 36). -/
def State.unlatch (s : State) (i : Issue) (t : State) : State :=
  if !t.stalled then t
  else
    match s.wave? i.seq i.wid with
    | none => t
    | some w0 => t.modWave i.seq i.wid fun w =>
      { w.setUnit i.arm { w.unit i.arm with
          lastIssue := (w0.unit i.arm).lastIssue, yielded := (w0.unit i.arm).yielded, ready := s.now + 1 } with
        started := w0.started, phaseStart := w0.phaseStart }

/-- Words that access memory, or may: those of the memory path, the engine and control (09 R209). -/
def accesses (major : Nat) : Bool := pipeClass major = .m || pipeClass major = .e || pipeClass major = .c

/-- An acquire of the unit has not performed, and no later access may yet (04 R107): so it is in a handler that a Watchdog trap has
entered meanwhile (04 R126). -/
def Wave.acquiring (w : Wave) (a : Arm) : Bool := w.pend.any fun o => o.of a && o.acquire

/-- A word that decodes to no instruction raises Illegal Instruction (09 R217). -/
def illegalWord (s : State) (i : Issue) (e : DecodeErr) : Out :=
  exec .illegalInstruction { s with issue := some i, call := .illegalInstruction e.subcode }

/-- The unit of the latched word waits in a TBWAIT or GATETAKE, which may still trap (05 R143, 15 R351). -/
def State.sleepsInPair (s : State) (i : Issue) : Bool :=
  match s.wave? i.seq i.wid with
  | none => false
  | some w =>
    match (w.unit i.arm).wait with
    | .tbar .. => true
    | .gate .. => true
    | _ => false

/-- A chained pair (09 R206, R208, R210): both words are decoded, the first before the second; the pair is checked; the first
performs, then the second. When either traps or stalls, neither performs: a TBWAIT or GATETAKE that has to wait, and may trap
yet, waits alone, and the other word performs once it has ended. -/
def issuePair (s : State) (i1 i2 : Issue) (both : Bool) (w1 w2 : Nat) : Out :=
  match decodeWord w1, decodeWord w2 with
  | .error e, _ => illegalWord (s.latch i1) i1 e
  | .ok a, .error e =>
    onUnit (s.latch i1) fun w _ u =>
      match illegalSub s w (u.at i1) i1.lit a with
      | some sub => takeTrap (s.latch i1) w i1 1 sub 0
      | none => illegalWord (s.latch i2) i2 e
  | .ok a, .ok b =>
    let sl := s.latch i1
    onUnit sl fun w _ u =>
      match illegalSub s w (u.at i1) i1.lit a, illegalSub s w (u.at i2) i2.lit b with
      | some sub, _ => takeTrap sl w i1 1 sub 0
      | none, some sub => takeTrap { sl with issue := some i2 } w i2 1 sub 0
      | none, none =>
        match chainSub u.fmt (majorOf w1) (majorOf w2) a b both with
        | some sub => takeTrap sl w i1 2 sub 0
        | none =>
          if !w.sourcesReady i1.arm u.fmt b || (w.acquiring i1.arm && (accesses (majorOf w1) || accesses (majorOf w2))) then
            .next sl.stall
          else
            match exec a sl with
            | .next s1 =>
              if !s1.performed then .next s1
              else
                match exec b { sl with issue := some i2 } with
                | .next t =>
                  if !t.performed then .next t
                  else if t.sleepsInPair i2 then .next (t.wordDone w u i2 w2 b)
                  else if s1.sleepsInPair i1 then .next (s1.wordDone w u i1 w1 a)
                  else
                    match exec b { s1 with issue := some i2 } with
                    | .next s2 =>
                      .next ((s2.wordDone w u i1 w1 a).wordDone w u i2 w2 b)
                    | r => r
                | r => r
            | r => r

/-- One word on its own. -/
def issueOne (s : State) (w : Wave) (i : Issue) (x : Nat) : Out :=
  match decodeWord x with
  | .error e => illegalWord (s.latch i) i e
  | .ok a =>
    if w.acquiring i.arm && accesses (majorOf x) then .next (s.waiting i)
    else
      match exec a (s.latch i) with
      | .next s1 => .next (if s1.performed then s1.wordDone w (w.unit i.arm) i x a else s1)
      | r => r

/-- The wave stops after its single step (14 R343), when the word did not stall: it issued, or trapped. -/
def State.endSingleStep (s : State) (seq wid : Nat) : State := if s.stalled then s else s.stopStep seq wid

/-- The first word of a pair has performed after its second, which had to wait: the unit goes on behind the pair (09 R206). -/
def State.passPair (s : State) (i : Issue) : State :=
  if !s.performed then s
  else s.modWave i.seq i.wid fun w =>
    let u := w.unit i.arm
    w.setUnit i.arm { u with pc := nextWord u.pc, skip := none }

/-- An outcome with its next state changed. -/
def mapNext (r : Out) (f : State → State) : Out :=
  match r with
  | .next s => .next (f s)
  | r => r

/-- The words of a fetched packet at a unit's pc: a pair when C joins the word to the next (09 R208), whose second word may have
performed already. -/
def issueFrom (s : State) (w : Wave) (a : Arm) (p : FetchedPacket) : Out :=
  let u := w.unit a
  let k := wordIndex u.pc
  let x := (p.words.getD k 0).toNat
  let y := (p.words.getD (k + 1) 0).toNat
  let lit := p.words.getD 3 0
  let i : Issue :=
    { seq := w.seq, wid := w.wid, arm := a, off := p.off, idx := k, lit := lit, second := false, trapped := false,
      stalled := false }
  let ready := match decodeWord x with
    | .ok j => w.sourcesReady a u.fmt j
    | .error _ => true
  let w0 := (p.words.getD 0 0).toNat
  let w1 := (p.words.getD 1 0).toNat
  if !ready then .next (s.waiting i)
  else
    mapNext
      (if u.skip = some u.pc then mapNext (issueOne s w i x) fun t => t.passPair i
      else if k < 2 && chainBit x && !isHint x && !isHint y then
        issuePair s i { i with idx := k + 1, second := true } (chainBit w0 && chainBit w1 && !isHint w0 && !isHint w1) x y
      else issueOne s w i x)
      (s.unlatch i)

/-- A unit's turn: its next word or chained pair issues, unless a watchdog or a late error is due first (14 R333). -/
def issueTurn (s : State) (w : Wave) (a : Arm) : Out :=
  if s.watchdogDue w then runCall s (.watchdog w.seq w.wid)
  else if w.late ≠ [] && w.handler.isNone then runCall s (.lateError w.seq w.wid (decide (a = .e)))
  else
    let u := w.unit a
    let i := w.fetching a
    match { s with issue := some i }.fetch w i u with
    | .stop s1 => .next (s1.endSingleStep w.seq w.wid)
    | .packet s1 p =>
      match s1.wave? w.seq w.wid with
      | none => .next s1
      | some w1 => mapNext (issueFrom s1 w1 a p) fun t => t.endSingleStep w.seq w.wid

/-! ## The slots' choice (07 R163, R183, R184) -/

/-- The candidate's turn would not find its word stalled: a unit is ready in the sense of 07 R183 only then (log 36). -/
def State.takesSlot (s : State) (x : Cand) : Bool :=
  match issueTurn s x.wave x.arm with
  | .next t => !t.stalled
  | _ => true

/-- Two candidates of one slot. -/
def Cand.sameSlot (x y : Cand) : Bool := x.core = y.core && x.slot = y.slot

/-- The units to which their slots give the cycle, and those that are only looked at, since their words stall: no ready unit of the
slot comes before them. -/
def State.winners (s : State) : List Cand :=
  let cs := s.cands
  let first := cs.filter fun y => (cs.any fun x => y.sameSlot x && y.beats x) && s.takesSlot y
  cs.filter fun x => !(first.any fun y => y.sameSlot x && y.beats x)

/-- The units that may issue in this cycle: the winners of the slots, but for one whose uniform word waits for that of slot CYC
mod 2 of its core (07 R163). -/
def State.issuers (s : State) : List Cand :=
  let ws := s.winners
  ws.filter fun x => x.slot = s.now % 2 || !s.uniform x
    || !(ws.any fun y => y.core = x.core && y.slot ≠ x.slot && s.uniform y && s.takesSlot y)

/-- The unit may issue in this cycle. -/
def State.mayIssue (s : State) (w : Wave) (a : Arm) : Bool :=
  s.issuers.any fun x => x.wave.seq = w.seq && x.wave.wid = w.wid && x.arm = a

/-- The unit that issues next by default: of those that may, the one that has waited longest (log 1). -/
def State.selected (s : State) : Option Cand :=
  s.issuers.foldl (fun (best : Option Cand) x =>
    match best with
    | none => some x
    | some b => if b.wait < x.wait then some x else some b) none

/-- A unit's turn, when its slot selects it in this cycle; else nothing (07 R183). -/
def issueUnit (s : State) (seq wid : Nat) (a : Arm) : Out :=
  match s.wave? seq wid with
  | none => .next s
  | some w => if s.mayIssue w a then issueTurn s w a else .next s

/-- The unit's word would stall, and a look at it changes nothing but what the look itself counts: the unit is not ready (07 R183, log
36). Of the waves only its own is compared: a stalled look reaches another only through the caches. -/
def State.idleTurn (s : State) (w : Wave) (a : Arm) : Bool :=
  let rest (x : State) : State := { x with waves := [], issue := none, charges := [] }
  match issueTurn s w a with
  | .next t =>
    t.stalled && decide (rest t = rest s) && (match t.wave? w.seq w.wid with
      | some x => decide ({ x.unit a with ready := (w.unit a).ready } = w.unit a ∧ x.pend = w.pend)
      | none => false)
  | _ => false

/-- A unit that is not ready, or whose wave has no issue context and so is parked (07 R166), becomes so in a later cycle at the
earliest, from which its wait is counted (07 R183, R184). -/
def State.stampReady (s : State) (w : Wave) (a : Arm) : UnitSt :=
  if w.status = .running && !w.saved && !w.dbgStop && w.ctx.isSome && w.unitIssues a && !s.idleTurn w a then w.unit a
  else { w.unit a with ready := s.now + 1 }

/-- A wave's stamps at the end of a step (07 R166, R167): when it parked, when it and its units became ready (one more than CYC; 0
while it is not so), and its progress counter. -/
def State.stamped (s : State) (w : Wave) : Wave :=
  let w1 := if s.waveReady w then { w with parkedAt := 0, readyAt := if w.readyAt = 0 then s.now + 1 else w.readyAt }
    else { w with readyAt := 0, parkedAt := if w.parkedAt = 0 then s.now + 1 else w.parkedAt }
  { w1 with
    unitT := s.stampReady w .t, unitE := s.stampReady w .e,
    progress := if w.counting then w.progress + 1 else w.progress }

/-- A cycle of the partitions that hold their slices (13 R330, event 0x001). -/
def State.countCycle (s : State) : State :=
  s.parts.foldl (fun (t : State) p => let m := t.countersFor p 1; if m = 0 then t else t.addCounters p.num m 1) s

end Sys2Proof.Machine
end

