-- ==== Sys2Proof/Machine/Outside.lean ====
section
/-!
DEFINITION. What comes from outside the package and is no row of the opcode table (log 48): array and soft errors
(02_on_package_memory R69 to R71), the stores of other packages at a module (03_pod_memory R74, 18 R374), the return of their
head groups (03 R96), their arrivals at a scoped barrier (12_isa_memory_sync R302), the host's digests (15 R359) and its choice of
CXL.cache (15 R347).
-/
namespace Sys2Proof.Machine

/-! ## Array ECC (R69, R70) -/

/-- The stack whose array is read for a codeword: no die holds the sector, and the stack is there. -/
def State.arrayRead (s : State) (key : Nat) : Option Nat :=
  match physPlace key with
  | .hbm d _ =>
    if ((s.links[d]?).map StackLink.down).getD true || ((s.l2Holders (lineKey key)).any fun l => l.valid key) then none else some d
  | _ => none

/-- A read of a codeword whose error is corrected, or is not: then the whole sector is poisoned, until a write covers it. -/
def State.arrayError (s : State) (key : Nat) (corrected : Bool) : State :=
  match s.arrayRead key with
  | none => s
  | some d =>
    if corrected then s.modLink d fun l => { l with corr := saturate (l.corr + 1) 32 }
    else (s.setPoison key).modLink d fun l => { l with uncorr := saturate (l.uncorr + 1) 24, addr := key / 32 * 32 }

/-! ## Soft errors (R71) -/

/-- A correction, or a poisoning, counted in an error class. -/
def State.countSoft (s : State) (cls : Nat) (poisoned : Bool) : State :=
  match s.softErrors[cls]? with
  | some x => { s with softErrors := s.softErrors.set cls (if poisoned then (x.1, x.2 + 1) else (x.1 + 1, x.2)) }
  | none => s

/-- A QSP word: corrected and rewritten, or poisoned. -/
def State.qspError (s : State) (key : Nat) (fatal : Bool) : State :=
  let t := s.countSoft 0 fatal
  if fatal then t.setPoison key else t

/-- A sector of a quad's L1: corrected; or refetched from the L2 when it is clean, which is neither a correction nor a poisoning;
or its dirty bytes carry poison. -/
def State.l1Error (s : State) (quad key : Nat) (fatal : Bool) : State :=
  match s.l1Find quad (lineKey key) with
  | none => s
  | some l =>
    let x := l.sector key
    if x.present = 0 then s
    else if !fatal then s.countSoft 1 false
    else if x.dirty = 0 then s.l1DropSector quad key
    else (s.l1Set (l.setSector key { x with poison := true })).countSoft 1 true

/-- A sector of a die's L2: corrected and rewritten, or delivered and written back with poison. -/
def State.l2Error (s : State) (die key : Nat) (fatal : Bool) : State :=
  match s.l2Find die (lineKey key) with
  | none => s
  | some l =>
    if !l.valid key then s
    else
      let t := s.countSoft 2 fatal
      if fatal then t.setPoison key else t

/-- A line's tag in a die's L2, or its directory entry at its home die: corrected; or its line is recalled from every die, and dirty
sectors go to memory with poison. A line that a Ladle channel owns is answered later (R59). -/
def State.tagError (s : State) (die line : Nat) (fatal : Bool) : State :=
  let there := (s.l2Find die line).isSome || (die = homeDie s.pod line && !(s.l2Holders line).isEmpty)
  if !there || s.ladleOwns line then s
  else if !fatal then s.countSoft 3 false
  else
    let bad := [line, line + 64].filter fun k => (s.l2Holders line).any fun l => l.dirty k
    let t := bad.foldl State.setPoison (s.recallAll line)
    if bad = [] then t else t.countSoft 3 true

/-- An element of a wave's vector register: corrected, or poisoned. -/
def State.vregError (s : State) (seq wid reg lane : Nat) (fatal : Bool) : State :=
  match s.wave? seq wid with
  | none => s
  | some w =>
    match w.vregs[reg]? with
    | none => s
    | some v =>
      if w.saved then s
      else
        let t := s.countSoft 4 fatal
        if fatal then t.setWave { w with vregs := w.vregs.set reg { v with poison := v.poison ||| BitVec.ofNat 64 (2 ^ lane) } } else t

/-! ## Other packages -/

/-- The lead head is that of another package at a module of this one. -/
def State.foreignHead (s : State) (m lead : Nat) : Bool :=
  (s.pod.attOf m).isSome && (packagesOf s.pod.q m).any fun g => g ≠ s.pod.self && leadHead s.pod.q m g = lead

/-- Another package has stored bytes to a line: the module gave it any-exclusive permission, for which it took the line from this
package (R74, R57), and holds the bytes for whoever reads next. A line that a Ladle channel owns keeps the snoop waiting (R59), and so
does a request of this package for it. -/
def State.foreignStore (s : State) (m addr lead : Nat) (data : List Byte) : State :=
  let key := moduleKey m addr
  let line := lineKey key
  if !s.foreignHead m lead || s.lostHeads.contains (m, lead) || s.recallWaits key data.length
      || s.memReqs.any fun r => r.key = line then s
  else
    let t := ({ s with snoopAnswers := [] } : State).recall key data.length true
    ({ t with holders := { module := m, line := line, lead := lead, exclusive := true } :: t.holders } : State).poke key data

/-- An arrival from another package at a barrier of the PART or POD network (R302). -/
def State.foreignArrival (s : State) (k : BarKey) (id n : Nat) : State := (s.setBar ((s.bar k id).arrive n)).barChanged k id

/-- The head group of another package is back (R96): routes to it return. -/
def State.foreignHeadBack (s : State) (m lead : Nat) : State :=
  if !s.foreignHead m lead then s
  else ({ s with lostHeads := s.lostHeads.filter fun x => x ≠ (m, lead) } : State).reroute s

/-! ## The host -/

/-- A digest that the host supplies extends measurement register 6 or 7 (15 R359). -/
def State.hostDigest (s : State) (reg digest : Nat) : State :=
  if !s.skolisUp then s
  else
    { s with dev := { s.dev with
        measures := s.dev.measures.mapIdx fun i m => if i = reg then extendMeasure m digest else m } }

/-- The host enables CXL.cache for a bound logical device and assigns its CacheID, or leaves it disabled (15 R347). -/
def State.hostCache (s : State) (ld : Nat) (enable : Bool) (cacheId : Nat) : State :=
  s.modLd ld fun l => if l.bound then { l with cacheEnabled := enable, cacheId := cacheId } else l

/-! ## All of it -/

/-- The operands are such as the spec allows. -/
def Outside.wf : Outside → Bool
  | .arrayCorrected key => decide (key < 2 ^ 52)
  | .arrayUncorrectable key => decide (key < 2 ^ 52)
  | .qspSoft key _ => isQspKey key && decide (key < qspKey 256 0)
  | .l1Soft quad _ _ => decide (quad < 256)
  | .l2Soft die _ _ => decide (die < 8)
  | .tagSoft die _ _ => decide (die < 8)
  | .vregSoft _ _ _ lane _ => decide (lane < 64)
  | .moduleStore m addr lead data =>
    decide (m < 64) && decide (lead < 64) && decide (data ≠ []) && decide (addr % 128 + data.length ≤ 128) && decide (addr < 2 ^ 42)
  | .barArrive k id n => decide (k.part = 16) && (decide (k.scope = .part) || decide (k.scope = .pod && k.inst = 0)) && decide (id < 16)
      && decide (0 < n) && decide (n < 65536)
  | .headGroupBack m lead => decide (m < 64) && decide (lead < 64)
  | .hostDigest reg digest => (decide (reg = 6) || decide (reg = 7)) && decide (digest < 2 ^ 512)
  | .hostCache ld _ _ => decide (ld < 16)

/-- What happens outside, applied. -/
def State.outside (s : State) : Outside → State
  | .arrayCorrected key => s.arrayError key true
  | .arrayUncorrectable key => s.arrayError key false
  | .qspSoft key fatal => s.qspError key fatal
  | .l1Soft quad key fatal => s.l1Error quad key fatal
  | .l2Soft die key fatal => s.l2Error die key fatal
  | .tagSoft die key fatal => s.tagError die (lineKey key) fatal
  | .vregSoft seq wid reg lane fatal => s.vregError seq wid reg lane fatal
  | .moduleStore m addr lead data => s.foreignStore m addr lead data
  | .barArrive k id n => s.foreignArrival k id n
  | .headGroupBack m lead => s.foreignHeadBack m lead
  | .hostDigest reg digest => s.hostDigest reg digest
  | .hostCache ld enable cacheId => s.hostCache ld enable cacheId

end Sys2Proof.Machine
end

