-- ==== Sys2Proof/Machine/Policy.lean ====
section
/-!
DEFINITION. What happens next when the turn list names nothing (log 1): a message under way is delivered, an internal event that
is due happens, or a unit issues; and performing a turn. Messages of one channel are not delivered out of order.
-/
namespace Sys2Proof.Machine

/-! ## The order of messages -/

/-- A command that waits in its place: the partition it names is in mid-switch, or it is a PARTDESTROY under way. -/
def State.cmdHeld (s : State) (k : Call) (c : Cmd) : Bool :=
  (s.cmdParts k c).any s.midSwitch || (match k with
    | .partdestroy _ => true
    | _ => false)

/-- A request for a module. -/
def requestOf : Call → Option KReq
  | .qput r => some r
  | .qget r => some r
  | .atom r => some r
  | .red r => some r
  | .redrd r => some r
  | _ => none

/-- A later message must not pass an earlier one: commands of one mailbox (15 R356), or that name one partition (R354); a port's
requests for a module, and its responses (03 R76). -/
def State.ordered (s : State) (a b : Call) : Bool :=
  match commandOf a, commandOf b with
  | some x, some y =>
    (x.mbx = y.mbx && !s.cmdHeld a x) || (s.cmdParts a x).any fun p => (s.cmdParts b y).contains p
  | _, _ =>
    match requestOf a, requestOf b with
    | some (x : KReq), some (y : KReq) => x.module = y.module && x.lead = y.lead && x.port = y.port
    | _, _ =>
      match a, b with
      | .kweutResponse x, .kweutResponse y => x.att = y.att && x.port = y.port
      | _, _ => false

/-- The k-th message under way may be delivered: none before it must come first. -/
def State.deliverable (s : State) (k : Nat) : Bool :=
  match s.agenda[k]? with
  | none => false
  | some c => !((s.agenda.take k).any fun b => s.ordered b c)

/-- The k-th message under way is delivered. -/
def deliver (s : State) (k : Nat) : Out :=
  if !s.deliverable k then .next s
  else
    match s.agenda[k]? with
    | none => .next s
    | some c => runCall { s with agenda := dropAt s.agenda k } c

/-! ## Internal events that are due -/

/-- An event when it is due. -/
def dueIf (b : Bool) (c : Call) : List Call := if b then [c] else []

/-- The events that a unit's wait is due. -/
def State.unitDues (s : State) (w : Wave) (a : Arm) : List Call :=
  let e := decide (a = .e)
  match (w.unit a).wait with
  | .sleepUntil t => dueIf (s.passed t) (.sleepuntilWake w.seq w.wid e)
  | .line _ dl woken =>
    dueIf woken (.waitlineWake w.seq w.wid e) ++ dueIf (s.deadlineReached dl) (.waitlineTimeout w.seq w.wid e)
  | .nq _ _ dl _ woken =>
    dueIf woken (.nqwaitWake w.seq w.wid e) ++ dueIf (!woken && s.deadlineReached dl) (.nqwaitTimeout w.seq w.wid e)
  | .gate h _ dl _ woken _ _ =>
    dueIf woken (.gatetakeWake (h % 65536)) ++ dueIf (!woken && s.deadlineReached dl) (.gatetakeTimeout w.seq w.wid e)
  | .tbar b .. => dueIf (s.promiseMissed w (s.peekNat b.key 16)) (.missedPromise w.seq w.wid e)
  | .spill => [.spillComplete w.seq w.wid]
  | _ => []

/-- The events that a part of a wave's operation is due. -/
def State.partDues (s : State) (w : Wave) (p : OpPart) : List Call :=
  if p.done then []
  else
    match p.route with
    | .cache =>
      dueIf (!p.noAlloc && s.places (coreDie w.core) (lineKey p.key) w.part && !s.holds (coreDie w.core) p.key && !s.keyDown p.key)
        (.directoryRequest (coreDie w.core) (paOfKey s.pod (sectorKey p.key) / 64) (match p.act with
          | .write _ => true
          | _ => false) w.part)
    | .qsp _ => [.qspBankService (coreQuad w.core)]
    | .atomicUnit => [.atomicUnitOp (homeDie s.pod (lineKey p.key)) (l2SliceOf s.pod (lineKey p.key))]
    | .gather die => [.gatherPacket die]
    | .runner => []

/-- The events that an operation of a wave is due. -/
def State.opDues (s : State) (w : Wave) (o : PendOp) : List Call :=
  dueIf (o.finished || o.parts.any fun p => !p.done && p.route = .cache) (.accessComplete w.seq w.wid o.id)
    ++ o.parts.flatMap (s.partDues w)

/-- The events that a wave is due. -/
def State.waveDues (s : State) (w : Wave) : List Call :=
  w.pend.flatMap (s.opDues w)
    ++ (if w.status = .running && !w.saved then
          s.unitDues w .t ++ (if w.divergent then s.unitDues w .e else [])
            ++ dueIf (s.watchdogDue w && w.unitT.wait ≠ .spill && w.unitE.wait ≠ .spill) (.watchdog w.seq w.wid)
        else [])

/-- A sector presented to a bank of the scratchpad, by its quad (05 R132). -/
def Move.bankDue (m : Move) : List Call :=
  match m.st with
  | .reading _ => [.qspBankService (qspQuad m.src)]
  | .writing .. => [.qspBankService (qspQuad m.dst)]
  | _ => []

/-- The events that a Ladle channel is due. -/
def State.chanDues (s : State) (c : Chan) : List Call :=
  let walking := s.walks.any fun k => k.clients.contains (.chan c.die c.ch)
  dueIf (c.doors ≠ [] && !walking) (.copyAccept c.die c.ch) ++ dueIf (c.copies ≠ []) (.land c.die c.ch 4)
    ++ c.copies.flatMap fun x => x.moves.flatMap Move.bankDue

/-- The events that a quad's engine is due. -/
def State.engineDues (s : State) (e : Engine) : List Call :=
  let gone := !(e.entries.any fun x => x.granted && (s.entrySlot x).isSome)
  dueIf (!e.running && (Engine.choose { e with entries := e.entries.filter fun x => !s.entryStopped x } s.now).isSome)
      (.engineGrant e.quad)
    ++ dueIf (e.running && (e.segs = [] || gone)) (.passComplete e.quad)
    ++ dueIf (e.running && e.segs ≠ []) (.qspBankService e.quad)

/-- The events of the memory system that are due. -/
def State.memoryDues (s : State) : List Call :=
  (dedup (s.wq.map WqEntry.quad)).map Call.writeQueueMerge
    ++ s.memReqs.map (fun r => Call.memCompletion (keyModule r.key) (keyOffset r.key / 128) r.kind)
    ++ s.atomQ.map (fun r => Call.atomicUnitOp (homeDie s.pod (lineKey r.key)) (l2SliceOf s.pod (lineKey r.key)))
    ++ (s.fills.filter fun f => !s.holds f.die f.sector && !s.keyDown f.sector).map
        (fun f => Call.directoryRequest f.die (paOfKey s.pod f.sector / 64) false f.tag)
    ++ (s.snoops.filter fun x => !x.held).map
        (fun x => if x.inv then Call.bisnpinv x.module x.next x.left else Call.bisnpdata x.module x.next x.left)
    ++ (List.range 9).flatMap (fun d =>
        dueIf (s.walks.any fun k => k.die = d && !k.started) (.pageWalk d)
          ++ dueIf (s.walks.any fun k => k.die = d && k.started) (.walkComplete d 0))
    ++ s.chans.flatMap s.chanDues
    ++ s.engines.flatMap s.engineDues

/-- The events of a relay context that are due. -/
def State.ctxDues (s : State) (c : Rctx) : List Call :=
  dueIf (c.spilled && c.wanted) (.relayContextFetch c.id)
    ++ (List.range 4).flatMap fun k =>
        dueIf (s.busyDue (c.stream k)) (.busyNakResend c.id k)
          ++ dueIf ((c.stream k).ackDue ≠ 0 && (c.stream k).ackDue + 256 ≤ s.now) (.ackInterval c.id k)

/-- The events of the pod that are due. -/
def State.podDues (s : State) : List Call :=
  s.runner.ctxs.flatMap s.ctxDues
    ++ (dedup (s.runner.sending.map Sending.via
          ++ (s.runner.queues.filter fun q => q.bell && !s.runner.asking q.peer true).map RQueue.peer)).map Call.qputRetry
    ++ (dedup (s.runner.ctxs.map fun c => c.id.peer)).flatMap (fun p => dueIf (s.relayTimedOut p) (.relayTimeout p))
    ++ (List.range s.pod.atts.length).flatMap (fun a => dueIf (s.moduleTimedOut a) (.moduleCompletionTimeout a))

/-- The events of a partition that are due. -/
def State.partitionDues (s : State) (p : Part) : List Call :=
  let parked := s.waves.any fun w =>
    w.part = p.num && ((unpostedFault w.unitT.wait).isSome || (unpostedFault w.unitE.wait).isSome)
  dueIf ((p.events ≠ [] && s.hqOpen p) || (parked && s.hqRoom p)) (.hostQueuePost p.num)
    ++ dueIf (p.xltGo && !s.agenda.any (invalidates p.num) && s.partQuiet p.num) (.xltinvcComplete p.num)
    ++ dueIf (p.ctxSizeNext.isSome && !s.runnerBusy p.num) (.rlyctxsizeTakesEffect p.num)
    ++ (p.grants.filter fun g => g.revoker.isSome && !s.grantBusy p.num g).map (fun g => Call.revokeComplete p.num g.idx)

/-- A context that a wave of a core can take. -/
def State.contextDue (s : State) (core : Nat) : List Call :=
  match s.contextless core with
  | none => []
  | some w => dueIf ((s.freeContext core).isSome || (s.giver core w.readyAt).isSome) (.contextTake w.seq w.wid)

/-- The events of Skolis and the sequencer that are due. -/
def State.systemDues (s : State) : List Call :=
  s.parts.flatMap s.partitionDues
    ++ s.charges.map (fun c => Call.counterAdd c.part c.mask c.n)
    ++ (dedup (s.waves.map Wave.core)).flatMap s.contextDue
    ++ (s.launches.filter fun l => s.launchDone l.seq).map (fun l => Call.launchComplete l.seq)
    ++ (s.switches.filter fun x => s.drained x.out).map (fun x => Call.switchSave x.set)
    ++ (s.sets.filter fun g => s.quantumOver g && !(s.switches.any fun x => x.set = g.num) && (s.nextMember g).isSome).map
        (fun g => Call.quantumExpiry g.num)

/-- Every internal event that is due. -/
def State.dues (s : State) : List Call :=
  s.waves.flatMap s.waveDues ++ s.memoryDues ++ s.podDues ++ s.systemDues

/-! ## Turns -/

/-- One of a list, by the time: in the course of time each has its turn. -/
def byTime {α : Type} (s : State) (l : List α) : Option α := l[s.now / 3 % l.length]?

/-- The messages that may be delivered. -/
def State.messages (s : State) : List Nat := (List.range s.agenda.length).filter s.deliverable

/-- What a choice of the model does, when there is one of its kind: a message, an event that is due, a unit's word. -/
def State.choice (s : State) (kind : Nat) : Option Turn :=
  match kind with
  | 0 => (byTime s s.messages).map Turn.message
  | 1 => (byTime s s.dues).map Turn.event
  | _ => s.selected.map fun c => .unit c.wave.seq c.wave.wid c.arm

/-- The turn that the model takes when none is named (log 1): the three kinds in rotation, each with the others after it. -/
def State.defaultTurn (s : State) : Option Turn :=
  let k := s.now % 3
  (s.choice k).orElse fun _ => (s.choice ((k + 1) % 3)).orElse fun _ => s.choice ((k + 2) % 3)

/-- A turn performed; an event's operands are checked when it comes from outside. -/
def performTurn (s : State) : Turn → Out
  | .unit seq wid a => issueUnit s seq wid a
  | .event c => if c.wf then runCall s c else .refused .illFormed
  | .message k => deliver s k
  | .outside x => if x.wf then .next (s.outside x) else .refused .illFormed

/-- The model's own turn performed; nothing when there is none. -/
def performDefault (s : State) : Out :=
  match s.defaultTurn with
  | some (.event c) => runCall s c
  | some t => performTurn s t
  | none => .next s

/-- The end of a step: CYC moves on (log 2), waves that run are charged to their watchdogs, the cycle counters of the partitions that
hold their slices add one (13 R330), additions charged 256 cycles ago are made (13 R327), promises that pass trap their waiters (05 R143), and changed save areas are written. -/
def State.endStep (s : State) : State :=
  let t := s.countCycle
  (({ t with cyc := t.cyc + 1, waves := t.waves.map t.stamped, issue := none, call := .none } : State).settleOld.missPromises).writeAreas

/-- One step but for its end: the first turn of the list, or the default. -/
def performNext (s : State) : Out :=
  match s.turn with
  | t :: rest => performTurn { s with turn := rest } t
  | [] => performDefault s

end Sys2Proof.Machine
end

