-- ==== Sys2Proof/Machine/Step.lean ====
section
/-!
DEFINITION. One step of the machine, and the placing of an instruction where the next step fetches.
-/
namespace Sys2Proof.Machine

/-- One step: what is next, and the end of the step. -/
def step (s : State) : Host.Outcome State Fault Refusal :=
  mapNext (performNext { s with issue := none, call := .none }) State.endStep

/-- The state with an instruction stored where step fetches its next one (log 20). -/
def State.withFetchWord (s : State) (nbits w : Nat) : State := s.placed nbits w

end Sys2Proof.Machine
end

