-- ==== Sys2Proof/Safety.lean ====
section
/-!
DEFINITION. What claims are stated in: the latched word and its unit, agreement of two states outside named parts, the
invariant that every step keeps, and what counts as a safe step.
-/
namespace Sys2Proof

/-- A word that computes in registers alone (10 R227 to R229, R242; 11 R252 to R272): integer, float, conversion, quantiser,
cross-lane and predicate words, uniform and vector. -/
def Instr.computes : Instr → Bool
  | .uadd .. | .usub .. | .umul .. | .umulh .. | .umulhu .. | .uand .. | .uor .. | .uxor .. | .ushl .. | .ushr ..
  | .usar .. | .umin .. | .umax .. | .uminu .. | .umaxu .. | .umov .. | .uaddi .. | .umuli .. | .uandi .. | .uori ..
  | .uxori .. | .ushli .. | .ushri .. | .usari .. | .ucmp .. | .ucmpi .. | .uclz .. | .upopc .. | .ubrev ..
  | .ubfx .. | .ubfi .. | .usel .. | .uqop .. | .uqmovTos .. | .uqmovFroms .. | .pmask .. | .anyp .. | .allp ..
  | .vadd .. | .vsub .. | .vmul .. | .vmulh .. | .vmulhu .. | .vmin .. | .vmax .. | .vminu .. | .vand .. | .vor ..
  | .vxor .. | .vshl .. | .vshr .. | .vsar .. | .vmaxu .. | .vabsd .. | .vaddi .. | .vmuli .. | .vandi .. | .vori ..
  | .vxori .. | .vshli .. | .vshri .. | .vsari .. | .vicmp .. | .vicmpi .. | .vclz .. | .vpopc .. | .vbrev ..
  | .vbfx .. | .vbfi .. | .vsel .. | .vmad .. | .vlane .. | .vmov .. | .vmovs .. | .vtos .. | .vfroms .. | .fadd ..
  | .fsub .. | .fmul .. | .ffma .. | .ffnma .. | .fmin .. | .fmax .. | .fabs .. | .vfcmp .. | .frcp .. | .frsq ..
  | .fsqrt .. | .fdiv .. | .fex2 .. | .flg2 .. | .frint .. | .fclass .. | .b2add .. | .b2sub .. | .b2mul ..
  | .b2fma .. | .b2max .. | .b2min .. | .fcvt .. | .icvt .. | .qpk .. | .qunpk .. | .shfl .. | .shflx .. | .shflup ..
  | .shfldn .. | .lanebc .. | .vredf .. | .vredi .. | .vscanf .. | .pand .. | .por .. | .pxor .. | .pandn ..
  | .pnot .. | .pmov .. | .pset .. | .vballot .. | .vmcnt .. => true
  | _ => false

end Sys2Proof

namespace Sys2Proof.Machine

/-- Step has latched a word for exec: the wave, the latch and the unit that issues it. -/
def State.Latched (s : State) (w : Wave) (i : Issue) : Prop := s.issue = some i ∧ s.wave? i.seq i.wid = some w

/-- The unit that issues the latched word. -/
def Wave.issuing (w : Wave) (i : Issue) : UnitSt := w.unit i.arm

/-- The latched word is legal (09_encoding R217): none of its fields, features or descriptors is refused. -/
def State.Legal (s : State) (w : Wave) (i : Issue) (x : Instr) : Prop :=
  s.Latched w i ∧ illegalSub s w ((w.issuing i).at i) i.lit x = none

/-- The state after the latched word has made the wave `w` and its unit goes on with the next word. -/
def State.after (s : State) (w : Wave) (i : Issue) : State := s.setWave (w.goto i.arm (nextWord i.pc))

/-- The byte of memory that a key names (QSP, HBM, module and host memory have keys of their own, log 5). -/
def State.byteAt (s : State) (k : Nat) : Byte := s.mem.read k

/-- The invariant of the machine: memory stands in its canonical form. -/
def State.Inv (s : State) : Prop := s.mem.wf = true

/-! ## What a word leaves -/

/-- The latched word has written s(d), unless its q-guard is 0. -/
def State.wroteS (s : State) (w : Wave) (i : Issue) (g : BitVec 3) (d : BitVec 6) (x : Word) (p : Bool) : Out :=
  .next (s.after (if w.q g.toNat then w.setS d.toNat x p else w) i)

/-- The latched word has written q(d), unless its q-guard is 0. -/
def State.wroteQ (s : State) (w : Wave) (i : Issue) (g : BitVec 3) (d : BitVec 6) (x p : Bool) : Out :=
  .next (s.after (if w.q g.toNat then w.setQ d.toNat x p else w) i)

/-- The latched word has sent its unit to an offset from CODE. -/
def State.wentTo (s : State) (w : Wave) (i : Issue) (pc : Nat) : Out := .next (s.setWave (w.goto i.arm pc))

/-- The latched word has put its unit to sleep, with its pc at the next word. -/
def State.slept (s : State) (w : Wave) (i : Issue) (x : Wait) : Out :=
  .next (s.setWave (w.setUnit i.arm { w.unit i.arm with pc := nextWord i.pc, refusals := [], looked := false, table := [], atBank := none, wait := x, hidden := [] }))

/-- The target of a branch of the latched word: a signed count of packets from its own (10 R232). -/
def Issue.target (i : Issue) (o : Int) : Nat := ((((i.pc / 16 * 16 : Nat) : Int) + 16 * o) % 2 ^ 64).toNat

/-- The wave as the trap of the latched word leaves it (14 R331): what is saved, and the handler entered. -/
def Wave.trappedAs (w : Wave) (i : Issue) (cause sub addr : Nat) : Wave :=
  Wave.setUnit { w with
      trapPc := BitVec.ofNat 32 (if i.second then i.pc - 4 else i.pc),
      trapCause := BitVec.ofNat 32 (cause + 256 * sub + 65536 * bitOf i.second),
      trapAddr := BitVec.ofNat 64 addr,
      savedFmt := (w.unit i.arm).fmt,
      handler := some { arm := i.arm, depth := (w.unit i.arm).open, wait := .none, skip := (w.unit i.arm).skip } } i.arm
    { w.unit i.arm with
      pc := w.trapBase.toNat, wait := .none, ibuf := none, refusals := [], looked := false, table := [], atBank := none, skip := none }

/-- The latched word has taken a trap to its handler. -/
def State.tookTrap (s : State) (w : Wave) (i : Issue) (cause sub addr : Nat) : Out :=
  .next (s.setWave (w.trappedAs i cause sub addr)).trapped

/-- A handler can be entered: there is one, and the wave is not in it (14 R331, R332). -/
def Wave.canTrap (w : Wave) : Prop := w.trapBase ≠ 0 ∧ w.handler = none

/-- The latched word has written the lanes of a mask of v(d), lane l with `f l`. -/
def State.wroteV (s : State) (w : Wave) (i : Issue) (m : Lanes) (d : BitVec 6) (f : Nat → Elem) : Out :=
  .next (s.after (w.writeV d.toNat m (laneNumbers.map f)) i)

/-- The latched word has written the lanes of a mask of p(d), lane l with the bit `(f l).1` and the poison `(f l).2`. -/
def State.wroteP (s : State) (w : Wave) (i : Issue) (m : Lanes) (d : BitVec 6) (f : Nat → Bool × Bool) : Out :=
  .next (s.after (w.setP d.toNat m (maskOf (laneNumbers.map fun l => (f l).1)) (maskOf (laneNumbers.map fun l => (f l).2))) i)

/-- The latched word has written the lanes of a mask of v(d), and the flags that these lanes raised. -/
def State.wroteF (s : State) (w : Wave) (i : Issue) (m : Lanes) (d : BitVec 6) (f : Nat → FElem) : Out :=
  .next (s.after (w.writeF d m (laneNumbers.map f)) i)

/-- Lane l of the b operand (11 R251): s(b) where the U bit is 1, else the element of v(b). -/
def Wave.bElem (w : Wave) (u : BitVec 1) (b : BitVec 6) (l : Nat) : Elem :=
  if u = 1 then (w.s b.toNat, w.sPoison b.toNat) else (w.v b.toNat).elem l

/-- The latched barrier word is done at its scope, which counts a clamped one (04 R106). -/
def State.barrierDone (s : State) (w : Wave) (i : Issue) (sc : BitVec 3) : State :=
  (s.clampScope w.part (scopeOf sc)).1.after w i

/-- A memory word that goes through (12 R277; 04 R101, R107): its release has performed, every lane passes its checks and
translates, nothing that it must follow is outstanding, the write queue and the relay contexts have room, and the quad has let go of what
another unit serves. `s2` is then the
state, `w2` the wave, `ps` the parts and `ls` the lanes. -/
def State.admits (s : State) (w : Wave) (i : Issue) (x : Access) (s2 : State) (w2 : Wave) (ls : List LaneReq)
    (ps : List OpPart) : Prop :=
  w.outst < 63 ∧ x.lanes = .ok ls ∧
  ∃ s1 placed,
    (if isRelease x.order then s.releaseAt w i.arm (s.clampScope w.part x.scope).2 else (s, true)) = (s1, true)
    ∧ s1.placeLanes (s1.again w) ((s1.again w).unit i.arm) x.tierOk x.acc x.size ls = .ok placed
    ∧ ps = s1.laneParts x placed
    ∧ (∀ p ∈ ps, p.tier3 = false → (s1.again w).overlaps p.key p.size x.acc.writes = false)
    ∧ (x.acc.writes && s1.storeStalls (s1.again w) (s.clampScope w.part x.scope).2 ps) = false
    ∧ s1.relayStalls (s1.again w) ps = false
    ∧ ((∀ p ∈ ps, p.tier3 = false) ∨ ∀ o ∈ (s1.again w).pend, o.kind ≠ .aperture ∨ o.answered = true)
    ∧ s1.flushParts (coreQuad (s1.again w).core) (s.clampScope w.part x.scope).2 ps = (s2, true)
    ∧ w2 = s2.again (s1.again w)

/-- A unit of the wave `w`, whose innermost entry is `e`, arrives at that entry's JOIN (10 R240; R241 and R244 for a unit without a lane).
Where its accesses have not performed, nothing happens yet (log 10). Else, at the outermost entry, it waits for the other arm, or both
reunite; inside an arm the else lanes run next, or the entry closes, and where that leaves no lane the unit arrives at the next entry's
JOIN: at most `n` entries are looked at. -/
def State.arrives (s : State) (i : Issue) (out : Out) : Nat → Wave → DivEntry → List DivEntry → Prop
  | 0, _, _, _ => True
  | n + 1, w, e, rest =>
    let u := w.unit i.arm
    (w.joinReady i.arm = false → out = .next s.stall)
    ∧ (w.joinReady i.arm = true →
        (u.open ≤ 1 → (w.unit i.arm.other).atJoin = false →
          out = .next (s.setWave (w.setUnit i.arm
            { u with atJoin := true, pc := 16 * e.joinTarget, refusals := [], looked := false, table := [], atBank := none,
                     wait := .none })))
        ∧ (∀ et ee r1 r2, u.open ≤ 1 → (w.unit i.arm.other).atJoin = true → w.unitT.entries = et :: r1 →
            w.unitE.entries = ee :: r2 →
            ∃ x, out = .next (s.setWave x) ∧ x.divergent = false ∧ x.haltedLanes = w.haltedLanes
              ∧ x.sregs = w.sregs ∧ x.qregs = w.qregs ∧ x.pregs = w.pregs ∧ x.vregs = w.vregs ∧ x.unitT.entries = []
              ∧ x.unitT.mask = (w.unitT.mask ||| w.unitE.mask ||| et.brk ||| ee.brk) &&& ~~~w.haltedLanes
              ∧ (x.unitT.mask = 0 → x.status = .halted)
              ∧ (x.unitT.mask ≠ 0 → x.status = w.status ∧ x.unitT.fmt = et.fmt ∧ x.unitT.pc = 16 * et.joinTarget + 4))
        ∧ (1 < u.open → e.inElse = false → e.elseLanes &&& ~~~w.haltedLanes ≠ 0 →
            out = .next (s.setWave (w.setUnit i.arm
              { u with
                mask := e.elseLanes &&& ~~~w.haltedLanes, pc := 16 * e.elseTarget, fmt := e.fmt, refusals := [],
                looked := false, table := [], atBank := none,
                entries := { e with trueLanes := u.mask, inElse := true } :: rest })))
        ∧ (1 < u.open → u.spilled = [] → (e.inElse = true ∨ e.elseLanes &&& ~~~w.haltedLanes = 0) →
            let mask := ((if e.inElse then e.trueLanes else 0) ||| u.mask ||| e.brk) &&& ~~~w.haltedLanes
            let x := w.setUnit i.arm
              { u with mask := mask, fmt := e.fmt, pc := 16 * e.joinTarget + 4, refusals := [], looked := false, table := [],
                       atBank := none, entries := rest }
            (mask ≠ 0 → out = .next (s.setWave x))
            ∧ ∀ e2 rest2, mask = 0 → rest = e2 :: rest2 → State.arrives s i out n x e2 rest2))

/-- The latched memory word has issued its operation. -/
def State.didIssue (s : State) (w : Wave) (i : Issue) (x : Access) (s2 : State) (w2 : Wave) (ls : List LaneReq)
    (ps : List OpPart) : Out :=
  .next (s2.issued w2 i x (s.clampScope w.part x.scope).2 ps ((ls.head?.map LaneReq.addr).getD 0))

/-- The state changes nothing but one wave and the latch: every other field, and so every byte of memory, is as it was. -/
def State.onlyWaves (s t : State) : Prop := t = { s with waves := t.waves, issue := t.issue }

/-- Every wave but one is as it was. -/
def State.othersKeep (s t : State) (w : Wave) : Prop :=
  ∀ seq wid, (seq, wid) ≠ (w.seq, w.wid) → t.wave? seq wid = s.wave? seq wid

/-- A step is safe when it neither faults nor is refused. -/
def State.safeStep (s : State) : Prop := ∃ t, step s = .next t

/-! ## Exact values of floating-point encodings (08 R189 to R193) -/

/-- An encoding without its sign. -/
def FpFormat.mag (f : FpFormat) (x : Nat) : Nat := x % 2 ^ (f.exp + f.frac)

/-- The sign bit of an encoding. -/
def FpFormat.negative (f : FpFormat) (x : Nat) : Bool := x.testBit (f.exp + f.frac)

/-- The encoding with the other sign. -/
def FpFormat.flip (f : FpFormat) (x : Nat) : Nat := f.signBit (!f.negative x) + f.mag x

/-- The encoding is finite: its magnitude is at most the largest finite one (R189). -/
def FpFormat.finite (f : FpFormat) (x : Nat) : Prop := f.mag x ≤ f.maxFinite

/-- The encoding is an infinity, which stands above the largest finite one (R189). -/
def FpFormat.isInf (f : FpFormat) (x : Nat) : Prop := f.hasInf = true ∧ f.mag x = f.maxFinite + 1

/-- The encoding is a NaN (R189). -/
def FpFormat.isNan (f : FpFormat) (x : Nat) : Prop := ¬ f.finite x ∧ ¬ f.isInf x

/-- The encoding is a signalling NaN: its top fraction bit is 0; a format without infinities has none (R190). -/
def FpFormat.signals (f : FpFormat) (x : Nat) : Prop := f.isNan x ∧ f.hasInf = true ∧ x.testBit (f.frac - 1) = false

/-- The value of a magnitude, in units of the format's least subnormal (R189); that of an infinity is the next power of two above the
largest finite one. -/
def FpFormat.units (f : FpFormat) (n : Nat) : Nat :=
  if n < 2 ^ f.frac then n else (2 ^ f.frac + n % 2 ^ f.frac) * 2 ^ (n / 2 ^ f.frac - 1)

/-- 1.0 in those units. -/
def FpFormat.one (f : FpFormat) : Nat := 2 ^ (f.bias + f.frac - 1)

/-- An input as FTZ reads it: a subnormal is a zero of its sign (R191). -/
def FpFormat.flushed (f : FpFormat) (ftz : Bool) (x : Nat) : Nat :=
  if ftz = true ∧ f.mag x < 2 ^ f.frac then f.signBit (f.negative x) else x

/-- The signed value of an input, in units of the format's least subnormal. -/
def FpFormat.value (f : FpFormat) (ftz : Bool) (x : Nat) : Int :=
  let m : Int := f.units (f.mag (f.flushed ftz x))
  if f.negative x then -m else m

/-- A directed mode that takes this sign away from zero (R192). -/
def Rm.away (rm : Rm) (neg : Bool) : Bool :=
  match rm with
  | .rd => neg
  | .ru => !neg
  | _ => false

/-- n is the magnitude that the exact positive x with x^p = N / D, in units of the least subnormal, rounds to (R192): to nearest, ties
to even; away from zero; or toward zero. The magnitude after the largest finite one stands for every larger value (R193). -/
def FpFormat.Rounds (f : FpFormat) (rm : Rm) (neg : Bool) (p N D n : Nat) : Prop :=
  n ≤ f.maxFinite + 1
  ∧ if rm = .rne then
      (n = 0 ∨ (f.units (n - 1) + f.units n) ^ p * D < 2 ^ p * N
        ∨ ((f.units (n - 1) + f.units n) ^ p * D = 2 ^ p * N ∧ n % 2 = 0))
      ∧ (n = f.maxFinite + 1 ∨ 2 ^ p * N < (f.units n + f.units (n + 1)) ^ p * D
        ∨ (2 ^ p * N = (f.units n + f.units (n + 1)) ^ p * D ∧ n % 2 = 0))
    else if rm.away neg = true then
      (n = 0 ∨ f.units (n - 1) ^ p * D < N) ∧ (n = f.maxFinite + 1 ∨ N ≤ f.units n ^ p * D)
    else f.units n ^ p * D ≤ N ∧ (n = f.maxFinite + 1 ∨ N < f.units (n + 1) ^ p * D)

/-- What an overflow gives (11 R262): the infinity, or the largest finite value, as the mode directs. -/
def FpFormat.beyond (f : FpFormat) (rm : Rm) (neg : Bool) : Nat :=
  f.signBit neg + if rm = .rne ∨ rm.away neg = true then f.maxFinite + 1 else f.maxFinite

/-- r is the result, with its flags, of rounding the exact value of that sign once (R191 to R193, R195); `top` is what an overflow
gives. Where only rounding makes the magnitude a normal one, UF is free (log 11). -/
def FpFormat.Result (f : FpFormat) (rm : Rm) (ftz neg : Bool) (p N D top : Nat) (r : Nat × Flags) : Prop :=
  ∃ n, f.Rounds rm neg p N D n ∧
    if n = f.maxFinite + 1 then r = (top, fOF ||| fNX)
    else if ftz = true ∧ 0 < n ∧ n < 2 ^ f.frac then r = (f.signBit neg, fUF ||| fNX)
    else r.1 = f.signBit neg + n ∧
      if f.units n ^ p * D = N then r.2 = 0
      else if n < 2 ^ f.frac then r.2 = fUF ||| fNX
      else if (2 ^ f.frac) ^ p * D ≤ N then r.2 = fNX
      else r.2 = fNX ∨ r.2 = fUF ||| fNX

/-- k is the integer nearest to N / D, the even one of two (R194). -/
def NearestInt (N D k : Nat) : Prop :=
  2 * N ≤ (2 * k + 1) * D ∧ 2 * k * D ≤ 2 * N + D
  ∧ ((2 * N = (2 * k + 1) * D ∨ 2 * k * D = 2 * N + D) → k % 2 = 0)

/-- 2^e, with e from 3 to 10, is the power of two nearest to N / D, the larger of two (R198 pow2). -/
def NearestPow2 (N D e : Nat) : Prop :=
  3 ≤ e ∧ e ≤ 10 ∧ (e = 3 ∨ 3 * 2 ^ (e - 2) * D ≤ N) ∧ (e = 10 ∨ N < 3 * 2 ^ (e - 1) * D)

/-- The value of a quantiser's input in FP32's units: a NaN is 0, an infinity the largest finite value of its sign (R198). -/
def quantValue (x : Nat) : Int :=
  if 0x7F800000 < fp32.mag x then 0
  else
    let m : Int := fp32.units (min (fp32.mag x) fp32.maxFinite)
    if fp32.negative x then -m else m

/-! ## Steps of the machine's other agents -/

/-- The wave whose unit enters its handler at no word of its own (14 R331, R333, R334): TRAPPC is the offset given, and the
handler goes on with `x` at its RTE. -/
def Wave.entered (w : Wave) (a : Arm) (pc cause sub addr : Nat) (second : Bool) (x : Wait) : Wave :=
  Wave.setUnit { w with
      trapPc := BitVec.ofNat 32 pc, trapCause := BitVec.ofNat 32 (cause + 256 * sub + 65536 * bitOf second), trapAddr := BitVec.ofNat 64 addr,
      savedFmt := (w.unit a).fmt, handler := some { arm := a, depth := (w.unit a).open, wait := x, skip := (w.unit a).skip } } a
    { w.unit a with
      pc := w.trapBase.toNat, wait := .none, ibuf := none, refusals := [], looked := false, table := [], atBank := none, skip := none }

/-- No Watchdog trap of the wave is due (14 R333, R334): its partition has no watchdog, or the wave has made progress since. -/
def State.noWatchdog (s : State) (w : Wave) : Prop := ∀ p, s.part? w.part = some p → p.watchdog = 0 ∨ w.progress < p.watchdog

/-- The sleep of a unit has ended with the wave changed by `f`. -/
def State.woke (s : State) (w : Wave) (e : Bool) (f : Wave → Wave) : Out := .next (s.endSleep w.seq w.wid (armOf e) f)

/-- Skolis acts on a command of the package (15 R352, R354): it runs, the sender may send the command (`h`: only an
administrator may), and the stage has been reached. -/
def State.acts (s : State) (c : Cmd) (h : Bool) (stage : Nat) : Prop :=
  s.skolisUp = true ∧ (h = true → s.mayAdmin c.mbx = true) ∧ stage ≤ s.dev.stage

/-- Skolis acts on a command on a partition that is not in mid-switch (15 R354). -/
def State.actsOn (s : State) (c : Cmd) (h : Bool) (p : Part) : Prop :=
  s.acts c h 4 ∧ s.cmdPart h c = some p ∧ s.midSwitch p.num = false

/-- The command has been done: `t` is what it left, `rs` its results. -/
def State.didCmd (t : State) (c : Cmd) (rs : List Byte) : Out := .next (t.endCmd c .ok rs)

/-- The command has been turned away with a status, and changed nothing. -/
def State.refusedCmd (s : State) (c : Cmd) (st : CmdStatus) : Out := .next (s.endCmd c st [])

end Sys2Proof.Machine
end

