-- ==== Sys2Proof/Certificates/Slice0/Obligations.lean ====
section
/-!
DEFINITION. The statements for the provers, from the numbered rules of spec/. Where a statement has several subjects, each
stands first under Sys2Proof.Claims.
-/
open Sys2Proof Sys2Proof.Machine

/-- R205 to R211, R217: a step with the turn of a unit that may issue (07 R183) runs the instruction at its pc. When the word decodes,
is not chained and its registers are ready, step is exec of it, with what follows a word that performed, the stamps of one that
stalled, the end of a single step, and the end of a step; a word whose registers are not ready, or an access behind an acquire of
its unit that has not performed, waits; a word that decodes to nothing is Illegal Instruction. A legal chained pair runs its first
word, then its second, when both perform; a TBWAIT or GATETAKE of the pair that has to wait, and may trap yet, waits alone, and the other
word performs once it has ended (R206; the model's reading, log 10). -/
def Obligations.StepRunsDecodedInstruction : Prop :=
  ∀ (s : State) (rest : List Turn) (a : Arm) (w w1 : Wave) (s1 : State) (p : FetchedPacket),
    s.turn = .unit w.seq w.wid a :: rest →
    let s0 : State := { s with turn := rest, issue := none, call := .none }
    let i0 : Issue := { seq := w.seq, wid := w.wid, arm := a, off := (w.unit a).pc / 16 * 16, idx := (w.unit a).pc % 16 / 4,
                        lit := 0, second := false, trapped := false, stalled := false }
    s0.wave? w.seq w.wid = some w → s0.mayIssue w a = true → s0.watchdogDue w = false →
    (w.late = [] ∨ w.handler ≠ none) →
    ({ s0 with issue := some i0 } : State).fetch w i0 (w.unit a) = .packet s1 p →
    s1.wave? w.seq w.wid = some w1 →
    let k := (w1.unit a).pc % 16 / 4
    let x := (p.words.getD k 0).toNat
    let y := (p.words.getD (k + 1) 0).toNat
    let i : Issue := { seq := w1.seq, wid := w1.wid, arm := a, off := p.off, idx := k, lit := p.words.getD 3 0,
                       second := false, trapped := false, stalled := false }
    let i2 : Issue := { i with idx := k + 1, second := true }
    let ends := fun (t : State) => (t.endSingleStep w.seq w.wid).endStep
    let chained := k < 2 ∧ chainBit x = true ∧ isHint x = false ∧ isHint y = false
    let passing := (w1.unit a).skip = some (w1.unit a).pc
    let passed := fun (t : State) => t.modWave w1.seq w1.wid fun v =>
      v.setUnit a { v.unit a with pc := nextWord (v.unit a).pc, skip := none }
    (∀ j, decodeWord x = .ok j → w1.sourcesReady a (w1.unit a).fmt j = true → (¬ chained ∨ passing) →
      ((w1.acquiring a && accesses (majorOf x)) = false →
        (¬ passing → step s = mapNext (exec j (s1.latch i)) fun t =>
          ends (s1.unlatch i (if t.performed then t.wordDone w1 (w1.unit a) i x j else t)))
        ∧ (passing → step s = mapNext (exec j (s1.latch i)) fun t =>
            ends (s1.unlatch i (if t.performed then passed (t.wordDone w1 (w1.unit a) i x j) else t))))
      ∧ ((w1.acquiring a && accesses (majorOf x)) = true → step s = .next (ends (s1.unlatch i (s1.waiting i)))))
    ∧ (∀ j, decodeWord x = .ok j → w1.sourcesReady a (w1.unit a).fmt j = false → step s = .next (ends (s1.waiting i)))
    ∧ (∀ e, decodeWord x = .error e → (¬ chained ∨ passing) →
        step s = mapNext (exec .illegalInstruction { s1.latch i with issue := some i, call := .illegalInstruction e.subcode })
          fun t => ends (s1.unlatch i t))
    ∧ (∀ j j2 wl t1 t2 t3, decodeWord x = .ok j → decodeWord y = .ok j2 → chained → ¬ passing →
        w1.sourcesReady a (w1.unit a).fmt j = true → (s1.latch i).Latched wl i →
        illegalSub s1 wl ((wl.unit a).at i) i.lit j = none → illegalSub s1 wl ((wl.unit a).at i2) i2.lit j2 = none →
        chainSub (wl.unit a).fmt (majorOf x) (majorOf y) j j2
          (chainBit (p.words.getD 0 0).toNat && chainBit (p.words.getD 1 0).toNat && !isHint (p.words.getD 0 0).toNat
            && !isHint (p.words.getD 1 0).toNat) = none →
        wl.sourcesReady a (wl.unit a).fmt j2 = true →
        (wl.acquiring a && (accesses (majorOf x) || accesses (majorOf y))) = false →
        exec j (s1.latch i) = .next t1 → t1.performed = true →
        exec j2 { s1.latch i with issue := some i2 } = .next t2 → t2.performed = true →
        (t2.sleepsInPair i2 = true → step s = .next (ends (s1.unlatch i (t2.wordDone wl (wl.unit a) i2 y j2))))
        ∧ (t2.sleepsInPair i2 = false → t1.sleepsInPair i = true →
            step s = .next (ends (s1.unlatch i (t1.wordDone wl (wl.unit a) i x j))))
        ∧ (t2.sleepsInPair i2 = false → t1.sleepsInPair i = false → exec j2 { t1 with issue := some i2 } = .next t3 →
            step s = .next (ends (s1.unlatch i ((t3.wordDone wl (wl.unit a) i x j).wordDone wl (wl.unit a) i2 y j2)))))

/-- Words of the spec's own examples decode to the instructions they stand for, one of a family each; a major that holds no
instruction is refused with subcode 1, an unassigned function with subcode 2. -/
def Obligations.ExampleWordsDecode : Prop :=
  decodeWord 0xD1448044 = .ok (.ldg 2 4 1 8 1 2 0) ∧ decodeWord 0x06061A00 = .ok (.uaddi 6 6 0x200)
  ∧ decodeWord 0x24092600 = .ok (.vaddi 9 9 0x200) ∧ decodeWord 0x120FFFFD = .ok (.bra 1 0x7FFFD)
  ∧ decodeWord 0x31620631 = .ok (.ffma 1 4 3 6 1) ∧ decodeWord 0x44E20400 = .ok (.vballot 4 2 0)
  ∧ decodeWord 0x41000000 = .error .unassignedFunction ∧ decodeWord 0x2E092600 = .error .undefinedMajor
  ∧ decodeWord 0x68043200 = .ok (.rwri 2 3 8) ∧ decodeWord 0x7A4A3000 = .ok (.ctrrd 10 3)

/-- R205 to R216: decoding the word that the encoder gives for a well-formed instruction gives the instruction back, and the word
has 32 bits: no bit of an encoding is dropped, for every instruction and every operand. -/
def Sys2Proof.Claims.DecodeEncodeRoundTrip : Prop :=
  ∀ (i : Instr) (x : Nat), i.wf = true → encode i = some x → x < 2 ^ 32 ∧ decodeWord x = .ok i

/-- Every word that decodes gives a well-formed instruction, which has an encoding. -/
def Sys2Proof.Claims.DecodedIsWellFormed : Prop :=
  ∀ (x : Nat) (i : Instr), x < 2 ^ 32 → decodeWord x = .ok i → i.wf = true ∧ (encode i).isSome = true

/-- Decoding an encoded well-formed instruction gives it back, and what decodes is well formed: DecodeEncodeRoundTrip,
DecodedIsWellFormed. -/
def Obligations.DecodeAndEncodeAgree : Prop := Sys2Proof.Claims.DecodeEncodeRoundTrip ∧ Sys2Proof.Claims.DecodedIsWellFormed

/-- R216: every word of the hint region, whatever its other bits hold, is the no-operation, and the all-zero word is the
canonical one: the unit goes on with the next word, and nothing else of the state changes. -/
def Obligations.HintWords : Prop :=
  encode .nop = some 0
  ∧ (∀ x, x < 2 ^ 32 → x / 2 ^ 25 % 2 ^ 6 ≤ 1 → decodeWord x = .ok .nop)
  ∧ ∀ (s : State) (w : Wave) (i : Issue), s.Latched w i → exec .nop s = .next (s.setWave (w.setUnit i.arm
      { w.unit i.arm with pc := if i.pc % 16 = 8 then i.pc + 8 else i.pc + 4, refusals := [], looked := false, table := [], atBank := none }))

/-- R209: the pipe class of every major. -/
def Obligations.PipeClasses : Prop :=
  (∀ m, m ≤ 0x01 → pipeClass m = .h) ∧ (∀ m, 0x02 ≤ m → m ≤ 0x06 → pipeClass m = .u)
  ∧ (∀ m, 0x08 ≤ m → m ≤ 0x0C → pipeClass m = .c)
  ∧ (∀ m, 0x10 ≤ m ∧ m ≤ 0x16 ∨ 0x18 ≤ m ∧ m ≤ 0x1C ∨ 0x20 ≤ m ∧ m ≤ 0x22 → pipeClass m = .v)
  ∧ (∀ m, m = 0x07 ∨ 0x28 ≤ m ∧ m ≤ 0x37 → pipeClass m = .m) ∧ (∀ m, 0x38 ≤ m → m ≤ 0x3D → pipeClass m = .e)

/-- R352, R142 and the model's own resets (log 3 to 5): after reset the invariant holds, memory lists nothing, no wave, partition or
launch exists, Skolis does not run and the stage is 0, and CYC reads 0. -/
def Obligations.ResetState : Prop :=
  State.reset.Inv ∧ (∀ k, State.reset.byteAt k = 0) ∧ State.reset.waves = [] ∧ State.reset.parts = []
  ∧ State.reset.launches = [] ∧ State.reset.dev.running = false ∧ State.reset.dev.stage = 0 ∧ State.reset.now = 0

/-- Every step keeps the invariant: from any state in which memory stands in canonical form, a step that answers a next state
answers one in which it does. -/
def Obligations.StepKeepsInvariant : Prop :=
  ∀ (s t : State), s.Inv → step s = .next t → t.Inv

/-- Nothing stops the machine: an instruction that runs for a latched wave answers a next state, whatever the state and the
operands are; an event, which has no word of its own, answers a next state in every state, with or without a wave (an Illegal Instruction,
which a word raises, when none is latched too). No word of a wave and no event ends in a fault or a refusal. -/
def Obligations.LatchedInstructionsAnswer : Prop :=
  ∀ (s : State) (w : Wave) (is : Issue) (i : Instr), (s.Latched w is → ∃ t, exec i s = .next t)
    ∧ (encode i = none → (i = .illegalInstruction → s.issue = none) → ∃ t, exec i s = .next t)

/-- R224, R226: a write to s0, p0 or q0 is discarded; s0 reads 0, p0 and q0 read 1 and none has poison; any other register holds
what was written, with its poison, and no other register changes. R233: v(k) is a register of the file, and no two registers of
the window are the same one. -/
def Obligations.RegistersHoldWhatIsWritten : Prop :=
  ∀ (w : Wave) (k j : Nat),
    w.s 0 = 0 ∧ w.sPoison 0 = false ∧ w.q 0 = true ∧ w.qPoison 0 = false ∧ (w.p 0).bits = allLanes ∧ (w.p 0).poison = 0
    ∧ (∀ x b, w.setS 0 x b = w) ∧ (∀ x b, w.setQ 0 x b = w) ∧ (∀ m x b, w.setP 0 m x b = w)
    ∧ (∀ x b, k < 64 → k ≠ 0 →
        (w.setS k x b).s j = (if j = k then x else w.s j) ∧ (w.setS k x b).sPoison j = (if j = k then b else w.sPoison j))
    ∧ (∀ x b, k < 8 → k ≠ 0 →
        (w.setQ k x b).q j = (if j = k then x else w.q j) ∧ (w.setQ k x b).qPoison j = (if j = k then b else w.qPoison j))
    ∧ (∀ m x b l, k < 64 → k ≠ 0 → l < 64 →
        ((w.setP k m x b).p j).bits.getLsbD l
            = (if j = k ∧ m.getLsbD l = true then x.getLsbD l else (w.p j).bits.getLsbD l)
        ∧ ((w.setP k m x b).p j).poison.getLsbD l
            = (if j = k ∧ m.getLsbD l = true then b.getLsbD l else (w.p j).poison.getLsbD l))
    ∧ (∀ m f l, l < 64 →
        ((w.writeV k m (laneNumbers.map f)).v j).elem l
          = if w.vregs ≠ [] ∧ w.physV (w.winBase + j) = w.physV (w.winBase + k) ∧ m.getLsbD l = true then f l
            else (w.v j).elem l)
    ∧ (64 ≤ w.vregs.length → k < 64 → j < 64 → w.physV (w.winBase + j) = w.physV (w.winBase + k) → j = k)

/-- R227 to R229, R242, R252 to R272: the frame of the words that compute. Memory and every other wave are as they were. When the
word neither trapped nor stalled, the state changes in nothing but this wave; of the wave, every register that the word does
not write keeps its value and poison, and nothing else changes but its flags and its units. -/
def Obligations.ComputeFrame : Prop :=
  ∀ (s t : State) (w : Wave) (is : Issue) (i : Instr), s.Latched w is → i.computes = true → exec i s = .next t →
    (∀ k, t.byteAt k = s.byteAt k) ∧ s.othersKeep t w
    ∧ (t.performed = true → s.performed = true → s.onlyWaves t ∧ ∃ x, t.wave? w.seq w.wid = some x
        ∧ x = { w with
                sregs := x.sregs, spoison := x.spoison, qregs := x.qregs, qpoison := x.qpoison, pregs := x.pregs,
                vregs := x.vregs, fpFlags := x.fpFlags, unitT := x.unitT, unitE := x.unitE }
        ∧ (∀ k, Reg.s k ∉ regsWritten (w.issuing is).fmt i → x.s k = w.s k ∧ x.sPoison k = w.sPoison k)
        ∧ (∀ k, Reg.q k ∉ regsWritten (w.issuing is).fmt i → x.q k = w.q k ∧ x.qPoison k = w.qPoison k)
        ∧ (∀ k, Reg.p k ∉ regsWritten (w.issuing is).fmt i → x.p k = w.p k)
        ∧ (∀ k, (∀ j, Reg.v j ∈ regsWritten (w.issuing is).fmt i → w.physV (w.winBase + j) ≠ w.physV (w.winBase + k)) →
            x.v k = w.v k))

/-- R100, R45, R52, R283: what a store changes. A scratchpad lane, and the coherent value of a line at its L2, change exactly the
bytes that are stored, each to the byte that was stored; every other byte of memory reads as before. -/
def Obligations.StoredBytes : Prop :=
  ∀ (s : State) (key : Nat) (bs : List Byte), s.Inv →
    (∀ k, (s.poke key bs).byteAt k = if key ≤ k ∧ k < key + bs.length then bs.getD (k - key) 0 else s.byteAt k)
    ∧ (∀ p v k, p.act = .write v → p.key = key → (s.qspPart p).1.byteAt k
        = if key ≤ k ∧ k < key + p.size then BitVec.ofNat 8 (v / 2 ^ (8 * (k - key))) else s.byteAt k)
    ∧ (∀ p k, p.act = .read → (s.qspPart p).1.byteAt k = s.byteAt k)
    ∧ (∀ die mask k, (s.l2Store die key bs mask).byteAt k
        = if key ≤ k ∧ k < key + 64 ∧ mask.getLsbD (k - key) = true then bs.getD (k - key) 0 else s.byteAt k)

/-- R331, R332: taking a trap. With a handler, TRAPPC names the word (the first of its pair), TRAPCAUSE holds the cause, the subcode
and SECOND, TRAPADDR the address, FMT is saved, and the unit goes to TRAPBASE; without one the wave stops and the event carries
them; inside a handler the wave stops, and its event is a double trap with the TRAPPC that was pending. -/
def Obligations.TakingATrap : Prop :=
  ∀ (s : State) (w : Wave) (i : Issue) (cause sub addr : Nat), s.Latched w i →
    let pc := if i.second then i.pc - 4 else i.pc
    let word := cause + 256 * sub + 65536 * bitOf i.second
    (w.trapBase ≠ 0 → w.handler = none → takeTrap s w i cause sub addr = s.tookTrap w i cause sub addr)
    ∧ (w.trapBase = 0 ∨ w.handler ≠ none → word < 2 ^ 32 →
        ∃ t x, takeTrap s w i cause sub addr = .next t ∧ t.wave? w.seq w.wid = some x ∧ t.mem = s.mem
          ∧ x.status = .killed ∧ x.trapCause = BitVec.ofNat 32 word ∧ x.trapAddr = BitVec.ofNat 64 addr
          ∧ x.trapPc = BitVec.ofNat 32 pc ∧ x.sregs = w.sregs ∧ x.vregs = w.vregs ∧ s.othersKeep t w
          ∧ t.parts = mapWhere s.parts (fun q => q.num = w.part) fun q => { q with events := q.events ++
              [{ type := if w.handler = none then 2 else 3, seq := w.seq, cyc := s.now,
                 body := natToBytes 4 w.wid ++ natToBytes 4 word ++ natToBytes 4 pc ++ natToBytes 4 0 ++ natToBytes 8 addr
                  ++ natToBytes 4 (if w.handler = none then 0 else w.trapPc.toNat) }] })

/-- R217: every word whose fields, features or descriptors are not legal raises Illegal Instruction with the subcode that the rules
give it, and performs nothing else. -/
def Obligations.IllegalWordsTrap : Prop :=
  ∀ (s : State) (w : Wave) (is : Issue) (i : Instr) (x sub : Nat), s.Latched w is → encode i = some x →
    illegalSub s w ((w.issuing is).at is) is.lit i = some sub → exec i s = takeTrap s w is 1 sub 0

/-- R97, R107, R276, R277, R280 to R282, R34, R37: how a lane access goes wrong, for every load, store, gather, scatter and atomic and
every order. A poisoned base is Poison Consumed; with OUTST full the word waits; a release first waits for what it orders; then a
poisoned active lane is Poison Consumed, a misaligned lane is Misaligned at its address, a page without a translation sends the unit to
wait for its walk, and a refused lane is a translation refusal at its address: nothing is loaded or stored. -/
def Obligations.LaneAccessTraps : Prop :=
  ∀ (s : State) (w : Wave) (i : Issue) (z : BitVec 2) (sc : BitVec 3) (r : BitVec 2) (d o : BitVec 6) (k : BitVec 5) (n : BitVec 1)
    (p : BitVec 3) (w64 : BitVec 1) (ka : BitVec 4) (ev : Instr) (pair size : Nat) (lanes : LaneCheck) (tierOk : Tier → Bool)
    (acc : AccKind),
    s.Latched w i → sc ≠ 7 →
    let u := w.issuing i
    let base := w.sPair (2 * k.toNat)
    let asize := if w64 = 1 then 8 else 4
    let near : Tier → Bool := fun t => decide (t ≠ .aperture)
    ((ev = .ldg z sc r d o k n ∧ (z ≠ 3 ∨ d ≠ 63) ∧ pair = 2 * k.toNat ∧ size = 2 ^ z.toNat
        ∧ lanes = w.loadLanes u o base (2 ^ z.toNat) ∧ tierOk = (fun _ => true) ∧ acc = .read)
      ∨ (ev = .stg z sc r d o k n ∧ (z ≠ 3 ∨ d ≠ 63) ∧ pair = 2 * k.toNat ∧ size = 2 ^ z.toNat
        ∧ lanes = w.storeLanes u d o base (2 ^ z.toNat) ∧ tierOk = (fun _ => true) ∧ acc = .write)
      ∨ (ev = .gather z sc r d o k n ∧ s.feature 6 = true ∧ (z ≠ 3 ∨ d ≠ 63) ∧ pair = 2 * k.toNat ∧ size = 2 ^ z.toNat
        ∧ lanes = w.loadLanes u o base (2 ^ z.toNat) ∧ tierOk = near ∧ acc = .read)
      ∨ (ev = .scatter z sc r d o k n ∧ s.feature 6 = true ∧ (z ≠ 3 ∨ d ≠ 63) ∧ pair = 2 * k.toNat ∧ size = 2 ^ z.toNat
        ∧ lanes = w.storeLanes u d o base (2 ^ z.toNat) ∧ tierOk = (fun _ => true) ∧ acc = .write)
      ∨ (ev = .atomg p w64 sc r d o ka ∧ d.toNat + (if w64 = 1 then 2 else 1) * (if p = 7 then 2 else 1) ≤ 64
        ∧ pair = 2 * ka.toNat ∧ size = asize ∧ lanes = w.atomicLanes u p d o (w.sPair (2 * ka.toNat)) asize ∧ tierOk = near
        ∧ acc = .atomic)) →
    (w.sPairPoison pair = true → w.canTrap → exec ev s = s.tookTrap w i 6 0 (s.codeVa w i.pc))
    ∧ (w.sPairPoison pair = false → 63 ≤ w.outst → exec ev s = .next s.stall)
    ∧ (w.sPairPoison pair = false → w.outst < 63 → ∀ s1 done,
        (if isRelease r then s.releaseAt w i.arm (s.clampScope w.part (scopeOf sc)).2 else (s, true)) = (s1, done) →
        let w1 := s1.again w
        (done = false → exec ev s = .next s1.stall)
        ∧ (done = true →
            (w1.canTrap →
              (lanes = .poison → exec ev s = s1.tookTrap w1 i 6 0 (s1.codeVa w1 i.pc))
              ∧ (∀ a, lanes = .misaligned a → exec ev s = s1.tookTrap w1 i 3 0 a))
            ∧ (∀ ls pages, lanes = .ok ls → s1.placeLanes w1 (w1.issuing i) tierOk acc size ls = .walk pages →
                exec ev s = .next (s1.waitForWalks w1 i pages))
            ∧ (∀ ls a sub level, lanes = .ok ls → s1.placeLanes w1 (w1.issuing i) tierOk acc size ls = .deny a sub level →
                exec ev s = .next (s1.refuseWord w1 i i.trapPc a sub level acc false))))

/-- R331 to R334, R217, R143, R188: the traps that no word's effect raises. A word that is no instruction is Illegal
Instruction, naming the word; a pending late error is taken by a runnable unit outside a handler; Missed Promise names the
TBWAIT, or the first word of its pair (R206); a Watchdog trap that is due comes before both (R333); a Watchdog trap interrupts the wait, which goes on at the RTE, and kills a wave without a handler, in one, or that made
no progress since the last one, posting one event. -/
def Obligations.TrapsOutsideWords : Prop :=
  ∀ (s : State) (w : Wave) (e : Bool), s.wave? w.seq w.wid = some w → w.status = .running → w.saved = false →
    let a := armOf e
    (∀ i sub, s.Latched w i → s.call = .illegalInstruction sub → w.canTrap →
      exec .illegalInstruction s = s.tookTrap w i 1 sub 0)
    ∧ (∀ x rest, s.call = .lateError w.seq w.wid e → w.late = x :: rest → w.canTrap → w.unitReady a = true →
        (s.noWatchdog w → exec .lateError s
          = .next (s.setWave (({ w with late := rest } : Wave).entered a (w.unit a).pc x.cause x.sub x.addr false .none)))
        ∧ (¬ s.noWatchdog w → exec .lateError s = .next s))
    ∧ (∀ b ph sc pc c, s.call = .missedPromise w.seq w.wid e → (w.unit a).wait = .tbar b ph sc pc c → w.canTrap →
        w.heldOut a = false → s.barrierPoison w.part b = false →
        let x := s.peekNat b.key 16
        s.passed (tbPromise x) = true → tbSectors x ≠ 0 → w.missed ≠ some (tbPromise x) →
        (s.noWatchdog w → exec .missedPromise s = .next ((s.charge w.part 0x043 1).setWave
          (({ w with missed := some (tbPromise x) } : Wave).entered a pc 7 0 b.va c .none)))
        ∧ (¬ s.noWatchdog w → exec .missedPromise s = .next s))
    ∧ (∀ p, s.call = .watchdog w.seq w.wid → s.part? w.part = some p → p.watchdog ≠ 0 → p.watchdog ≤ w.progress →
        w.unitT.wait ≠ .spill → w.unitE.wait ≠ .spill →
        (w.canTrap → w.watchdogFired = false → w.watchdogArm = a →
          exec .watchdog s = .next (s.setWave (Wave.entered
            { w.setUnit a { w.unit a with atJoin := false } with progress := 0, watchdogFired := true } a (w.unit a).pc 13 0 0 false
            (w.unit a).wait.interrupted)))
        ∧ (w.trapBase = 0 ∨ w.watchdogFired = true ∨ w.handler ≠ none →
            ∃ t, exec .watchdog s = .next t
              ∧ (∃ x, t.wave? w.seq w.wid = some x ∧ x.status = .killed)
              ∧ t.parts = mapWhere s.parts (fun q => q.num = w.part) fun q => { q with events := q.events ++
                  [{ type := 4, seq := w.seq, cyc := s.now,
                     body := natToBytes 4 w.wid ++ natToBytes 4 0 ++ natToBytes 4 w.unitT.pc ++ natToBytes 4 w.unitE.pc }] }))

/-- R227 (UALU): sixteen uniform operations; a guard of 0 writes nothing; a poisoned source poisons the result. -/
def Sys2Proof.Claims.UniformArithmetic : Prop :=
  ∀ (s : State) (w : Wave) (i : Issue) (d a b : BitVec 6) (g : BitVec 3), s.Latched w i → w.qPoison g.toNat = false →
    (∀ p ∈ ([
        (.uadd d a b g, fun x y => x + y),
        (.usub d a b g, fun x y => x - y),
        (.umul d a b g, fun x y => x * y),
        (.umulh d a b g, fun x y => BitVec.ofInt 32 (x.toInt * y.toInt / 2 ^ 32)),
        (.umulhu d a b g, fun x y => BitVec.ofNat 32 (x.toNat * y.toNat / 2 ^ 32)),
        (.uand d a b g, fun x y => x &&& y),
        (.uor d a b g, fun x y => x ||| y),
        (.uxor d a b g, fun x y => x ^^^ y),
        (.ushl d a b g, fun x y => x <<< (y.toNat % 32)),
        (.ushr d a b g, fun x y => x >>> (y.toNat % 32)),
        (.usar d a b g, fun x y => x.sshiftRight (y.toNat % 32)),
        (.umin d a b g, fun x y => if x.toInt ≤ y.toInt then x else y),
        (.umax d a b g, fun x y => if x.toInt ≤ y.toInt then y else x),
        (.uminu d a b g, fun x y => if x.toNat ≤ y.toNat then x else y),
        (.umaxu d a b g, fun x y => if x.toNat ≤ y.toNat then y else x)] : List (Instr × (Word → Word → Word))),
      exec p.1 s
        = s.wroteS w i g d (p.2 (w.s a.toNat) (w.s b.toNat)) (w.sPoison a.toNat || w.sPoison b.toNat))
    ∧ exec (.umov d a g) s = s.wroteS w i g d (w.s a.toNat) (w.sPoison a.toNat)

/-- R227 (UALUI), R211: the immediate is sext32(imm10), or the packet's literal for the escape −512. -/
def Sys2Proof.Claims.UniformImmediate : Prop :=
  ∀ (s : State) (w : Wave) (i : Issue) (d a : BitVec 6) (imm : BitVec 10), s.Latched w i →
    ∀ p ∈ ([
        (.uaddi d a imm, fun x y => x + y),
        (.umuli d a imm, fun x y => x * y),
        (.uandi d a imm, fun x y => x &&& y),
        (.uori d a imm, fun x y => x ||| y),
        (.uxori d a imm, fun x y => x ^^^ y),
        (.ushli d a imm, fun x y => x <<< (y.toNat % 32)),
        (.ushri d a imm, fun x y => x >>> (y.toNat % 32)),
        (.usari d a imm, fun x y => x.sshiftRight (y.toNat % 32))] : List (Instr × (Word → Word → Word))),
      exec p.1 s
        = s.wroteS w i 0 d (p.2 (w.s a.toNat) (if imm.toInt = -512 then i.lit else BitVec.ofInt 32 imm.toInt))
            (w.sPoison a.toNat)

/-- Uniform arithmetic: register and immediate forms: UniformArithmetic, UniformImmediate. -/
def Obligations.UniformArithmeticWords : Prop := Sys2Proof.Claims.UniformArithmetic ∧ Sys2Proof.Claims.UniformImmediate

/-- R229, codes 0 to 4: the counts, the reversal, and the fields, bit by bit, for POS, WIDTH and SIGN of the control word. -/
def Sys2Proof.Claims.UniformBits : Prop :=
  ∀ (s : State) (w : Wave) (i : Issue) (d a b : BitVec 6) (g : BitVec 3), s.Latched w i → w.qPoison g.toNat = false →
    let x := w.s a.toNat
    let c := (w.s b.toNat).toNat
    let pos := c % 32
    let width := min (c / 256 % 64) 32
    let signs := (w.s b.toNat).getLsbD 16 && decide (0 < width ∧ pos + width ≤ 32)
    exec (.uclz d a g) s
        = s.wroteS w i g d (BitVec.ofNat 32 (if x = 0 then 32 else 31 - Nat.log2 x.toNat)) (w.sPoison a.toNat)
    ∧ exec (.upopc d a g) s
        = s.wroteS w i g d (BitVec.ofNat 32 ((List.range 32).filter fun k => x.getLsbD k).length) (w.sPoison a.toNat)
    ∧ (∃ r : Word, (∀ k, k < 32 → r.getLsbD k = x.getLsbD (31 - k))
        ∧ exec (.ubrev d a g) s = s.wroteS w i g d r (w.sPoison a.toNat))
    ∧ (∃ r : Word, (∀ k, k < 32 → r.getLsbD k =
          (if k < width then decide (pos + k < 32) && x.getLsbD (pos + k) else signs && x.getLsbD (pos + width - 1)))
        ∧ exec (.ubfx d a b g) s = s.wroteS w i g d r (w.sPoison a.toNat || w.sPoison b.toNat))
    ∧ (∃ r : Word, (∀ k, k < 32 → r.getLsbD k =
          (if pos ≤ k ∧ k < pos + width then x.getLsbD (k - pos) else (w.s d.toNat).getLsbD k))
        ∧ exec (.ubfi d a b g) s
            = s.wroteS w i g d r (w.sPoison d.toNat || w.sPoison a.toNat || w.sPoison b.toNat))

/-- R228: the six conditions of UCMP and UCMPI. -/
def Sys2Proof.Claims.UniformCompare : Prop :=
  ∀ (s : State) (w : Wave) (i : Issue) (q a b : BitVec 6) (g : BitVec 3) (imm : BitVec 10), s.Latched w i → q.toNat ≤ 7 →
    ∀ p ∈ ([
        (0, fun x y => decide (x = y)),
        (1, fun x y => decide (x ≠ y)),
        (2, fun x y => decide (x.toInt < y.toInt)),
        (3, fun x y => decide (x.toInt ≤ y.toInt)),
        (4, fun x y => decide (x.toNat < y.toNat)),
        (5, fun x y => decide (x.toNat ≤ y.toNat))] : List (Nat × (Word → Word → Bool))),
      (w.qPoison g.toNat = false →
        exec (.ucmp (BitVec.ofNat 4 p.1) q a b g) s
          = s.wroteQ w i g q (p.2 (w.s a.toNat) (w.s b.toNat)) (w.sPoison a.toNat || w.sPoison b.toNat))
      ∧ exec (.ucmpi (BitVec.ofNat 3 p.1) q a imm) s
          = s.wroteQ w i 0 q (p.2 (w.s a.toNat) (if imm.toInt = -512 then i.lit else BitVec.ofInt 32 imm.toInt))
              (w.sPoison a.toNat)

/-- R229, codes 5 to 7: USEL with the poison of the selector and of the selected source only, the eight operations of UQOP,
and UQMOV both ways, which never changes q0. -/
def Sys2Proof.Claims.UniformPredicates : Prop :=
  ∀ (s : State) (w : Wave) (i : Issue) (d a b : BitVec 6) (q : BitVec 3), s.Latched w i →
    exec (.usel d a b q) s
        = s.wroteS w i 0 d (if w.q q.toNat then w.s a.toNat else w.s b.toNat)
            (w.qPoison q.toNat || (if w.q q.toNat then w.sPoison a.toNat else w.sPoison b.toNat))
    ∧ (d.toNat ≤ 7 → a.toNat ≤ 7 → b.toNat ≤ 7 →
        ∀ p ∈ ([
            (0, fun x y => x && y), (1, fun x y => x || y), (2, fun x y => x ^^ y), (3, fun x y => x && !y),
            (4, fun x _ => !x), (5, fun x y => !(x && y)), (6, fun x y => !(x || y)), (7, fun x y => !(x ^^ y))] :
            List (Nat × (Bool → Bool → Bool))),
          exec (.uqop d a b (BitVec.ofNat 3 p.1)) s
            = s.wroteQ w i 0 d (p.2 (w.q a.toNat) (w.q b.toNat))
                (w.qPoison a.toNat || (decide (p.1 ≠ 4) && w.qPoison b.toNat)))
    ∧ (∃ r : Word, (∀ k, k < 32 → r.getLsbD k = (decide (k < 8) && w.q k))
        ∧ exec (.uqmovTos d) s = s.wroteS w i 0 d r ((List.range 8).any w.qPoison))
    ∧ (∃ w' : Wave, w' = { w with qregs := w'.qregs, qpoison := w'.qpoison }
        ∧ (∀ n, n < 8 → w'.q n = (decide (n = 0) || (w.s a.toNat).getLsbD n)
              ∧ w'.qPoison n = (decide (n ≠ 0) && w.sPoison a.toNat))
        ∧ exec (.uqmovFroms a) s = .next (s.after w' i))

/-- Uniform bit, compare and predicate words: UniformBits, UniformCompare, UniformPredicates. -/
def Obligations.UniformBitAndPredicateWords : Prop := Sys2Proof.Claims.UniformBits ∧ Sys2Proof.Claims.UniformCompare ∧ Sys2Proof.Claims.UniformPredicates

/-- R216, R219 to R223, R231: a hint word does nothing; a read of CYCLO captures CYC for CYCHI; each readable register of the
wave and its unit. -/
def Sys2Proof.Claims.SpecialReads : Prop :=
  ∀ (s : State) (w : Wave) (i : Issue) (d : BitVec 6), s.Latched w i →
    exec .nop s = .next (s.after w i)
    ∧ exec (.urds d 0) s
        = .next (s.after ({ w with cycCapture := s.cyc }.setS d.toNat (s.cyc.extractLsb' 0 32) false) i)
    ∧ (∀ p ∈ ([
        (0x001, w.cycCapture.extractLsb' 32 32), (0x002, BitVec.ofNat 32 w.wid), (0x005, BitVec.ofNat 32 (coreDie w.core)),
        (0x006, BitVec.ofNat 32 s.pod.self), (0x007, BitVec.ofNat 32 w.part),
        (0x009, BitVec.ofNat 32 w.winBase), (0x00A, BitVec.ofNat 32 (w.pend.filter fun o => !o.left).length),
        (0x00B, (w.issuing i).fmt.setWidth 32), (0x00C, w.trapCause), (0x00D, w.trapAddr.extractLsb' 0 32),
        (0x00E, w.trapAddr.extractLsb' 32 32), (0x00F, w.trapPc), (0x010, w.trapBase), (0x013, w.phaseVar),
        (0x014, w.bucket), (0x01D, w.fpFlags.setWidth 32)] : List (BitVec 10 × Word)),
      exec (.urds d p.1) s = s.wroteS w i 0 d p.2 false)
    ∧ (∀ k, k < 8 → exec (.urds d (BitVec.ofNat 10 (0x015 + k))) s = s.wroteS w i 0 d (w.bounds.getD k 0) false)
    ∧ (∀ l k, s.launch? w.seq = some l → k < 32 →
        exec (.urds d (BitVec.ofNat 10 (0x020 + k))) s = s.wroteS w i 0 d (l.args.getD k 0) false
        ∧ exec (.urds d 0x008) s = s.wroteS w i 0 d (BitVec.ofNat 32 l.nwaves) false)
    ∧ (∀ p, s.part? w.part = some p →
        exec (.urds d 0x003) s = s.wroteS w i 0 d (BitVec.ofNat 32 (s.denseCore p w.core)) false
        ∧ exec (.urds d 0x004) s = s.wroteS w i 0 d (BitVec.ofNat 32 (s.denseQuad p (coreQuad w.core))) false
        ∧ exec (.urds d 0x011) s = s.wroteS w i 0 d (BitVec.ofNat 32 p.dead) false
        ∧ exec (.urds d 0x012) s = s.wroteS w i 0 d (BitVec.ofNat 32 (p.dead / 2 ^ 32)) false)

/-- R219, R221 to R223, R231: each register that UWRS writes, with the bits that exist; and SETFMT, which changes the FMT of
its own unit by its mask. -/
def Sys2Proof.Claims.SpecialWrites : Prop :=
  ∀ (s : State) (w : Wave) (i : Issue) (a : BitVec 6) (m v : BitVec 8), s.Latched w i →
    let x := w.s a.toNat
    (w.sPoison a.toNat = false →
      (∀ p ∈ ([
          (0x00B, w.setUnit i.arm { w.issuing i with fmt := x.setWidth 8 }),
          (0x00C, { w with trapCause := x &&& 0x0001FFFF }),
          (0x00D, { w with trapAddr := w.trapAddr.extractLsb' 32 32 ++ x }),
          (0x00E, { w with trapAddr := x ++ w.trapAddr.extractLsb' 0 32 }),
          (0x00F, { w with trapPc := x &&& 0xFFFFFFFC }),
          (0x010, { w with trapBase := x &&& 0xFFFFFFF0 }),
          (0x014, { w with bucket := x }),
          (0x01D, { w with fpFlags := x.setWidth 5 })] : List (BitVec 10 × Wave)),
        exec (.uwrs a p.1) s = .next (s.after p.2 i))
      ∧ (∀ k, k < 8 → exec (.uwrs a (BitVec.ofNat 10 (0x015 + k))) s
          = .next (s.after { w with bounds := w.bounds.set k x } i)))
    ∧ exec (.setfmt m v) s
        = .next (s.after (w.setUnit i.arm { w.issuing i with fmt := ((w.issuing i).fmt &&& ~~~m) ||| (v &&& m) }) i)

/-- Reads and writes of every special register, and SETFMT: SpecialReads, SpecialWrites. -/
def Obligations.SpecialRegisters : Prop := Sys2Proof.Claims.SpecialReads ∧ Sys2Proof.Claims.SpecialWrites

/-- R220: a read of CYCLO captures all 64 bits of CYC, returns the low half and keeps the high half for CYCHI, which is 0 in a wave
that has read none; a read of CYCHI gives the half that was captured last, whichever arm read it, whatever CYC is now. -/
def Obligations.CycleCounterReads : Prop :=
  ∀ (s : State) (w : Wave) (i : Issue) (d : BitVec 6), s.Latched w i →
    exec (.urds d 0) s = .next (s.after
      ({ w with cycCapture := s.cyc }.setS d.toNat (BitVec.ofNat 32 s.cyc.toNat) false) i)
    ∧ exec (.urds d 1) s = .next (s.after (w.setS d.toNat (BitVec.ofNat 32 (w.cycCapture.toNat / 2 ^ 32)) false) i)
    ∧ (∀ seq wid part core place vstack, (Wave.fresh seq wid part core place vstack).cycCapture = 0)
    ∧ ∀ t u j, exec (.urds d 0) s = .next t → t.wave? w.seq w.wid = some u → u.cycCapture = s.cyc
        ∧ (j.seq = w.seq → j.wid = w.wid → ∀ v, ∃ y z, exec (.urds d 1) { t with issue := some j, cyc := v } = .next y
            ∧ y.wave? w.seq w.wid = some z ∧ (d ≠ 0 → (z.s d.toNat).toNat = s.cyc.toNat / 2 ^ 32))

/-- R329: CTRCTL applies its operation to the counters of its mask, or to every counter's IE, and answers with OVF and EN as the
operation left them. -/
def Obligations.CounterControl : Prop :=
  ∀ (s : State) (w : Wave) (i : Issue) (d a : BitVec 6) (p : Part), s.Latched w i → d.toNat % 2 = 0 →
    w.sPoison a.toNat = false → s.part? w.part = some p →
    let x := w.s a.toNat
    let op := x.toNat / 2 ^ 30
    ∃ t q y, exec (.ctrctl d a) s = .next t ∧ t.part? w.part = some q ∧ t.wave? w.seq w.wid = some y ∧ t.mem = s.mem
      ∧ q = { p with counters := q.counters }
      ∧ (∀ k c, k < 16 → p.counters[k]? = some c → q.counters[k]? = some
          (if op = 0 then { c with en := c.en || x.getLsbD k }
           else if op = 1 then { c with en := c.en && !x.getLsbD k }
           else if op = 2 then (if x.getLsbD k then { c with value := 0, ovf := false } else c)
           else { c with ie := x.getLsbD k }))
      ∧ (d ≠ 0 → y.sPoison d.toNat = false ∧ ∀ k c, k < 16 → q.counters[k]? = some c →
          (y.s d.toNat).getLsbD k = c.en ∧ (y.s d.toNat).getLsbD (16 + k) = c.ovf)
      ∧ (∀ k, k ≠ d.toNat → y.s k = w.s k)

/-- R251, R252, R254, R257: the integer operations of two vector operands, in the active lanes whose guard is 1; every other
lane of v(d) keeps its element; a poisoned element of a source poisons the lane. -/
def Sys2Proof.Claims.VectorArithmetic : Prop :=
  ∀ (s : State) (w : Wave) (i : Issue) (u : BitVec 1) (d a b : BitVec 6) (g : BitVec 3), s.Latched w i →
    w.guardPoison (w.issuing i) g = false →
    let m := (w.issuing i).mask &&& (w.p g.toNat).bits
    let x := fun l => (w.v a.toNat).elem l
    let y := fun l => w.bElem u b l
    let z := fun l => (w.v d.toNat).elem l
    (∀ p ∈ ([
        (.vadd u d a b g, fun x y => x + y),
        (.vsub u d a b g, fun x y => x - y),
        (.vmul u d a b g, fun x y => x * y),
        (.vmulh u d a b g, fun x y => BitVec.ofInt 32 (x.toInt * y.toInt / 2 ^ 32)),
        (.vmulhu u d a b g, fun x y => BitVec.ofNat 32 (x.toNat * y.toNat / 2 ^ 32)),
        (.vmin u d a b g, fun x y => if x.toInt ≤ y.toInt then x else y),
        (.vmax u d a b g, fun x y => if x.toInt ≤ y.toInt then y else x),
        (.vminu u d a b g, fun x y => if x.toNat ≤ y.toNat then x else y),
        (.vmaxu u d a b g, fun x y => if x.toNat ≤ y.toNat then y else x),
        (.vabsd u d a b g, fun x y => BitVec.ofNat 32 (x.toInt - y.toInt).natAbs),
        (.vand u d a b g, fun x y => x &&& y),
        (.vor u d a b g, fun x y => x ||| y),
        (.vxor u d a b g, fun x y => x ^^^ y),
        (.vshl u d a b g, fun x y => x <<< (y.toNat % 32)),
        (.vshr u d a b g, fun x y => x >>> (y.toNat % 32)),
        (.vsar u d a b g, fun x y => x.sshiftRight (y.toNat % 32)),
        (.vbfx u d a b g, bfx)] : List (Instr × (Word → Word → Word))),
      exec p.1 s = s.wroteV w i m d fun l => (p.2 (x l).1 (y l).1, (x l).2 || (y l).2))
    ∧ exec (.vmad u d a b g) s
        = s.wroteV w i m d (fun l => ((x l).1 * (y l).1 + (z l).1, (z l).2 || (x l).2 || (y l).2))
    ∧ exec (.vbfi u d a b g) s
        = s.wroteV w i m d (fun l => (bfi (z l).1 (x l).1 (y l).1, (z l).2 || (x l).2 || (y l).2))

/-- R255: the vector immediates write every active lane, without a guard. -/
def Sys2Proof.Claims.VectorImmediate : Prop :=
  ∀ (s : State) (w : Wave) (i : Issue) (d a : BitVec 6) (imm : BitVec 10), s.Latched w i →
    let k : Word := if imm.toInt = -512 then i.lit else BitVec.ofInt 32 imm.toInt
    ∀ p ∈ ([
        (.vaddi d a imm, fun x y => x + y),
        (.vmuli d a imm, fun x y => x * y),
        (.vandi d a imm, fun x y => x &&& y),
        (.vori d a imm, fun x y => x ||| y),
        (.vxori d a imm, fun x y => x ^^^ y),
        (.vshli d a imm, fun x y => x <<< (y.toNat % 32)),
        (.vshri d a imm, fun x y => x >>> (y.toNat % 32)),
        (.vsari d a imm, fun x y => x.sshiftRight (y.toNat % 32))] : List (Instr × (Word → Word → Word))),
      exec p.1 s
        = s.wroteV w i (w.issuing i).mask d fun l => (p.2 ((w.v a.toNat).elem l).1 k, ((w.v a.toNat).elem l).2)

/-- Vector integer arithmetic, lane by lane: VectorArithmetic, VectorImmediate. -/
def Obligations.VectorArithmeticWords : Prop := Sys2Proof.Claims.VectorArithmetic ∧ Sys2Proof.Claims.VectorImmediate

/-- R256: the six conditions of VICMP and VICMPI, lane by lane. -/
def Sys2Proof.Claims.VectorCompare : Prop :=
  ∀ (s : State) (w : Wave) (i : Issue) (u : BitVec 1) (d a b : BitVec 6) (g : BitVec 3) (imm : BitVec 10), s.Latched w i →
    let k : Word := if imm.toInt = -512 then i.lit else BitVec.ofInt 32 imm.toInt
    let x := fun l => (w.v a.toNat).elem l
    let y := fun l => w.bElem u b l
    ∀ p ∈ ([
        (0, fun x y => decide (x = y)),
        (1, fun x y => decide (x ≠ y)),
        (2, fun x y => decide (x.toInt < y.toInt)),
        (3, fun x y => decide (x.toInt ≤ y.toInt)),
        (4, fun x y => decide (x.toNat < y.toNat)),
        (5, fun x y => decide (x.toNat ≤ y.toNat))] : List (Nat × (Word → Word → Bool))),
      (w.guardPoison (w.issuing i) g = false →
        exec (.vicmp u (BitVec.ofNat 3 p.1) d a b g) s
          = s.wroteP w i ((w.issuing i).mask &&& (w.p g.toNat).bits) d fun l =>
              (p.2 (x l).1 (y l).1, (x l).2 || (y l).2))
      ∧ exec (.vicmpi (BitVec.ofNat 3 p.1) d a imm) s
          = s.wroteP w i (w.issuing i).mask d fun l => (p.2 (x l).1 k, (x l).2)

/-- R274: the predicate words, lane by lane; VBALLOT into a pair, VMCNT counts the written lanes below. -/
def Sys2Proof.Claims.PredicateWords : Prop :=
  ∀ (s : State) (w : Wave) (i : Issue) (d a b : BitVec 6) (c : BitVec 1) (g : BitVec 3), s.Latched w i →
    w.guardPoison (w.issuing i) g = false →
    let m := (w.issuing i).mask &&& (w.p g.toNat).bits
    let pa := w.p a.toNat
    let pb := w.p b.toNat
    (∀ p ∈ ([
        (.pand d a b g, fun x y => x && y),
        (.por d a b g, fun x y => x || y),
        (.pxor d a b g, fun x y => x ^^ y),
        (.pandn d a b g, fun x y => x && !y)] : List (Instr × (Bool → Bool → Bool))),
      exec p.1 s = s.wroteP w i m d fun l =>
        (p.2 (pa.bits.getLsbD l) (pb.bits.getLsbD l), pa.poison.getLsbD l || pb.poison.getLsbD l))
    ∧ exec (.pnot d a g) s = s.wroteP w i m d (fun l => (!pa.bits.getLsbD l, pa.poison.getLsbD l))
    ∧ exec (.pmov d a g) s = s.wroteP w i m d (fun l => (pa.bits.getLsbD l, pa.poison.getLsbD l))
    ∧ exec (.pset d c g) s = s.wroteP w i m d (fun _ => (decide (c = 1), false))
    ∧ (d.toNat % 2 = 0 → exec (.vballot d a g) s
        = .next (s.after (w.setPair d.toNat (pa.bits &&& m).toNat (decide (pa.poison &&& m ≠ 0))) i))
    ∧ exec (.vmcnt d a g) s
        = s.wroteV w i m d (fun l =>
            (BitVec.ofNat 32 ((List.range l).filter fun j => decide (j < 64) && m.getLsbD j && pa.bits.getLsbD j).length,
              (List.range l).any fun j => decide (j < 64) && m.getLsbD j && pa.poison.getLsbD j))

/-- Vector compares and predicate words, lane by lane: VectorCompare, PredicateWords. -/
def Obligations.VectorPredicateWords : Prop := Sys2Proof.Claims.VectorCompare ∧ Sys2Proof.Claims.PredicateWords

/-- R257, R258: counts, reversal, selection, lane numbers and moves, between the files too. -/
def Obligations.VectorMoves : Prop :=
  ∀ (s : State) (w : Wave) (i : Issue) (u : BitVec 1) (d a b n : BitVec 6) (g : BitVec 3), s.Latched w i →
    let act := (w.issuing i).mask
    let m := act &&& (w.p g.toNat).bits
    let x := fun l => (w.v a.toNat).elem l
    (w.guardPoison (w.issuing i) g = false →
      exec (.vclz u d a g) s
          = s.wroteV w i m d (fun l => (BitVec.ofNat 32 (if (x l).1 = 0 then 32 else 31 - Nat.log2 (x l).1.toNat), (x l).2))
      ∧ exec (.vpopc u d a g) s
          = s.wroteV w i m d
              (fun l => (BitVec.ofNat 32 ((List.range 32).filter fun k => (x l).1.getLsbD k).length, (x l).2))
      ∧ exec (.vbrev u d a g) s = s.wroteV w i m d (fun l => ((x l).1.reverse, (x l).2))
      ∧ exec (.vlane u d g) s = s.wroteV w i m d (fun l => (BitVec.ofNat 32 l, false))
      ∧ exec (.vmov d a g) s = s.wroteV w i m d x
      ∧ exec (.vmovs d a g) s = s.wroteV w i m d (fun _ => (w.s a.toNat, w.sPoison a.toNat))
      ∧ exec (.vfroms d a n g) s
          = s.wroteV w i (m &&& BitVec.ofNat 64 (2 ^ n.toNat)) d (fun _ => (w.s a.toNat, w.sPoison a.toNat)))
    ∧ exec (.vsel u d a b g) s
        = s.wroteV w i act d (fun l =>
            let e := if (w.p g.toNat).bits.getLsbD l then x l else w.bElem u b l
            (e.1, e.2 || (w.p g.toNat).poison.getLsbD l))
    ∧ exec (.vtos d a n 0) s = s.wroteS w i 0 d (x n.toNat).1 (x n.toNat).2

/-- R270, R271 (integers): the shuffles read any lane, active or not, and a lane out of range keeps its own element; VREDI
combines the written lanes, and its result is poisoned by a poisoned contribution only. -/
def Sys2Proof.Claims.CrossLane : Prop :=
  ∀ (s : State) (w : Wave) (i : Issue) (d a b k : BitVec 6) (g : BitVec 3), s.Latched w i →
    w.guardPoison (w.issuing i) g = false →
    let m := (w.issuing i).mask &&& (w.p g.toNat).bits
    let x := fun l => (w.v a.toNat).elem l
    let y := fun l => (w.v b.toNat).elem l
    let xs := (lanesOf m).map fun l => (w.v a.toNat).lanes.getD l 0
    exec (.shfl d a b g) s
        = s.wroteV w i m d (fun l => ((x ((y l).1.toNat % 64)).1, (x ((y l).1.toNat % 64)).2 || (y l).2))
    ∧ exec (.shflx d a k g) s = s.wroteV w i m d (fun l => x (l ^^^ k.toNat))
    ∧ exec (.shflup d a k g) s = s.wroteV w i m d (fun l => if k.toNat ≤ l then x (l - k.toNat) else x l)
    ∧ exec (.shfldn d a k g) s = s.wroteV w i m d (fun l => if l + k.toNat ≤ 63 then x (l + k.toNat) else x l)
    ∧ exec (.lanebc d a k g) s = s.wroteV w i m d (fun _ => x k.toNat)
    ∧ ∀ p ∈ ([
        (0, fun x y => x + y, 0),
        (1, fun x y => if x.toInt ≤ y.toInt then y else x, 0x80000000),
        (2, fun x y => if x.toInt ≤ y.toInt then x else y, 0x7FFFFFFF),
        (3, fun x y => if x.toNat ≤ y.toNat then y else x, 0),
        (4, fun x y => if x.toNat ≤ y.toNat then x else y, 0xFFFFFFFF),
        (5, fun x y => x &&& y, 0xFFFFFFFF),
        (6, fun x y => x ||| y, 0),
        (7, fun x y => x ^^^ y, 0)] : List (Nat × (Word → Word → Word) × Word)),
      exec (.vredi d a (BitVec.ofNat 6 p.1) g) s
        = s.wroteV w i m d fun _ => (xs.foldl p.2.1 p.2.2, decide ((w.v a.toNat).poison &&& m ≠ 0))

/-- R273: VLDX and VSTX with every active lane's index unpoisoned and inside the resident range. -/
def Sys2Proof.Claims.IndirectVector : Prop :=
  ∀ (s : State) (w : Wave) (i : Issue) (d a : BitVec 6) (imm : BitVec 10), s.Latched w i →
    let k : Word := if imm.toInt = -512 then i.lit else BitVec.ofInt 32 imm.toInt
    let act := (w.issuing i).mask
    let reg := fun l => (w.winBase : Int) + ((w.v a.toNat).lanes.getD l 0).toInt + k.toInt
    (∀ l, l < 64 → act.getLsbD l = true →
      (w.v a.toNat).poison.getLsbD l = false ∧ (w.lo : Int) ≤ reg l ∧ reg l < (w.lo : Int) + (w.vregs.length : Int)) →
    exec (.vldx d a imm) s = s.wroteV w i act d (fun l => (w.logV (reg l).toNat).elem l)
    ∧ exec (.vstx d a imm) s
        = .next (s.after ((lanesOf act).foldl
            (fun t l => t.writeLogV (reg l).toNat (BitVec.ofNat 64 (2 ^ l)) (w.v d.toNat).elems) w) i)

/-- Shuffles, integer reductions and indirect vector access: CrossLane, IndirectVector. -/
def Obligations.CrossLaneWords : Prop := Sys2Proof.Claims.CrossLane ∧ Sys2Proof.Claims.IndirectVector

/-- R252, R259 to R263, R195: the floating-point words of two and three operands write each written lane with the operation's
result under the unit's FMT, and raise in FPFLAGS the flags of those lanes; the packed words act on both halves, to nearest
even. Which tininess counts for the flags of a result is the free Config.tinyBeforeRounding (log 11). -/
def Sys2Proof.Claims.FloatArithmetic : Prop :=
  ∀ (s : State) (w : Wave) (i : Issue) (u : BitVec 1) (d a b : BitVec 6) (g : BitVec 3), s.Latched w i →
    w.guardPoison (w.issuing i) g = false →
    let m := (w.issuing i).mask &&& (w.p g.toNat).bits
    let f := (w.issuing i).fmt
    let x := fun l => (w.v a.toNat).elem l
    let y := fun l => w.bElem u b l
    let z := fun l => (w.v d.toNat).elem l
    (∀ p ∈ ([
        (.fadd u d a b g, word2 (fpAdd fp32 (fmtRm f) (fmtFtz f))),
        (.fsub u d a b g, word2 (fpSub fp32 (fmtRm f) (fmtFtz f))),
        (.fmul u d a b g, word2 (fpMul fp32 (fmtRm f) (fmtFtz f))),
        (.fdiv u d a b g, word2 (fpDiv fp32 (fmtRm f) (fmtFtz f))),
        (.fmin u d a b g, word2 (fpMaxMin fp32 false (fmtFtz f))),
        (.fmax u d a b g, word2 (fpMaxMin fp32 true (fmtFtz f))),
        (.b2add u d a b g, packed2 (fpAdd bf16 .rne (fmtFtz f))),
        (.b2sub u d a b g, packed2 (fpSub bf16 .rne (fmtFtz f))),
        (.b2mul u d a b g, packed2 (fpMul bf16 .rne (fmtFtz f))),
        (.b2min u d a b g, packed2 (fpMaxMin bf16 false (fmtFtz f))),
        (.b2max u d a b g, packed2 (fpMaxMin bf16 true (fmtFtz f)))] : List (Instr × (Word → Word → Word × Flags))),
      exec p.1 s = s.wroteF w i m d fun l =>
        (((p.2 (x l).1 (y l).1).1, (x l).2 || (y l).2), (p.2 (x l).1 (y l).1).2))
    ∧ ∀ p ∈ ([
        (.ffma u d a b g, word3 (fpFma fp32 (fmtRm f) (fmtFtz f))),
        (.ffnma u d a b g, word3 (fpFnma fp32 (fmtRm f) (fmtFtz f))),
        (.b2fma u d a b g, packed3 (fpFma bf16 .rne (fmtFtz f)))] :
        List (Instr × (Word → Word → Word → Word × Flags))),
      exec p.1 s = s.wroteF w i m d fun l =>
        (((p.2 (x l).1 (y l).1 (z l).1).1, (x l).2 || (y l).2 || (z l).2), (p.2 (x l).1 (y l).1 (z l).1).2)

/-- R203, R259, R262, R265, R266: the floating-point words of one operand and the conversions, under the unit's FMT. That FTZ acts on an
FCVT between FP32 and BF16 only, and on no ICVT, is the model's reading of R191 (log 11, DEDUCED). -/
def Sys2Proof.Claims.FloatUnary : Prop :=
  ∀ (s : State) (w : Wave) (i : Issue) (u : BitVec 1) (d a : BitVec 6) (g dst src : BitVec 3), s.Latched w i →
    w.guardPoison (w.issuing i) g = false →
    let m := (w.issuing i).mask &&& (w.p g.toNat).bits
    let f := (w.issuing i).fmt
    let x := fun l => (w.v a.toNat).elem l
    (∀ p ∈ ([
        (.fabs u d a g, word1 (fpAbs fp32 (fmtFtz f))),
        (.frcp u d a g, word1 (fpDiv fp32 (fmtRm f) (fmtFtz f) 0x3F800000)),
        (.frsq u d a g, word1 (fpRsqrt fp32 (fmtRm f) (fmtFtz f))),
        (.fsqrt u d a g, word1 (fpSqrt fp32 (fmtRm f) (fmtFtz f))),
        (.fex2 u d a g, word1 (fpExp2 fp32 (fmtRm f) (fmtFtz f))),
        (.flg2 u d a g, word1 (fpLog2 fp32 (fmtRm f) (fmtFtz f))),
        (.frint u d a g, word1 (fpRint fp32 (fmtRm f) (fmtFtz f))),
        (.fclass u d a g, fun y => (BitVec.ofNat 32 (fpClass fp32 y.toNat), 0))] : List (Instr × (Word → Word × Flags))),
      exec p.1 s = s.wroteF w i m d fun l => (((p.2 (x l).1).1, (x l).2), (p.2 (x l).1).2))
    ∧ (dst.toNat ≤ 4 → src.toNat ≤ 4 → dst ≠ src →
        exec (.fcvt d a dst src g) s = s.wroteF w i m d fun l =>
          let r := fpConvert (convFormat src) (convFormat dst) (fmtSat f) (fmtFtz f && decide (src.toNat < 2))
            (fmtFtz f && decide (dst.toNat < 2)) ((x l).1.toNat % 2 ^ (convFormat src).width)
          ((BitVec.ofNat 32 r.1, (x l).2), r.2))
    ∧ ((dst.toNat < 2 ∧ (src = 5 ∨ src = 6)) ∨ (src.toNat < 2 ∧ (dst = 5 ∨ dst = 6)) →
        exec (.icvt d a dst src g) s = s.wroteF w i m d fun l =>
          (((icvtElem dst src (x l).1).1, (x l).2), (icvtElem dst src (x l).1).2))

/-- R189 to R192, R195, R203, R259, R262, R263, R281: what the floating-point operations are. The formats have the table's fields. A NaN
operand gives the canonical NaN, with NV when one is signalling; an invalid operation gives it with NV; infinities and divisions by
zero give what the rules say; and of finite operands the exact sum, product, fused product and sum, quotient, square root, reciprocal
square root and integral value is rounded once, by the mode and FTZ, with its flags. FEX2 and FLG2 are given for their special and
their exact cases; elsewhere nothing is said of them here. -/
def Sys2Proof.Claims.FloatResults : Prop :=
  (∀ p ∈ ([(fp32, 8, 23, 127, 0x7F7FFFFF, 0x7FC00000), (bf16, 8, 7, 127, 0x7F7F, 0x7FC0), (fp16, 5, 10, 15, 0x7BFF, 0x7E00),
      (e5m2, 5, 2, 15, 0x7B, 0x7E)] : List (FpFormat × Nat × Nat × Nat × Nat × Nat)),
    p.1 = { exp := p.2.1, frac := p.2.2.1, bias := p.2.2.2.1, hasInf := true, maxFinite := p.2.2.2.2.1, nan := p.2.2.2.2.2 })
  ∧ e4m3 = { exp := 4, frac := 3, bias := 7, hasInf := false, maxFinite := 0x7E, nan := 0x7F }
  ∧ ∀ (f : FpFormat) (rm : Rm) (ftz : Bool) (a b c : Nat), f ∈ [fp32, bf16, fp64] →
    a < 2 ^ f.width → b < 2 ^ f.width → c < 2 ^ f.width →
    let v := f.value ftz
    let neg := f.negative
    let inf := fun n : Bool => f.signBit n + f.maxFinite + 1
    let nans := fun (xs : List Nat) (r : Nat × Flags) => (∃ x ∈ xs, f.isNan x) →
      r.1 = f.nan ∧ ((∃ x ∈ xs, f.signals x) → r.2 = fNV) ∧ ((∀ x ∈ xs, ¬ f.signals x) → r.2 = 0)
    let rounds := fun (n : Bool) (p N D : Nat) (r : Nat × Flags) => f.Result rm ftz n p N D (f.beyond rm n) r
    let invalid : Nat × Flags := (f.nan, fNV)
    (∀ y r, (y = b ∧ r = fpAdd f rm ftz a b) ∨ (y = f.flip b ∧ r = fpSub f rm ftz a b) →
      nans [a, b] r
      ∧ (f.isInf a → f.isInf y → r = if neg a = neg y then (inf (neg a), 0) else invalid)
      ∧ (f.isInf a → f.finite y → r = (inf (neg a), 0)) ∧ (f.finite a → f.isInf y → r = (inf (neg y), 0))
      ∧ (f.finite a → f.finite y → v a + v y ≠ 0 → rounds (decide (v a + v y < 0)) 1 (v a + v y).natAbs 1 r)
      ∧ (f.finite a → f.finite y → v a + v y = 0 →
          r = (f.signBit (decide ((v a = 0 ∧ neg a = true ∧ neg y = true) ∨ rm = .rd)), 0)))
    ∧ (let r := fpMul f rm ftz a b
       let n := neg a != neg b
       nans [a, b] r
       ∧ ((f.isInf a ∧ f.finite b ∧ v b = 0) ∨ (f.finite a ∧ v a = 0 ∧ f.isInf b) → r = invalid)
       ∧ ((f.isInf a ∧ ¬ f.isNan b ∧ v b ≠ 0) ∨ (f.isInf b ∧ ¬ f.isNan a ∧ v a ≠ 0) → r = (inf n, 0))
       ∧ (f.finite a → f.finite b → rounds n 1 ((v a).natAbs * (v b).natAbs) f.one r))
    ∧ (∀ (n : Bool) r, (n = (neg a != neg b) ∧ r = fpFma f rm ftz a b c) ∨ (n = (neg a == neg b) ∧ r = fpFnma f rm ftz a b c) →
        let zeroTimesInf := (f.isInf a ∧ f.finite b ∧ v b = 0) ∨ (f.finite a ∧ v a = 0 ∧ f.isInf b)
        let m : Int := (v a).natAbs * (v b).natAbs
        let x : Int := (if n then -m else m) + v c * f.one
        (zeroTimesInf → r = invalid)
        ∧ (¬ zeroTimesInf → nans [a, b, c] r
          ∧ (¬ f.isNan a → ¬ f.isNan b → (f.isInf a ∨ f.isInf b) →
              (f.isInf c → r = if n = neg c then (inf n, 0) else invalid) ∧ (f.finite c → r = (inf n, 0)))
          ∧ (f.finite a → f.finite b → f.isInf c → r = (inf (neg c), 0))
          ∧ (f.finite a → f.finite b → f.finite c → x ≠ 0 → rounds (decide (x < 0)) 1 x.natAbs f.one r)
          ∧ (f.finite a → f.finite b → f.finite c → x = 0 →
              r = (f.signBit (decide ((m = 0 ∧ n = true ∧ neg c = true) ∨ rm = .rd)), 0))))
    ∧ (let r := fpDiv f rm ftz a b
       let n := neg a != neg b
       nans [a, b] r
       ∧ ((f.isInf a ∧ f.isInf b) ∨ (f.finite a ∧ f.finite b ∧ v a = 0 ∧ v b = 0) → r = invalid)
       ∧ (f.isInf a → f.finite b → r = (inf n, 0)) ∧ (f.finite a → f.isInf b → r = (f.signBit n, 0))
       ∧ (f.finite a → f.finite b → v a ≠ 0 → v b = 0 → r = (inf n, fDZ))
       ∧ (f.finite a → f.finite b → v b ≠ 0 → rounds n 1 ((v a).natAbs * f.one) (v b).natAbs r))
    ∧ (let q := fpSqrt f rm ftz a
       let r := fpRsqrt f rm ftz a
       nans [a] q ∧ nans [a] r
       ∧ (¬ f.isNan a → v a < 0 → q = invalid ∧ r = invalid)
       ∧ (f.isInf a → neg a = false → q = (inf false, 0) ∧ r = (0, 0))
       ∧ (f.finite a → v a = 0 → q = (f.signBit (neg a), 0) ∧ r = (inf (neg a), fDZ))
       ∧ (f.finite a → 0 < v a → rounds false 2 ((v a).natAbs * f.one) 1 q ∧ rounds false 2 (f.one ^ 3) (v a).natAbs r))
    ∧ (let q := fpExp2 f rm ftz a
       let r := fpLog2 f rm ftz a
       nans [a] q ∧ nans [a] r
       ∧ (f.isInf a → q = (if neg a then 0 else inf false, 0) ∧ r = if neg a then invalid else (inf false, 0))
       ∧ (f.finite a → (v a = 0 → r = (inf true, fDZ)) ∧ (v a < 0 → r = invalid))
       ∧ (∀ k : Nat, f.finite a → (v a = k * f.one → rounds false 1 (2 ^ k * f.one) 1 q)
          ∧ (v a = -(k * f.one : Int) → rounds false 1 f.one (2 ^ k) q)
          ∧ (v a = 2 ^ k * f.one → rounds false 1 (k * f.one) 1 r)
          ∧ (0 < k → v a * 2 ^ k = f.one → rounds true 1 (k * f.one) 1 r)))
    ∧ (let r := fpRint f rm ftz a
       nans [a] r ∧ (f.isInf a → r = (a, 0))
       ∧ (f.finite a → ∃ k n, r.1 = f.signBit (neg a) + n ∧ n ≤ f.maxFinite ∧ f.units n = k * f.one
          ∧ (r.2 = if k * f.one = (v a).natAbs then 0 else fNX)
          ∧ if rm = .rne then NearestInt (v a).natAbs f.one k
            else if rm.away (neg a) = true then (v a).natAbs ≤ k * f.one ∧ k * f.one < (v a).natAbs + f.one
            else k * f.one ≤ (v a).natAbs ∧ (v a).natAbs < (k + 1) * f.one))
    ∧ (let r := fpAbs f ftz a
       nans [a] r ∧ (¬ f.isNan a → r = (f.mag (f.flushed ftz a), 0)))
    ∧ (∀ wantMax, let r := fpMaxMin f wantMax ftz a b
       let before := fun x y => v x < v y ∨ (v x = v y ∧ (neg x = true ∨ neg y = false))
       (f.isNan a → f.isNan b → r.1 = f.nan)
       ∧ (f.isNan a → ¬ f.isNan b → r.1 = f.flushed ftz b) ∧ (¬ f.isNan a → f.isNan b → r.1 = f.flushed ftz a)
       ∧ (¬ f.isNan a → ¬ f.isNan b →
          r.1 = f.flushed ftz a ∧ (if wantMax then before b a else before a b)
          ∨ r.1 = f.flushed ftz b ∧ if wantMax then before a b else before b a)
       ∧ (f.signals a ∨ f.signals b → r.2 = fNV) ∧ (¬ f.signals a → ¬ f.signals b → r.2 = 0))
    ∧ (let k := fpClass f a
       (f.isInf a → k = if neg a then 1 else 2 ^ 7)
       ∧ (f.finite a → 2 ^ f.frac ≤ f.mag a → k = if neg a then 2 else 2 ^ 6)
       ∧ (f.mag a < 2 ^ f.frac → f.mag a ≠ 0 → k = if neg a then 2 ^ 2 else 2 ^ 5)
       ∧ (f.mag a = 0 → k = if neg a then 2 ^ 3 else 2 ^ 4)
       ∧ (f.signals a → k = 2 ^ 8) ∧ (f.isNan a → ¬ f.signals a → k = 2 ^ 9))

/-- R189 to R195, R264 to R266: what the conversions are. Between two floating-point formats the exact value is rounded to nearest even,
and an overflow gives what SAT says; an infinity stays one where the format has it; a NaN becomes the canonical one. To an integer the
nearest one is taken, to even, and saturates; from an integer its value is rounded. That FTZ leaves FP16 and FP8 conversions alone on
both sides is the model's reading of R191 and R265 (log 11, DEDUCED). -/
def Sys2Proof.Claims.FloatConversions : Prop :=
  (∀ (src dst : FpFormat) (sat fs fd : Bool) (a : Nat), src ∈ [fp32, bf16, fp16, e4m3, e5m2] →
    dst ∈ [fp32, bf16, fp16, e4m3, e5m2] → a < 2 ^ src.width →
    let r := fpConvert src dst sat fs fd a
    let n := src.negative a
    let most := if sat then dst.signBit n + dst.maxFinite else dst.nan
    (src.isNan a → r.1 = dst.nan ∧ (src.signals a → r.2 = fNV) ∧ (¬ src.signals a → r.2 = 0))
    ∧ (src.isInf a → r = if dst.hasInf then (dst.signBit n + dst.maxFinite + 1, 0) else (most, fOF ||| fNX))
    ∧ (src.finite a → dst.Result .rne fd n 1 ((src.value fs a).natAbs * dst.one) src.one most r))
  ∧ (∀ (x : Word) (dst src : BitVec 3), src.toNat < 2 → dst = 5 ∨ dst = 6 →
    let f := if src = 0 then fp32 else bf16
    let a := x.toNat % 2 ^ f.width
    let lo : Int := if dst = 6 then -128 else -(2 ^ 31)
    let hi : Int := if dst = 6 then 127 else 2 ^ 31 - 1
    let r := icvtElem dst src x
    (f.isNan a → r = (0, fNV))
    ∧ (f.isInf a → r = (BitVec.ofInt 32 (if f.negative a then lo else hi), fNV))
    ∧ (f.finite a → ∃ k : Nat, NearestInt (f.value false a).natAbs f.one k ∧
        let y : Int := if f.negative a then -(k : Int) else k
        r = if hi < y then (BitVec.ofInt 32 hi, fNV) else if y < lo then (BitVec.ofInt 32 lo, fNV)
          else (BitVec.ofInt 32 y, if k * f.one = (f.value false a).natAbs then 0 else fNX)))
  ∧ (∀ (x : Word) (dst src : BitVec 3), dst.toNat < 2 → src = 5 ∨ src = 6 →
    let f := if dst = 0 then fp32 else bf16
    let y : Int := if src = 6 then (BitVec.ofNat 8 x.toNat).toInt else x.toInt
    ∃ r, icvtElem dst src x = (BitVec.ofNat 32 r.1, r.2)
      ∧ f.Result .rne false (decide (y < 0)) 1 (y.natAbs * f.one) 1 (f.beyond .rne (decide (y < 0))) r)

/-- Floating-point words and conversions: results and flags: FloatArithmetic, FloatUnary, FloatResults, FloatConversions. -/
def Obligations.FloatArithmeticWords : Prop := Sys2Proof.Claims.FloatArithmetic ∧ Sys2Proof.Claims.FloatUnary ∧ Sys2Proof.Claims.FloatResults ∧ Sys2Proof.Claims.FloatConversions

/-- R260, R261, R204, R271 (floats): VFCMP's eight conditions with their flags; VREDF's tree; VSCANF's stages, earlier lane first. A lane
that is not written contributes the identity. -/
def Sys2Proof.Claims.FloatComparesReductions : Prop :=
  ∀ (s : State) (w : Wave) (i : Issue) (u : BitVec 1) (cc : BitVec 3) (d a b o : BitVec 6) (g : BitVec 3), s.Latched w i →
    w.guardPoison (w.issuing i) g = false →
    let m := (w.issuing i).mask &&& (w.p g.toNat).bits
    let f := (w.issuing i).fmt
    let r := fun l => fpCond fp32 (fmtFtz f) cc.toNat ((w.v a.toNat).elem l).1.toNat (w.bElem u b l).1.toNat
    let op := fun (x y : Word) => ([fpAdd fp32 (fmtRm f) (fmtFtz f) x.toNat y.toNat, fpMaxMin fp32 true (fmtFtz f) x.toNat y.toNat,
      fpMaxMin fp32 false (fmtFtz f) x.toNat y.toNat] : List (Nat × Flags)).getD o.toNat (0, 0)
    let both := fun (x y : Word × Flags) => (BitVec.ofNat 32 (op x.1 y.1).1, x.2 ||| y.2 ||| (op x.1 y.1).2)
    let given : Nat → Word × Flags := fun l =>
      (if m.getLsbD l then ((w.v a.toNat).elem l).1 else ([0x80000000, 0xFF800000, 0x7F800000] : List Word).getD o.toNat 0, 0)
    exec (.vfcmp u cc d a b g) s
        = .next (s.after ((w.setP d.toNat m (maskOf (laneNumbers.map fun l => (r l).1))
            (maskOf (laneNumbers.map fun l => ((w.v a.toNat).elem l).2 || (w.bElem u b l).2))).raise
            ((lanesOf m).foldl (fun acc l => acc ||| (r l).2) 0)) i)
    ∧ (∀ t : Nat → Nat → Word × Flags, o.toNat ≤ 2 → (∀ l, l < 64 → t 0 l = given l) →
        (∀ n l, n < 6 → l < 64 → l % 2 ^ (n + 1) = 0 → t (n + 1) l = both (t n l) (t n (l + 2 ^ n))) →
        exec (.vredf d a o g) s
            = .next (s.after ((w.writeV d.toNat m
                (laneNumbers.map fun _ => ((t 6 0).1, decide ((w.v a.toNat).poison &&& m ≠ 0)))).raise (t 6 0).2) i))
    ∧ (∀ t : Nat → Nat → Word × Flags, o.toNat ≤ 2 → (∀ l, l < 64 → t 0 l = given l) →
        (∀ n l, n < 6 → l < 64 → t (n + 1) l = if 2 ^ n ≤ l then both (t n (l - 2 ^ n)) (t n l) else t n l) →
        exec (.vscanf d a o g) s
            = .next (s.after ((w.writeV d.toNat m (laneNumbers.map fun l =>
                ((t 6 l).1,
                  (List.range (l + 1)).any fun j => decide (j < 64) && (w.v a.toNat).poison.getLsbD j && m.getLsbD j))).raise
                ((lanesOf m).foldl (fun acc l => acc ||| (t 6 l).2) 0)) i))

/-- R261: the conditions of VFCMP over exact values, an infinity beyond every finite one, and when each raises NV. -/
def Sys2Proof.Claims.FloatConditions : Prop :=
  ∀ (ftz : Bool) (cc a b : Nat), cc < 8 → a < 2 ^ 32 → b < 2 ^ 32 →
    let x := fp32.value ftz a
    let y := fp32.value ftz b
    let r := fpCond fp32 ftz cc a b
    let lists := fun (c : List Bool) => r.1 = c.getD cc false
    (¬ fp32.isNan a → ¬ fp32.isNan b →
      lists [decide (x = y), decide (x ≠ y), decide (x < y), decide (x ≤ y), decide (y < x), decide (y ≤ x), false, true]
      ∧ r.2 = 0)
    ∧ (fp32.isNan a ∨ fp32.isNan b →
        lists [false, true, false, false, false, false, true, false]
        ∧ ((2 ≤ cc ∧ cc ≤ 5) ∨ fp32.signals a ∨ fp32.signals b → r.2 = fNV)
        ∧ (¬ (2 ≤ cc ∧ cc ≤ 5) → ¬ fp32.signals a → ¬ fp32.signals b → r.2 = 0))

/-- Floating-point compares, the reduction tree and the scans: FloatComparesReductions, FloatConditions. -/
def Obligations.FloatComparesAndReductions : Prop := Sys2Proof.Claims.FloatComparesReductions ∧ Sys2Proof.Claims.FloatConditions

/-- R268, R269: QPK quantises the FP32 group at va into the packed group at vd and writes the scale, poisoning all of them
where a source element is poisoned, and raises a flag for BF16 only; QUNPK decodes each element of the packed group, times the
scale's low half, poisoned with its byte's word or the scale. -/
def Sys2Proof.Claims.QuantWords : Prop :=
  ∀ (s : State) (w : Wave) (i : Issue) (d a b : BitVec 6) (g : BitVec 3),
    let u := w.issuing i
    let k := packedGroupSize u.fmt
    (s.Legal w i (.qpk d a b g) →
      let src := w.groupElems (w.winBase + a.toNat) (fp32GroupSize u.fmt)
      let p := src.any Prod.snd
      let r := packTile u.fmt (src.map Prod.fst)
      exec (.qpk d a b g) s = .next (s.after
        (((w.setGroupElems (w.winBase + d.toNat) k ((wordsOfBytes (64 * k) r.bytes).map fun x => (x, p))).setS b.toNat
          (BitVec.ofNat 32 r.scale) p).raise (if fmtNfmt u.fmt = 3 then r.flags else 0)) i))
    ∧ (s.Legal w i (.qunpk d a b g) →
      let src := w.groupElems (w.winBase + a.toNat) k
      let bytes := src.flatMap fun x => natToBytes 4 x.1.toNat
      let sv := bf16.decode ((w.s b.toNat).toNat % 2 ^ 16)
      let x := fun e => unpackElem (packedValue (fmtNfmt u.fmt) bytes e) sv
      let n := fmtT u.fmt * fmtT u.fmt
      let f := fun e => (BitVec.ofNat 32 (x e).1,
        (src.getD (packedWord (fmtNfmt u.fmt) e) (0, false)).2 || w.sPoison b.toNat)
      exec (.qunpk d a b g) s = .next (s.after
        ((w.setGroupElems (w.winBase + d.toNat) (fp32GroupSize u.fmt) ((List.range n).map f)).raise
          (((List.range n).map fun e => (x e).2).foldl (fun acc y => acc ||| y) 0)) i))

/-- R196 to R199, R267 to R269: what QPK packs and QUNPK unpacks, element by element. Byte n of the packed stream is byte n mod 4 of word
n / 4. A scale is the exact quotient rounded up to a BF16, at most the largest; an OX4 pair, an FP8 and a BF16 element is what the rules
make of the exact quotient. An unpacked element is the decoded number times the scale, rounded once, and a zero keeps its sign. -/
def Sys2Proof.Claims.QuantElements : Prop :=
  (∀ n l j (bs : List Byte), l < n → j < 4 →
    (BitVec.ofNat 8 (((wordsOfBytes n bs).getD l 0).toNat / 2 ^ (8 * j))) = bs.getD (4 * l + j) 0)
  ∧ (∀ (fmt : BitVec 8) (xs : List Word), xs.length = fmtT fmt * fmtT fmt → fmtNfmt fmt ≤ 3 →
    let p := packTile fmt xs
    let v := fun e => quantValue (xs.getD e 0).toNat
    let sorted := (xs.map fun x => (quantValue x.toNat).natAbs).mergeSort (fun x y => decide (y ≤ x))
    let kth := sorted.getD (if fmtT fmt = 16 then 3 else 7) 0
    let most := sorted.getD 0 0
    let one := bf16.one
    let up := fun N D => ∃ n, bf16.Rounds .ru false 1 N D n ∧ p.scale = min n 0x7F7F
    let S := (bf16.value false p.scale).natAbs
    (fmtNfmt fmt = 2 →
      p.flags = 0 ∧ p.bytes.length = xs.length / 2
      ∧ (kth ≠ 0 → up (kth * one) (7 * fp32.one))
      ∧ (kth = 0 → most ≠ 0 → up (most * one) (7 * 1024 * fp32.one))
      ∧ (most = 0 → p.scale = 0x3F80)
      ∧ ∀ j na nb ea eb, j < xs.length / 2 →
          let A := v (2 * j)
          let B := v (2 * j + 1)
          let D := S * fp32.one
          NearestInt (A.natAbs * one) D na → NearestInt (B.natAbs * one) D nb →
          NearestPow2 (A.natAbs * one) D ea → NearestPow2 (B.natAbs * one) D eb →
          let two := 7 < na ∧ 7 < nb
          let sign := fun (x : Int) => if x < 0 then 1 else 0
          let nib := fun (x : Int) (n : Nat) => (((if x < 0 then -(n : Int) else n) % 16 : Int)).toNat
          (p.bytes.getD j 0).toNat =
            if 7 < na ∧ ¬ (two ∧ A.natAbs < B.natAbs) then 16 * (8 * sign A + (ea - 3)) + 8
            else if 7 < nb ∧ ¬ (two ∧ B.natAbs ≤ A.natAbs) ∧ ¬ (B < 0 ∧ eb = 3) then 128 + 8 * sign B + (eb - 3)
            else 16 * nib B (min nb 7) + nib A (min na 7))
    ∧ (∀ f : FpFormat, (fmtNfmt fmt = 0 ∧ f = e4m3) ∨ (fmtNfmt fmt = 1 ∧ f = e5m2) →
        p.flags = 0 ∧ p.bytes.length = xs.length
        ∧ (most ≠ 0 → up (most * one) ((if f.hasInf then 57344 else 448) * fp32.one))
        ∧ (most = 0 → p.scale = 0x3F80)
        ∧ ∀ e, e < xs.length →
            let x := (xs.getD e 0).toNat
            let n := fp32.negative x
            let top := if fmtSat fmt then f.signBit n + f.maxFinite else f.nan
            let y := (p.bytes.getD e 0).toNat
            (fp32.isNan x → y = f.nan)
            ∧ (fp32.isInf x → y = if f.hasInf then f.signBit n + f.maxFinite + 1 else top)
            ∧ (fp32.finite x → ∃ fl, f.Result .rne false n 1 ((fp32.value false x).natAbs * one * f.one) (S * fp32.one) top (y, fl)))
    ∧ (fmtNfmt fmt = 3 → p.scale = 0x3F80 ∧ p.bytes.length = 2 * xs.length
        ∧ (∀ e, e < xs.length → (p.bytes.getD (2 * e) 0).toNat + 256 * (p.bytes.getD (2 * e + 1) 0).toNat
            = (fpConvert fp32 bf16 (fmtSat fmt) false false (xs.getD e 0).toNat).1)
        ∧ p.flags = xs.foldl (fun acc x => acc ||| (fpConvert fp32 bf16 (fmtSat fmt) false false x.toNat).2) 0))
  ∧ (∀ (nfmt e sc : Nat) (bs : List Byte), sc < 2 ^ 16 → bf16.finite sc → nfmt ≤ 3 →
    let r := unpackElem (packedValue nfmt bs e) (bf16.decode sc)
    let S := bf16.value false sc
    let times := fun (n : Bool) (N D : Nat) =>
      (N = 0 → r = (fp32.signBit n, 0))
      ∧ (N ≠ 0 → fp32.Result .rne false (n != bf16.negative sc) 1 (N * S.natAbs * fp32.one) (D * bf16.one)
          (fp32.beyond .rne (n != bf16.negative sc)) r)
    (nfmt = 2 →
      let y := (bs.getD (e / 2) 0).toNat
      let lo := y % 16
      let hi := y / 16
      let outlier := fun n : Nat => (if 8 ≤ n then -1 else 1) * (2 : Int) ^ (3 + n % 8)
      let small := fun n : Nat => if 8 ≤ n then (n : Int) - 16 else n
      let x : Int :=
        if lo = 8 then (if e % 2 = 0 then outlier hi else 0)
        else if hi = 8 then (if e % 2 = 0 then 0 else outlier lo)
        else if e % 2 = 0 then small lo else small hi
      times (decide (x < 0)) x.natAbs 1)
    ∧ (∀ (f : FpFormat) y, (nfmt = 0 ∧ f = e4m3 ∧ y = (bs.getD e 0).toNat) ∨ (nfmt = 1 ∧ f = e5m2 ∧ y = (bs.getD e 0).toNat)
        ∨ (nfmt = 3 ∧ f = bf16 ∧ y = (bs.getD (2 * e) 0).toNat + 256 * (bs.getD (2 * e + 1) 0).toNat) →
        (f.isNan y → r.1 = fp32.nan ∧ (nfmt ≠ 3 → r.2 = 0))
        ∧ (f.isInf y → S ≠ 0 → r = (fp32.signBit (f.negative y != bf16.negative sc) + fp32.maxFinite + 1, 0))
        ∧ (f.finite y → times (f.negative y) (f.value false y).natAbs f.one)))

/-- QPK and QUNPK, and the elements they pack and unpack: QuantWords, QuantElements. -/
def Obligations.Quantisation : Prop := Sys2Proof.Claims.QuantWords ∧ Sys2Proof.Claims.QuantElements

/-- R232: BRA, BRAN and JMPI, taken and not; a target off a packet is Misaligned at the target's address. -/
def Obligations.Branches : Prop :=
  ∀ (s : State) (w : Wave) (i : Issue) (q : BitVec 3) (o : BitVec 19) (a : BitVec 6), s.Latched w i →
    w.qPoison q.toNat = false →
    exec (.bra q o) s = (if w.q q.toNat then s.wentTo w i (i.target o.toInt) else .next (s.after w i))
    ∧ exec (.bran q o) s = (if w.q q.toNat then .next (s.after w i) else s.wentTo w i (i.target o.toInt))
    ∧ (w.sPoison a.toNat = false →
        (w.q q.toNat = false → exec (.jmpi q a) s = .next (s.after w i))
        ∧ (w.q q.toNat = true → (w.s a.toNat).toNat % 16 = 0 →
            exec (.jmpi q a) s = s.wentTo w i (w.s a.toNat).toNat)
        ∧ (w.q q.toNat = true → (w.s a.toNat).toNat % 16 ≠ 0 → w.canTrap →
            exec (.jmpi q a) s = s.tookTrap w i 3 0 (s.codeVa w (w.s a.toNat).toNat)))

/-- R236, R237: a taken call pushes its record, moves the window by the frame step and goes to its target; where the window
leaves the resident range, or the record is the seventeenth, the spill engine works and the wave waits for it. An untaken one
does nothing; the 1,025th open call is Spill Failure. -/
def Sys2Proof.Claims.Calls : Prop :=
  ∀ (s : State) (w : Wave) (i : Issue) (q : BitVec 3) (o : BitVec 19) (a : BitVec 6), s.Latched w i →
    w.qPoison q.toNat = false → w.sPoison a.toNat = false → i.lit.toNat % 8 = 0 → i.lit.toNat ≤ 64 →
    let base := w.winBase + i.lit.toNat
    let lo := if w.lo + w.vregs.length < base + 64 then base + 64 - w.vregs.length else w.lo
    let r : CallRec := { ret := i.pc / 16 * 16 + 16, step := i.lit.toNat, ddepth := (w.issuing i).open }
    (w.q q.toNat = false → exec (.call q o) s = .next (s.after w i) ∧ exec (.calli q a) s = .next (s.after w i))
    ∧ (w.q q.toNat = true → 1024 ≤ w.openCalls → w.canTrap → exec (.call q o) s = s.tookTrap w i 9 1 0)
    ∧ (w.q q.toNat = true → w.openCalls < 1024 → ∀ s1 w1 s2 w2,
        s.spillGranules w w.lo ((lo - w.lo) / 8) = (s1, w1, none) → s1.pushCall w1 r = .ok (s2, w2) →
        let out := w.divergent && (w.unit i.arm.other).live && w.callArm.isNone
        let w3 := { w2 with lo := lo, winBase := base, callArm := if out then some (i.arm, w.openCalls) else w2.callArm }
        let w4 := if lo ≠ w.lo ∨ 16 ≤ w.calls.length then w3.setUnit i.arm { w3.unit i.arm with wait := .spill } else w3
        exec (.call q o) s = s2.wentTo w4 i (i.target o.toInt)
        ∧ ((w.s a.toNat).toNat % 16 = 0 → exec (.calli q a) s = s2.wentTo w4 i (w.s a.toNat).toNat))

/-- R236: a return pops the top record, moves the window back and goes to the packet after the call; with no record of this
frame, or a divergence entry open in it, it is illegal. -/
def Sys2Proof.Claims.Returns : Prop :=
  ∀ (s : State) (w : Wave) (i : Issue) (q : BitVec 3), s.Latched w i → w.qPoison q.toNat = false →
    (w.q q.toNat = false → exec (.ret q) s = .next (s.after w i))
    ∧ (w.q q.toNat = true → w.canTrap → w.calls = [] → exec (.ret q) s = s.tookTrap w i 1 4 0)
    ∧ ∀ top rest, w.q q.toNat = true → w.calls = top :: rest →
        (top.ddepth ≠ (w.issuing i).open → w.canTrap → exec (.ret q) s = s.tookTrap w i 1 4 0)
        ∧ ∀ s1 w1 s2 w2, top.ddepth = (w.issuing i).open →
            s.fillGranules w (w.winBase - top.step) ((w.lo - (w.winBase - top.step)) / 8) = .ok (s1, w1) →
            s1.popCall w1 = .ok (s2, w2) →
            let w3 := { w2 with winBase := w.winBase - top.step, lo := min w.lo (w.winBase - top.step),
                                callArm := if (w.callArm.map Prod.snd) = some (w.openCalls - 1) then none else w2.callArm }
            let w4 := if w.winBase - top.step < w.lo ∨ w.spilledCalls ≠ 0
              then w3.setUnit i.arm { w3.unit i.arm with wait := .spill } else w3
            exec (.ret q) s = s2.wentTo w4 i top.ret

/-- Calls and returns, the window stack and its spills: Calls, Returns. -/
def Obligations.CallsAndReturns : Prop := Sys2Proof.Claims.Calls ∧ Sys2Proof.Claims.Returns

/-- R239: SPLIT of a converged wave opens the outermost entry and makes both arms runnable; of an arm it pushes an entry and
runs the true lanes first, or the else lanes where none is true. That the ninth open entry of an arm goes to the spill area is the
model's reading (log 47, DEDUCED). -/
def Sys2Proof.Claims.Split : Prop :=
  ∀ (s : State) (w : Wave) (i : Issue) (p : BitVec 6) (e : BitVec 16), s.Latched w i →
    let u := w.issuing i
    let tl := u.mask &&& (w.p p.toNat).bits
    let el := u.mask &&& ~~~(w.p p.toNat).bits
    let entry : DivEntry :=
      { trueLanes := tl, elseLanes := el, brk := 0, elseTarget := i.target e.toInt / 16 % 2 ^ 28,
        joinTarget := i.target i.lit.toInt / 16 % 2 ^ 28, fmt := u.fmt, inElse := false }
    u.mask ≠ 0 → u.mask &&& (w.p p.toNat).poison = 0 → u.open < 255 →
    (w.divergent = false →
      exec (.split p e) s = .next (s.setWave
        { w with
          divergent := true,
          unitT := { u with mask := tl, entries := [entry], atJoin := decide (tl = 0), refusals := [],
                            looked := false, table := [], atBank := none,
                            pc := if tl = 0 then 16 * entry.joinTarget else nextWord i.pc },
          unitE := { UnitSt.empty with
                      mask := el, entries := [entry], atJoin := decide (el = 0), fmt := u.fmt, ready := s.now,
                      lastIssue := u.lastIssue, pc := if el = 0 then 16 * entry.joinTarget else 16 * entry.elseTarget } }))
    ∧ ∀ s1 w1, w.divergent = true →
        s.pushEntry w i.arm { entry with inElse := decide (tl = 0) } = .ok (s1, w1) →
        exec (.split p e) s = .next (s1.setWave (w1.setUnit i.arm
          { w1.unit i.arm with
            mask := if tl = 0 then el else tl, refusals := [], looked := false, table := [], atBank := none,
            pc := if tl = 0 then 16 * entry.elseTarget else nextWord i.pc,
            wait := if 9 ≤ u.entries.length then .spill else (w1.unit i.arm).wait }))

/-- R240: JOIN at the innermost entry's join target: the first arm there waits, and the second reunites the lanes, with FMT as the
SPLIT saved it; inside an arm the else lanes run next, and then the entry closes. Anywhere else JOIN is illegal. The model's choices,
which no rule makes: JOIN first waits until the unit's accesses have performed (log 10: more than R114 asks), and hardware holds eight
entries of an arm above the outermost one (log 47, DEDUCED). -/
def Sys2Proof.Claims.Join : Prop :=
  ∀ (s : State) (w : Wave) (i : Issue) (e : DivEntry) (rest : List DivEntry), s.Latched w i →
    let u := w.issuing i
    u.entries = e :: rest → w.frameDepth < u.open →
    (i.pc ≠ 16 * e.joinTarget → w.canTrap → exec .join s = s.tookTrap w i 1 4 0)
    ∧ (i.pc = 16 * e.joinTarget → s.arrives i (exec .join s) (u.open + 1) w e rest)

/-- SPLIT and JOIN: Split, Join. -/
def Obligations.Divergence : Prop := Sys2Proof.Claims.Split ∧ Sys2Proof.Claims.Join

/-- R241, R242, R244, R183: BRKP sends lanes to the JOIN, and a unit that it empties arrives there; PMASK, ANYP and ALLP read the active
lanes; HALT ends the lanes for good, and a converged wave with them, and inside a divergence its unit arrives at the JOIN without them;
YIELD. That an arrival waits for the unit's accesses is the model's choice (log 10). -/
def Obligations.LaneControl : Prop :=
  ∀ (s : State) (w : Wave) (i : Issue) (p d : BitVec 6), s.Latched w i →
    let u := w.issuing i
    let m := u.mask &&& (w.p p.toNat).bits
    let poison := decide (u.mask &&& (w.p p.toNat).poison ≠ 0)
    (∀ e rest, u.entries = e :: rest → w.frameDepth < u.open → poison = false →
      let e1 : DivEntry := { e with brk := e.brk ||| m }
      let x := w.setUnit i.arm { u with mask := u.mask &&& ~~~m, entries := e1 :: rest }
      (u.mask &&& ~~~m ≠ 0 → exec (.brkp p) s = .next (s.after x i))
      ∧ (u.mask &&& ~~~m = 0 → s.arrives i (exec (.brkp p) s) (u.open + 1) x e1 rest))
    ∧ (w.canTrap → poison = true → u.entries ≠ [] → w.frameDepth < u.open →
        exec (.brkp p) s = s.tookTrap w i 6 0 (s.codeVa w i.pc))
    ∧ (d.toNat % 2 = 0 → exec (.pmask d) s = .next (s.after (w.setPair d.toNat u.mask.toNat false) i))
    ∧ (d.toNat ≤ 7 →
        exec (.anyp d p) s = s.wroteQ w i 0 d ((List.range 64).any fun l => u.mask.getLsbD l && (w.p p.toNat).bits.getLsbD l) poison
        ∧ exec (.allp d p) s
            = s.wroteQ w i 0 d ((List.range 64).all fun l => !u.mask.getLsbD l || (w.p p.toNat).bits.getLsbD l) poison)
    ∧ (u.entries = [] →
        ∃ w', exec .halt s = .next (s.setWave w') ∧ w'.status = .halted ∧ w'.unitT.mask = 0 ∧ w'.unitE.mask = 0
          ∧ w'.haltedLanes = w.haltedLanes ||| u.mask ∧ w'.progress = 0 ∧ w'.sregs = w.sregs ∧ w'.vregs = w.vregs)
    ∧ (∀ e rest, u.entries = e :: rest → s.arrives i (exec .halt s) (u.open + 1)
        (({ w with progress := 0, watchdogFired := false, haltedLanes := w.haltedLanes ||| u.mask } : Wave).setUnit i.arm
          { u with mask := 0 }) e rest)
    ∧ exec .yield s = .next (s.after (w.setUnit i.arm { u with yielded := true, lastIssue := s.now }) i)

/-- R245, R246: SLEEPUNTIL returns at once when its time has passed, and else sleeps until it has; WAITLINE returns at once
when the word differs from the expected value, and else sleeps on the word's line, with the timeout if there is one. -/
def Obligations.Sleeps : Prop :=
  ∀ (s : State) (w : Wave) (i : Issue) (k : BitVec 5) (sx sy : BitVec 6), s.Latched w i →
    w.sPairPoison (2 * k.toNat) = false →
    let va := w.sPair (2 * k.toNat)
    let t := va % 2 ^ 48
    let d := (s.now48 + 2 ^ 48 - t) % 2 ^ 48
    exec (.sleepuntil k) s
        = (if 1 ≤ d ∧ d < 2 ^ 47 then .next (s.after w i) else s.slept w i (.sleepUntil t))
    ∧ ∀ pa e e1 s1 val key, w.sPoison sx.toNat = false → w.sPoison sy.toNat = false → va % 4 = 0 →
        s.waveXlate w (w.issuing i) va 4 .read = .ok pa e → e.tier ≠ .relay → e.tier ≠ .aperture →
        s.readData w i (w.issuing i) va 4 true = .ok s1 val none key e1 →
        exec (.waitline k sx sy) s
          = (if val ≠ (w.s sx.toNat).toNat then .next (s1.after (s1.again w) i)
             else s1.slept (s1.again w) i
               (.line (key / 128 * 128) (if (w.s sy.toNat).toNat = 0 then 0 else s.now + (w.s sy.toNat).toNat) false))

/-- R247, R331, R332: TRAP and BKPT enter the handler with their code as subcode; RTE goes on at TRAPPC, or at the next packet
when TRAPPC names the literal, with the FMT that the trap saved; where the other arm's fault has been answered FATAL meanwhile, that arm then enters the handler (R337),
unless a Watchdog trap or a late error comes first (R333). -/
def Obligations.TrapsAndReturn : Prop :=
  ∀ (s : State) (w : Wave) (i : Issue) (n : BitVec 8), s.Latched w i →
    (w.canTrap → exec (.trap n) s = s.tookTrap w i 15 n.toNat 0)
    ∧ (w.canTrap → ((s.part? w.part).map Part.debug).getD false = false → exec (.bkpt n) s = s.tookTrap w i 14 n.toNat 0)
    ∧ (((s.part? w.part).map Part.debug).getD false = true → exec (.bkpt n) s = .next (s.debugStop w 0).trapped)
    ∧ ∀ h, w.handler = some h → (w.issuing i).open ≤ h.depth → (h.wait = .none ∨ ∃ t, h.wait = .sleepUntil t) →
        let y := Wave.setUnit { w with handler := none } i.arm
          { w.issuing i with
            pc := if w.trapPc.toNat % 16 = 12 then w.trapPc.toNat + 4 else w.trapPc.toNat, fmt := w.savedFmt,
            wait := h.wait, skip := h.skip, ibuf := none, refusals := [], looked := false, table := [], atBank := none }
        let other := i.arm.other
        ((∀ tag va asid sub kind posted at2 c, (w.unit other).wait ≠ .fault tag va asid sub kind posted 2 at2 c) →
          (∀ tag va asid sub kind posted at2 c, (w.unit other).wait ≠ .fault tag va asid sub kind posted 1 at2 c) →
          exec .rte s = .next (s.setWave y))
        ∧ (∀ tag va asid sub kind posted at2 c, (w.unit other).wait = .fault tag va asid sub kind posted 1 at2 c →
            exec .rte s = .next (s.setWave (y.setUnit other { w.unit other with wait := .none, ready := s.now })))
        ∧ ∀ tag va asid sub kind posted at2 c, (w.unit other).wait = .fault tag va asid sub kind posted 2 at2 c → w.trapBase ≠ 0 →
            s.noWatchdog w → w.late = [] → w.dbgStep = none →
            exec .rte s = .next (s.setWave (y.entered other at2 (refusalCause sub) sub va c .none))

/-- R174: DISPATCH takes the lowest bucket whose ranges hold the shape, writes BUCKET and the bounds, and goes to its entry
point; with no such bucket it goes on with the next packet. (The table's reads leave the state as it was.) For a table in a relay
window it first asks the serving peer for the table's bytes (R21), as an operation of its own, and issues again when they have come: how
such a table is read is the model's choice (log 40). -/
def Sys2Proof.Claims.Dispatch : Prop :=
  ∀ (s : State) (w : Wave) (i : Issue) (a : BitVec 6) (h : Nat) (key0 : Nat) (e0 : TlbEntry) (ent : Nat → Nat), s.Latched w i →
    a.toNat ≤ 60 → s.dtab w ≠ 0 →
    let u := w.issuing i
    let ndim := if h / 2 ^ 16 % 256 = 0 then 1 else min (h / 2 ^ 16 % 256) 4
    let nb := if 1 ≤ h % 2 ^ 16 ∧ h % 2 ^ 16 ≤ 256 then h % 2 ^ 16 else 0
    let shape := (List.range 4).map fun d => (w.s (a.toNat + d)).toNat
    let holds := fun b => ∀ d, d < ndim →
      ent b / 2 ^ (64 * d) % 2 ^ 32 ≤ shape.getD d 0 ∧ shape.getD d 0 ≤ ent b / 2 ^ (64 * d + 32) % 2 ^ 32
    s.readData w i u (s.dtab w) 4 false = .ok s h none key0 e0 →
    (∀ d, d < ndim → w.sPoison (a.toNat + d) = false) →
    (∀ b, b < nb → ∃ key e, s.readData w i u (addAddr (s.dtab w) (128 * (b + 1))) 84 false = .ok s (ent b) none key e) →
    ((∀ b, b < nb → ¬ holds b) →
      exec (.dispatch a) s
        = s.wentTo { w with bucket := 0xFFFFFFFF, bounds := List.replicate 8 0 } i (i.pc / 16 * 16 + 16))
    ∧ ∀ b, b < nb → holds b → (∀ c, c < b → ¬ holds c) →
        exec (.dispatch a) s
          = s.wentTo { w with bucket := BitVec.ofNat 32 b,
                              bounds := [0, 1, 2, 3].flatMap (boundPair (ent b) ndim shape) } i
              (16 * (ent b / 2 ^ 640 % 2 ^ 32))

/-- R21, R174: a DISPATCH whose table lies in a relay window asks the serving peer for the header's bytes, unless they have come, and
waits for them. That the word asks with one relayed read of its own for each sector is the model's choice (log 40). -/
def Sys2Proof.Claims.RelayedTable : Prop :=
  ∀ (s : State) (w : Wave) (i : Issue) (a : BitVec 6) (pa m x : Nat) (e : TlbEntry), s.Latched w i → a.toNat ≤ 60 → s.dtab w ≠ 0 →
    s.waveXlate w (w.issuing i) (s.dtab w) 4 .read = .ok pa e → e.tier = .relay → physPlace pa = .relay m x → x % 128 = 0 →
    let key := moduleKey m x
    let ps : List OpPart :=
      [{ lane := 0, key := key, va := s.dtab w, size := 4, act := .read, route := .runner, age := s.now, noAlloc := false, na := false,
         nt := false, col := false, done := false, val := 0, poison := false }]
    let o := newOp w i .load .pkg true ps .table
    let w1 := w.addOp o
    let w2 := w1.setUnit i.arm { w1.unit i.arm with wait := .op w.nextOp }
    w.overlaps key 4 false = false → (∀ t ∈ (w.issuing i).table, ¬ (t.key = key ∧ t.size = 4)) → w.outst < 63 →
    s.relayStalls w ps = false →
    exec (.dispatch a) s = .next ((s.setWave w2).relayParts w2 i.arm w.nextOp ps).stall

/-- R176, R177, R250: PHASEEND adds the cycles of the phase to its group's count, saturating; PHASESEL writes the entry of
R177 and starts a phase; without a bucket PHASEEND does nothing. The model's choices: a table in a relay window is written by a relayed
write of its own (log 40); the write-back does not need W = 1, and T[CUR] of a CUR at or above NVAR is computed from that variant's
weights (log 52). -/
def Sys2Proof.Claims.Phases : Prop :=
  ∀ (s : State) (w : Wave) (i : Issue) (g : BitVec 2), s.Latched w i → s.feature 7 = true → s.dtab w ≠ 0 →
    (w.bucket = 0xFFFFFFFF → exec (.phaseend g) s = .next (s.after w i))
    ∧ ∀ s1 s2 s3 h e key k0 t0 tlb, w.bucket ≠ 0xFFFFFFFF →
        s.readData w i (w.issuing i) (s.dtab w) 4 false = .ok s1 h none k0 t0 →
        (h % 2 ^ 16 ≤ w.bucket.toNat →
          exec .phasesel s = .next (s1.after { s1.again w with phaseVar := 0, phaseStart := s.now } i)
          ∧ exec (.phaseend g) s = .next (s1.after (s1.again w) i))
        ∧ (w.bucket.toNat < h % 2 ^ 16 →
            let va := addAddr (s.dtab w) (128 * (w.bucket.toNat + 1) + 64)
            s1.readData (s1.again w) i (w.issuing i) va 64 false = .ok s2 e none key tlb →
            let w2 := s2.again w
            let cnt := min (e / 2 ^ (320 + 48 * g.toNat) % 2 ^ 48 + (s.now + 2 ^ 64 - w2.phaseStart) % 2 ^ 64) (2 ^ 48 - 1)
            let eEnd := setBits e (320 + 48 * g.toNat) 48 cnt
            let eSel := phaseselEntry e (w.phaseVar.toNat / 65536)
            let started := fun (y : Wave) => ({ y with phaseVar := phaseVarOf eSel, phaseStart := s.now } : Wave)
            (tlb.tier ≠ .aperture → tlb.tier ≠ .relay → w.overlaps key 64 true = false →
              let put := fun (x : Nat) => s2.unitWrite (coreQuad w2.core) w2.part key (natToBytes 64 x) false
              (put eEnd = (s3, true) → exec (.phaseend g) s = .next (s3.after (s3.again w2) i))
              ∧ (put eSel = (s3, true) → exec .phasesel s = .next (s3.after (started (s3.again w2)) i)))
            ∧ (tlb.tier = .relay → key % 64 = 0 → w.overlaps key 64 true = false →
                let ps := fun (x : Nat) => ([{ lane := 0, key := key, va := va, size := 64, act := .write (x % 2 ^ 512), route := .runner,
                                               age := s2.now, noAlloc := false, na := false, nt := false, col := false, done := false,
                                               val := 0, poison := false }] : List OpPart)
                let sends := fun (out : Out) (y : Wave) (x : Nat) => y.outst < 63 → s2.relayStalls y (ps x) = false →
                  let z := (y.addOp (newOp y i .store .pkg false (ps x) .none)).goto i.arm (nextWord i.pc)
                  out = .next ((s2.setWave z).relayParts z i.arm y.nextOp (ps x))
                sends (exec (.phaseend g) s) w2 eEnd ∧ sends (exec .phasesel s) (started w2) eSel))

/-- DISPATCH, PHASEEND and PHASESEL: Dispatch, RelayedTable, Phases. -/
def Obligations.ShapesAndPhases : Prop := Sys2Proof.Claims.Dispatch ∧ Sys2Proof.Claims.RelayedTable ∧ Sys2Proof.Claims.Phases

/-- R230, R275 to R282: a uniform or lane load, store or atomic whose lanes pass issues one operation over them: its scope,
order, size, destination and what each lane does. -/
def Obligations.MemoryAccesses : Prop :=
  ∀ (s : State) (w : Wave) (i : Issue) (d o : BitVec 6) (s2 : State) (w2 : Wave) (ls : List LaneReq) (ps : List OpPart),
    s.Latched w i →
    (∀ (imm : BitVec 10), o.toNat % 2 = 0 → w.sPairPoison o.toNat = false →
      let va := addAddr (w.sPair o.toNat) ((immediate imm i.lit).signExtend 64).toNat
      let x := fun (k : OpKind) (c : AccKind) (n v : Nat) (dest : Dest) (act : LaneReq → PartAct) =>
        ({ kind := k, acc := c, size := n, scope := .wave, order := 0,
           lanes := if va % n ≠ 0 then .misaligned va else .ok [{ lane := 0, addr := va, a := v, b := 0 }], dest := dest,
           act := act, route := fun _ => .cache, tierOk := fun _ => true, noAlloc := false, nt := false } : Access)
      let r4 := x .load .read 4 (w.s 0).toNat (.uni d.toNat false) (fun _ => .read)
      let r8 := x .load .read 8 (w.sPair 0) (.uni d.toNat true) (fun _ => .read)
      let w4 := x .store .write 4 (w.s d.toNat).toNat .none (fun l => .write l.a)
      let w8 := x .store .write 8 (w.sPair d.toNat) .none (fun l => .write l.a)
      (s.admits w i r4 s2 w2 ls ps → exec (.uld32 d o imm) s = s.didIssue w i r4 s2 w2 ls ps)
      ∧ (d.toNat % 2 = 0 → s.admits w i r8 s2 w2 ls ps → exec (.uld64 d o imm) s = s.didIssue w i r8 s2 w2 ls ps)
      ∧ (w.sPoison d.toNat = false → s.admits w i w4 s2 w2 ls ps →
          exec (.ust32 d o imm) s = s.didIssue w i w4 s2 w2 ls ps)
      ∧ (d.toNat % 2 = 0 → w.sPairPoison d.toNat = false → s.admits w i w8 s2 w2 ls ps →
          exec (.ust64 d o imm) s = s.didIssue w i w8 s2 w2 ls ps))
    ∧ (∀ (z : BitVec 2) (sc : BitVec 3) (r : BitVec 2) (k : BitVec 5) (n : BitVec 1), sc ≠ 7 → (z ≠ 3 ∨ d ≠ 63) →
        w.sPairPoison (2 * k.toNat) = false →
        let base := w.sPair (2 * k.toNat)
        let size := 2 ^ z.toNat
        let load : Access :=
          { kind := .load, acc := .read, size := size, scope := scopeOf sc, order := r,
            lanes := w.loadLanes (w.issuing i) o base size, dest := .vec (w.winBase + d.toNat) (z = 3), act := fun _ => .read,
            route := fun _ => .cache, tierOk := fun _ => true, noAlloc := false, nt := n = 1 }
        let store : Access :=
          { kind := .store, acc := .write, size := size, scope := scopeOf sc, order := r,
            lanes := w.storeLanes (w.issuing i) d o base size, dest := .none, act := fun l => .write l.a,
            route := fun _ => .cache, tierOk := fun _ => true, noAlloc := false, nt := n = 1 }
        let gather : Access :=
          { load with route := fun key => if isModuleKey key then .cache else .gather (key / Config.hbmWindow),
                      tierOk := fun t => t ≠ .aperture }
        (s.admits w i load s2 w2 ls ps → exec (.ldg z sc r d o k n) s = s.didIssue w i load s2 w2 ls ps)
        ∧ (s.admits w i store s2 w2 ls ps → exec (.stg z sc r d o k n) s = s.didIssue w i store s2 w2 ls ps)
        ∧ (s.feature 6 = true → s.admits w i gather s2 w2 ls ps →
            exec (.gather z sc r d o k n) s = s.didIssue w i gather s2 w2 ls ps)
        ∧ (s.feature 6 = true → s.admits w i { store with noAlloc := true } s2 w2 ls ps →
            exec (.scatter z sc r d o k n) s = s.didIssue w i { store with noAlloc := true } s2 w2 ls ps))
    ∧ ∀ (p : BitVec 3) (w64 : BitVec 1) (sc : BitVec 3) (r : BitVec 2) (k : BitVec 4), sc ≠ 7 →
        d.toNat + (if w64 = 1 then 2 else 1) * (if p = 7 then 2 else 1) ≤ 64 → w.sPairPoison (2 * k.toNat) = false →
        let size := if w64 = 1 then 8 else 4
        let x : Access :=
          { kind := .atomic, acc := .atomic, size := size, scope := scopeOf sc, order := r,
            lanes := w.atomicLanes (w.issuing i) p d o (w.sPair (2 * k.toNat)) size,
            dest := .vec (w.winBase + d.toNat) (w64 = 1), act := fun l => .atomic p.toNat l.a l.b,
            route := fun _ => .atomicUnit, tierOk := fun t => t ≠ .aperture, noAlloc := false, nt := false }
        s.admits w i x s2 w2 ls ps → exec (.atomg p w64 sc r d o k) s = s.didIssue w i x s2 w2 ls ps

/-- R107, R165, R180: an operation that issues joins OUTST, its unit goes on with the next word, an acquire holds the unit until it
has performed, and no register of the wave changes until it completes. -/
def Sys2Proof.Claims.IssuedOperation : Prop :=
  ∀ (s : State) (w : Wave) (i : Issue) (x : Access) (sc : Scope) (ps : List OpPart) (low : Nat),
    s.wave? w.seq w.wid = some w → (∀ p ∈ ps, p.route ≠ .runner) →
    ∃ w' o, (s.issued w i x sc ps low).wave? w.seq w.wid = some w'
      ∧ w'.pend = w.pend ++ [o] ∧ o.id = w.nextOp ∧ o.dest = x.dest ∧ o.arm = i.arm ∧ o.acquire = isAcquire x.order
      ∧ (w'.unit i.arm).pc = nextWord i.pc
      ∧ (w'.unit i.arm).wait = (if isAcquire x.order then .op w.nextOp else .none)
      ∧ w' = { w with pend := w'.pend, nextOp := w.nextOp + 1, unitT := w'.unitT, unitE := w'.unitE, handler := w'.handler }
      ∧ (w'.handler.map fun h => (h.arm, h.depth)) = w.handler.map fun h => (h.arm, h.depth)

/-- R277, R165, R180, R286: when every part of an operation that is no acquire has performed, its completion writes each lane of the
destination, one register or two, or the s register or pair unless a later word of the other arm has written it, with the value and the
poison its part brought, takes the operation out of OUTST, and lets the waiting unit go on. -/
def Sys2Proof.Claims.LoadCompletes : Prop :=
  ∀ (s : State) (seq wid : Nat) (w : Wave) (o : PendOp), s.wave? seq wid = some w → o ∈ w.pend →
    (w.pend.find? fun x => x.id = o.id) = some o → o.finished = true → o.acquire = false →
    ∃ t w', exec .accessComplete { s with call := .accessComplete seq wid o.id } = .next t
      ∧ t.mem = s.mem ∧ t.wave? seq wid = some w'
      ∧ w'.pend = w.pend.filter (fun x => x.id ≠ o.id)
      ∧ (∀ a, (w'.unit a).wait = if (w.unit a).wait = .op o.id then .none else (w.unit a).wait)
      ∧ (o.dest = .none → w'.vregs = w.vregs ∧ w'.sregs = w.sregs)
      ∧ (∀ sd p, o.dest = .uni sd false → o.parts.head? = some p →
          w'.sregs = (if o.hidden.contains sd then w else w.setS sd (BitVec.ofNat 32 p.val) p.poison).sregs)
      ∧ (∀ sd p, o.dest = .uni sd true → o.parts.head? = some p →
          let w1 := if o.hidden.contains sd then w else w.setS sd (BitVec.ofNat 32 p.val) p.poison
          w'.sregs
            = (if o.hidden.contains (sd + 1) then w1 else w1.setS (sd + 1) (BitVec.ofNat 32 (p.val / 2 ^ 32)) p.poison).sregs)
      ∧ (∀ base, o.dest = .vec base false → w.vregs ≠ [] → ∀ l, l < 64 →
          (w'.logV base).elem l =
            match o.parts.find? fun p => p.lane = l with
            | some p => (BitVec.ofNat 32 p.val, p.poison)
            | none => (w.logV base).elem l)
      ∧ (∀ base, o.dest = .vec base true → 64 ≤ w.vregs.length → ∀ l k, l < 64 → k < 2 →
          (w'.logV (base + k)).elem l =
            match o.parts.find? fun p => p.lane = l with
            | some p => (BitVec.ofNat 32 (p.val / 2 ^ (32 * k)), p.poison)
            | none => (w.logV (base + k)).elem l)

/-- What issuing and completing an operation does to its wave: IssuedOperation, LoadCompletes. -/
def Obligations.OperationsIssueAndComplete : Prop := Sys2Proof.Claims.IssuedOperation ∧ Sys2Proof.Claims.LoadCompletes

/-- R39 to R45, R279, R283: a scratchpad word whose lanes lie in its window presents them to their banks, sixteen lanes a cycle, as
one operation. -/
def Obligations.ScratchpadAccesses : Prop :=
  ∀ (s : State) (w : Wave) (i : Issue) (z : BitVec 2) (sc : BitVec 3) (r : BitVec 2) (d o : BitVec 6) (k : BitVec 5)
      (k4 : BitVec 4) (n : BitVec 1) (p : BitVec 3) (s1 : State) (ls : List LaneReq),
    s.Latched w i → sc ≠ 7 → w.outst < 63 →
    (if isRelease r then s.releaseAt w i.arm (s.clampScope w.part (scopeOf sc)).2 else (s, true)) = (s1, true) →
    let w1 := s1.again w
    let inWindow := ∀ l ∈ ls, (s1.qspKeyOf w1 l.addr).isSome = true
    let parts := fun (size : Nat) (act : LaneReq → PartAct) =>
      ls.map fun l =>
        ({ lane := l.lane, key := (s1.qspKeyOf w1 l.addr).getD 0, va := l.addr, size := size, act := act l,
           route := .qsp (bitsAt ((s1.qspKeyOf w1 l.addr).getD 0) 16 5), age := s1.now + l.lane / 16, noAlloc := false,
           na := false, nt := false, col := n = 1, done := false, val := 0, poison := false } : OpPart)
    let issues := fun (kind : OpKind) (writes : Bool) (dest : Dest) (ps : List OpPart) (out : Out) =>
      (∀ q ∈ ps, w1.overlaps q.key q.size writes = false) →
      out = .next ((s1.setWave (Wave.setUnit (w1.addOp
              { newOp w1 i kind (s.clampScope w.part (scopeOf sc)).2 (isAcquire r) ps dest with answered := true }) i.arm
            { w1.unit i.arm with pc := nextWord i.pc, refusals := [], looked := false, table := [], atBank := none,
                                 wait := if isAcquire r then .op w1.nextOp else .none })).clampScope w1.part (scopeOf sc)).1
    s1.wave? w1.seq w1.wid = some w1 → inWindow →
    ((z ≠ 3 ∨ (d ≠ 63 ∧ n ≠ 1)) → w.sPairPoison (2 * k.toNat) = false →
      (w.loadLanes (w.issuing i) o (w.sPair (2 * k.toNat)) (2 ^ z.toNat) = .ok ls →
        issues .load false (.vec (w.winBase + d.toNat) (z = 3)) (parts (2 ^ z.toNat) fun _ => .read)
          (exec (.ldq z sc r d o k n) s))
      ∧ (w.storeLanes (w.issuing i) d o (w.sPair (2 * k.toNat)) (2 ^ z.toNat) = .ok ls →
          issues .store true .none (parts (2 ^ z.toNat) fun l => .write l.a) (exec (.stq z sc r d o k n) s)))
    ∧ (d.toNat + (if p = 7 then 2 else 1) ≤ 64 → w.sPairPoison (2 * k4.toNat) = false →
        w.atomicLanes (w.issuing i) p d o (w.sPair (2 * k4.toNat)) 4 = .ok ls →
        issues .atomic true (.vec (w.winBase + d.toNat) false) (parts 4 fun l => .atomic p.toNat l.a l.b)
          (exec (.atomq p n sc r d o k4) s))

/-- R108, R145, R50: a fence completes when what it orders has been performed and the quad has done its part; FENCEENG also waits
for the wave's engine work. -/
def Sys2Proof.Claims.Fences : Prop :=
  ∀ (s : State) (w : Wave) (i : Issue) (sc : BitVec 3), s.Latched w i → sc ≠ 7 →
    let sc1 := (s.clampScope w.part (scopeOf sc)).2
    (∀ s1 s2, s.releaseAt w i.arm sc1 = (s1, true) →
        s1.acquireAt (s1.again w) (s1.clampScope w.part (scopeOf sc)).2 = (s2, true) →
        let t := ((s2.clampScope w.part (scopeOf sc)).1.after (s2.again w) i)
        exec (.fence sc) s = .next t ∧ (s.engineIdle w = true → exec (.fenceeng sc) s = .next t))
    ∧ (∀ s1, s.releaseAt w i.arm sc1 = (s1, true) →
        exec (.fencerel sc) s = .next ((s1.clampScope w.part (scopeOf sc)).1.after (s1.again w) i))
    ∧ (∀ s2, w.readsDone i.arm sc1 = true → s.acquireAt w sc1 = (s2, true) →
        exec (.fenceacq sc) s = .next ((s2.clampScope w.part (scopeOf sc)).1.after (s2.again w) i))
    ∧ (w.pend = [] → sc.toNat ≤ 2 →
        exec (.fence sc) s = .next (s.after w i) ∧ exec (.fenceacq sc) s = .next (s.after w i)
        ∧ exec (.fencerel sc) s = .next (s.after w i))

/-- R285: WBL, INVL and FLUSHL act on each line that an active lane names, once; PREF fills the sectors of the lanes that
translate, and what waits for a module stays outstanding. -/
def Sys2Proof.Claims.CacheWords : Prop :=
  ∀ (s : State) (w : Wave) (i : Issue) (o : BitVec 6) (k : BitVec 5) (n : BitVec 1), s.Latched w i →
    w.sPairPoison (2 * k.toNat) = false → (w.issuing i).mask &&& (w.v o.toNat).poison = 0 →
    let u := w.issuing i
    let va := w.laneAddr o (w.sPair (2 * k.toNat))
    (∀ p ∈ ([(.wbl o k n, .wbl, false), (.invl o k n, .invl, true), (.flushl o k n, .flushl, false)] :
        List (Instr × LineOp × Bool)),
      ∀ (pa : Nat → Nat) (e : Nat → TlbEntry) (s1 : State),
        (∀ l ∈ lanesOf u.mask, s.lineXlate w u (va l) p.2.2 = .ok (pa l) (e l)) →
        let lines := dedup ((lanesOf u.mask).filterMap fun l => (keyOfPa s.pod (pa l)).map fun x => x / 128 * 128)
        (∀ x ∈ lines, w.overlaps x 128 true = false) →
        gotAll s lines (fun t x => t.lineOp (coreQuad w.core) x p.2.1) = (s1, true) →
        exec p.1 s = .next (s1.after (s1.again w) i))
    ∧ ∀ (pa : Nat → Nat) (e : Nat → TlbEntry), w.outst < 63 →
        (∀ l ∈ lanesOf u.mask, s.waveXlate w u (va l) 1 .read = .ok (pa l) (e l)) →
        let ps := (lanesOf u.mask).filterMap fun l => (keyOfPa s.pod (pa l)).map fun key =>
          ({ lane := l, key := key, va := va l, size := 1, act := .prefetch (n = 1), route := .cache, age := s.now,
             noAlloc := (e l).na, na := (e l).na, nt := n = 1, col := false, done := false, val := 0, poison := false } : OpPart)
        let x := s.advance w (newOp w i .cache .wave false ps .none)
        exec (.pref o k n) s
          = .next (x.1.after (if x.2.parts.all fun p => p.done then x.1.again w else (x.1.again w).addOp x.2) i)

/-- R62, R63, R286 to R288: ROWPIN holds a row of a free bank within quota and capacity, with a new GEN, and says why it does not
otherwise; ROWUNPIN releases a current hold; ROWQRY tells a current hold from a dropped and a stale one. Each is an operation of the wave
that counts in OUTST, and its completion brings the answer (stated of LoadCompletes). A row of a stack that is down can be held: the
model's choice (log 59). -/
def Sys2Proof.Claims.RowWords : Prop :=
  ∀ (s : State) (w : Wave) (i : Issue) (d a : BitVec 6) (k : BitVec 5), s.Latched w i → s.feature 5 = true → w.outst < 63 →
    let answers := fun (t : State) (wide : Bool) (val : Nat) =>
      let p : OpPart :=
        { lane := 0, key := 0, va := 0, size := 8, act := .read, route := .cache, age := s.now, noAlloc := false, na := false, nt := false,
          col := false, done := true, val := val, poison := false }
      t.after (w.addOp { newOp w i .row .wave false [p] (.uni d.toNat wide) with answered := true }) i
    (∀ pa e, d.toNat % 2 = 0 → w.sPairPoison (2 * k.toNat) = false →
      s.waveXlate w (w.issuing i) (w.sPair (2 * k.toNat)) 1 .read = .ok pa e →
      let out := fun (t : State) (h st : Nat) => answers t true (h + st * 2 ^ 32)
      let stack := pa / 2 ^ 36
      let bank := hbmBank (pa % 2 ^ 36)
      let r := s.rowSlot stack bank
      let quota := ((s.part? w.part).map fun p => p.quotas.getD stack 0).getD 0
      (e.tier ≠ .hbm → exec (.rowpin d k) s = .next (out s 0 5))
      ∧ (e.tier = .hbm → r.held = true → (r.part ≠ w.part ∨ r.row ≠ hbmRow (pa % 2 ^ 36)) →
          exec (.rowpin d k) s = .next (out s 0 2))
      ∧ (e.tier = .hbm → r.held = true → r.part = w.part → r.row = hbmRow (pa % 2 ^ 36) →
          exec (.rowpin d k) s = .next (out s (rowHandle r.gen stack bank) 1))
      ∧ (e.tier = .hbm → r.held = false → quota ≤ s.rowsOf stack w.part → exec (.rowpin d k) s = .next (out s 0 3))
      ∧ (e.tier = .hbm → r.held = false → s.rowsOf stack w.part < quota → 256 ≤ s.rowsHeld stack →
          exec (.rowpin d k) s = .next (out s 0 4))
      ∧ (e.tier = .hbm → r.held = false → s.rowsOf stack w.part < quota → s.rowsHeld stack < 256 →
          let g := if r.gen = 0xFFFF then 1 else r.gen + 1
          exec (.rowpin d k) s = .next (out
            (s.setSlot { r with gen := g, held := true, part := w.part, row := hbmRow (pa % 2 ^ 36), dropped := false })
            (rowHandle g stack bank) 0)))
    ∧ (w.sPoison a.toNat = false →
        let h := (w.s a.toNat).toNat
        let r := s.rowSlot (h / 512 % 8) (h % 512)
        let current := h / 4096 % 16 = 0 ∧ r.held = true ∧ r.part = w.part ∧ r.gen = h / 65536
        (current → exec (.rowunpin d a) s = .next (answers (s.setSlot { r with held := false, dropped := false }) false 0)
          ∧ exec (.rowqry d a) s = .next (answers s false 0))
        ∧ (¬ current → exec (.rowunpin d a) s = .next (answers s false 1)
          ∧ exec (.rowqry d a) s = .next (answers s false
              (if h / 4096 % 16 = 0 ∧ r.held = false ∧ r.dropped = true ∧ r.part = w.part ∧ r.gen = h / 65536 then 2 else 1))))

/-- Fences, cache operations and held rows: Fences, CacheWords, RowWords. -/
def Obligations.FenceCacheAndRowWords : Prop := Sys2Proof.Claims.Fences ∧ Sys2Proof.Claims.CacheWords ∧ Sys2Proof.Claims.RowWords

/-- R289, R290, R76: a service word whose line is in tier 1, with a tag free on its port, sends its request to the module under that
tag and becomes an operation that its response completes. -/
def Obligations.ServiceWords : Prop :=
  ∀ (s : State) (w : Wave) (i : Issue) (k : BitVec 5) (d r : BitVec 6) (w64 : BitVec 1) (p : BitVec 3) (pa att off tag : Nat)
      (e : TlbEntry), s.Latched w i → w.sPairPoison (2 * k.toNat) = false → e.tier = .module →
    physPlace pa = .attach att off → s.freeKtag att (s.pod.portFor att off) = some tag → w.outst < 63 →
    let va := w.sPair (2 * k.toNat)
    let m := (s.pod.moduleOf att).getD 0
    let wide := decide (w64 = 1)
    let sends := fun (j : Instr) (acc : AccKind) (call : KReq → Call) (subop a b span : Nat) (payload : List Byte) (dest : Dest) =>
      s.waveXlate w (w.issuing i) va 1 acc = .ok pa e → w.overlaps (moduleKey m off) span true = false →
      ∃ t o, exec j s = .next t
        ∧ call { module := m, ld := w.part, lead := s.pod.leadOn m, port := s.pod.portFor att off, subop := subop, tag := tag, addr := off,
                 a := a, b := b, payload := payload } ∈ t.agenda
        ∧ t.wave? w.seq w.wid = some (((w.addOp o).goto i.arm (nextWord i.pc)))
        ∧ o.kind = .service ∧ o.dest = dest ∧ o.ktag = tag ∧ o.att = att ∧ o.port = s.pod.portFor att off
        ∧ o.answered = false ∧ t.mem = s.mem
    (w.lanesPoison r.toNat 16 = false →
      sends (.mqput k d r) .write Call.qput 0 0 0 64 (w.laneBytes r.toNat 16)
        (.kweut 2 d.toNat (w.winBase + r.toNat) false))
    ∧ sends (.mqget k d r) .read Call.qget 0 0 0 64 [] (.kweut 3 d.toNat (w.winBase + r.toNat) false)
    ∧ (s.feature 1 = true → d.toNat % 2 = 0 → r.toNat ≤ 62 →
        (w.lanesPoison r.toNat 64 = false → w.lanesPoison (r.toNat + 1) 16 = false →
          sends (.mred k d r) .write Call.red 0 0 0 384 (w.laneBytes r.toNat 64 ++ w.laneBytes (r.toNat + 1) 16)
            (.kweut 4 d.toNat (w.winBase + r.toNat) false))
        ∧ (w.sPoison (d.toNat + 1) = false →
            sends (.mredrd k d r) .read Call.redrd 0 ((w.s (d.toNat + 1)).toNat % 65536) 0 384 []
              (.kweut 5 d.toNat (w.winBase + r.toNat) false)))
    ∧ (matomIllegal d r w64 p = false → w.sPairPoison r.toNat = false →
        (wide = false ∨ w.sPairPoison (r.toNat + 2) = false) →
        sends (.matom k d r w64 p) .write Call.atom (p.toNat + 128 * bitOf wide)
          (if wide then w.sPair r.toNat else (w.s r.toNat).toNat)
          (if wide then w.sPair (r.toNat + 2) else (w.s (r.toNat + 1)).toNat) (if wide then 8 else 4) []
          (.kweut 1 d.toNat 0 wide))

/-- R291 to R296, R93: a remote word whose peer is present, alive and another package, and whose context is open, sends its request on the
stream of its control word; NQWAIT takes a record at once, answers that there is no queue, or sleeps. -/
def Obligations.RemoteWords : Prop :=
  ∀ (s : State) (w : Wave) (i : Issue) (k ctl : BitVec 5) (r d y : BitVec 6), s.Latched w i → s.feature 0 = true →
    (∀ q s1, s.part? w.part = some q → w.sPairPoison (2 * k.toNat) = false → w.sPairPoison (2 * ctl.toNat) = false →
      let va := w.sPair (2 * k.toNat)
      let c := (w.s (2 * ctl.toNat)).toNat
      let key := (w.s (2 * ctl.toNat + 1)).toNat
      let peer := c % 64
      let id : CtxId := { part := w.part, asid := s.waveAsid w, peer := peer, keyPart := key % 16, keyAsid := key / 16 % 2 ^ 14,
                          system := false, module := 0 }
      let n := if c.testBit 27 then 8 else 4
      s.peerState q peer = 0 → peer ≠ s.pod.self → q.isDead peer = false → w.outst < 63 → s.openCtx id = .ready s1 →
      (w.lanesPoison r.toNat ((ctlLen c + 3) / 4) = false → va % 4096 + ctlLen c ≤ 4096 →
        exec (.rwri k ctl r) s = .next (s1.remoteSent w i id (c / 64 % 4) va
          { kind := .rwri, type := .rwri, poison := false, misaligned := false, len := ctlLen c, opsize := 0,
            imm := i.lit.toNat, data := (w.laneBytes r.toNat 64).take (ctlLen c), dest := .none }))
      ∧ (va % 4096 + ctlLen c ≤ 4096 →
          exec (.rrd k ctl r) s = .next (s1.remoteSent w i id (c / 64 % 4) va
            { kind := .rrd, type := .rrd, poison := false, misaligned := false, len := ctlLen c, opsize := 0, imm := 0, data := [],
              dest := .bytes (w.winBase + r.toNat) (ctlLen c) }))
      ∧ (c / 2 ^ 28 % 16 ≤ 7 → va % n = 0 →
          w.lanesPoison r.toNat ((if c / 2 ^ 28 % 16 = 7 then 2 else 1) * (n / 4)) = false →
          exec (.ratom k ctl r) s = .next (s1.remoteSent w i id (c / 64 % 4) va
            { kind := .ratom, type := .ratom, poison := false, misaligned := false, len := n,
              opsize := c / 2 ^ 28 % 16 + 16 * bitOf (c.testBit 27), imm := 0, data := w.laneBytes r.toNat (2 * (n / 4)),
              dest := .ratom (w.winBase + r.toNat) (c.testBit 27) })))
    ∧ ∀ q, d.toNat % 2 = 0 → w.sPoison y.toNat = false → s.part? w.part = some q →
        let desc := q.nqDesc (s.waveAsid w)
        (s.nqEnabled desc = false →
          exec (.nqwait d y) s = .next (s.after (w.setPair d.toNat 0xFFFFFFFF00000000 false) i))
        ∧ (∀ s1 x p, s.nqEnabled desc = true → s.takeRecord w desc = ((s1, true), some (x, p)) →
            exec (.nqwait d y) s = .next (s1.after ((s1.again w).setPair d.toNat x p) i))
        ∧ (∀ s1, s.nqEnabled desc = true → s.takeRecord w desc = ((s1, true), none) →
            exec (.nqwait d y) s = s1.slept (s1.again w) i
              (.nq desc d.toNat (if (w.s y.toNat).toNat = 0 then 0 else s.now + (w.s y.toNat).toNat) s.now false))

/-- R140: the arithmetic of a transaction barrier, field by field: ARRIVALS [23:4], SECTORS [47:24], PROMISE [95:48], PHASE [3:0]. -/
def Sys2Proof.Claims.BarrierArithmetic : Prop :=
  ∀ (x a : Nat), x < 2 ^ 128 →
    let phase := fun b => b % 16
    let arrivals := fun b => b / 16 % 2 ^ 20
    let sectors := fun b => b / 2 ^ 24 % 2 ^ 24
    let rest := fun b => b / 2 ^ 48
    (arrivals x + a < 2 ^ 20 → ∃ b, tbExpect x a = some b ∧ arrivals b = arrivals x + a ∧ phase b = phase x
        ∧ sectors b = sectors x ∧ rest b = rest x)
    ∧ (2 ^ 20 ≤ arrivals x + a → tbExpect x a = none)
    ∧ (a ≤ arrivals x → ∃ b, tbArrive x a = some b ∧ arrivals b = arrivals x - a ∧ sectors b = sectors x ∧ rest b = rest x
        ∧ phase b = (if arrivals x = a ∧ sectors x = 0 then (phase x + 1) % 16 else phase x))
    ∧ (arrivals x < a → tbArrive x a = none)
    ∧ (∃ b, tbLand x a = b ∧ arrivals b = arrivals x ∧ sectors b = sectors x - min a (sectors x) ∧ rest b = rest x
        ∧ phase b = (if 0 < min a (sectors x) ∧ arrivals x = 0 ∧ sectors x ≤ a then (phase x + 1) % 16 else phase x))
    ∧ (sectors x + a < 2 ^ 24 → ∀ p, ∃ b, tbAccept x a p = b ∧ arrivals b = arrivals x ∧ phase b = phase x
        ∧ sectors b = sectors x + a ∧ b / 2 ^ 96 = x / 2 ^ 96)

/-- R138 to R143, R298 to R300: the transaction-barrier words on a barrier that they reach and own: TBINIT writes it afresh,
TBARRIVE and TBEXPECT change its counts, TBWAIT returns when the phase has changed and else waits, TBQUERY reads it. On a barrier
of the QSP each performs when its bank comes to it in the order of R44, and until then presents the barrier there. That the word stalls
until its bank's turn, that TBINIT clears the poison of the whole sector and that a clamped scope is counted are the model's reading (log
31, DEDUCED). -/
def Sys2Proof.Claims.TransactionBarriers : Prop :=
  ∀ (s : State) (w0 : Wave) (i : Issue) (k : BitVec 5) (q : BitVec 1) (sc : BitVec 3) (r : BitVec 6) (b : BarrierRef) (s1 : State),
    s.Latched w0 i → sc ≠ 7 → w0.sPairPoison (2 * k.toNat) = false →
    let w := w0.setUnit i.arm { w0.unit i.arm with atBank := none }
    let s0 := s.setWave w
    w.overlaps b.key 16 true = false → s0.barrierReach w b = (s1, true) → s1.wave? w.seq w.wid = some w →
    let va := w.sPair (2 * k.toNat)
    let x := s1.peekNat b.key 16
    let sc1 := fun (t : State) => (t.clampScope w.part (scopeOf sc)).2
    let owned := s1.barrierPoison w.part b = false ∧ x / 2 ^ 96 % 65536 = 0x8000 + w.part % 16
    let a := (w.s r.toNat).toNat
    let age := fun (t : State) =>
      match (w0.unit i.arm).atBank with
      | some (key, n) => if key = b.key then n else t.now
      | none => t.now
    let turn := fun (t : State) => b.qsp = true → t.bankTurn
      { who := .unit w.seq w.wid i.arm, cls := 4, place := t.slotPlace w.core w.slot, age := age t, seg := (sectorKey b.key, false),
        reads := false } b.key = true
    let reached := fun (kind : AccKind) => barrierAt s0 w i (w0.unit i.arm) q va kind = .ok b
    (w.sPoison r.toNat = false →
      (∀ s2, reached .write → a < 2 ^ 20 → turn s1 →
        s1.barrierWrite (coreQuad w.core) w.part b
          (tbInit (if s1.anyPoison (b.key + 14) 2 then 0 else s1.peekNat (b.key + 14) 2) s1.now48 w.part a) = (s2, true) →
        exec (.tbinit k q sc r) s
          = .next ((s2.clearPoison b.key).barrierDone ((s2.clearPoison b.key).again w) i sc))
      ∧ (reached .write → a < 2 ^ 20 → ¬ turn s1 →
          exec (.tbinit k q sc r) s
            = .next (s1.setWave (w.setUnit i.arm { w.unit i.arm with atBank := some (b.key, age s1) })).stall)
      ∧ (∀ s2 s3 y, reached .write → w.apertureDone = true →
          s1.releaseAt w i.arm (sc1 s1) = (s2, true) → s2.wave? w.seq w.wid = some w → turn s2 →
          s2.barrierPoison w.part b = false →
          s2.peekNat b.key 16 / 2 ^ 96 % 65536 = 0x8000 + w.part % 16 → tbArrive (s2.peekNat b.key 16) a = some y →
          s2.barrierWrite (coreQuad w.core) w.part b y = (s3, true) →
          exec (.tbarrive k q sc r) s
            = .next ((s3.barrierDone (s3.again w) i sc).barrierChanged b.key))
      ∧ (∀ s2 y, reached .write → w.apertureDone = true → turn s1 → owned →
          tbExpect x a = some y → s1.barrierWrite (coreQuad w.core) w.part b y = (s2, true) →
          exec (.tbexpect k q sc r) s
            = .next ((s2.barrierDone (s2.again w) i sc).barrierChanged b.key))
      ∧ (reached .read → turn s1 → owned →
          (∀ s2, x % 16 ≠ a % 16 → s1.acquireAt w (sc1 s1) = (s2, true) →
            exec (.tbwait k q sc r) s = .next (s2.barrierDone (s2.again w).progressed i sc))
          ∧ (x % 16 = a % 16 → s1.promiseMissed w x = false →
              exec (.tbwait k q sc r) s
                = (s1.clampScope w.part (scopeOf sc)).1.slept w i (.tbar b (a % 16) (sc1 s1) i.trapPc i.second))))
    ∧ (r.toNat % 4 = 0 → reached .read → turn s1 → owned →
        exec (.tbquery k q sc r) s
          = .next ((s1.clampScope w.part (scopeOf sc)).1.after
              (((w.setPair r.toNat (x / 2 ^ 48 % 2 ^ 48) false).setS (r.toNat + 2) (BitVec.ofNat 32 (x % 2 ^ 24)) false).setS
                (r.toNat + 3) (BitVec.ofNat 32 (x / 2 ^ 24 % 2 ^ 24)) false) i))

/-- R301 to R303: the scoped-barrier words: an arrival latches or adds to its generation's count and completes it; BARSYNC goes on when
it completes the generation and else waits for it; BARWAIT goes on when its generation has completed. -/
def Sys2Proof.Claims.ScopedBarriers : Prop :=
  ∀ (s : State) (w : Wave) (i : Issue) (sc : BitVec 3) (id : BitVec 4) (r d : BitVec 6) (s1 : State), s.Latched w i →
    sc ≠ 0 → sc ≠ 7 → w.sPoison r.toNat = false →
    let n := (w.s r.toNat).toNat
    let sc0 := (s.clampScope w.part (scopeOf sc)).2
    let key := s1.barKey w sc0
    let bar := s1.bar key id.toNat
    let last := (if bar.total = 0 then n else bar.count) ≤ bar.total + 1
    (1 ≤ n → n ≤ 65535 → s.releaseAt w i.arm sc0 = (s1, true) → s1.wave? w.seq w.wid = some w →
      exec (.bararrive sc id r d) s
        = .next (((s1.clampScope w.part (scopeOf sc)).1.after (w.setS d.toNat (BitVec.ofNat 32 bar.gen) false) i).arriveBar w key
            id.toNat n)
      ∧ (¬ last →
          exec (.barsync sc id r) s = .next
            (((s1.clampScope w.part (scopeOf sc)).1.setWave (w.setUnit i.arm
                { w.unit i.arm with pc := nextWord i.pc, refusals := [], looked := false, table := [], atBank := none, hidden := [],
                                    wait := .bar key id.toNat bar.gen (s1.clampScope w.part (scopeOf sc)).2 })).arriveBar w key
              id.toNat n))
      ∧ (∀ s2, last → s1.acquireAt w (s1.clampScope w.part (scopeOf sc)).2 = (s2, true) →
          exec (.barsync sc id r) s = .next
            ((s2.barrierDone (s2.again w).progressed i sc).arriveBar w key id.toNat n)))
    ∧ (let g := n % 65536
       let b0 := s.bar (s.barKey w sc0) id.toNat
       let done := 1 ≤ (b0.gen + 65536 - g) % 65536 ∧ (b0.gen + 65536 - g) % 65536 ≤ 32768
       (∀ s2, done → s.acquireAt w sc0 = (s2, true) →
          exec (.barwait sc id r) s
            = .next (s2.barrierDone (s2.again w).progressed i sc))
       ∧ (¬ done → exec (.barwait sc id r) s
            = (s.clampScope w.part (scopeOf sc)).1.slept w i (.bar (s.barKey w sc0) id.toNat g sc0)))

/-- Transaction barriers and scoped barriers: BarrierArithmetic, TransactionBarriers, ScopedBarriers. -/
def Obligations.BarrierWords : Prop := Sys2Proof.Claims.BarrierArithmetic ∧ Sys2Proof.Claims.TransactionBarriers ∧ Sys2Proof.Claims.ScopedBarriers

/-- R305, R350, R351: the gate words on a handle that names a gate, with the right: a post that is granted releases and adds one,
a post on a full counter or an empty bucket changes only the bucket, a take takes one, returns empty or sleeps, a poll reads the counter;
a frozen gate answers 2. That a gate in any state but live answers 2, and that a poll reads an exported one, is the model's reading of
R351's sentences (log 30, DEDUCED). -/
def Obligations.GateWords : Prop :=
  ∀ (s : State) (w : Wave) (i : Issue) (d a y : BitVec 6) (g : Gate), s.Latched w i → s.feature 4 = true →
    w.sPoison a.toNat = false → s.gateOf (w.s a.toNat).toNat = some g →
    (g.allows w.part 6 = true →
      (g.state ≠ .live → exec (.gatepost d a) s = s.wroteS w i 0 d 2 false)
      ∧ (g.state = .live →
          let f := g.refill (s.cyc.toNat % 2 ^ 48)
          let turned := fun (st : Word) => exec (.gatepost d a) s = .next ((s.setGate f).after (w.setS d.toNat st false) i)
          (f.counter = 2 ^ 32 - 1 → turned 4)
          ∧ (f.counter ≠ 2 ^ 32 - 1 → f.rate ≠ 0 → f.tokens = 0 → turned 1)
          ∧ ∀ s1, f.counter ≠ 2 ^ 32 - 1 → (f.rate = 0 ∨ f.tokens ≠ 0) → s.releaseAt w i.arm .part = (s1, true) →
              exec (.gatepost d a) s = .next
                (((s1.setGate { f with counter := f.counter + 1, tokens := if f.rate = 0 then f.tokens else f.tokens - 1 }).after
                  ((s1.again w).setS d.toNat 0 false) i).wakeFirst (gateSleep g.handle))))
    ∧ (g.allows w.part 5 = true → w.sPoison y.toNat = false →
        let time := (w.s y.toNat).toNat
        (g.state ≠ .live → exec (.gatetake d a y) s = s.wroteS w i 0 d 2 false)
        ∧ (∀ s1, g.state = .live → 0 < g.counter → s.acquireAt w .part = (s1, true) →
            exec (.gatetake d a y) s = .next ((s1.setGate { g with counter := g.counter - 1 }).after
              ((s1.again w).setS d.toNat 0 false) i))
        ∧ (g.state = .live → g.counter = 0 → (time = 0 ∨ 64 ≤ s.gateWaiters g.handle) →
            exec (.gatetake d a y) s = s.wroteS w i 0 d 3 false)
        ∧ (g.state = .live → g.counter = 0 → 0 < time → s.gateWaiters g.handle < 64 →
            exec (.gatetake d a y) s = s.slept w i (.gate g.handle d.toNat (s.now + time) s.now false i.trapPc i.second)))
    ∧ ((g.allows w.part 6 = true ∨ g.allows w.part 5 = true) →
        exec (.gatepoll d a) s = s.wroteS w i 0 d (BitVec.ofNat 32 g.counter) false)

/-- R185, R312, R319, R321, R324, R146, R325: the engine words enter their operation as the youngest of the quad's table, which has room;
a full table stalls the word, and so do accesses of the wave that no bank has served, for an operation that reads or writes the QSP
(R146, R325). MWAIT goes on when the wave's accumulator has no entry, and MQRY reads its state. That event 0x013 is charged once each
time the stalled word is looked at is the model's choice (log 2). -/
def Sys2Proof.Claims.EngineWords : Prop :=
  ∀ (s : State) (w : Wave) (i : Issue) (a : BitVec 3) (t u : BitVec 4) (o p sp r z : BitVec 1) (n : BitVec 11)
      (v v2 d : BitVec 6) (f g : BitVec 2) (ti tj : BitVec 3), s.Latched w i → a.toNat < w.accs.length →
    let e := s.engine (coreQuad w.core)
    let entry := fun (j : Instr) (op : EngOp) (steps : Nat) => s.newEntry w (w.issuing i) i op a j steps
    let size := (s.windowOf w).2
    let enters := fun (j : Instr) (x : EngEntry) =>
      (e.entries.length < 16 → exec j s = .next
          ((s.setEngine { e with entries := e.entries ++ [{ x with id := e.nextId }], nextId := e.nextId + 1 }).after w i))
      ∧ (16 ≤ e.entries.length → exec j s = .next (s.charge w.part 0x013 1).stall)
    let ordered := fun (j : Instr) (x : EngEntry) =>
      (w.qspOpen = false → enters j x) ∧ (w.qspOpen = true → exec j s = .next s.stall)
    (let j := Instr.mloop a t u o p sp n
     let x := { entry j .mloop n.toNat with d1 := w.tile t.toNat, d2 := w.tile u.toNat }
     let l := loopOf x.d1 x.d2 x.word x.lit
     n ≠ 0 → (sp = 1 → s.feature 3 = true) → (tileFmt x.d1 = 4 ∨ tileFmt x.d2 = 4 → s.feature 2 = true) → l.accepted = true →
       (∀ c, c < n.toNat → l.stepFault size c = none) → ordered j x)
    ∧ (let j := Instr.mstep a v v2 f ti tj g
       let frag := fun (q : BitVec 6) => (w.groupBytes (w.winBase + q.toNat) 2).take (fragmentBytes f.toNat)
       let bad := fun (q : BitVec 6) => ((w.groupPoison (w.winBase + q.toNat) 2).take (fragmentBytes f.toNat / 4)).any id
       illegalSub s w ((w.issuing i).at i) i.lit j = none → bad v = false → bad v2 = false →
         enters j { entry j .mstep 1 with regs := frag v ++ frag v2 })
    ∧ (let j := Instr.mdrain a t u r z
       let x := { entry j .mdrain 1 with d1 := w.tile t.toNat, d2 := if r = 1 then w.tile u.toNat else 0 }
       illegalSub s w ((w.issuing i).at i) i.lit j = none →
         targetFault size (tileOf x.d1 :: (if r = 1 then [tileOf x.d2] else [])) = none → ordered j x)
    ∧ enters (.mzero a) (entry (.mzero a) .mzero 1)
    ∧ (let x := { entry (.mload a t) .mload 1 with d1 := w.tile t.toNat }
       (tileFmt x.d1 = 4 → s.feature 2 = true) → targetFault size [tileOf x.d1] = none → ordered (.mload a t) x)
    ∧ (s.slotEntries w a.toNat = [] → exec (.mwait a) s = .next (s.after w i))
    ∧ (s.slotEntries w a.toNat ≠ [] → exec (.mwait a) s = .next s.stall)
    ∧ (d.toNat % 2 = 0 →
        let mine := s.slotEntries w a.toNat
        exec (.mqry a d) s = .next (s.after (w.setPair d.toNat
          ((mine.map EngEntry.remaining).sum + 2 ^ 32 * (bitOf (e.running && mine.any EngEntry.granted)
            + 2 * bitOf (((w.accs[a.toNat]?).map AccSlot.poison).getD false)
            + 4 * bitOf (((w.accs[a.toNat]?).map AccSlot.faulted).getD false) + 256 * mine.length)) false) i))

/-- R308, R311, R327 to R330: TSET, TGET and TPLSET move descriptors, whose reserved bits stay 0; CTRSEL clears the counter it
selects; CTRRD reads it, as 0 for a pod event without the pod privilege; CTRCTL enables, disables, clears, and sets IE. -/
def Sys2Proof.Claims.TilesAndCounters : Prop :=
  ∀ (s : State) (w : Wave) (i : Issue) (t t2 : BitVec 4) (a d : BitVec 6) (n : BitVec 4), s.Latched w i →
    (a.toNat % 4 = 0 → (∀ j, j < 4 → w.sPoison (a.toNat + j) = false) →
      ∃ x, exec (.tset t a) s = .next (s.after (w.setTile t.toNat x) i)
        ∧ ∀ k, k < 128 → x.getLsbD k
            = (decide (k < 21 ∨ 47 ≤ k) && (w.s (a.toNat + k / 32)).getLsbD (k % 32)))
    ∧ (d.toNat % 4 = 0 → exec (.tget d t) s = .next (s.after (w.setGroup d.toNat 4 (w.tile t.toNat).toNat false) i))
    ∧ (w.sPoison a.toNat = false →
        ∃ x, exec (.tplset t t2 a) s = .next (s.after (w.setTile t.toNat x) i)
          ∧ ∀ k, k < 128 → x.getLsbD k
              = if k < 21 then (w.s a.toNat).getLsbD k else (w.tile t2.toNat).getLsbD k)
    ∧ ∀ q, s.part? w.part = some q →
        let c := (q.counters[n.toNat]?).getD Counter.zero
        let set := fun (f : Nat → Counter → Counter) => s.modPart w.part fun y => { y with counters := y.counters.mapIdx f }
        (w.sPoison a.toNat = false →
          ∃ x, exec (.ctrsel n a) s = .next x ∧ x.wave? w.seq w.wid = some (w.goto i.arm (nextWord i.pc))
            ∧ x.parts = (set fun j y => if j = n.toNat
                then { y with event := (w.s a.toNat).toNat % 4096, value := 0, ovf := false } else y).parts)
        ∧ (d.toNat % 2 = 0 → exec (.ctrrd d n) s = .next (s.after
            (w.setPair d.toNat (if 0x050 ≤ c.event ∧ c.event ≤ 0x053 ∧ s.privileged w.part = false then 0 else c.value) false) i))
        ∧ (d.toNat % 2 = 0 → w.sPoison a.toNat = false →
            let x := (w.s a.toNat).toNat
            ∃ y st, exec (.ctrctl d a) s = .next y ∧ y.wave? w.seq w.wid = some ((w.setS d.toNat st false).goto i.arm (nextWord i.pc))
              ∧ y.parts = (set fun j z => match x / 2 ^ 30 with
                  | 0 => if x.testBit j ∧ j < 16 then { z with en := true } else z
                  | 1 => if x.testBit j ∧ j < 16 then { z with en := false } else z
                  | 2 => if x.testBit j ∧ j < 16 then { z with value := 0, ovf := false } else z
                  | _ => { z with ie := decide (x.testBit j ∧ j < 16) }).parts)

/-- Engine words, tile descriptors and counters: EngineWords, TilesAndCounters. -/
def Obligations.MatrixAndCounterWords : Prop := Sys2Proof.Claims.EngineWords ∧ Sys2Proof.Claims.TilesAndCounters

/-- R245, R246, R296, R297, R305: how each sleep ends. SLEEPUNTIL by its time; WAITLINE by its line's event, its entry's loss or
its timeout; NQWAIT by a record, by a disabled queue (no record) or by its timeout (no record), going back to sleep when the
record has gone to another; GATETAKE by a count, a frozen gate or, unless a post has woken it, its timeout. Each end writes its
result unless a later word of the other arm has written that register (R180), starts the
unit again and counts as progress (R187); where the sleeping word was the second of a chained pair, whose first word had not performed,
the unit goes back to that word, and behind the pair after it (R206; log 10). A spill's end lets the wave issue again (R236), unless the
link of its stack retrains (log 57). -/
def Obligations.SleepEnds : Prop :=
  ∀ (s : State) (w : Wave) (e : Bool), s.wave? w.seq w.wid = some w →
    let u := w.unit (armOf e)
    let first := fun (v : UnitSt) => match v.wait with
      | .gate _ _ _ _ _ pc true => { v with pc := pc, skip := some pc, ibuf := none }
      | .tbar _ _ _ pc true => { v with pc := pc, skip := some pc, ibuf := none }
      | _ => v
    (∀ f : Wave → Wave, (∀ x, (f x).seq = x.seq ∧ (f x).wid = x.wid) →
      ∃ t, s.woke w e f = .next t ∧ t.mem = s.mem ∧
        t.wave? w.seq w.wid = some (({ f w with progress := 0, watchdogFired := false } : Wave).setUnit (armOf e)
          { first ((f w).unit (armOf e)) with wait := .none, ready := s.now, hidden := [] }))
    ∧ (∀ t, u.wait = .sleepUntil t → w.saved = false → t < 2 ^ 48 → s.call = .sleepuntilWake w.seq w.wid e →
        1 ≤ (s.now48 + 2 ^ 48 - t) % 2 ^ 48 → (s.now48 + 2 ^ 48 - t) % 2 ^ 48 < 2 ^ 47 →
        exec .sleepuntilWake s = s.woke w e id)
    ∧ (∀ l dl k, u.wait = .line l dl k → w.saved = false →
        (s.call = .waitlineWake w.seq w.wid e → k = true → exec .waitlineWake s = s.woke w e id)
        ∧ (s.call = .waitlineTimeout w.seq w.wid e → dl ≠ 0 → dl ≤ s.now → exec .waitlineTimeout s = s.woke w e id))
    ∧ (∀ desc sd dl b k, u.wait = .nq desc sd dl b k → w.saved = false →
        let none := fun x => (x.setWaited (armOf e) sd 0 false).setWaited (armOf e) (sd + 1) 0xFFFFFFFF false
        (s.call = .nqwaitTimeout w.seq w.wid e → k = false → dl ≠ 0 → dl ≤ s.now →
          exec .nqwaitTimeout s = s.woke w e none)
        ∧ (s.call = .nqwaitWake w.seq w.wid e → k = true →
            (s.nqEnabled desc = false → exec .nqwaitWake s = s.woke w e none)
            ∧ (s.nqEnabled desc = true →
                (s.nqTail desc = s.nqHead desc → exec .nqwaitWake s = .next (s.modWave w.seq w.wid fun x =>
                  x.setUnit (armOf e) { x.unit (armOf e) with wait := .nq desc sd dl b false }))
                ∧ ∀ s1 s2, s.nqTail desc ≠ s.nqHead desc → s.acquireQuad (coreQuad w.core) = (s1, true) →
                    s1.unitWrite (coreQuad w.core) w.part (desc + 8) (natToBytes 4 (s.nqHead desc + 1)) false = (s2, true) →
                    let at' := s.nqRing desc + 8 * (s.nqHead desc % s.nqSize desc)
                    let p := s.anyPoison at' 8 || s.keyDown at'
                    exec .nqwaitWake s = s2.woke w e fun x =>
                      (x.setWaited (armOf e) sd (BitVec.ofNat 32 (s.peekNat at' 8)) p).setWaited (armOf e) (sd + 1)
                        (BitVec.ofNat 32 (s.peekNat at' 8 / 2 ^ 32)) p)))
    ∧ (∀ h sd dl b k pc c, u.wait = .gate h sd dl b k pc c → w.saved = false →
        (s.call = .gatetakeTimeout w.seq w.wid e → k = false → dl ≠ 0 → dl ≤ s.now →
          exec .gatetakeTimeout s = s.woke w e fun x => x.setWaited (armOf e) sd 3 false)
        ∧ ∀ n since g, s.call = .gatetakeWake n → s.gateOf h = some g →
            oldestSleeper ((s.sleepers (gateWoken n)).filter fun x => !x.1.saved) = some (w, armOf e, since) →
            (g.state ≠ .live → exec .gatetakeWake s = s.woke w e fun x => x.setWaited (armOf e) sd 2 false)
            ∧ (g.state = .live → g.counter = 0 → exec .gatetakeWake s = .next (s.modWave w.seq w.wid fun x =>
                x.setUnit (armOf e) { x.unit (armOf e) with wait := .gate h sd dl b false pc c }))
            ∧ ∀ s1, g.state = .live → g.counter ≠ 0 → s.acquireAt w .part = (s1, true) →
                exec .gatetakeWake s = (s1.setGate { g with counter := g.counter - 1 }).woke w e fun x => x.setWaited (armOf e) sd 0 false)
    ∧ (s.call = .spillComplete w.seq w.wid → s.stackHeld w.spillBase = false → exec .spillComplete s = .next (s.setWave
        { w with
          unitT := { w.unitT with wait := if w.unitT.wait = .spill then .none else w.unitT.wait },
          unitE := { w.unitE with wait := if w.unitE.wait = .spill then .none else w.unitE.wait } }))

/-- R167, R171, R338, R344: a ready wave takes the lowest free context of its core, or the context of the one that must give it
up, and issues no earlier than 16 cycles later; a launch all of whose waves have stopped with nothing outstanding leaves, and
one completion event tells how its waves ended; the quantum's end switches the set to its next partition, or starts a new
quantum; the switch saves, then restores. The model's readings: a context alone runnable gets a new quantum (log 37), the order
in which contexts are taken and the time from which a wave is ready (log 36), and the area of a switch of the rotation (log 28). -/
def Obligations.ContextsLaunchesAndRotation : Prop :=
  ∀ (s : State),
    (∀ w : Wave, s.wave? w.seq w.wid = some w → s.call = .contextTake w.seq w.wid →
      (s.contextless w.core).map (fun x => (x.seq, x.wid)) = some (w.seq, w.wid) →
      (∀ k, s.freeContext w.core = some k → exec .contextTake s
        = .next (s.modWave w.seq w.wid fun x => { x with ctx := some k, ctxAt := s.now + 16 }))
      ∧ ∀ v, s.freeContext w.core = none → s.giver w.core w.readyAt = some v → exec .contextTake s
        = .next ((s.modWave v.seq v.wid fun y =>
            { y with ctx := none, readyAt := if s.waveReady y then s.now + 1 else y.readyAt }).modWave w.seq w.wid fun x =>
              { x with ctx := some (v.ctx.getD 0), ctxAt := s.now + 16 }))
    ∧ (∀ l, s.call = .launchComplete l.seq → s.launch? l.seq = some l →
        (∀ w ∈ s.waves, w.seq = l.seq → w.status ≠ .running ∧ w.pend = [] ∧ s.engineIdle w = true ∧ w.withdrawn = []) →
        ∃ t, exec .launchComplete s = .next t
          ∧ t.waves = s.waves.filter (fun w => w.seq ≠ l.seq) ∧ t.launches = s.launches.filter (fun x => x.seq ≠ l.seq)
          ∧ t.parts = mapWhere s.parts (fun q => q.num = l.part) (fun q => { q with events := q.events ++
              [{ type := 6, seq := l.seq, cyc := s.now,
                 body := natToBytes 4 (s.waves.filter fun w => w.seq = l.seq && w.status = .halted).length
                  ++ natToBytes 4 (s.waves.filter fun w => w.seq = l.seq && w.status = .killed).length }] })
          ∧ t.mem = s.mem)
    ∧ (∀ g h, s.call = .quantumExpiry g.num → s.set? g.num = some g → g.holder = some h → s.skolisUp = true →
        (∀ x ∈ s.switches, x.set ≠ g.num) → (∀ p, s.part? h = some p → g.since + p.quantum ≤ s.now) →
        (s.nextMember g = none → exec .quantumExpiry s = .next (s.modSet g.num fun y => { y with since := s.now }))
        ∧ ∀ m, s.nextMember g = some m → exec .quantumExpiry s = .next (s.startSwitch
            { set := g.num, out := h, inn := some m, saveOut := s.areaOf h, saveIn := s.areaOf m, cmd := none }))
    ∧ (∀ x g p s1, s.call = .switchSave x.set → s.switches.find? (fun y => y.set = x.set) = some x → s.set? x.set = some g →
        s.drained x.out = true → gotAll s (s.setQuads g) (fun t q => t.acquireQuad q) = (s1, true) →
        s1.part? x.out = some p → g.holder = some x.out →
        let s2 := s1.savePart g p x.saveOut
        exec .switchSave s = .next ((match x.inn with | some m => (s2.nameArea m x.saveIn).restorePart m | none => s2).endSwitch x))

/-- R43, R44, R58, R66, R67: the agents of the memory system at work. Each bank of a quad has its cycle; an L2 atomic unit performs its
oldest operation, storing the new value, giving the old one and taking the sector from the issuing quad; a home die serves a packet's
lanes without changing a line's bytes. The model's choices: when an event's charge is added (log 2), what a lane of a STQ clears (log 46),
who serves a bank that two orders leave open (log 54), and for whom a relayed atomic takes its line (log 29: `remoteLine`). -/
def Sys2Proof.Claims.MemoryAgents : Prop :=
  ∀ (s : State),
    (∀ quad, s.call = .qspBankService quad →
      exec .qspBankService s = .next
        (((List.range 32).foldl (fun (t : State) b => t.bankCycle quad b) s).chargeConflict quad (s.engine quad).since))
    ∧ (∀ die slice w o p op a b s0 t, s.call = .atomicUnitOp die slice →
        firstJob (s.atomJobs die slice) = some (.lane w o p) → p.act = .atomic op a b →
        s.sectorOut (coreQuad w.core) p.key = (s0, true) →
        let old := s0.peekNat p.key p.size
        s0.l2Write (homeDie s0.pod (lineKey p.key)) w.part p.key
          (List.replicate (p.key % 64) 0 ++ natToBytes p.size (atomicNew op p.size old a b)) (byteMask p.key p.size) false
          p.noAlloc = (t, true) →
        exec .atomicUnitOp s = .next ((t.l1DropSector (coreQuad w.core) p.key).modWave w.seq w.wid fun x => x.modOp o.id fun y =>
          some { y with parts := mapWhere y.parts (fun q => q = p) fun q =>
            { q with done := true, val := old,
                     poison := s0.anyPoison p.key p.size || s0.keyDown p.key || s0.beyondModule w.part p.key p.size } }))
    ∧ (∀ die slice q s1 t, s.call = .atomicUnitOp die slice → firstJob (s.atomJobs die slice) = some (.remote q) →
        (q.packet.system = false → s.remoteLine q = (s, true)) ∧
        let part := if q.packet.system then 16 else q.packet.keyPart
        let old := s1.peekNat q.key q.size
        s.remoteLine q = (s1, true) → s1.beyondModule part q.key q.size = false →
        s1.l2Write (homeDie s1.pod (lineKey q.key)) part q.key
          (List.replicate (q.key % 64) 0 ++ natToBytes q.size (atomicNew q.op q.size old q.a q.b)) (byteMask q.key q.size) false
          (q.packet.system || q.na) = (t, true) →
        exec .atomicUnitOp s = .next (State.respond { t with atomQ := t.atomQ.erase q } q.packet (natToBytes q.size old)
          (if s1.anyPoison q.key q.size || s1.keyDown q.key then 2 ^ q.size - 1 else 0)))
    ∧ (∀ die w o age, s.call = .gatherPacket die → s.gatherOp die = some (w, o, age) → s.wave? w.seq w.wid = some w →
        w.pend.find? (fun x => x.id = o.id) = some o →
        ∃ t w' o', exec .gatherPacket s = .next t ∧ t.mem = s.mem ∧ t.l2 = s.l2 ∧ t.l1 = s.l1
          ∧ t.wave? w.seq w.wid = some w' ∧ w'.pend.find? (fun x => x.id = o.id) = some o'
          ∧ o'.parts = o.parts.map fun p =>
              if p.done = false ∧ p.route = .gather die ∧ s.gatherServes p = true then
                { p with done := true, val := (s.memValue p.key p.size).1,
                         poison := (s.memValue p.key p.size).2 || s.keyDown p.key }
              else p)

/-- R47 to R49, R52 to R56: what the caches do to memory and to one another. The oldest write-queue entry of a quad merges into its L1:
the sector's bytes become the entry's where its mask is 1 and stay otherwise, they are dirty, and memory, the L2s and every other line
of the L1s stay as they were; a line that must leave for it is written back first. A write-back of a sector that its die owns puts the
sector's dirty bytes into memory and no other. The directory serves a read with a copy in S, or E where no die holds the line, the holder
of M going to O and that of E to S, and an ownership request with M, taking every other copy; a module's line waits for the package's
permission, which is asked for. No such answer changes a byte of memory. -/
def Sys2Proof.Claims.CacheTraffic : Prop :=
  ∀ (s : State),
    (∀ quad e, s.call = .writeQueueMerge quad → s.wq.find? (fun x => x.quad = quad) = some e →
      let line := lineKey e.key
      let set := s.l1.filter fun x => x.quad = quad && l1SetOf s.pod x.key = l1SetOf s.pod line
      let old := ((s.l1Find quad line).map fun l => l.sector e.key).getD L1Sector.empty
      ((s.l1Find quad line).isSome = true ∨ set.length < 8 →
        ∃ t l, exec .writeQueueMerge s = .next t ∧ t.mem = s.mem ∧ t.poison = s.poison ∧ t.l2 = s.l2 ∧ t.waves = s.waves
          ∧ t.wq = s.wq.filter (fun x => !(x.quad = e.quad && x.key = e.key)) ∧ t.l1Find quad line = some l
          ∧ (l.sector e.key).present = old.present ||| e.mask ∧ (l.sector e.key).dirty = old.dirty ||| e.mask
          ∧ (∀ i, i < 64 → (l.sector e.key).data.getD i 0 = if e.mask.getLsbD i then e.data.getD i 0 else old.data.getD i 0)
          ∧ (∀ q k, (q, k) ≠ (quad, line) → t.l1Find q k = s.l1Find q k))
      ∧ ∀ v rest s1 b, s.l1Find quad line = none → set = v :: rest → 8 ≤ set.length → s.writeBackLine quad v.key = (s1, b) →
          exec .writeQueueMerge s = .next (if b then ((s1.l1Drop quad v.key).wqMerge e).1 else s1))
    ∧ (∀ quad (l : L1Line) up k, s.Inv → s.l1Find quad l.key = some l → l.key % 128 = 0 →
        let at' := l.key + 64 * bitOf up
        let x := l.sector at'
        isModuleKey l.key = false → s.keyDown l.key = false → s.ladleOwns l.key = false → s.owns (quadDie quad) at' = true →
        ∃ t, s.writeBackSector quad l.key up = (t, true)
          ∧ t.byteAt k = if at' ≤ k ∧ k < at' + 64 ∧ x.dirty.getLsbD (k - at') = true then x.data.getD (k - at') 0 else s.byteAt k)
    ∧ (∀ die sector own part key, s.call = .directoryRequest die sector own part → keyOfPa s.pod (64 * sector) = some key →
        let line := lineKey key
        let tag := s.fillTag die line part
        let kept := s.l2Holders line ≠ []
        s.ladleOwns line = false →
        (isModuleKey line = true → s.wayFree die line tag = true → s.permOf line ≠ some .exclusive →
          (own = true ∨ s.permOf line = none) →
          ∃ t r, exec .directoryRequest s = .next t ∧ t.mem = s.mem ∧ t.l2 = s.l2 ∧ t.waves = s.waves ∧ r ∈ t.memReqs ∧ r.key = line
            ∧ memKindBase r.kind = if own then .own else .readShared)
        ∧ ((isModuleKey line = false ∧ (s.stackHeld line = false ∨ kept)) ∨ s.permOf line = some .exclusive ∨
            (s.permOf line = some .shared ∧ own = false) →
          (kept ∨ (s.directoryPeers line).length < 16) →
          ((s.l2Find die line).isSome = true ∨ ∃ i ∈ s.ownWays die line tag, ∀ l ∈ s.setPeers die line, l.way ≠ i) →
          ∃ t x, exec .directoryRequest s = .next t ∧ t.mem = s.mem ∧ t.poison = s.poison ∧ t.l1 = s.l1
            ∧ t.l2Find die line = some x ∧ x.valid key = true
            ∧ (∀ d k, k ≠ line → t.l2Find d k = s.l2Find d k)
            ∧ (own = true → x.state = .m ∧ (∀ d, d ≠ die → t.l2Find d line = none)
                ∧ ∀ l ∈ s.l2Holders line, l.state.dirty = true → (l.dirty0 = true → x.dirty0 = true) ∧ (l.dirty1 = true → x.dirty1 = true))
            ∧ (own = false → s.l2Find die line = none →
                (kept → x.state = .s)
                ∧ (¬ kept → x.state = if isModuleKey line = false ∨ s.permOf line = some .exclusive then .e else .s)
                ∧ ∀ d, d ≠ die → t.l2Find d line = (s.l2Find d line).map fun l =>
                    { l with state := match l.state with | .m => .o | .e => .s | y => y })))

/-- R64, R68, R70: a refresh of a held row is counted; a link that fails its check replays a transfer up to four times, then
retrains; the third failed retrain in a row marks the stack down and releases its rows. Counts saturate. That replays are counted across
failures of the link, and when one starts anew, is the model's reading (log 41, DEDUCED). -/
def Sys2Proof.Claims.StackLinks : Prop :=
  ∀ (s : State) (d : Nat) (l : StackLink),
    (∀ bank r, s.call = .refresh d bank → s.slotOf d bank = some r →
      exec .refresh s = .next (if r.held then s.charge r.part 0x031 1 else s))
    ∧ (s.links[d]? = some l →
        (s.call = .linkCrcFailure d → l.down = false → l.retraining = false →
          let l' : StackLink :=
            (if l.replays < 4 then { l with replays := l.replays + 1, replayCount := min (l.replayCount + 1) (2 ^ 32 - 1) }
             else { l with replays := 0, retraining := true, retrainCount := min (l.retrainCount + 1) (2 ^ 8 - 1) })
          exec .linkCrcFailure s = .next { s with links := s.links.set d l' })
        ∧ (l.retraining = true →
            let up : StackLink := { l with retraining := false, failedRetrains := 0 }
            let more : StackLink := { l with
              failedRetrains := l.failedRetrains + 1, retrainCount := min (l.retrainCount + 1) (2 ^ 8 - 1) }
            (s.call = .retrainComplete d true → exec .retrainComplete s = .next { s with links := s.links.set d up })
            ∧ (s.call = .retrainComplete d false → l.failedRetrains < 2 →
                exec .retrainComplete s = .next { s with links := s.links.set d more })
            ∧ (s.call = .retrainComplete d false → 2 ≤ l.failedRetrains →
                ∃ t, exec .retrainComplete s = .next t ∧ t.links = s.links.set d { up with down := true }
                  ∧ (∀ r ∈ t.rows, r.stack = d → r.held = false) ∧ t.mem = s.mem)))

/-- Banks, write queue, directory, atomic units, gather packets and stack links at work: MemoryAgents, CacheTraffic,
StackLinks. -/
def Obligations.MemoryAgentsAndLinks : Prop := Sys2Proof.Claims.MemoryAgents ∧ Sys2Proof.Claims.CacheTraffic ∧ Sys2Proof.Claims.StackLinks

/-- R56, R57, R59: a module's completion ends the oldest request of its kind for the line and gives the permission it was for. A
back-invalidation acts on its lines in order and is then answered; it waits for a line that a Ladle channel owns, and one that
meets a request outstanding to the module waits for its BIConflictAck, after which it is applied and answered. -/
def Obligations.ModuleSnoops : Prop :=
  ∀ (s : State) (m line count : Nat),
    let key := fun (i : Nat) => moduleLine m (line + i)
    let came := State.chargeFlits { s with snoopAnswers := [] } false 0
    let act := fun (inv : Bool) (t : State) (k : Nat) => if inv then t.snoopInv k else t.snoopData k
    (∀ kind r, s.call = .memCompletion m line kind →
      s.memReqs.find? (fun x => x.key = moduleLine m line && memKindBase x.kind = memKindBase kind) = some r → r.snoop = 0 →
      ∃ t, exec .memCompletion s = .next t ∧ t.memReqs = s.memReqs.erase r ∧ t.mem = s.mem
        ∧ (kind = .own ∨ kind = .ownHeld → t.permOf (moduleLine m line) = some .exclusive)
        ∧ (kind = .readShared → s.permOf (moduleLine m line) = none → t.permOf (moduleLine m line) = some .shared))
    ∧ (∀ p ∈ ([(.bisnpinv, .bisnpinv m line count, true), (.bisnpdata, .bisnpdata m line count, false),
          (.bisnpcur, .bisnpcur m line count, false)] : List (Instr × Call × Bool)), s.call = p.2.1 →
        (∀ x ∈ s.snoops, ¬ (x.module = m ∧ x.next = line ∧ x.left = count ∧ x.inv = p.2.2)) →
        let x : Snoop :=
          { module := m, first := line, next := line, left := count, block := decide (1 < count), inv := p.2.2, held := false }
        ((∀ i, i < count → s.ladleOwns (key i) = false ∧ s.memReqs.find? (fun r => r.key = key i) = none) →
          exec p.1 s = .next (((List.range count).foldl (fun (t : State) i => act p.2.2 t (key i)) came).answerSnoop
            { module := m, line := line, block := decide (1 < count), inv := p.2.2 }))
        ∧ (0 < count → s.ladleOwns (key 0) = true → exec p.1 s = .next { came with snoops := s.snoops ++ [x] })
        ∧ ∀ r, 0 < count → s.ladleOwns (key 0) = false → s.memReqs.find? (fun r => r.key = key 0) = some r →
            exec p.1 s = .next { came with
              snoops := s.snoops ++ [{ x with held := true }],
              memReqs := mapWhere s.memReqs (fun y => y = r) fun y => { y with snoop := if p.2.2 then 1 else 2 } })
    ∧ (∀ r x, s.call = .biconflictack m line →
        s.memReqs.find? (fun x => x.key = moduleLine m line && x.snoop ≠ 0) = some r →
        s.snoops = [x] → x.module = m → x.next = line → x.held = true → x.left = 1 → x.inv = decide (r.snoop = 1) →
        exec .biconflictack s = .next (State.answerSnoop
          { act x.inv { s with memReqs := mapWhere s.memReqs (fun x => x = r) fun x => { x with snoop := 0 }, snoopAnswers := [] }
              (moduleLine m line) with
            snoops := [] }
          { module := m, line := x.first, block := x.block, inv := x.inv }))

/-- R27, R30, R88, R348: a die's walker starts its oldest queued walk, at the root that XLTBASE then names, while fewer than 64
(the Runner's: 16) are in flight; a walk's end releases all its clients, with its translation or its refusal; an invalidation
drops the entries it covers and keeps every other; GO clears once the operations and the L1s are done; a deferred RLYCTXSIZE
takes effect when the Runner is idle; a way moves from one partition to another at most once in a period of 2^20 cycles of its
slice. The model's readings: KIND 0 drops all the ASID's entries of the walk caches, and completion waits for all of the
partition's operations (log 40); the periods of a slice are CYC div 2^20 (log 7). -/
def Obligations.WalksAndInvalidation : Prop :=
  ∀ (s : State),
    (∀ die pre k post, s.call = .pageWalk die → (s.walks.filter fun x => x.die = die && x.started).length < (if die = 8 then 16 else 64) →
      s.walks = pre ++ [k] ++ post → (∀ x ∈ pre, x.die = die → x.started = true) → k.die = die → k.started = false →
      exec .pageWalk s = .next { s with walks :=
        pre ++ [{ k with started := true, root := ((s.part? k.part).map Part.xltBase).getD 0 }] ++ post })
    ∧ (∀ die n k p, s.call = .walkComplete die n → (s.walks.filter fun x => x.die = die && x.started)[n]? = some k →
        s.part? k.part = some p →
        let s1 : State := { s with walks := s.walks.erase k }
        let die' := if k.die = 8 then none else some k.die
        let es := (s1.walk die' p k.asid k.root k.page).2
        let s2 := s1.walkReads k.die p.num k.asid k.root k.page es
        let s3 := if k.die = 8 then s2 else s2.walkCacheFill k.die p.num k.asid es
        (s.walkHeld k = true → exec .walkComplete s = .next s)
        ∧ (∀ sub level, s.walkHeld k = false → (s1.walk die' p k.asid k.root k.page).1 = .refused sub level →
          exec .walkComplete s =
            .next (s3.releaseClients k none (some { page := k.page, sub := sub, level := level, ras := false })))
        ∧ (∀ level, s.walkHeld k = false → (s1.walk die' p k.asid k.root k.page).1 = .ras level →
          exec .walkComplete s =
            .next (s3.releaseClients k none (some { page := k.page, sub := 7, level := level, ras := true })))
        ∧ ∀ pages frame w x na tier, s.walkHeld k = false →
            (s1.walk die' p k.asid k.root k.page).1 = .leaf pages frame w x na tier →
          let e : TlbEntry :=
            { place := .runner, part := p.num, asid := k.asid, page := k.page / pages * pages, pages := pages, frame := frame,
              w := w, x := x, na := na, tier := tier }
          exec .walkComplete s = .next ((s3.fillClients k e).releaseClients k (some e) none))
    ∧ (let drops := fun (out : Out) (gone : TlbEntry → Prop) (table : WalkCacheEntry → Prop) =>
        ∃ t, out = .next t ∧ t = { s with tlb := t.tlb, walkCache := t.walkCache, chans := t.chans }
          ∧ (∀ e, e ∈ t.tlb ↔ e ∈ s.tlb ∧ ¬ gone e) ∧ (∀ e, e ∈ t.walkCache ↔ e ∈ s.walkCache ∧ ¬ table e)
          ∧ ∀ c ∈ t.chans, ∀ b ∈ c.doors, ∀ e ∈ b.pages, ¬ gone e
       (∀ part asid size p, s.call = .xltinvcPage part asid size → s.part? part = some p →
          drops (exec .xltinvcPage s)
            (fun e => e.part = part ∧ e.asid = asid ∧
              rangesMeet e.page e.pages (p.xltInvaVa / 4096 / sizePages size * sizePages size) (sizePages size) = true)
            fun e => e.part = part ∧ e.asid = asid)
       ∧ (∀ part asid, s.call = .xltinvcAsid part asid →
          drops (exec .xltinvcAsid s) (fun e => e.part = part ∧ e.asid = asid) fun e => e.part = part ∧ e.asid = asid)
       ∧ ∀ part, s.call = .xltinvcPartition part →
          drops (exec .xltinvcPartition s) (fun e => e.part = part) fun e => e.part = part)
    ∧ (∀ part p t, s.call = .xltinvcComplete part → s.part? part = some p → p.xltGo = true → s.partQuiet part = true →
        (∀ c ∈ s.agenda, invalidates part c = false) →
        gotAll s (s.quadsOf part) (fun (u : State) q => u.releaseQuad q) = (t, true) →
        exec .xltinvcComplete s = .next (t.modPart part fun x => { x with xltGo := false }))
    ∧ (∀ part p v, s.call = .rlyctxsizeTakesEffect part → s.part? part = some p → p.ctxSizeNext = some v →
        s.runnerBusy part = false →
        exec .rlyctxsizeTakesEffect s = .next (s.setPart { p with ctxSize := v, ctxSizeNext := none }))
    ∧ (∀ die slice, s.call = .wayMove die slice →
        (s.wayMoved die slice = true → exec .wayMove s = .next s)
        ∧ (s.wayMoved die slice = false →
          ∃ t, exec .wayMove s = .next t ∧ t = { s with free := s.free + 1, ways := t.ways }
            ∧ match State.wayMove { s with free := s.free + 1 } die slice s.free with
              | none => t.ways = s.ways
              | some (way, g) =>
                ({ die := die, slice := some slice, owners := (s.wayOwners die slice).set way g,
                   moved := some (s.now / 2 ^ 20) } : WayRow) ∈ t.ways))

/-- R76, R78, R79, R81: a module serves QPUT, QGET and ATOM as one step each: a queue takes an entry at TAIL, or answers FULL; gives
the one at HEAD, or answers EMPTY; an atomic stores the new value and answers with the old. The answer ends the request of its
tag; an answer whose tag is not outstanding is discarded. A request of a lost head group is dropped, one that must recall a line
that a Ladle channel owns waits, and a bad object gets its status. A Runner's put enters the queue to this package while that has
room, and is the doorbell of a Runner that holds the tail line shared; a Runner's get takes the oldest entry. The model's choices: the
recall of the descriptor before FULL and EMPTY are looked at (log 58), and the queues' place with the package at the other end in
operand A (log 21). -/
def Sys2Proof.Claims.ModuleQueuesAndAtomics : Prop :=
  ∀ (s : State) (r : KReq),
    let key := moduleKey r.module r.addr
    let s0 := State.recall { s with snoopAnswers := [] } key 64 true
    let base := s0.peekNat key 8
    let n := 2 ^ (s0.peekNat (key + 8) 1 % 32)
    let head := s0.peekNat (key + 16) 8
    let tail := s0.peekNat (key + 24) 8
    let put := moduleKey r.module (base + 64 * (tail % n))
    let get := moduleKey r.module (base + 64 * (head % n))
    (∀ ev c n align len queue,
      (ev, c, n, align, len, queue) ∈
        [(Instr.qput, Call.qput r, 64, 64, 64, true), (.qget, .qget r, 64, 64, 64, true),
         (.atom, .atom r, 8, if r.subop.testBit 7 then 8 else 4, if r.subop.testBit 7 then 8 else 4, false),
         (.red, .red r, 384, 128, 384, false), (.redrd, .redrd r, 384, 128, 384, false)] →
      s.call = c → (ev = .qput ∨ ev = .qget → r.tag < 96) →
      (s.kweutDropped r = true → exec ev s = .next s)
      ∧ (s.kweutDropped r = false → s.kweutWaits r n queue = true → exec ev s = .next { s with agenda := c :: s.agenda })
      ∧ ∀ st, s.kweutDropped r = false → s.kweutWaits r n queue = false → (ev = .atom → r.subop % 8 ≤ 5) →
          ((r.addr % align ≠ 0 ∧ st = 8)
            ∨ (r.addr % align = 0 ∧ s.kweutCap r < r.addr + len ∧ st = 10)
            ∨ (r.addr % align = 0 ∧ r.addr + len ≤ s.kweutCap r ∧ s.anyPoison key len = true ∧ st = 11)) →
          exec ev s = .next (State.answer { s with snoopAnswers := [] } r (.only st)))
    ∧ (96 ≤ r.tag → s.call = .qput r →
        let s1 : State := { s with snoopAnswers := [] }
        (s.kweutDropped r = true → exec .qput s = .next s)
        ∧ (s.kweutDropped r = false → s.ownRequest r = true → exec .qput s = .next (s1.answer r (.only 0)))
        ∧ (s.kweutDropped r = false → s.ownRequest r = false → (r.a ≠ s.pod.self ∨ s.requestSource r = none) →
            exec .qput s = .next s1)
        ∧ ∀ g, s.kweutDropped r = false → s.ownRequest r = false → r.a = s.pod.self → s.requestSource r = some g →
            let q := s.runner.queueOf g
            (4096 ≤ q.entries.length → exec .qput s = .next s1)
            ∧ (q.entries.length < 4096 → ∃ t : State, exec .qput s = .next (t.pull g) ∧ t.mem = s.mem
                ∧ t.runner.queueOf g = { q with entries := q.entries ++ [(r.payload ++ List.replicate 64 0).take 64],
                                                tailShared := false, bell := q.bell || q.tailShared }
                ∧ t.snoopAnswers = if q.tailShared then [{ module := r.module, line := r.addr / 128, block := false, inv := true }]
                    else []))
    ∧ (96 ≤ r.tag → s.call = .qget r →
        let q := s.runner.queueOf r.a
        ((s.kweutDropped r = true ∨ s.ownRequest r = false) → exec .qget s = .next s)
        ∧ (s.kweutDropped r = false → s.ownRequest r = true →
            (q.entries = [] → exec .qget s = .next (s.answer r (.only 2)))
            ∧ ∀ e es, q.entries = e :: es → exec .qget s =
                .next ((s.modRunner fun x => x.setQueue { q with entries := es }).answer r
                  { status := 0, value := none, data := e })))
    ∧ (r.tag < 96 → s.kweutDropped r = false → s.kweutWaits r 64 true = false → s.kweutObject r 64 64 = none →
        (20 < s0.peekNat (key + 8) 1 % 32 ∨ base % 64 ≠ 0) →
        (s.call = .qput r → exec .qput s = .next (s0.answer r (.only 8)))
        ∧ (s.call = .qget r → exec .qget s = .next (s0.answer r (.only 8))))
    ∧ (r.tag < 96 → s.kweutDropped r = false → s.kweutWaits r 64 true = false → s.kweutObject r 64 64 = none →
        s0.peekNat (key + 8) 1 % 32 ≤ 20 → base % 64 = 0 →
        (s.call = .qput r →
          ((tail + 2 ^ 64 - head) % 2 ^ 64 = n → exec .qput s = .next (s0.answer r (.only 1)))
          ∧ ((tail + 2 ^ 64 - head) % 2 ^ 64 ≠ n → s0.kweutCheck r (base + 64 * (tail % n)) 64 = none → r.payload.length = 64 →
              exec .qput s = .next ((((s0.recall put 64 true).poke put r.payload).pokeNat (key + 24) 8 (tail + 1)).answer r
                (.only 0)))
          ∧ ∀ st, (tail + 2 ^ 64 - head) % 2 ^ 64 ≠ n → s0.kweutCheck r (base + 64 * (tail % n)) 64 = some st →
              exec .qput s = .next (s0.answer r (.only st)))
        ∧ (s.call = .qget r →
          (tail = head → exec .qget s = .next (s0.answer r (.only 2)))
          ∧ (tail ≠ head → s0.kweutCheck r (base + 64 * (head % n)) 64 = none →
              let s1 := s0.recall get 64 false
              exec .qget s = .next ((s1.pokeNat (key + 16) 8 (head + 1)).answer r
                { status := 0, value := none, data := s1.peek get 64 }))
          ∧ ∀ st, tail ≠ head → s0.kweutCheck r (base + 64 * (head % n)) 64 = some st →
              exec .qget s = .next (s0.answer r (.only st))))
    ∧ (s.kweutDropped r = false → s.kweutWaits r 8 false = false → 6 ≤ r.subop % 8 → s.call = .atom r →
        exec .atom s = .next (State.answer { s with snoopAnswers := [] } r (.only 9)))
    ∧ (∀ size, size = (if r.subop.testBit 7 then 8 else 4) → s.kweutDropped r = false → s.kweutWaits r 8 false = false →
        s.kweutObject r size size = none → r.subop % 8 ≤ 5 → s.call = .atom r →
        let s1 := State.recall { s with snoopAnswers := [] } key size true
        let old := s1.peekNat key size
        let m := 2 ^ (8 * size)
        let op := [0, 1, 2, 3, 6, 7].getD (r.subop % 8) 0
        exec .atom s = .next ((s1.pokeNat key size (atomicNew op size old (r.a % m) (r.b % m))).answer r
          { status := 0, value := some old, data := [] }))
    ∧ (∀ x : KRsp, s.call = .kweutResponse x →
        let s1 := State.chargeFlits { s with agenda := s.agenda.filter fun c => !sameResponse x c } false (32 + x.data.length)
        (x.tag < 96 → s1.kweutOp x.att x.port x.tag = none → exec .kweutResponse s = .next s1)
        ∧ (∀ w o, x.tag < 96 → s1.kweutOp x.att x.port x.tag = some (w, o) →
            exec .kweutResponse s = .next (s1.endService w o x.status x.value x.data)))

/-- R82, R83, R75: a contribution joins its cell's round; the round that has them all folds them in ascending lead-head order into
the result area, counts its generation and starts afresh; a second contribution of a head, a head outside MASK and a round that
is still open each get their status. A cell whose header is out of range, and one beyond the cells that the module holds open for
the logical device, get theirs; BADOBJ before NORES before NOTMEMBER is the model's order (log 19). A lost head group's exclusive lines
are poisoned, it leaves every sharer set, and a round whose mask names it is broken: its generation goes on, BROKEN is set, and the
result area and every other round stay; then the peers' routes follow. -/
def Sys2Proof.Claims.ReductionCells : Prop :=
  ∀ (s : State) (r : KReq),
    let key := moduleKey r.module r.addr
    let s0 := State.recall { s with snoopAnswers := [] } key 384 true
    let x := (s0.roundAt r.module r.addr).getD (s0.newRound r.module r.ld r.addr)
    let n := contributionLen x.op x.fmt x.nelem
    let arrived := insertArrival (r.lead, (r.payload ++ List.replicate 320 0).take n) x.arrived
    let y : Round := { x with arrived := arrived }
    let ans : Nat → KAns := fun st => { status := st, value := some x.gen, data := [] }
    let open' := (s0.rounds.filter fun z => z.module = r.module && z.ld = r.ld).length
    (s.kweutDropped r = false → s.kweutWaits r 384 false = false → s.kweutObject r 128 384 = none → s.call = .red r →
      x.arrived = [] →
      (x.ok s0.pod.q = false → exec .red s = .next (s0.answer r (.only 8)))
      ∧ (x.ok s0.pod.q = true → 4096 + Config.extraRounds ≤ open' → exec .red s = .next (s0.answer r (ans 7))))
    ∧ (s.kweutDropped r = false → s.kweutWaits r 384 false = false → s.kweutObject r 128 384 = none → s.call = .red r →
      (x.arrived ≠ [] ∨ (x.ok s0.pod.q = true ∧ open' < 4096 + Config.extraRounds)) →
      (x.mask.testBit r.lead = false → exec .red s = .next (s0.answer r (ans 5)))
      ∧ (x.mask.testBit r.lead = true →
          ((∃ a ∈ x.arrived, a.1 = r.lead) → exec .red s = .next (s0.answer r (ans 4)))
          ∧ ((∀ a ∈ x.arrived, a.1 ≠ r.lead) →
              (y.arrivedMask ≠ x.mask → exec .red s = .next
                (((s0.setRound r.module r.addr (some y)).mirrorCell key x.gen y.arrivedMask x.broken).answer r (ans 0)))
              ∧ (y.arrivedMask = x.mask → exec .red s = .next
                ((((s0.setRound r.module r.addr none).poke (key + 64)
                  ((foldRound x.op x.fmt x.nelem (arrived.map Prod.snd) ++ List.replicate 320 0).take 320)).mirrorCell key
                    ((x.gen + 1) % 65536) 0 false).answer r (ans 0))))))
    ∧ (s.kweutDropped r = false → s.kweutWaits r 384 false = false → s.kweutObject r 128 384 = none → s.call = .redrd r →
        let s1 := State.recall { s with snoopAnswers := [] } key 384 false
        let z := (s1.roundAt r.module r.addr).getD (s1.newRound r.module r.ld r.addr)
        exec .redrd s = .next (s1.answer r
          { status := if r.a % 65536 = z.gen then 3 else if z.broken then 6 else 0, value := some z.gen,
            data := if r.a % 65536 ≠ z.gen ∧ z.broken = false then s1.peek (key + 64) 320 else [] }))
    ∧ (∀ m lead, s.call = .headGroupLost m lead →
        let hit := fun z : Round => decide (z.module = m) && z.mask.testBit lead
        ∃ u : State, u.mem = s.mem ∧ u.rounds = s.rounds ∧ u.l2 = s.l2 ∧ u.stale = s.stale ∧ u.waves = s.waves
          ∧ u.holders = s.holders.filter (fun h => !(h.module = m && h.lead = lead)) ∧ (m, lead) ∈ u.lostHeads
          ∧ (∀ k, s.poisoned k = true → u.poisoned k = true)
          ∧ (∀ h ∈ s.holders, h.module = m → h.lead = lead → h.exclusive = true →
              u.poisoned h.line = true ∧ u.poisoned (h.line + 64) = true)
          ∧ ((∀ z ∈ s.rounds, hit z = false) → exec .headGroupLost s = .next (u.reroute s))
          ∧ (∀ z, s.rounds.filter hit = [z] →
              let cell := moduleKey m z.cell
              let v := u.recall cell 64 true
              ∃ t : State, exec .headGroupLost s = .next (t.reroute s)
                ∧ t.rounds = v.rounds.filter (fun y => !(y.module = m && y.cell = z.cell))
                ∧ t.holders = v.holders ∧ t.l2 = v.l2 ∧ t.waves = v.waves ∧ t.snoopAnswers = v.snoopAnswers
                ∧ bitsAt (t.peekNat cell 16) 112 16 = (z.gen + 1) % 2 ^ 16 ∧ bitsAt (t.peekNat cell 16) 96 16 = 0
                ∧ (t.peekNat cell 16).testBit 64 = true
                ∧ bitsAt (t.peekNat cell 16) 0 64 = bitsAt (v.peekNat cell 16) 0 64
                ∧ (∀ k, ¬ (cell ≤ k ∧ k < cell + 16) → t.peek k 1 = v.peek k 1)
                ∧ (t.peek (cell + 64) 320 = v.peek (cell + 64) 320)
                ∧ (z.cell % 128 = 0 → (∀ l ∈ s.l2, l.key ≠ cell) → (∀ y ∈ s.stale, y.key ≠ cell) → v.mem = s.mem))
          ∧ ((∀ y ∈ s.rounds, y.cell % 128 = 0) → (s.rounds.Pairwise fun y z => ¬ (y.module = z.module ∧ y.cell = z.cell)) →
              (∀ z ∈ s.rounds, (∀ l ∈ s.l2, l.key ≠ moduleKey m z.cell) ∧ ∀ y ∈ s.stale, y.key ≠ moduleKey m z.cell) →
              ∃ t : State, exec .headGroupLost s = .next (t.reroute s)
                ∧ (∀ z, z ∈ t.rounds ↔ z ∈ s.rounds ∧ hit z = false)
                ∧ ∀ z ∈ s.rounds, hit z = true →
                    bitsAt (t.peekNat (moduleKey m z.cell) 16) 112 16 = (z.gen + 1) % 2 ^ 16
                    ∧ bitsAt (t.peekNat (moduleKey m z.cell) 16) 96 16 = 0
                    ∧ (t.peekNat (moduleKey m z.cell) 16).testBit 64 = true))

/-- What a module performs: queues, atomics, reduction cells, a lost head group: ModuleQueuesAndAtomics, ReductionCells. -/
def Obligations.ModuleServices : Prop := Sys2Proof.Claims.ModuleQueuesAndAtomics ∧ Sys2Proof.Claims.ReductionCells

/-- R19, R73, R92, R94, R96: an attachment goes down with its last port, by Viral, or when a request to its module has waited for
the completion timeout (R95 says what its peers do): it serves no more, and an access to its window is refused with 0x09; no L2 line,
permission or request of its module remains, the module is told of the lost head group, and no route uses the module. A peer left
without a route is dead; one reached through a third package gets its unacknowledged packets again on that route, marked forwarded.
A port that goes while another is up changes nothing else. An attachment that is verified again serves, with its head group taken
back, its capacities read, the queues' tail lines shared again, and the route over its module in use. That the Runner holds, loses
and reads tail lines so is the model's reading of R86 (log 21). -/
def Obligations.AttachmentsComeAndGo : Prop :=
  ∀ (s : State) (att : Nat) (a : Att), s.pod.atts[att]? = some a →
    let n := portsPerAttachment s.pod.q
    (∀ port up, s.call = .portDown port up → n ≠ 0 → port / n = att →
      let s1 : State :=
        { s with pod := { s.pod with atts := s.pod.atts.set att { a with portsUp := a.portsUp.set (port % n) up } } }
      (s.pod.attUp att = false ∨ s1.pod.attUp att = true → exec .portDown s = .next s1)
      ∧ (s.pod.attUp att = true → s1.pod.attUp att = false → exec .portDown s = .next (s1.attachmentDown att)))
    ∧ (s.call = .viral att → a.verified = true → exec .viral s = .next (s.attachmentDown att))
    ∧ (s.call = .moduleCompletionTimeout att → a.verified = true → s.moduleTimedOut att = true →
        exec .moduleCompletionTimeout s = .next (s.attachmentDown att))
    ∧ (∀ m, s.pod.moduleOf att = some m →
        let s1 := s.attachmentDown att
        s1.pod.attUp att = false
        ∧ (∀ (p : Part) pa size kind x, physPlace pa = .attach att x → x + size ≤ p.limit att →
            s1.physRefusal p pa size kind = some 9)
        ∧ (∀ q ∈ s1.runner.queues, s1.pod.shared q.peer = some m → q.tailShared = false)
        ∧ (s.pod.attOf m = some att → ∀ g, s.pod.shared g = some m → s1.routeTo g ≠ some (g, false))
        ∧ (∀ g, g < s.pod.size → g ≠ s.pod.self → s1.routeTo g ≠ s.routeTo g →
            (s1.routeTo g = none → (∀ x ∈ s1.parts, x.isDead g = true)
              ∧ ∀ c ∈ s1.runner.ctxs, c.id.peer = g → ∀ y ∈ c.streams, y.unacked = [] ∧ y.waiting = [])
            ∧ ∀ via c k y, s1.routeTo g = some (via, true) → s.ctx? c.id = some c → c ∈ s.runner.ctxs → c.id.peer = g → k < 4 →
                (c.stream k).unacked.head? = some y → y.packet.dst = g →
                ∃ z ∈ s1.runner.sending, z.via = via ∧ z.packet = { y.packet with forwarded := true })
        ∧ (∀ l ∈ s1.l2, ¬ (isModuleKey l.key = true ∧ keyModule l.key = m))
        ∧ (∀ p ∈ s1.perms, ¬ (isModuleKey p.key = true ∧ keyModule p.key = m))
        ∧ (∀ x ∈ s1.memReqs, ¬ (isModuleKey x.key = true ∧ keyModule x.key = m))
        ∧ Call.headGroupLost m (s.pod.leadOn m) ∈ s1.agenda)
    ∧ (∀ m, s.pod.moduleOf att = some m → s.call = .attachmentUp att → s.pod.attUp att = false →
        ∃ t b, exec .attachmentUp s = .next t ∧ t.pod.atts[att]? = some b ∧ b.verified = true ∧ b.readCap = a.fabricCap
          ∧ (m, s.pod.leadOn m) ∉ t.lostHeads ∧ t.mem = s.mem
          ∧ (a.portsUp ≠ [] → t.pod.attUp att = true)
          ∧ (∀ q ∈ t.runner.queues, t.pod.shared q.peer = some m → q.tailShared = true)
          ∧ (a.portsUp ≠ [] → s.pod.attOf m = some att → ∀ g, s.pod.shared g = some m → t.headUp m g = true →
              t.routeTo g = some (g, false)))

/-- R89, R90, R31 to R33, R93: a request packet at its receiver. One for another package is not taken. The expected one performs:
an RWRI writes its bytes and its notification and is owed an acknowledgement, a read answers with its bytes, an atomic waits
at its atomic unit. One ahead of it gets one NAK of the expected number; one behind it is answered again. A refused one freezes
its stream and posts its event, or ends at once when its refusal cannot be restarted; one that needs a walk stays in its stream's
hand, and the next is turned away as busy until it has been performed; one for which no context can be opened is turned away too. That
an accepted request is held in its stream's hand through its walk is the model's reading (log 29, DEDUCED), and which of this
package's contexts a packet belongs to is its own (log 50). -/
def Sys2Proof.Claims.RequestPackets : Prop :=
  ∀ (s : State) (p : Packet),
    let serves : (State → Packet → Served) → Out → Prop := fun perform out =>
      (p.dst ≠ s.pod.self → out = .next s)
      ∧ (p.dst = s.pod.self → ((s.heard p.src).openCtx ((s.heard p.src).rxCtx p) = .stall
            ∨ (s.heard p.src).openCtx ((s.heard p.src).rxCtx p) = .refused) →
          out = .next ((s.heard p.src).reply p .nak 0 1 0 [] 0))
      ∧ ∀ s1, p.dst = s.pod.self → (s.heard p.src).openCtx ((s.heard p.src).rxCtx p) = .ready s1 →
          let t := s1.rxStream p
          let here := ∀ c, s1.ctx? (s1.rxCtx p) = some c → c.spilled = false
          let performed := fun (x : Served) =>
            (∀ s2, x = .done s2 → out = .next ((s2.passSeq p).oweAck p))
            ∧ (∀ s2 d q, x = .resp s2 d q → out = .next ((s2.passSeq p).respond p d q))
            ∧ (∀ s2, x = .queued s2 → out = .next (s2.passSeq p))
            ∧ (∀ s2, x = .walk s2 → out = .next (s2.modRx p fun t => { t with inHand := some p, expected := (p.seq + 1) % 2 ^ 16 }))
            ∧ (∀ sub level, x = .refused sub level → out = .next (s1.refuseRemote p sub level))
          (t.frozen = true → out = .next s1)
          ∧ (t.frozen = false → t.inHand = some p → performed (perform s1 p)
              ∧ ∀ s2, perform s1 p = .busy s2 → out = .next { s2 with agenda := s2.agenda ++ [packetCall s2.pod.self p] })
          ∧ (t.frozen = false → t.inHand ≠ some p →
              (p.seq = t.expected → here → s1.unperformed p = false →
                performed (perform s1 p)
                ∧ ∀ s2, perform s1 p = .busy s2 → out = .next (s2.sendNak p t.expected 1))
              ∧ (p.seq = t.expected → (s1.unperformed p = true ∨ ¬ here) → out = .next (s1.sendNak p t.expected 1))
              ∧ (p.seq ≠ t.expected → seqBefore t.expected p.seq = true →
                  out = .next (if t.lastNak = some t.expected ∧ s1.now < t.nakAt + 4096 then s1 else s1.sendNak p t.expected 0))
              ∧ (p.seq ≠ t.expected → seqBefore t.expected p.seq = false →
                  ∀ r, t.responses.find? (fun x => x.seq = p.seq) = some r → out = .next (s1.putPacket p.src r)))
    (s.call = .rwriPacket p → serves performRwri (exec .rwriPacket s))
    ∧ (s.call = .rrdPacket p → serves performRrd (exec .rrdPacket s))
    ∧ (s.call = .ratomPacket p → serves performRatom (exec .ratomPacket s))
    ∧ (s.call = .relayedRead p → serves performRelayedRead (exec .relayedRead s))
    ∧ (s.call = .relayedWrite p → serves performRelayedWrite (exec .relayedWrite s))
    ∧ (s.call = .relayedAtomic p → serves performRelayedAtomic (exec .relayedAtomic s))

/-- R24, R31 to R33, R85, R93: what a request performs, once its key names an ASID of its partition, its bytes lie in grants with
the right for its peer, and they translate; each failing check refuses it with its own subcode. One that misses the Runner's TLB waits
for a walk, an RWRI only while a record is free. That an accepted request waits through its walk, and that a revocation since does
not concern it, are the model's reading (log 29, DEDUCED). -/
def Sys2Proof.Claims.RemoteRequestsPerform : Prop :=
  ∀ (s : State) (p : Packet) (q : Part) (n : Nat), s.part? p.keyPart = some q →
    let who := packetRequester p
    let ready := fun (s1 : State) (pa key : Nat) (na : Bool) => p.keyAsid < q.asidCount ∧ q.grants? p n (s.wasAccepted p) = true
      ∧ s.remoteXlate q p n = (s1, .ok pa na) ∧ keyOfPa s1.pod pa = some key
    (q.asidCount ≤ p.keyAsid → performRrd s p = .refused 0x0D 15 ∧ performRatom s p = .refused 0x0D 15
      ∧ performRwri s p = .refused 0x0D 15)
    ∧ (p.keyAsid < q.asidCount → n = p.len → q.grants? p n (s.wasAccepted p) = false →
        performRrd s p = .refused (if q.grants? p n true then 0x0C else 0x0B) 15
        ∧ (s.nqEnabled (q.nqDesc p.keyAsid) = false → performRwri s p = .refused 0x0B 15))
    ∧ (∀ s1 pa key na s2, n = p.len → ready s1 pa key na → s1.homeReach q.num who key n = (s2, true) →
        performRrd s p = .resp s2 (s2.peek key n) (s2.poisonMask q.num key n))
    ∧ (∀ s1 pa key na, n = (if p.opsize.testBit 4 then 8 else 4) → ready s1 pa key na →
        performRatom s p = .queued { s1 with atomQ := s1.atomQ ++
          [{ key := key, size := n, op := p.opsize % 16, a := bytesToNat (p.data.take n),
             b := bytesToNat ((p.data.drop n).take n), order := s1.now, na := na, packet := p }] })
    ∧ (∀ s1 pa key na s2 s4 s5, n = p.len → ready s1 pa key na →
        let desc := q.nqDesc p.keyAsid
        s.nqEnabled desc = true →
        (s1.nqTail desc + 2 ^ 32 - s1.nqHead desc) % 2 ^ 32 < s1.nqSize desc →
        s1.linesReady q.num
          (linesOf key n ++ [lineKey (s1.nqRing desc + 8 * (s1.nqTail desc % s1.nqSize desc)), lineKey desc]) = (s2, true) →
        ∀ s3, s2.homeWrite q.num who key (p.data.take n) (decide (p.poison ≠ 0)) = (s3, true) →
        s3.homeWrite q.num who (s3.nqRing desc + 8 * (s3.nqTail desc % s3.nqSize desc))
          (natToBytes 8 (p.src * 2 ^ 58 + p.stream * 2 ^ 56 + p.imm % 2 ^ 32)) false = (s4, true) →
        s4.homeWrite q.num who (desc + 12) (natToBytes 4 (s3.nqTail desc + 1)) false = (s5, true) →
        performRwri s p = .done (s5.wakeOldest (nqSleep desc)))
    ∧ (∀ s1, n = p.len → p.keyAsid < q.asidCount → q.grants? p n (s.wasAccepted p) = true →
        s.remoteXlate q p n = (s1, .miss true) →
        performRrd s p = .walk s1
        ∧ (s.nqEnabled (q.nqDesc p.keyAsid) = true →
            performRwri s p = if (s.nqTail (q.nqDesc p.keyAsid) + 2 ^ 32 - s.nqHead (q.nqDesc p.keyAsid)) % 2 ^ 32
              < s.nqSize (q.nqDesc p.keyAsid) then .walk s1 else .busy s))
    ∧ (∀ a, s.pod.attOf p.module = some a →
        (s.pod.attUp a = false → performRelayedRead s p = .refused 9 15 ∧ performRelayedWrite s p = .refused 9 15
          ∧ performRelayedAtomic s p = .refused 9 15)
        ∧ (s.pod.attUp a = true →
            (∀ t, s.homeReach 16 who (moduleKey p.module p.addr) p.len = (t, true) →
              performRelayedRead s p = .resp t (t.peek (moduleKey p.module p.addr) p.len)
                (t.poisonMask 16 (moduleKey p.module p.addr) p.len))
            ∧ (∀ t u, s.linesReady 16 (linesOf (moduleKey p.module p.addr) p.len) = (t, true) →
                t.homeWrite 16 who (moduleKey p.module p.addr) (p.data.take p.len) (decide (p.poison ≠ 0)) = (u, true) →
                performRelayedWrite s p = .done u)
            ∧ performRelayedAtomic s p = .queued { s with atomQ := s.atomQ ++
                [{ key := moduleKey p.module p.addr, size := if p.opsize.testBit 4 then 8 else 4, op := p.opsize % 16,
                   a := bytesToNat (p.data.take (if p.opsize.testBit 4 then 8 else 4)),
                   b := bytesToNat ((p.data.drop (if p.opsize.testBit 4 then 8 else 4)).take (if p.opsize.testBit 4 then 8 else 4)),
                   order := s.now, na := false, packet := p }] }))

/-- Request packets at their receiver, and what they perform: RequestPackets, RemoteRequestsPerform. -/
def Obligations.RequestsAtTheReceiver : Prop := Sys2Proof.Claims.RequestPackets ∧ Sys2Proof.Claims.RemoteRequestsPerform

/-- R86 to R90, R92, R95: answers and retries at the source. The subcode of a FAULT is read from its IMM (log 50, the model's
choice). ACK completes what it covers; NAK of a gap sends again at once, a busy one after 512 cycles; FAULT holds the stream,
and a final one fails its request; RESUME lets it go on behind the fault; RESP brings data. A packet marked forwarded for
another package is passed on unchanged. -/
def Sys2Proof.Claims.AnswersAtTheSource : Prop :=
  ∀ (s : State) (p : Packet) (c : Rctx), p.dst = s.pod.self → (s.heard p.src).senderCtx p = some c →
    let s1 := s.heard p.src
    let t := c.stream p.stream
    (s.call = .ack p → exec .ack s = .next ((s1.ackUpTo c.id p.stream p.seq).pumpAll c.id p.stream))
    ∧ (s.call = .nak p → exec .nak s = .next (
        let s2 := s1.chargePod 0x053 1
        if p.reason = 0 then s2.resendFrom c.id p.stream p.seq
        else s2.modStream c.id p.stream fun x => { x with busyAt := some s2.now, busySeq := p.seq }))
    ∧ (s.call = .fault p → p.reason = 0 →
        exec .fault s = .next (s1.modStream c.id p.stream fun x => { x with held := true }))
    ∧ (∀ u, s.call = .fault p → p.reason ≠ 0 → t.unacked.find? (fun x => x.packet.seq = p.seq) = some u →
        exec .fault s = .next (((s1.modStream c.id p.stream fun x => { x with held := true }).modStream c.id p.stream fun x =>
          { x with unacked := x.unacked.filter fun y => y.packet.seq ≠ p.seq }).failRequest u 17 (p.imm % 256)))
    ∧ (s.call = .resume p → exec .resume s = .next (
        ((s1.modStream c.id p.stream fun x => { x with held := false }).resendFrom c.id p.stream
          ((p.seq + 1) % 2 ^ 16)).pumpAll c.id p.stream))
    ∧ (∀ u, s.call = .resp p →
        t.unacked.find? (fun x => x.packet.seq = p.seq && !(x.packet.type = .rwri || x.packet.type = .relayedWrite)) = some u →
        exec .resp s = .next ((((s1.ackUpTo c.id p.stream p.seq).modStream c.id p.stream fun x =>
          { x with unacked := x.unacked.filter fun y => y.packet.seq ≠ p.seq }).endRequest u p.data p.poison).pumpAll
            c.id p.stream))

/-- R86, R88, R89, R92, R95: the Runner's own clocks. A busy receiver is tried again after 512 cycles; what has been accepted is
acknowledged within the interval; a put at a full queue is made again; a spilled context comes back, making room; a silent peer
is dead: its bit in every partition's DEADPEER is set, and nothing outstanding to it remains, nor what waits in the send buffer
for it (log 18, the model's choice). -/
def Sys2Proof.Claims.RunnerTimers : Prop :=
  ∀ (s : State),
    (∀ (id : CtxId) (k : Nat) (c : Rctx), s.ctx? id = some c →
      let t := c.stream k
      (∀ n, s.call = .busyNakResend id k → t.busyAt = some n → n + 512 ≤ s.now →
        exec .busyNakResend s = .next ((s.modStream id k fun x => { x with busyAt := none }).resendFrom id k t.busySeq))
      ∧ (s.call = .ackInterval id k → t.ackDue ≠ 0 → s.atomQ = [] →
          (∀ x ∈ s.runner.ctxs, ∀ y ∈ x.streams, y.inHand = none) →
          ∃ u q, exec .ackInterval s = .next u
            ∧ u = (s.modStream id k fun x => { x with ackDue := 0 }).putPacket id.peer q
            ∧ q.type = .ack ∧ q.seq = (t.expected + 2 ^ 16 - 1) % 2 ^ 16 ∧ q.src = s.pod.self ∧ q.dst = id.peer
            ∧ q.stream = k ∧ q.system = id.system ∧ q.module = id.module
            ∧ (id.system = false → q.keyPart = id.part ∧ q.keyAsid = id.asid ∧ q.sndAsid = id.keyAsid))
      ∧ (s.call = .relayContextFetch id → c.spilled = true → (s.runner.ctxs.filter fun x => !x.spilled).length < ctxCacheSize →
          exec .relayContextFetch s = .next ((List.range 4).foldl (fun (x : State) j => x.pumpAll id j)
            (s.setCtx { c with spilled := false, wanted := false, slot := none, lastUse := s.now }))))
    ∧ (∀ peer, s.call = .qputRetry peer → exec .qputRetry s = .next ((s.pump peer).pull peer))
    ∧ (∀ peer, s.call = .relayTimeout peer → s.relayTimedOut peer = true →
        exec .relayTimeout s = .next (s.peerDead peer 0)
        ∧ (∀ x ∈ (s.peerDead peer 0).parts, x.isDead peer = true)
        ∧ (∀ x ∈ (s.peerDead peer 0).runner.sending, s.runner.asking x.via false = false → x.packet.dst ≠ peer)
        ∧ (∀ x ∈ (s.peerDead peer 0).runner.ctxs, x.id.peer = peer → ∀ y ∈ x.streams, y.unacked = [] ∧ y.waiting = []))
    ∧ (∀ p, s.call = .packetForward p → p.forwarded = true → p.dst ≠ s.pod.self →
        (∀ via fwd, s.routeTo p.dst = some (via, fwd) → exec .packetForward s = .next (s.enqueue via p))
        ∧ (s.routeTo p.dst = none → exec .packetForward s = .next s))

/-- Answers, retries and timeouts of the Runner: AnswersAtTheSource, RunnerTimers. -/
def Obligations.AnswersAndTimersAtTheSource : Prop := Sys2Proof.Claims.AnswersAtTheSource ∧ Sys2Proof.Claims.RunnerTimers

/-- R133 to R138, R140: a channel takes its doorbell: malformed, or out of its ranges, it is refused; it waits for the walks of
its pages; then it is refused with the lowest subcode that applies, waits for room, for its lines and for its barrier's turn, or
is accepted. LAND reads and writes the oldest copy's sectors in order and acts on its barrier. A 1 written to a bit of LASTERR
clears it. A land on a poisoned barrier leaves it, gives the wave its late error, and has the units that wait on it read it
again. The model's readings: LAND takes the oldest copy's sectors in the template's order and a lost copy is reported once (log
32), a circle of channels is broken at the copy accepted first (log 23), and LASTERR stays at such a land (log 60). -/
def Obligations.LadleChannels : Prop :=
  ∀ (s : State) (die ch : Nat),
    let c := s.chan die ch
    (∀ d rest w p, s.call = .copyAccept die ch → c.doors = d :: rest → s.wave? d.seq d.wid = some w → s.part? w.part = some p →
      (d.malformed = true → exec .copyAccept s = .next (s.refuseDoor c d 1))
      ∧ (d.malformed = false →
          let t := (c.tmpl.getD (bitsAt d.desc 0 5) 0).toNat
          let sh := copyShape t d.desc
          let x := sh.sources.map (s.sectorAt c d w p sh.srcQsp 64 .read)
          let y := sh.dests.map (s.sectorAt c d w p sh.dstQsp 64 .write)
          let z := s.copyBarrier c d w p
          let misses := missedPages (x ++ y ++ (z.map Prod.snd).toList)
          (sh.bad = true ∨ ((sh.srcQsp = true ∨ sh.dstQsp = true) ∧ c.die ≠ coreDie w.core) →
            exec .copyAccept s = .next (s.refuseDoor c d 2))
          ∧ (sh.bad = false → (sh.srcQsp = false ∧ sh.dstQsp = false ∨ c.die = coreDie w.core) →
              (misses ≠ [] → exec .copyAccept s = .next ((s.chanWalks c w misses).presentDoor c.die c.ch none))
              ∧ (misses = [] → (∃ g ∈ x ++ y, g = .badTier) → exec .copyAccept s = .next (s.refuseDoor c d 2))
              ∧ (misses = [] → (∀ g ∈ x ++ y, g ≠ .badTier) →
                  (∀ r, firstRefused x = some r → exec .copyAccept s = .next ((s.logEngine c w .read r).refuseDoor c d 3))
                  ∧ (∀ r, firstRefused x = none → firstRefused y = some r →
                      exec .copyAccept s = .next ((s.logEngine c w .write r).refuseDoor c d 4))
                  ∧ (firstRefused x = none → firstRefused y = none →
                      let src := resolved x
                      let dst := resolved y
                      (16384 < (dedup (dst.map fun a => lineKey a.key)).length ∨ 32768 < sh.count →
                        exec .copyAccept s = .next (s.refuseDoor c d 5))
                      ∧ ((dedup (dst.map fun a => lineKey a.key)).length ≤ 16384 → sh.count ≤ 32768 →
                          let room := c.copies.length < 64 ∧ c.owned + (destLines dst).length ≤ 16384
                          let lines := gotAll s (destLines dst) fun (t : State) l => t.lineReady c.die w.part l
                          (z = none → ¬ room → exec .copyAccept s = .next (s.presentDoor c.die c.ch none))
                          ∧ (∀ s1, z = none → room → lines = (s1, true) →
                              exec .copyAccept s = .next (s1.putCopy c d w src dst none))
                          ∧ ∀ b, z = some b →
                              (∀ r, s.barrierInvalid w.part b = some r →
                                exec .copyAccept s = .next ((s.logEngine c w .write r).refuseDoor c d 6))
                              ∧ (s.barrierInvalid w.part b = none →
                                  (2 ^ 24 - 1 < tbSectors (s.peekNat b.1.key 16) + src.length →
                                    exec .copyAccept s = .next (s.refuseDoor c d 0x0B))
                                  ∧ (tbSectors (s.peekNat b.1.key 16) + src.length ≤ 2 ^ 24 - 1 →
                                      (¬ room → exec .copyAccept s = .next (s.presentDoor c.die c.ch none))
                                      ∧ ∀ s1 s2, room → lines = (s1, true) →
                                          s1.chanBarrierReady w.part (s1.chanRequester c.die c.ch w.seq) b.1 = (s2, true) →
                                          b.1.qsp = false →
                                          exec .copyAccept s = .next (s2.putCopy c d w src dst (some b.1))))))))))
    ∧ (∀ k x xs s1, s.call = .land die ch k → c.copies = x :: xs → x.lands = [] →
        (match x.barrier with
          | some b => s.chanBarrierReady x.part (s.chanRequester die ch x.seq) b
          | none => (s, true)) = (s1, true) →
        let r := s1.landSectors die ch x k x.sectors x.moves
        let s2 := if r.lost = true ∧ x.lost = false then r.state.reportLost die ch x else r.state
        let y : Copy := { x with sectors := r.sectors, moves := r.moves.map s2.turnMove, lost := x.lost || r.lost }
        let ends := fun (t : State) (y : Copy) => exec .land s = .next ((t.nextMoves die ch y).releaseDests die x r.sectors)
        (x.barrier = none ∨ r.count = 0 → ends s2 y)
        ∧ ∀ b, x.barrier = some b → r.count ≠ 0 →
            (b.qsp = false → ends (s2.landBarrier die ch x b r.count) y)
            ∧ (b.qsp = true → ends s2 { y with lands := [(s2.now, r.count)] }))
    ∧ (∀ x src dst s1, isQspKey src = false → isQspKey dst = false → s.keyDown src = false → s.sourceFree c (lineKey src) = true →
        s.beyondModule x.part src 64 = false →
        s.permitted (homeDie s.pod (lineKey src)) x.part (lineKey src) false = (s1, true) →
        let s2 := s1.chargeFetch x.part src
        s.landSectors die ch x 1 [(src, dst)] []
          = { state := s2.writeDest die ch x dst (s.peek src 64) (s.poisonMask x.part src 64), sectors := [], moves := [],
              count := 1, lost := s2.destLost x dst })
    ∧ (∀ x b k,
        (s.barrierPoison x.part b = true →
          s.landBarrier die ch x b k = (s.lateError x.seq x.wid 16 6 b.va).barrierChanged b.key)
        ∧ (s.barrierPoison x.part b = false → s.landBarrier die ch x b k
            = (s.chanBarrierWrite x.part (s.chanRequester die ch x.seq) b (tbLand (s.peekNat b.key 16) k)).1.barrierChanged b.key))
    ∧ (∀ bits, s.call = .chstatClear die ch bits →
        ∃ e, exec .chstatClear s = .next (s.setChan { c with lastErr := e })
          ∧ ∀ j, e.testBit j = (c.lastErr.testBit j && !bits.testBit j))

/-- R186, R317 to R319, R322, R324: at a pass boundary a quad's engine grants an entry, whose pass presents its segments; a pass
waits for its banks; its end stores the accumulator it computed from what they gave, with one step less to go, and the entry
leaves with its last step; a pass that fails, as one that read poison, ends its entry with a late error. TRAPADDR of a pass that
reads poison is the first poisoned word in the order of serving, and MLOAD's priority is the model's (log 34); poison comes
before malformed metadata (log 35). -/
def Sys2Proof.Claims.CruciblePasses : Prop :=
  ∀ (s : State) (quad : Nat),
    let e := s.engine quad
    (∀ x w a again, s.call = .engineGrant quad → e.running = false →
      Engine.choose { e with entries := e.entries.filter fun y => !s.entryStopped y } s.now = some (x, again) →
      s.wave? x.seq x.wid = some w → w.accs[x.acc]? = some a →
      exec .engineGrant s = .next (s.setEngine
        { e with
          entries := e.entries.map fun y =>
            if y.id = x.id then { y with granted := true, lastGrant := s.now } else { y with granted := false },
          running := true, stepsRun := if again then e.stepsRun else 0, segs := passSegs (s.windowOf w).1 x a,
          since := s.now + 1, got := [] }))
    ∧ (∀ x w a, s.call = .passComplete quad → e.running = true → e.entries.find? EngEntry.granted = some x →
        s.wave? x.seq x.wid = some w → w.accs[x.acc]? = some a →
        let s0 := s.charge w.part 0x010 1
        let key0 := (s.windowOf w).1
        let failed := fun (cause sub : Nat) (addr : Int) (b : AccSlot) =>
          exec .passComplete s = .next (((s0.setEngine
            { e with
              running := false, stepsRun := e.stepsRun + 1, segs := [], got := [],
              entries := e.entries.filter fun y => !y.granted }).setWave
                ((s0.again w).setAcc x.acc b)).lateError w.seq w.wid cause sub (wrap addr 64))
        (e.segs ≠ [] → exec .passComplete s = .next s)
        ∧ (∀ b n, e.segs = [] → e.got.findSome? SegData.bad = none → passOf (gotMemory e.got) key0 s.free x a = .done b n →
          exec .passComplete s = .next ((State.setEngine { s0 with free := s0.free + n }
            { e with
              running := false, stepsRun := e.stepsRun + 1, segs := [], got := [],
              entries := e.entries.filterMap fun y =>
                if y.granted = false then some y else if y.remaining ≤ 1 then none
                else some { y with remaining := y.remaining - 1, nextStep := y.nextStep + 1 } }).setWave
                  ((s0.again w).setAcc x.acc b)))
        ∧ (∀ cause sub addr b, e.segs = [] → e.got.findSome? SegData.bad = none →
            passOf (gotMemory e.got) key0 s.free x a = .late cause sub addr b → failed cause sub addr b)
        ∧ ∀ k, e.segs = [] → e.got.findSome? SegData.bad = some k →
            failed 6 0 ((k - key0 : Nat) : Int) { a with poison := true, faulted := true })

/-- R327, R357: an addition that was charged to counters of a partition wraps modulo 2^48; a wrap sets OVF, and posts the
counter's overflow event when OVF was 0 and IE is 1. Other counters, other partitions and memory are as they were; without such
a charge nothing is added. When an addition is charged and made, and that a COUNTER_ADD makes it, is the model's reading (log
43, DEDUCED). -/
def Sys2Proof.Claims.CounterAdditions : Prop :=
  ∀ (s : State) (p mask n : Nat) (x : Part), s.part? p = some x → s.call = .counterAdd p mask n →
    ((∀ c ∈ s.charges, ¬ (c.part = p ∧ c.mask = mask ∧ c.n = n)) → exec .counterAdd s = .next s)
    ∧ ((∃ c ∈ s.charges, c.part = p ∧ c.mask = mask ∧ c.n = n) →
      ∃ t y, exec .counterAdd s = .next t ∧ t.part? p = some y ∧ t.mem = s.mem ∧ t.waves = s.waves
        ∧ t.charges.length + 1 = s.charges.length
        ∧ (∀ q, q ≠ p → t.part? q = s.part? q)
        ∧ (∀ i c, x.counters[i]? = some c → y.counters[i]? = some (if mask.testBit i = true
            then { c with value := (c.value + n) % 2 ^ 48, ovf := c.ovf || decide (2 ^ 48 ≤ c.value + n) } else c))
        ∧ ((∀ i c, x.counters[i]? = some c → mask.testBit i = true → c.ie = true → c.ovf = false → c.value + n < 2 ^ 48) →
            y.events = x.events)
        ∧ (∀ i c, x.events = [] → x.counters[i]? = some c → mask = 2 ^ i → c.ie = true → c.ovf = false →
            2 ^ 48 ≤ c.value + n → y.events = [{ type := 7, seq := 0, cyc := s.now, body := natToBytes 4 i }]))

/-- Crucible grants and passes, and additions to counters: CruciblePasses, CounterAdditions. -/
def Obligations.PassesAndCounterAdditions : Prop := Sys2Proof.Claims.CruciblePasses ∧ Sys2Proof.Claims.CounterAdditions

/-- R124, R346, R356, R357: what the host does to the machine. A CXL.mem read of a bound device answers with the bytes of its
transfers, and a write performs them in order; an unbound device does nothing. A register write changes its register, once
aligned; a doorbell sets the tail, and Skolis takes the commands placed; the oldest event is written to the host queue. That an
unbound device does nothing and that transfers are of 64 bytes in ascending order are the model's readings (log 25, DEDUCED). -/
def Obligations.HostAccesses : Prop :=
  ∀ (s : State),
    (∀ ld addr len, s.call = .hostMemRead ld addr len →
      (s.ldPart ld = none → exec .hostMemRead s = .next s)
      ∧ ∀ p s1 s2 bs m, s.ldPart ld = some p → s.hostReach p ld .read (transfers addr len) = (s1, true) →
          s1.hostReadAll p ld 0 (transfers addr len) = (s2, some (bs, m)) →
          exec .hostMemRead s = .next { s2 with hostAnswer := bs, hostPoison := m })
    ∧ (∀ ld addr data, s.call = .hostMemWrite ld addr data →
        (s.ldPart ld = none → exec .hostMemWrite s = .next s)
        ∧ ∀ p, s.ldPart ld = some p →
            exec .hostMemWrite s = .next (s.hostWriteAll p ld addr data (transfers addr data.length)))
    ∧ (∀ p ld addr t ts data s1, s.hostWriteOne p ld t.1 ((data.drop (t.1 - addr)).take t.2) = (s1, true) →
        s.hostWriteAll p ld addr data (t :: ts) = s1.hostWriteAll p ld addr data ts)
    ∧ (∀ space off size val, s.call = .registerWrite space off size val →
        (off % size ≠ 0 → exec .registerWrite s = .next s)
        ∧ (off % size = 0 →
            (∀ p x ld, space = .page p → s.part? p = some x → s.skolisUp = true → x.ld = some ld → s.ldBound ld = true →
              exec .registerWrite s = .next (s.pageWrite x off size val))
            ∧ (∀ m, space = .mailbox m → s.mailboxOpen m = true →
                exec .registerWrite s = .next ((s.setMbox ((s.mbox m).write off size val)).takeCmds m))
            ∧ (∀ m, space = .mailbox m → s.mailboxOpen m = false → exec .registerWrite s = .next s)))
    ∧ (∀ m tail, s.call = .mailboxDoorbell m tail → s.mailboxOpen m = true →
        exec .mailboxDoorbell s = .next ((s.setMbox { s.mbox m with tail := tail }).takeCmds m))
    ∧ (∀ n p e rest base, s.call = .hostQueuePost n → s.part? n = some p → s.postParked p = s → p.events = e :: rest →
        p.hqBase = some base → ringUsed (s.mbox p.mbx).hqTail (s.mbox p.mbx).hqHead < 256 →
        let m := s.mbox p.mbx
        let s1 := ((s.poke (hostKey (base + 64 * (m.hqTail % 256))) (e.bytes n)).setPart { p with events := rest }).setMbox
          { m with hqTail := (m.hqTail + 1) % 2 ^ 32 }
        exec .hostQueuePost s = .next { s1 with msix := s1.msix ++ [(p.mbx, 1)] })

/-- R352, R359, R360, R345: reset release measures the ROM and runs it, keeping what is not on the package; the stages follow
one another, each measured before it is entered, and a failure keeps the one before and is reported; throttling; a thermal trip
shuts the package down and is remembered. The model's choices: the package's memory reads 0 after reset (log 5), the features
offered at and without stage 3 and what a failed stage leaves (log 26), and the pod found at stage 3 (log 24). -/
def Sys2Proof.Claims.StagedStart : Prop :=
  ∀ (s : State),
    (s.call = .resetRelease →
      ∃ t, exec .resetRelease s = .next t ∧ t.dev.running = true ∧ t.dev.stage = 0 ∧ t.dev.failing = 0
        ∧ t.dev.tripped = s.dev.tripped ∧ t.waves = [] ∧ t.parts = []
        ∧ (s.Inv → ∀ k, t.byteAt k = if isModuleKey k = true ∨ hostKey 0 ≤ k then s.byteAt k else 0))
    ∧ (∀ die, s.skolisUp = true → s.dev.failing = 0 → s.call = .stageAdvance true die →
        (s.dev.stage = 0 → exec .stageAdvance s = .next { s with dev := { s.dev with stage := 1 } })
        ∧ (s.dev.stage = 1 → ∃ t, exec .stageAdvance s = .next t ∧ t.dev.stage = 2 ∧ t.dev.failing = 0
            ∧ t.mem = s.mem ∧ t.dev.measures.length = s.dev.measures.length
            ∧ ∀ q, q < Config.quads → Config.harvested q = true → q ∈ t.dev.retired)
        ∧ (s.dev.stage = 2 → ∃ t, exec .stageAdvance s = .next t ∧ t.mem = s.mem
            ∧ (if podCabled Config.podOrder Config.podSelf = true
               then t.dev.stage = 3 ∧ t.dev.failing = 0 ∧ t.dev.offered = 0xFF ∧ t.pod.order = some Config.podOrder
                ∧ t.pod.self = Config.podSelf
               else t.dev.stage = 2 ∧ t.dev.failing = 3 ∧ t.dev.failDie = die ∧ t.dev.offered = 0xFC)))
    ∧ (∀ die, s.skolisUp = true → s.dev.failing = 0 → s.call = .stageAdvance false die → s.dev.stage ≤ 2 →
        ∃ t, exec .stageAdvance s = .next t ∧ t.dev.stage = s.dev.stage ∧ t.dev.failing = s.dev.stage + 1
          ∧ t.dev.failDie = die ∧ (s.dev.stage = 2 → t.dev.offered = 0xFC) ∧ t.mem = s.mem)
    ∧ (∀ die steps, s.call = .thermalThrottle die steps →
        exec .thermalThrottle s = .next { s with dev := { s.dev with throttle := s.dev.throttle.set die steps } })
    ∧ (s.call = .thermalShutdown → exec .thermalShutdown s = .next { s with dev := { s.dev with off := true, tripped := true } })

/-- R347, R389: the fabric manager's commands. Each is answered while the host link is up; binding, unbinding and quality of
service change their logical device alone, and allocations those from the start given. The layout of the answers,
SET_LD_ALLOCATIONS of the host port, and the device's cache at UNBIND_VPPB are the model's choices (log 15). -/
def Sys2Proof.Claims.FabricManagerCommands : Prop :=
  ∀ (s : State), s.skolisUp = true →
    let head := fun n => (List.range (Config.fabricLength n)).map (Config.fabricByte n)
    let onLd := fun (ld : Nat) (f : LogDev → LogDev) => mapWhere s.lds (fun l => l.num = ld) f
    (s.call = .getLdInfo → exec .getLdInfo s = .next { s with fabricAnswer := head 0 })
    ∧ (∀ start count, s.call = .getLdAllocations start count → exec .getLdAllocations s = .next { s with
        fabricAnswer := head 1 ++ ((s.lds.drop start).take count).flatMap fun l => natToBytes 8 l.allocation })
    ∧ (∀ start sizes, s.call = .setLdAllocations 8 start sizes → s.pod.atts.length ≤ 8 →
        ∃ t, exec .setLdAllocations s = .next t ∧ t = { s with lds := t.lds, fabricAnswer := head 2 }
          ∧ ∀ i, t.lds[i]? = (s.lds[i]?).map fun l =>
              if start ≤ i then { l with allocation := sizes.getD (i - start) l.allocation } else l)
    ∧ (∀ att a start sizes, s.call = .setLdAllocations att start sizes → s.pod.atts[att]? = some a →
        ∃ t b, exec .setLdAllocations s = .next t ∧ t.pod.atts[att]? = some b ∧ b.readCap = a.readCap ∧ t.lds = s.lds
          ∧ ∀ i v, a.fabricCap[i]? = some v → b.fabricCap[i]? = some
              (if start ≤ i ∧ i - start < sizes.length then min (2 ^ 42) (sizes.getD (i - start) 0) else v))
    ∧ (s.call = .getQosControl → exec .getQosControl s
        = .next { s with fabricAnswer := head 3 ++ s.lds.map fun l => BitVec.ofNat 8 l.qos })
    ∧ (∀ ld v, s.call = .setQosControl ld v → exec .setQosControl s
        = .next { s with lds := onLd ld fun l => { l with qos := v }, fabricAnswer := head 4 })
    ∧ (s.call = .getQosStatus → exec .getQosStatus s = .next { s with fabricAnswer := head 5 })
    ∧ (∀ ld, s.call = .bindVppb ld → exec .bindVppb s = .next { s with lds := onLd ld fun l => { l with bound := true } })
    ∧ (∀ ld, s.call = .unbindVppb ld → exec .unbindVppb s
        = .next { s with lds := onLd ld fun l => { l with bound := false, cacheEnabled := false } })

/-- Reset release, staged start, power, and the fabric manager's commands: StagedStart, FabricManagerCommands. -/
def Obligations.StartAndFabricManager : Prop := Sys2Proof.Claims.StagedStart ∧ Sys2Proof.Claims.FabricManagerCommands

/-- R354, R355, R358, R353, R359: every command is turned away by a package whose Skolis does not run (nothing happens), by a
sender without the administrative right (DENIED), and before its stage (STATE); then identity, attestation and features act. The
model's choices: DENIED before STATE (log 27), the layout of the ATTEST report and of identity (log 13), and FEATSET and FEATGET
once stage 3 has failed (log 26). -/
def Obligations.DeviceCommands : Prop :=
  ∀ (s : State) (c : Cmd),
    (∀ h stage f,
      (s.skolisUp = false → devCmd s c h stage f = .next s)
      ∧ (s.skolisUp = true → h = true → s.mayAdmin c.mbx = false → devCmd s c h stage f = s.refusedCmd c .denied)
      ∧ (s.skolisUp = true → (h = true → s.mayAdmin c.mbx = true) → s.dev.stage < stage →
          devCmd s c h stage f = s.refusedCmd c .state)
      ∧ (∀ st, s.acts c h stage → f s = .error st → devCmd s c h stage f = s.refusedCmd c st)
      ∧ ∀ t rs, s.acts c h stage → f s = .ok (t, rs) → devCmd s c h stage f = t.didCmd c rs)
    ∧ (∀ h f p, s.cmdPart h c = some p → s.midSwitch p.num = true → s.skolisUp = true →
        partCmd s c h f = .next { s with agenda := s.call :: s.agenda })
    ∧ (∀ buf len, s.call = .ident c buf len → s.acts c false 0 →
        exec .ident s = (s.poke (hostKey buf)
            (((List.range (min len Config.identLength)).map (Config.identByte s.dev.tripped)).take len)).didCmd c
          (natToBytes 4 Config.identLength ++ natToBytes 1 s.dev.stage ++ natToBytes 1 s.dev.failing ++ natToBytes 1 s.dev.failDie))
    ∧ (∀ buf len mask nonce, s.call = .attest c buf len mask nonce → s.acts c false 1 →
        let s1 : State := { s with free := s.free + 1 }
        let body := s.report mask nonce ++ (List.range Config.signatureLength).map (Config.signatureByte s.free)
        exec .attest s = (s1.poke (hostKey buf) (body.take len)).didCmd c (natToBytes 4 body.length))
    ∧ (∀ idx, s.call = .featget c idx → s.acts c false 0 → (3 ≤ s.dev.stage ∨ s.dev.failing = 3) →
        exec .featget s = (if idx ≤ 3 then s.didCmd c (natToBytes 8 (if idx = 0 then s.dev.offered.toNat else 0))
          else s.refusedCmd c .badarg))
    ∧ (∀ w0, s.call = .featset c w0 0 0 0 → s.acts c false 0 → (3 ≤ s.dev.stage ∨ s.dev.failing = 3) →
        (s.dev.committed = true → exec .featset s = s.refusedCmd c .state)
        ∧ (s.dev.committed = false →
            (BitVec.ofNat 64 w0 &&& ~~~s.dev.offered ≠ 0 → exec .featset s = s.refusedCmd c .badarg)
            ∧ (BitVec.ofNat 64 w0 &&& ~~~s.dev.offered = 0 →
                exec .featset s = (State.measure { s with dev := { s.dev with
                  accepted := BitVec.ofNat 64 w0, committed := true, stage := 4 } } 4 w0).didCmd c [])))

/-- R344, R345, R358, R63, R65, R22, R187, R348: partitions. PARTCREATE gives the lowest free number, and refuses slices that
partly overlap a set, a logical device in use, and what does not fit; PARTSET sets the one item it names, in its range;
PARTDESTROY ends the partition once its operations have completed. That PARTDESTROY waits in its place and then frees everything
is the model's reading (log 38, DEDUCED), and how PARTSET deals the ways is its choice (log 7). -/
def Obligations.PartitionCommands : Prop :=
  ∀ (s : State) (c : Cmd),
    (∀ slices ld asids quantum n, s.call = .partcreate c slices ld asids quantum → s.acts c true 4 →
      s.createOk slices ld asids quantum = true →
      (s.partlyOverlaps slices = true → exec .partcreate s = s.refusedCmd c .badarg)
      ∧ (s.partlyOverlaps slices = false → (ld ≠ 0xFF ∧ (∃ p ∈ s.parts, p.ld = some ld)) →
          exec .partcreate s = s.refusedCmd c .state)
      ∧ (s.partlyOverlaps slices = false → (ld = 0xFF ∨ ∀ p ∈ s.parts, p.ld ≠ some ld) →
          n < 16 → s.part? n = none → (∀ m, m < n → s.part? m ≠ none) →
          (16384 < s.asidsGranted + asids → exec .partcreate s = s.refusedCmd c .nores)
          ∧ (s.asidsGranted + asids ≤ 16384 → (∀ g ∈ s.sets, g.slices = slices → g.members.length < 16) →
              exec .partcreate s = (s.createPart n slices ld asids quantum).didCmd c (natToBytes 1 n))))
    ∧ (∀ p s1, s.call = .partdestroy c → s.actsOn c true p → (s.killWaves p.num).partIdle p.num = true →
        gotAll (s.killWaves p.num) ((s.killWaves p.num).quadsOf p.num) (fun (t : State) q => t.acquireQuad q) = (s1, true) →
        exec .partdestroy s = (s1.destroyPart p).didCmd c [])
    ∧ (∀ p v, s.actsOn c true p →
        (s.call = .partsetHoldPolicy c v →
          exec .partsetHoldPolicy s = if v < 2 then (s.setPart { p with holdDrop := decide (v = 1) }).didCmd c []
            else s.refusedCmd c .badarg)
        ∧ (s.call = .partsetWatchdog c v →
          exec .partsetWatchdog s = if v = 0 ∨ 2 ^ 16 ≤ v ∧ v ≤ 2 ^ 40 then (s.setPart { p with watchdog := v }).didCmd c []
            else s.refusedCmd c .badarg)
        ∧ (s.call = .partsetQuantum c v →
          exec .partsetQuantum s = if 16 ≤ v ∧ v ≤ 32 then (s.setPart { p with quantum := 2 ^ v }).didCmd c []
            else s.refusedCmd c .badarg))
    ∧ (∀ p die floor ceil, s.actsOn c true p → s.call = .partsetWays c die floor ceil → die < 8 → floor ≤ ceil → ceil ≤ 16 →
        s.otherFloors p.num die + floor ≤ 16 →
        exec .partsetWays s = (State.allotWays (s.setPart { p with
          ways := (p.ways.filter fun w => w.die ≠ die) ++ [{ die := die, floor := floor, ceil := ceil }] })).didCmd c [])
    ∧ (∀ p stack quota, s.actsOn c true p → s.call = .partsetQuota c stack quota →
        exec .partsetQuota s = if stack < 8 ∧ quota ≤ 256 then (s.setPart { p with quotas := p.quotas.set stack quota }).didCmd c []
          else s.refusedCmd c .badarg)
    ∧ (∀ p idx base len, s.actsOn c true p → s.call = .partsetGrant c idx base len →
        (32 ≤ idx → exec .partsetGrant s = s.refusedCmd c .badarg)
        ∧ (idx < 32 →
            let q : Part := { p with
              ranges := if len = 0 then p.ranges.filter (fun r => r.1 ≠ idx) else insertRange (idx, base, len) p.ranges }
            exec .partsetGrant s = (((s.setPart q).dropEntries
              (fun e => e.part = p.num && !q.granted e.frame (e.pages * 4096)) fun _ => false).touched p.num).didCmd c []))

/-- R168 to R171, R337, R338, R38, R90, R31, R32, R34, R70, R357, R358: LAUNCH starts all of its waves at once or none; a switch
starts when it may; REPLAY and FATAL answer the fault of their tag; the error ring, the stacks' counts and the host queue; a
grant takes the lowest free index, and a revocation ends when nothing it let through remains. LAUNCH's BADARG and NORES and the
coherent value of its record are the model's readings (log 38), as are REPLAY and FATAL of a stream (log 29). -/
def Obligations.RunningCommands : Prop :=
  ∀ (s : State) (c : Cmd) (p : Part),
    (∀ pa key, s.actsOn c false p → s.call = .launch c pa → keyOfPa s.pod pa = some key →
      let r := LaunchRec.ofNat (s.peekNat key 192)
      (p.granted pa 192 = false ∨ r.ok p = false → exec .launch s = s.refusedCmd c .badarg)
      ∧ (p.granted pa 192 = true → r.ok p = true → s.launchQuads p r.slices ≠ [] →
          (s.startLaunch p r = none → exec .launch s = s.refusedCmd c .nores)
          ∧ ∀ t, s.startLaunch p r = some t → exec .launch s = t.didCmd c (natToBytes 4 s.nextSeq)))
    ∧ (∀ out inn slices a b g, s.acts c true 4 → s.call = .wswitch c out inn slices a b → s.midSwitch out = false →
        s.midSwitch inn = false → s.part? out = some p → s.setOf out = some g →
        (∀ st, s.switchRefusal p inn slices a b = some st → exec .wswitch s = s.refusedCmd c st)
        ∧ (s.switchRefusal p inn slices a b = none → exec .wswitch s = .next (s.startSwitch
            { set := g.num, out := out, inn := if inn = 0xFF then none else some inn, saveOut := a, saveIn := b,
              cmd := some c })))
    ∧ (∀ tag, s.actsOn c false p →
        (s.faultWave p.num tag = none → s.faultStream p.num tag = none →
          (s.call = .replay c tag → exec .replay s = s.refusedCmd c .notfound)
          ∧ (s.call = .fatal c tag → exec .fatal s = s.refusedCmd c .notfound))
        ∧ (∀ w, s.faultWave p.num tag = some w →
            (s.call = .replay c tag → exec .replay s = (s.answerWave w tag 1).didCmd c [])
            ∧ (s.call = .fatal c tag → exec .fatal s = (s.answerWave w tag 2).didCmd c []))
        ∧ (∀ x, s.faultWave p.num tag = none → s.faultStream p.num tag = some x →
            (s.call = .replay c tag → exec .replay s = (s.replayStream x).didCmd c [])
            ∧ (s.call = .fatal c tag → exec .fatal s = (s.fatalStream x).didCmd c [])))
    ∧ (∀ base n, s.actsOn c false p →
        (s.call = .errlogSetRing c base n → exec .errlogSetRing s = if n ≤ 16
          then (s.setPart { p with elBase := some base, elLog2 := n }).didCmd c (natToBytes 4 p.dropped)
          else s.refusedCmd c .badarg)
        ∧ (s.call = .hqset c base → exec .hqset s = (s.setPart { p with hqBase := some base }).didCmd c []))
    ∧ (∀ d l, s.acts c false 2 → s.links[d]? = some l →
        (s.call = .errlogReadRas c d → exec .errlogReadRas s = s.didCmd c
          (natToBytes 8 (l.retrainCount % 2 ^ 8 * 2 ^ 40 + l.replayCount % 2 ^ 32 * 2 ^ 8 + (if l.down then 1 else 0))
            ++ natToBytes 8 (l.corr % 2 ^ 32 * 2 ^ 32 + l.uncorr % 2 ^ 24 * 2 ^ 8) ++ natToBytes 8 (l.addr / 32 * 32 % 2 ^ 52)))
        ∧ (s.call = .errlogClearRas c d → d < 8 →
            let l0 : StackLink := { l with retrainCount := 0, replayCount := 0, corr := 0, uncorr := 0 }
            exec .errlogClearRas s = State.didCmd { s with links := s.links.set d l0 } c []))
    ∧ (∀ asid rights base len peers i, s.actsOn c false p → s.call = .regreg c asid rights base len peers →
        (s.feature 0 = false → exec .regreg s = s.refusedCmd c .nofeat)
        ∧ (s.feature 0 = true → asid < p.asidCount → rights < 8 → base % 4096 = 0 → len % 4096 = 0 → base + len ≤ 2 ^ 64 →
            (p.freeGrant = none → exec .regreg s = s.refusedCmd c .nores)
            ∧ (p.freeGrant = some i → exec .regreg s = (s.setPart { p with grants := p.grants ++
                [{ idx := i, asid := asid, base := base, len := len, rights := rights, peers := peers, revoked := false,
                   revoker := none }] }).didCmd c (natToBytes 4 i))))
    ∧ (∀ i, s.skolisUp = true → s.cmdPart false c = some p → s.midSwitch p.num = false → s.feature 0 = true →
        s.call = .regrevoke c i →
        ((∀ g ∈ p.grants, g.idx = i → g.revoked = true) → exec .regrevoke s = s.refusedCmd c .notfound)
        ∧ ((∃ g ∈ p.grants, g.idx = i ∧ g.revoked = false) → exec .regrevoke s = .next (s.setPart
            { p with grants := mapWhere p.grants (fun g => g.idx = i && !g.revoked) fun g =>
                { g with revoked := true, revoker := some c } })))
    ∧ (∀ i g, s.call = .revokeComplete p.num i → s.part? p.num = some p →
        p.grants.find? (fun g => g.idx = i && g.revoked && g.revoker.isSome) = some g → s.grantBusy p.num g = false →
        let s1 := s.setPart { p with grants := mapWhere p.grants (fun x => x = g) fun x => { x with revoker := none } }
        exec .revokeComplete s = match g.revoker with | some c => s1.didCmd c [] | none => .next s1)

/-- R349, R351: gates made, frozen, exported, imported, thawed and destroyed, each from the state it needs; a handle that names
no live gate is NOTFOUND; freezing ends every sleeping take with 2, and destroying wakes them to find no gate. The model's
choices: BADARG for BURST 0 (log 27), and the states that export, import, thaw and destroy need and leave (log 30). -/
def Sys2Proof.Claims.GateCommands : Prop :=
  ∀ (s : State) (c : Cmd), s.acts c true 4 →
    (∀ acl burst rate, s.call = .gatecreate c acl burst rate →
      (s.feature 4 = false → exec .gatecreate s = s.refusedCmd c .nofeat)
      ∧ (s.feature 4 = true →
          (aclOk acl = false ∨ burst = 0 → exec .gatecreate s = s.refusedCmd c .badarg)
          ∧ (aclOk acl = true → 1 ≤ burst →
              (s.freeGate = none → exec .gatecreate s = s.refusedCmd c .nores)
              ∧ ∀ i, s.freeGate = some i → exec .gatecreate s = (s.setGate
                  { index := i, used := true, gen := s.gateGen i, counter := 0, state := .live, acl := BitVec.ofNat 32 acl,
                    burst := burst, rate := rate, tokens := burst, lastFill := s.now48 }).didCmd c
                    (natToBytes 4 (s.gateGen i * 2 ^ 16 + i)))))
    ∧ (∀ h, s.feature 4 = true → s.gateOf h = none →
        (s.call = .gatefreeze c h → exec .gatefreeze s = s.refusedCmd c .notfound)
        ∧ (∀ buf, s.call = .gateexport c h buf → exec .gateexport s = s.refusedCmd c .notfound)
        ∧ (s.call = .gatethaw c h → exec .gatethaw s = s.refusedCmd c .notfound)
        ∧ (s.call = .gatedestroy c h → exec .gatedestroy s = s.refusedCmd c .notfound))
    ∧ (∀ h g, s.feature 4 = true → s.gateOf h = some g →
        (s.call = .gatefreeze c h → exec .gatefreeze s = if g.state = .live
          then ((s.setGate { g with state := .frozen }).endTakes h 2).didCmd c [] else s.refusedCmd c .state)
        ∧ (∀ buf, s.call = .gateexport c h buf → exec .gateexport s = if g.state = .frozen
          then ((s.pokeNat (hostKey buf) 64 (s.gateObject g)).setGate { g with state := .exported }).didCmd c []
          else s.refusedCmd c .state)
        ∧ (s.call = .gatethaw c h → exec .gatethaw s = if g.state = .frozen
          then (s.setGate { g with state := .live }).didCmd c [] else s.refusedCmd c .state)
        ∧ (s.call = .gatedestroy c h → exec .gatedestroy s
          = ((s.setGate { g with used := false, gen := nextGen g.gen }).wakeTakes h).didCmd c []))
    ∧ (∀ h buf, s.feature 4 = true → s.call = .gateimport c h buf →
        let x := s.peekNat (hostKey buf) 64
        h % 2 ^ 16 < 4096 → x / 2 ^ 32 % 2 ^ 16 = h / 2 ^ 16 → x / 2 ^ 32 % 2 ^ 16 ≠ 0 →
        (∀ g, s.gateAt (h % 2 ^ 16) = some g → g.used = true → exec .gateimport s = s.refusedCmd c .busy)
        ∧ ((∀ g, s.gateAt (h % 2 ^ 16) = some g → g.used = false) → exec .gateimport s = (s.setGate
            { index := h % 2 ^ 16, used := true, gen := h / 2 ^ 16, counter := x % 2 ^ 32, state := .frozen,
              acl := BitVec.ofNat 32 (x / 2 ^ 304 % 2 ^ 32) &&& 0xEFEFEFEF, burst := x / 2 ^ 288 % 2 ^ 16, rate := x / 2 ^ 272 % 2 ^ 16,
              tokens := x / 2 ^ 256 % 2 ^ 16, lastFill := s.now48 }).didCmd c []))

/-- R104, R105, R92, R94 to R96, R359, R389: the pod is configured at stage 3 and when there is one, and what is configured is
measured; a dead peer's bit is cleared; an attachment that is up goes down, and one that is down is retrained. PODCONFIG's and
PODCTL's STATE and the measurement that PODCONFIG extends are the model's choices (log 27). -/
def Sys2Proof.Claims.PodCommands : Prop :=
  ∀ (s : State) (c : Cmd),
    (s.acts c true 3 →
      let measured := fun (t : State) => State.didCmd (State.measure { t with free := t.free + 1 } 5 t.free) c []
      (s.pod.order = none →
        (∀ g, s.call = .podconfigGroups c g → exec .podconfigGroups s = s.refusedCmd c .state)
        ∧ (s.call = .podconfigRoutes c → exec .podconfigRoutes s = s.refusedCmd c .state))
      ∧ (s.pod.order ≠ none →
          (∀ g, s.call = .podconfigGroups c g → exec .podconfigGroups s
            = measured (s.setGroups ((List.range 16).map fun p => g / 2 ^ (8 * p) % 2 ^ 8)))
          ∧ (∀ n, s.call = .podconfigPrivilege c n → s.midSwitch n = false →
              (n ≠ 0xFF → s.part? n = none → exec .podconfigPrivilege s = s.refusedCmd c .badarg)
              ∧ (n = 0xFF → exec .podconfigPrivilege s = measured { s with pod := { s.pod with privilege := none } })
              ∧ (n ≠ 0xFF → s.part? n ≠ none →
                  exec .podconfigPrivilege s = measured { s with pod := { s.pod with privilege := some n } }))
          ∧ (∀ a b, s.call = .podconfigTimeouts c a b → a < 64 → b < 64 → exec .podconfigTimeouts s
            = measured { s with pod := { s.pod with rlyTimeout := 2 ^ a, modTimeout := 2 ^ b } })
          ∧ (s.call = .podconfigRoutes c → exec .podconfigRoutes s = measured s.readAllCapacities)
          ∧ (s.call = .podconfigCapacities c → exec .podconfigCapacities s = measured s.readAllCapacities)))
    ∧ (∀ p peer, s.actsOn c true p → s.call = .podctlClearDeadpeer c peer →
        (64 ≤ peer → exec .podctlClearDeadpeer s = s.refusedCmd c .badarg)
        ∧ (peer < 64 → ∃ t, exec .podctlClearDeadpeer s = t.didCmd c [] ∧ ∃ q, t = s.setPart q
            ∧ q = { p with dead := q.dead } ∧ q.isDead peer = false ∧ ∀ g, g ≠ peer → q.isDead g = p.isDead g))
    ∧ (∀ att a, s.acts c true 3 → s.pod.atts[att]? = some a →
        (s.call = .podctlDown c att → exec .podctlDown s = if s.pod.attUp att = true
          then (State.attachmentDown { s with pod := { s.pod with
              atts := s.pod.atts.set att { a with portsUp := a.portsUp.map fun _ => false } } } att).didCmd c []
          else s.refusedCmd c .state)
        ∧ (s.call = .podctlRetrain c att → exec .podctlRetrain s = if s.pod.attUp att = false
          then State.didCmd { s with agenda := s.agenda ++ [.attachmentUp att] } c [] else s.refusedCmd c .state))

/-- R342, R343, R384: a debug session opens once and closes what it stopped; it stops, steps and resumes a running wave of its
partition and a core; CTRWRITE writes a whole counter entry, and additions under way to it are void. What a core stop, the end
of a session and the events of a stop do are the model's readings (log 39), as is that CTRWRITE makes void the additions under
way (log 43). -/
def Sys2Proof.Claims.DebugCommands : Prop :=
  ∀ (s : State) (c : Cmd) (p : Part), s.actsOn c false p →
    (s.call = .dbgopenOpen c → exec .dbgopenOpen s = if p.debug then s.refusedCmd c .state
      else (s.setPart { p with debug := true }).didCmd c [])
    ∧ (p.debug = false → s.call = .dbgopenClose c → exec .dbgopenClose s = s.refusedCmd c .state)
    ∧ (∀ seq wid unit, p.debug = false →
        (s.call = .dbgctlStop c seq wid unit → exec .dbgctlStop s = s.refusedCmd c .state)
        ∧ (s.call = .dbgctlResume c seq wid unit → exec .dbgctlResume s = s.refusedCmd c .state)
        ∧ (s.call = .dbgctlStep c seq wid unit → exec .dbgctlStep s = s.refusedCmd c .state))
    ∧ (p.debug = true →
        (s.call = .dbgopenClose c → exec .dbgopenClose s = State.didCmd { s.setPart { p with debug := false, stoppedCores := [] }
            with waves := s.waves.map fun w => if w.part = p.num then { w with dbgStop := false, dbgStep := none } else w } c [])
        ∧ (∀ w unit, s.wave? w.seq w.wid = some w → w.part = p.num → w.status = .running →
            (unit ≠ 0 → unit ≠ 1 → unit ≠ 0xFF →
              (s.call = .dbgctlStop c w.seq w.wid unit → exec .dbgctlStop s = s.refusedCmd c .badarg)
              ∧ (s.call = .dbgctlResume c w.seq w.wid unit → exec .dbgctlResume s = s.refusedCmd c .badarg)
              ∧ (s.call = .dbgctlStep c w.seq w.wid unit → exec .dbgctlStep s = s.refusedCmd c .badarg))
            ∧ (unit = 0 ∨ unit = 1 ∨ unit = 0xFF →
                (s.call = .dbgctlStop c w.seq w.wid unit →
                  exec .dbgctlStop s = (s.setWave { w with dbgStop := true, dbgStep := none }).didCmd c [])
                ∧ (s.call = .dbgctlResume c w.seq w.wid unit → exec .dbgctlResume s
                  = if w.dbgStop = true ∨ w.dbgStep ≠ none
                    then (s.setWave { w with dbgStop := false, dbgStep := none }).didCmd c [] else s.refusedCmd c .state)
                ∧ (s.call = .dbgctlStep c w.seq w.wid unit →
                    (w.dbgStop = false → exec .dbgctlStep s = s.refusedCmd c .state)
                    ∧ (w.dbgStop = true → exec .dbgctlStep s = (s.setWave
                        { w with dbgStop := false,
                                 dbgStep := some (if unit = 0 then some .t else if unit = 1 then some .e else none) }).didCmd c
                                   []))))
        ∧ (∀ core k, s.physCore p core = some k →
            (s.call = .dbgctlCoreStop c core →
              (k ∈ p.stoppedCores → exec .dbgctlCoreStop s = s.refusedCmd c .state)
              ∧ (k ∉ p.stoppedCores → ∃ t, exec .dbgctlCoreStop s = t.didCmd c [] ∧ t.mem = s.mem
                  ∧ (∃ q, t.part? p.num = some q ∧ k ∈ q.stoppedCores)
                  ∧ t = (s.waves.filter fun w => w.part = p.num && w.core = k && w.status = .running && !w.dbgStop).foldl
                      (fun (x : State) w => x.debugStop w 2) (s.setPart { p with stoppedCores := p.stoppedCores ++ [k] })))
            ∧ (s.call = .dbgctlCoreResume c core → k ∈ p.stoppedCores → exec .dbgctlCoreResume s = State.didCmd
                { s.setPart { p with stoppedCores := p.stoppedCores.filter fun x => x ≠ k } with
                  waves := s.waves.map fun w => if w.part = p.num ∧ w.core = k
                    then { w with dbgStop := false, dbgStep := none } else w } c []))
        ∧ (∀ n x, s.call = .ctrwrite c n x →
            (16 ≤ n ∨ 2 ^ 63 ≤ x → exec .ctrwrite s = s.refusedCmd c .badarg)
            ∧ (n < 16 → x < 2 ^ 63 →
                let k : Counter := { value := x % 2 ^ 48, event := x / 2 ^ 48 % 2 ^ 12, en := x.testBit 60, ie := x.testBit 61,
                                     ovf := x.testBit 62 }
                exec .ctrwrite s = (((s.setPart { p with counters := p.counters.setIfInBounds n k }).dropCharges p.num n).touched
                  p.num).didCmd c [])))

/-- Commands on gates, on the pod and of the debugger: GateCommands, PodCommands, DebugCommands. -/
def Obligations.GatePodAndDebugCommands : Prop := Sys2Proof.Claims.GateCommands ∧ Sys2Proof.Claims.PodCommands ∧ Sys2Proof.Claims.DebugCommands
end

