-- ==== Sys2Proof/Laws/State.lean ====
section
/-!
SUPPORT. One lemma for each field of the state, and of a wave, under each named update: what the update leaves as it was.
-/
namespace Sys2Proof.Machine

/-! ## State.setWave -/

@[simp] theorem State.setWave_cyc (s : State) (w : Wave) : (s.setWave w).cyc = s.cyc := rfl
@[simp] theorem State.setWave_free (s : State) (w : Wave) : (s.setWave w).free = s.free := rfl
@[simp] theorem State.setWave_turn (s : State) (w : Wave) : (s.setWave w).turn = s.turn := rfl
@[simp] theorem State.setWave_agenda (s : State) (w : Wave) : (s.setWave w).agenda = s.agenda := rfl
@[simp] theorem State.setWave_issue (s : State) (w : Wave) : (s.setWave w).issue = s.issue := rfl
@[simp] theorem State.setWave_call (s : State) (w : Wave) : (s.setWave w).call = s.call := rfl
@[simp] theorem State.setWave_dev (s : State) (w : Wave) : (s.setWave w).dev = s.dev := rfl
@[simp] theorem State.setWave_parts (s : State) (w : Wave) : (s.setWave w).parts = s.parts := rfl
@[simp] theorem State.setWave_sets (s : State) (w : Wave) : (s.setWave w).sets = s.sets := rfl
@[simp] theorem State.setWave_switches (s : State) (w : Wave) : (s.setWave w).switches = s.switches := rfl
@[simp] theorem State.setWave_launches (s : State) (w : Wave) : (s.setWave w).launches = s.launches := rfl
@[simp] theorem State.setWave_nextSeq (s : State) (w : Wave) : (s.setWave w).nextSeq = s.nextSeq := rfl
@[simp] theorem State.setWave_nextTag (s : State) (w : Wave) : (s.setWave w).nextTag = s.nextTag := rfl
@[simp] theorem State.setWave_mem (s : State) (w : Wave) : (s.setWave w).mem = s.mem := rfl
@[simp] theorem State.setWave_poison (s : State) (w : Wave) : (s.setWave w).poison = s.poison := rfl
@[simp] theorem State.setWave_stale (s : State) (w : Wave) : (s.setWave w).stale = s.stale := rfl
@[simp] theorem State.setWave_l1 (s : State) (w : Wave) : (s.setWave w).l1 = s.l1 := rfl
@[simp] theorem State.setWave_wq (s : State) (w : Wave) : (s.setWave w).wq = s.wq := rfl
@[simp] theorem State.setWave_l2 (s : State) (w : Wave) : (s.setWave w).l2 = s.l2 := rfl
@[simp] theorem State.setWave_fills (s : State) (w : Wave) : (s.setWave w).fills = s.fills := rfl
@[simp] theorem State.setWave_ways (s : State) (w : Wave) : (s.setWave w).ways = s.ways := rfl
@[simp] theorem State.setWave_perms (s : State) (w : Wave) : (s.setWave w).perms = s.perms := rfl
@[simp] theorem State.setWave_memReqs (s : State) (w : Wave) : (s.setWave w).memReqs = s.memReqs := rfl
@[simp] theorem State.setWave_snoops (s : State) (w : Wave) : (s.setWave w).snoops = s.snoops := rfl
@[simp] theorem State.setWave_snoopAnswers (s : State) (w : Wave) : (s.setWave w).snoopAnswers = s.snoopAnswers := rfl
@[simp] theorem State.setWave_tlb (s : State) (w : Wave) : (s.setWave w).tlb = s.tlb := rfl
@[simp] theorem State.setWave_walkCache (s : State) (w : Wave) : (s.setWave w).walkCache = s.walkCache := rfl
@[simp] theorem State.setWave_walks (s : State) (w : Wave) : (s.setWave w).walks = s.walks := rfl
@[simp] theorem State.setWave_icache (s : State) (w : Wave) : (s.setWave w).icache = s.icache := rfl
@[simp] theorem State.setWave_atomQ (s : State) (w : Wave) : (s.setWave w).atomQ = s.atomQ := rfl
@[simp] theorem State.setWave_rows (s : State) (w : Wave) : (s.setWave w).rows = s.rows := rfl
@[simp] theorem State.setWave_links (s : State) (w : Wave) : (s.setWave w).links = s.links := rfl
@[simp] theorem State.setWave_charges (s : State) (w : Wave) : (s.setWave w).charges = s.charges := rfl
@[simp] theorem State.setWave_softErrors (s : State) (w : Wave) : (s.setWave w).softErrors = s.softErrors := rfl
@[simp] theorem State.setWave_engines (s : State) (w : Wave) : (s.setWave w).engines = s.engines := rfl
@[simp] theorem State.setWave_chans (s : State) (w : Wave) : (s.setWave w).chans = s.chans := rfl
@[simp] theorem State.setWave_bars (s : State) (w : Wave) : (s.setWave w).bars = s.bars := rfl
@[simp] theorem State.setWave_gates (s : State) (w : Wave) : (s.setWave w).gates = s.gates := rfl
@[simp] theorem State.setWave_pod (s : State) (w : Wave) : (s.setWave w).pod = s.pod := rfl
@[simp] theorem State.setWave_rounds (s : State) (w : Wave) : (s.setWave w).rounds = s.rounds := rfl
@[simp] theorem State.setWave_holders (s : State) (w : Wave) : (s.setWave w).holders = s.holders := rfl
@[simp] theorem State.setWave_lostHeads (s : State) (w : Wave) : (s.setWave w).lostHeads = s.lostHeads := rfl
@[simp] theorem State.setWave_runner (s : State) (w : Wave) : (s.setWave w).runner = s.runner := rfl
@[simp] theorem State.setWave_mboxes (s : State) (w : Wave) : (s.setWave w).mboxes = s.mboxes := rfl
@[simp] theorem State.setWave_lds (s : State) (w : Wave) : (s.setWave w).lds = s.lds := rfl
@[simp] theorem State.setWave_fabricAnswer (s : State) (w : Wave) : (s.setWave w).fabricAnswer = s.fabricAnswer := rfl
@[simp] theorem State.setWave_hostAnswer (s : State) (w : Wave) : (s.setWave w).hostAnswer = s.hostAnswer := rfl
@[simp] theorem State.setWave_hostPoison (s : State) (w : Wave) : (s.setWave w).hostPoison = s.hostPoison := rfl
@[simp] theorem State.setWave_msix (s : State) (w : Wave) : (s.setWave w).msix = s.msix := rfl

/-! ## State.setPart -/

@[simp] theorem State.setPart_cyc (s : State) (p : Part) : (s.setPart p).cyc = s.cyc := rfl
@[simp] theorem State.setPart_free (s : State) (p : Part) : (s.setPart p).free = s.free := rfl
@[simp] theorem State.setPart_turn (s : State) (p : Part) : (s.setPart p).turn = s.turn := rfl
@[simp] theorem State.setPart_agenda (s : State) (p : Part) : (s.setPart p).agenda = s.agenda := rfl
@[simp] theorem State.setPart_issue (s : State) (p : Part) : (s.setPart p).issue = s.issue := rfl
@[simp] theorem State.setPart_call (s : State) (p : Part) : (s.setPart p).call = s.call := rfl
@[simp] theorem State.setPart_dev (s : State) (p : Part) : (s.setPart p).dev = s.dev := rfl
@[simp] theorem State.setPart_sets (s : State) (p : Part) : (s.setPart p).sets = s.sets := rfl
@[simp] theorem State.setPart_switches (s : State) (p : Part) : (s.setPart p).switches = s.switches := rfl
@[simp] theorem State.setPart_launches (s : State) (p : Part) : (s.setPart p).launches = s.launches := rfl
@[simp] theorem State.setPart_waves (s : State) (p : Part) : (s.setPart p).waves = s.waves := rfl
@[simp] theorem State.setPart_nextSeq (s : State) (p : Part) : (s.setPart p).nextSeq = s.nextSeq := rfl
@[simp] theorem State.setPart_nextTag (s : State) (p : Part) : (s.setPart p).nextTag = s.nextTag := rfl
@[simp] theorem State.setPart_mem (s : State) (p : Part) : (s.setPart p).mem = s.mem := rfl
@[simp] theorem State.setPart_poison (s : State) (p : Part) : (s.setPart p).poison = s.poison := rfl
@[simp] theorem State.setPart_stale (s : State) (p : Part) : (s.setPart p).stale = s.stale := rfl
@[simp] theorem State.setPart_l1 (s : State) (p : Part) : (s.setPart p).l1 = s.l1 := rfl
@[simp] theorem State.setPart_wq (s : State) (p : Part) : (s.setPart p).wq = s.wq := rfl
@[simp] theorem State.setPart_l2 (s : State) (p : Part) : (s.setPart p).l2 = s.l2 := rfl
@[simp] theorem State.setPart_fills (s : State) (p : Part) : (s.setPart p).fills = s.fills := rfl
@[simp] theorem State.setPart_ways (s : State) (p : Part) : (s.setPart p).ways = s.ways := rfl
@[simp] theorem State.setPart_perms (s : State) (p : Part) : (s.setPart p).perms = s.perms := rfl
@[simp] theorem State.setPart_memReqs (s : State) (p : Part) : (s.setPart p).memReqs = s.memReqs := rfl
@[simp] theorem State.setPart_snoops (s : State) (p : Part) : (s.setPart p).snoops = s.snoops := rfl
@[simp] theorem State.setPart_snoopAnswers (s : State) (p : Part) : (s.setPart p).snoopAnswers = s.snoopAnswers := rfl
@[simp] theorem State.setPart_tlb (s : State) (p : Part) : (s.setPart p).tlb = s.tlb := rfl
@[simp] theorem State.setPart_walkCache (s : State) (p : Part) : (s.setPart p).walkCache = s.walkCache := rfl
@[simp] theorem State.setPart_walks (s : State) (p : Part) : (s.setPart p).walks = s.walks := rfl
@[simp] theorem State.setPart_icache (s : State) (p : Part) : (s.setPart p).icache = s.icache := rfl
@[simp] theorem State.setPart_atomQ (s : State) (p : Part) : (s.setPart p).atomQ = s.atomQ := rfl
@[simp] theorem State.setPart_rows (s : State) (p : Part) : (s.setPart p).rows = s.rows := rfl
@[simp] theorem State.setPart_links (s : State) (p : Part) : (s.setPart p).links = s.links := rfl
@[simp] theorem State.setPart_charges (s : State) (p : Part) : (s.setPart p).charges = s.charges := rfl
@[simp] theorem State.setPart_softErrors (s : State) (p : Part) : (s.setPart p).softErrors = s.softErrors := rfl
@[simp] theorem State.setPart_engines (s : State) (p : Part) : (s.setPart p).engines = s.engines := rfl
@[simp] theorem State.setPart_chans (s : State) (p : Part) : (s.setPart p).chans = s.chans := rfl
@[simp] theorem State.setPart_bars (s : State) (p : Part) : (s.setPart p).bars = s.bars := rfl
@[simp] theorem State.setPart_gates (s : State) (p : Part) : (s.setPart p).gates = s.gates := rfl
@[simp] theorem State.setPart_pod (s : State) (p : Part) : (s.setPart p).pod = s.pod := rfl
@[simp] theorem State.setPart_rounds (s : State) (p : Part) : (s.setPart p).rounds = s.rounds := rfl
@[simp] theorem State.setPart_holders (s : State) (p : Part) : (s.setPart p).holders = s.holders := rfl
@[simp] theorem State.setPart_lostHeads (s : State) (p : Part) : (s.setPart p).lostHeads = s.lostHeads := rfl
@[simp] theorem State.setPart_runner (s : State) (p : Part) : (s.setPart p).runner = s.runner := rfl
@[simp] theorem State.setPart_mboxes (s : State) (p : Part) : (s.setPart p).mboxes = s.mboxes := rfl
@[simp] theorem State.setPart_lds (s : State) (p : Part) : (s.setPart p).lds = s.lds := rfl
@[simp] theorem State.setPart_fabricAnswer (s : State) (p : Part) : (s.setPart p).fabricAnswer = s.fabricAnswer := rfl
@[simp] theorem State.setPart_hostAnswer (s : State) (p : Part) : (s.setPart p).hostAnswer = s.hostAnswer := rfl
@[simp] theorem State.setPart_hostPoison (s : State) (p : Part) : (s.setPart p).hostPoison = s.hostPoison := rfl
@[simp] theorem State.setPart_msix (s : State) (p : Part) : (s.setPart p).msix = s.msix := rfl

/-! ## State.modPart -/

@[simp] theorem State.modPart_cyc (s : State) (p : Nat) (f : Part → Part) : (s.modPart p f).cyc = s.cyc := rfl
@[simp] theorem State.modPart_free (s : State) (p : Nat) (f : Part → Part) : (s.modPart p f).free = s.free := rfl
@[simp] theorem State.modPart_turn (s : State) (p : Nat) (f : Part → Part) : (s.modPart p f).turn = s.turn := rfl
@[simp] theorem State.modPart_agenda (s : State) (p : Nat) (f : Part → Part) : (s.modPart p f).agenda = s.agenda := rfl
@[simp] theorem State.modPart_issue (s : State) (p : Nat) (f : Part → Part) : (s.modPart p f).issue = s.issue := rfl
@[simp] theorem State.modPart_call (s : State) (p : Nat) (f : Part → Part) : (s.modPart p f).call = s.call := rfl
@[simp] theorem State.modPart_dev (s : State) (p : Nat) (f : Part → Part) : (s.modPart p f).dev = s.dev := rfl
@[simp] theorem State.modPart_sets (s : State) (p : Nat) (f : Part → Part) : (s.modPart p f).sets = s.sets := rfl
@[simp] theorem State.modPart_switches (s : State) (p : Nat) (f : Part → Part) : (s.modPart p f).switches = s.switches := rfl
@[simp] theorem State.modPart_launches (s : State) (p : Nat) (f : Part → Part) : (s.modPart p f).launches = s.launches := rfl
@[simp] theorem State.modPart_waves (s : State) (p : Nat) (f : Part → Part) : (s.modPart p f).waves = s.waves := rfl
@[simp] theorem State.modPart_nextSeq (s : State) (p : Nat) (f : Part → Part) : (s.modPart p f).nextSeq = s.nextSeq := rfl
@[simp] theorem State.modPart_nextTag (s : State) (p : Nat) (f : Part → Part) : (s.modPart p f).nextTag = s.nextTag := rfl
@[simp] theorem State.modPart_mem (s : State) (p : Nat) (f : Part → Part) : (s.modPart p f).mem = s.mem := rfl
@[simp] theorem State.modPart_poison (s : State) (p : Nat) (f : Part → Part) : (s.modPart p f).poison = s.poison := rfl
@[simp] theorem State.modPart_stale (s : State) (p : Nat) (f : Part → Part) : (s.modPart p f).stale = s.stale := rfl
@[simp] theorem State.modPart_l1 (s : State) (p : Nat) (f : Part → Part) : (s.modPart p f).l1 = s.l1 := rfl
@[simp] theorem State.modPart_wq (s : State) (p : Nat) (f : Part → Part) : (s.modPart p f).wq = s.wq := rfl
@[simp] theorem State.modPart_l2 (s : State) (p : Nat) (f : Part → Part) : (s.modPart p f).l2 = s.l2 := rfl
@[simp] theorem State.modPart_fills (s : State) (p : Nat) (f : Part → Part) : (s.modPart p f).fills = s.fills := rfl
@[simp] theorem State.modPart_ways (s : State) (p : Nat) (f : Part → Part) : (s.modPart p f).ways = s.ways := rfl
@[simp] theorem State.modPart_perms (s : State) (p : Nat) (f : Part → Part) : (s.modPart p f).perms = s.perms := rfl
@[simp] theorem State.modPart_memReqs (s : State) (p : Nat) (f : Part → Part) : (s.modPart p f).memReqs = s.memReqs := rfl
@[simp] theorem State.modPart_snoops (s : State) (p : Nat) (f : Part → Part) : (s.modPart p f).snoops = s.snoops := rfl
@[simp] theorem State.modPart_snoopAnswers (s : State) (p : Nat) (f : Part → Part) : (s.modPart p f).snoopAnswers = s.snoopAnswers := rfl
@[simp] theorem State.modPart_tlb (s : State) (p : Nat) (f : Part → Part) : (s.modPart p f).tlb = s.tlb := rfl
@[simp] theorem State.modPart_walkCache (s : State) (p : Nat) (f : Part → Part) : (s.modPart p f).walkCache = s.walkCache := rfl
@[simp] theorem State.modPart_walks (s : State) (p : Nat) (f : Part → Part) : (s.modPart p f).walks = s.walks := rfl
@[simp] theorem State.modPart_icache (s : State) (p : Nat) (f : Part → Part) : (s.modPart p f).icache = s.icache := rfl
@[simp] theorem State.modPart_atomQ (s : State) (p : Nat) (f : Part → Part) : (s.modPart p f).atomQ = s.atomQ := rfl
@[simp] theorem State.modPart_rows (s : State) (p : Nat) (f : Part → Part) : (s.modPart p f).rows = s.rows := rfl
@[simp] theorem State.modPart_links (s : State) (p : Nat) (f : Part → Part) : (s.modPart p f).links = s.links := rfl
@[simp] theorem State.modPart_charges (s : State) (p : Nat) (f : Part → Part) : (s.modPart p f).charges = s.charges := rfl
@[simp] theorem State.modPart_softErrors (s : State) (p : Nat) (f : Part → Part) : (s.modPart p f).softErrors = s.softErrors := rfl
@[simp] theorem State.modPart_engines (s : State) (p : Nat) (f : Part → Part) : (s.modPart p f).engines = s.engines := rfl
@[simp] theorem State.modPart_chans (s : State) (p : Nat) (f : Part → Part) : (s.modPart p f).chans = s.chans := rfl
@[simp] theorem State.modPart_bars (s : State) (p : Nat) (f : Part → Part) : (s.modPart p f).bars = s.bars := rfl
@[simp] theorem State.modPart_gates (s : State) (p : Nat) (f : Part → Part) : (s.modPart p f).gates = s.gates := rfl
@[simp] theorem State.modPart_pod (s : State) (p : Nat) (f : Part → Part) : (s.modPart p f).pod = s.pod := rfl
@[simp] theorem State.modPart_rounds (s : State) (p : Nat) (f : Part → Part) : (s.modPart p f).rounds = s.rounds := rfl
@[simp] theorem State.modPart_holders (s : State) (p : Nat) (f : Part → Part) : (s.modPart p f).holders = s.holders := rfl
@[simp] theorem State.modPart_lostHeads (s : State) (p : Nat) (f : Part → Part) : (s.modPart p f).lostHeads = s.lostHeads := rfl
@[simp] theorem State.modPart_runner (s : State) (p : Nat) (f : Part → Part) : (s.modPart p f).runner = s.runner := rfl
@[simp] theorem State.modPart_mboxes (s : State) (p : Nat) (f : Part → Part) : (s.modPart p f).mboxes = s.mboxes := rfl
@[simp] theorem State.modPart_lds (s : State) (p : Nat) (f : Part → Part) : (s.modPart p f).lds = s.lds := rfl
@[simp] theorem State.modPart_fabricAnswer (s : State) (p : Nat) (f : Part → Part) : (s.modPart p f).fabricAnswer = s.fabricAnswer := rfl
@[simp] theorem State.modPart_hostAnswer (s : State) (p : Nat) (f : Part → Part) : (s.modPart p f).hostAnswer = s.hostAnswer := rfl
@[simp] theorem State.modPart_hostPoison (s : State) (p : Nat) (f : Part → Part) : (s.modPart p f).hostPoison = s.hostPoison := rfl
@[simp] theorem State.modPart_msix (s : State) (p : Nat) (f : Part → Part) : (s.modPart p f).msix = s.msix := rfl

/-! ## State.setMbox -/

@[simp] theorem State.setMbox_cyc (s : State) (m : Mbox) : (s.setMbox m).cyc = s.cyc := rfl
@[simp] theorem State.setMbox_free (s : State) (m : Mbox) : (s.setMbox m).free = s.free := rfl
@[simp] theorem State.setMbox_turn (s : State) (m : Mbox) : (s.setMbox m).turn = s.turn := rfl
@[simp] theorem State.setMbox_agenda (s : State) (m : Mbox) : (s.setMbox m).agenda = s.agenda := rfl
@[simp] theorem State.setMbox_issue (s : State) (m : Mbox) : (s.setMbox m).issue = s.issue := rfl
@[simp] theorem State.setMbox_call (s : State) (m : Mbox) : (s.setMbox m).call = s.call := rfl
@[simp] theorem State.setMbox_dev (s : State) (m : Mbox) : (s.setMbox m).dev = s.dev := rfl
@[simp] theorem State.setMbox_parts (s : State) (m : Mbox) : (s.setMbox m).parts = s.parts := rfl
@[simp] theorem State.setMbox_sets (s : State) (m : Mbox) : (s.setMbox m).sets = s.sets := rfl
@[simp] theorem State.setMbox_switches (s : State) (m : Mbox) : (s.setMbox m).switches = s.switches := rfl
@[simp] theorem State.setMbox_launches (s : State) (m : Mbox) : (s.setMbox m).launches = s.launches := rfl
@[simp] theorem State.setMbox_waves (s : State) (m : Mbox) : (s.setMbox m).waves = s.waves := rfl
@[simp] theorem State.setMbox_nextSeq (s : State) (m : Mbox) : (s.setMbox m).nextSeq = s.nextSeq := rfl
@[simp] theorem State.setMbox_nextTag (s : State) (m : Mbox) : (s.setMbox m).nextTag = s.nextTag := rfl
@[simp] theorem State.setMbox_mem (s : State) (m : Mbox) : (s.setMbox m).mem = s.mem := rfl
@[simp] theorem State.setMbox_poison (s : State) (m : Mbox) : (s.setMbox m).poison = s.poison := rfl
@[simp] theorem State.setMbox_stale (s : State) (m : Mbox) : (s.setMbox m).stale = s.stale := rfl
@[simp] theorem State.setMbox_l1 (s : State) (m : Mbox) : (s.setMbox m).l1 = s.l1 := rfl
@[simp] theorem State.setMbox_wq (s : State) (m : Mbox) : (s.setMbox m).wq = s.wq := rfl
@[simp] theorem State.setMbox_l2 (s : State) (m : Mbox) : (s.setMbox m).l2 = s.l2 := rfl
@[simp] theorem State.setMbox_fills (s : State) (m : Mbox) : (s.setMbox m).fills = s.fills := rfl
@[simp] theorem State.setMbox_ways (s : State) (m : Mbox) : (s.setMbox m).ways = s.ways := rfl
@[simp] theorem State.setMbox_perms (s : State) (m : Mbox) : (s.setMbox m).perms = s.perms := rfl
@[simp] theorem State.setMbox_memReqs (s : State) (m : Mbox) : (s.setMbox m).memReqs = s.memReqs := rfl
@[simp] theorem State.setMbox_snoops (s : State) (m : Mbox) : (s.setMbox m).snoops = s.snoops := rfl
@[simp] theorem State.setMbox_snoopAnswers (s : State) (m : Mbox) : (s.setMbox m).snoopAnswers = s.snoopAnswers := rfl
@[simp] theorem State.setMbox_tlb (s : State) (m : Mbox) : (s.setMbox m).tlb = s.tlb := rfl
@[simp] theorem State.setMbox_walkCache (s : State) (m : Mbox) : (s.setMbox m).walkCache = s.walkCache := rfl
@[simp] theorem State.setMbox_walks (s : State) (m : Mbox) : (s.setMbox m).walks = s.walks := rfl
@[simp] theorem State.setMbox_icache (s : State) (m : Mbox) : (s.setMbox m).icache = s.icache := rfl
@[simp] theorem State.setMbox_atomQ (s : State) (m : Mbox) : (s.setMbox m).atomQ = s.atomQ := rfl
@[simp] theorem State.setMbox_rows (s : State) (m : Mbox) : (s.setMbox m).rows = s.rows := rfl
@[simp] theorem State.setMbox_links (s : State) (m : Mbox) : (s.setMbox m).links = s.links := rfl
@[simp] theorem State.setMbox_charges (s : State) (m : Mbox) : (s.setMbox m).charges = s.charges := rfl
@[simp] theorem State.setMbox_softErrors (s : State) (m : Mbox) : (s.setMbox m).softErrors = s.softErrors := rfl
@[simp] theorem State.setMbox_engines (s : State) (m : Mbox) : (s.setMbox m).engines = s.engines := rfl
@[simp] theorem State.setMbox_chans (s : State) (m : Mbox) : (s.setMbox m).chans = s.chans := rfl
@[simp] theorem State.setMbox_bars (s : State) (m : Mbox) : (s.setMbox m).bars = s.bars := rfl
@[simp] theorem State.setMbox_gates (s : State) (m : Mbox) : (s.setMbox m).gates = s.gates := rfl
@[simp] theorem State.setMbox_pod (s : State) (m : Mbox) : (s.setMbox m).pod = s.pod := rfl
@[simp] theorem State.setMbox_rounds (s : State) (m : Mbox) : (s.setMbox m).rounds = s.rounds := rfl
@[simp] theorem State.setMbox_holders (s : State) (m : Mbox) : (s.setMbox m).holders = s.holders := rfl
@[simp] theorem State.setMbox_lostHeads (s : State) (m : Mbox) : (s.setMbox m).lostHeads = s.lostHeads := rfl
@[simp] theorem State.setMbox_runner (s : State) (m : Mbox) : (s.setMbox m).runner = s.runner := rfl
@[simp] theorem State.setMbox_lds (s : State) (m : Mbox) : (s.setMbox m).lds = s.lds := rfl
@[simp] theorem State.setMbox_fabricAnswer (s : State) (m : Mbox) : (s.setMbox m).fabricAnswer = s.fabricAnswer := rfl
@[simp] theorem State.setMbox_hostAnswer (s : State) (m : Mbox) : (s.setMbox m).hostAnswer = s.hostAnswer := rfl
@[simp] theorem State.setMbox_hostPoison (s : State) (m : Mbox) : (s.setMbox m).hostPoison = s.hostPoison := rfl
@[simp] theorem State.setMbox_msix (s : State) (m : Mbox) : (s.setMbox m).msix = s.msix := rfl

/-! ## State.stall -/

@[simp] theorem State.stall_cyc (s : State) : (s.stall).cyc = s.cyc := rfl
@[simp] theorem State.stall_free (s : State) : (s.stall).free = s.free := rfl
@[simp] theorem State.stall_turn (s : State) : (s.stall).turn = s.turn := rfl
@[simp] theorem State.stall_agenda (s : State) : (s.stall).agenda = s.agenda := rfl
@[simp] theorem State.stall_call (s : State) : (s.stall).call = s.call := rfl
@[simp] theorem State.stall_dev (s : State) : (s.stall).dev = s.dev := rfl
@[simp] theorem State.stall_parts (s : State) : (s.stall).parts = s.parts := rfl
@[simp] theorem State.stall_sets (s : State) : (s.stall).sets = s.sets := rfl
@[simp] theorem State.stall_switches (s : State) : (s.stall).switches = s.switches := rfl
@[simp] theorem State.stall_launches (s : State) : (s.stall).launches = s.launches := rfl
@[simp] theorem State.stall_waves (s : State) : (s.stall).waves = s.waves := rfl
@[simp] theorem State.stall_nextSeq (s : State) : (s.stall).nextSeq = s.nextSeq := rfl
@[simp] theorem State.stall_nextTag (s : State) : (s.stall).nextTag = s.nextTag := rfl
@[simp] theorem State.stall_mem (s : State) : (s.stall).mem = s.mem := rfl
@[simp] theorem State.stall_poison (s : State) : (s.stall).poison = s.poison := rfl
@[simp] theorem State.stall_stale (s : State) : (s.stall).stale = s.stale := rfl
@[simp] theorem State.stall_l1 (s : State) : (s.stall).l1 = s.l1 := rfl
@[simp] theorem State.stall_wq (s : State) : (s.stall).wq = s.wq := rfl
@[simp] theorem State.stall_l2 (s : State) : (s.stall).l2 = s.l2 := rfl
@[simp] theorem State.stall_fills (s : State) : (s.stall).fills = s.fills := rfl
@[simp] theorem State.stall_ways (s : State) : (s.stall).ways = s.ways := rfl
@[simp] theorem State.stall_perms (s : State) : (s.stall).perms = s.perms := rfl
@[simp] theorem State.stall_memReqs (s : State) : (s.stall).memReqs = s.memReqs := rfl
@[simp] theorem State.stall_snoops (s : State) : (s.stall).snoops = s.snoops := rfl
@[simp] theorem State.stall_snoopAnswers (s : State) : (s.stall).snoopAnswers = s.snoopAnswers := rfl
@[simp] theorem State.stall_tlb (s : State) : (s.stall).tlb = s.tlb := rfl
@[simp] theorem State.stall_walkCache (s : State) : (s.stall).walkCache = s.walkCache := rfl
@[simp] theorem State.stall_walks (s : State) : (s.stall).walks = s.walks := rfl
@[simp] theorem State.stall_icache (s : State) : (s.stall).icache = s.icache := rfl
@[simp] theorem State.stall_atomQ (s : State) : (s.stall).atomQ = s.atomQ := rfl
@[simp] theorem State.stall_rows (s : State) : (s.stall).rows = s.rows := rfl
@[simp] theorem State.stall_links (s : State) : (s.stall).links = s.links := rfl
@[simp] theorem State.stall_charges (s : State) : (s.stall).charges = s.charges := rfl
@[simp] theorem State.stall_softErrors (s : State) : (s.stall).softErrors = s.softErrors := rfl
@[simp] theorem State.stall_engines (s : State) : (s.stall).engines = s.engines := rfl
@[simp] theorem State.stall_chans (s : State) : (s.stall).chans = s.chans := rfl
@[simp] theorem State.stall_bars (s : State) : (s.stall).bars = s.bars := rfl
@[simp] theorem State.stall_gates (s : State) : (s.stall).gates = s.gates := rfl
@[simp] theorem State.stall_pod (s : State) : (s.stall).pod = s.pod := rfl
@[simp] theorem State.stall_rounds (s : State) : (s.stall).rounds = s.rounds := rfl
@[simp] theorem State.stall_holders (s : State) : (s.stall).holders = s.holders := rfl
@[simp] theorem State.stall_lostHeads (s : State) : (s.stall).lostHeads = s.lostHeads := rfl
@[simp] theorem State.stall_runner (s : State) : (s.stall).runner = s.runner := rfl
@[simp] theorem State.stall_mboxes (s : State) : (s.stall).mboxes = s.mboxes := rfl
@[simp] theorem State.stall_lds (s : State) : (s.stall).lds = s.lds := rfl
@[simp] theorem State.stall_fabricAnswer (s : State) : (s.stall).fabricAnswer = s.fabricAnswer := rfl
@[simp] theorem State.stall_hostAnswer (s : State) : (s.stall).hostAnswer = s.hostAnswer := rfl
@[simp] theorem State.stall_hostPoison (s : State) : (s.stall).hostPoison = s.hostPoison := rfl
@[simp] theorem State.stall_msix (s : State) : (s.stall).msix = s.msix := rfl

/-! ## State.trapped -/

@[simp] theorem State.trapped_cyc (s : State) : (s.trapped).cyc = s.cyc := rfl
@[simp] theorem State.trapped_free (s : State) : (s.trapped).free = s.free := rfl
@[simp] theorem State.trapped_turn (s : State) : (s.trapped).turn = s.turn := rfl
@[simp] theorem State.trapped_agenda (s : State) : (s.trapped).agenda = s.agenda := rfl
@[simp] theorem State.trapped_call (s : State) : (s.trapped).call = s.call := rfl
@[simp] theorem State.trapped_dev (s : State) : (s.trapped).dev = s.dev := rfl
@[simp] theorem State.trapped_parts (s : State) : (s.trapped).parts = s.parts := rfl
@[simp] theorem State.trapped_sets (s : State) : (s.trapped).sets = s.sets := rfl
@[simp] theorem State.trapped_switches (s : State) : (s.trapped).switches = s.switches := rfl
@[simp] theorem State.trapped_launches (s : State) : (s.trapped).launches = s.launches := rfl
@[simp] theorem State.trapped_waves (s : State) : (s.trapped).waves = s.waves := rfl
@[simp] theorem State.trapped_nextSeq (s : State) : (s.trapped).nextSeq = s.nextSeq := rfl
@[simp] theorem State.trapped_nextTag (s : State) : (s.trapped).nextTag = s.nextTag := rfl
@[simp] theorem State.trapped_mem (s : State) : (s.trapped).mem = s.mem := rfl
@[simp] theorem State.trapped_poison (s : State) : (s.trapped).poison = s.poison := rfl
@[simp] theorem State.trapped_stale (s : State) : (s.trapped).stale = s.stale := rfl
@[simp] theorem State.trapped_l1 (s : State) : (s.trapped).l1 = s.l1 := rfl
@[simp] theorem State.trapped_wq (s : State) : (s.trapped).wq = s.wq := rfl
@[simp] theorem State.trapped_l2 (s : State) : (s.trapped).l2 = s.l2 := rfl
@[simp] theorem State.trapped_fills (s : State) : (s.trapped).fills = s.fills := rfl
@[simp] theorem State.trapped_ways (s : State) : (s.trapped).ways = s.ways := rfl
@[simp] theorem State.trapped_perms (s : State) : (s.trapped).perms = s.perms := rfl
@[simp] theorem State.trapped_memReqs (s : State) : (s.trapped).memReqs = s.memReqs := rfl
@[simp] theorem State.trapped_snoops (s : State) : (s.trapped).snoops = s.snoops := rfl
@[simp] theorem State.trapped_snoopAnswers (s : State) : (s.trapped).snoopAnswers = s.snoopAnswers := rfl
@[simp] theorem State.trapped_tlb (s : State) : (s.trapped).tlb = s.tlb := rfl
@[simp] theorem State.trapped_walkCache (s : State) : (s.trapped).walkCache = s.walkCache := rfl
@[simp] theorem State.trapped_walks (s : State) : (s.trapped).walks = s.walks := rfl
@[simp] theorem State.trapped_icache (s : State) : (s.trapped).icache = s.icache := rfl
@[simp] theorem State.trapped_atomQ (s : State) : (s.trapped).atomQ = s.atomQ := rfl
@[simp] theorem State.trapped_rows (s : State) : (s.trapped).rows = s.rows := rfl
@[simp] theorem State.trapped_links (s : State) : (s.trapped).links = s.links := rfl
@[simp] theorem State.trapped_charges (s : State) : (s.trapped).charges = s.charges := rfl
@[simp] theorem State.trapped_softErrors (s : State) : (s.trapped).softErrors = s.softErrors := rfl
@[simp] theorem State.trapped_engines (s : State) : (s.trapped).engines = s.engines := rfl
@[simp] theorem State.trapped_chans (s : State) : (s.trapped).chans = s.chans := rfl
@[simp] theorem State.trapped_bars (s : State) : (s.trapped).bars = s.bars := rfl
@[simp] theorem State.trapped_gates (s : State) : (s.trapped).gates = s.gates := rfl
@[simp] theorem State.trapped_pod (s : State) : (s.trapped).pod = s.pod := rfl
@[simp] theorem State.trapped_rounds (s : State) : (s.trapped).rounds = s.rounds := rfl
@[simp] theorem State.trapped_holders (s : State) : (s.trapped).holders = s.holders := rfl
@[simp] theorem State.trapped_lostHeads (s : State) : (s.trapped).lostHeads = s.lostHeads := rfl
@[simp] theorem State.trapped_runner (s : State) : (s.trapped).runner = s.runner := rfl
@[simp] theorem State.trapped_mboxes (s : State) : (s.trapped).mboxes = s.mboxes := rfl
@[simp] theorem State.trapped_lds (s : State) : (s.trapped).lds = s.lds := rfl
@[simp] theorem State.trapped_fabricAnswer (s : State) : (s.trapped).fabricAnswer = s.fabricAnswer := rfl
@[simp] theorem State.trapped_hostAnswer (s : State) : (s.trapped).hostAnswer = s.hostAnswer := rfl
@[simp] theorem State.trapped_hostPoison (s : State) : (s.trapped).hostPoison = s.hostPoison := rfl
@[simp] theorem State.trapped_msix (s : State) : (s.trapped).msix = s.msix := rfl

/-! ## State.setPoison -/

@[simp] theorem State.setPoison_cyc (s : State) (k : Nat) : (s.setPoison k).cyc = s.cyc := rfl
@[simp] theorem State.setPoison_free (s : State) (k : Nat) : (s.setPoison k).free = s.free := rfl
@[simp] theorem State.setPoison_turn (s : State) (k : Nat) : (s.setPoison k).turn = s.turn := rfl
@[simp] theorem State.setPoison_agenda (s : State) (k : Nat) : (s.setPoison k).agenda = s.agenda := rfl
@[simp] theorem State.setPoison_issue (s : State) (k : Nat) : (s.setPoison k).issue = s.issue := rfl
@[simp] theorem State.setPoison_call (s : State) (k : Nat) : (s.setPoison k).call = s.call := rfl
@[simp] theorem State.setPoison_dev (s : State) (k : Nat) : (s.setPoison k).dev = s.dev := rfl
@[simp] theorem State.setPoison_parts (s : State) (k : Nat) : (s.setPoison k).parts = s.parts := rfl
@[simp] theorem State.setPoison_sets (s : State) (k : Nat) : (s.setPoison k).sets = s.sets := rfl
@[simp] theorem State.setPoison_switches (s : State) (k : Nat) : (s.setPoison k).switches = s.switches := rfl
@[simp] theorem State.setPoison_launches (s : State) (k : Nat) : (s.setPoison k).launches = s.launches := rfl
@[simp] theorem State.setPoison_waves (s : State) (k : Nat) : (s.setPoison k).waves = s.waves := rfl
@[simp] theorem State.setPoison_nextSeq (s : State) (k : Nat) : (s.setPoison k).nextSeq = s.nextSeq := rfl
@[simp] theorem State.setPoison_nextTag (s : State) (k : Nat) : (s.setPoison k).nextTag = s.nextTag := rfl
@[simp] theorem State.setPoison_mem (s : State) (k : Nat) : (s.setPoison k).mem = s.mem := rfl
@[simp] theorem State.setPoison_stale (s : State) (k : Nat) : (s.setPoison k).stale = s.stale := rfl
@[simp] theorem State.setPoison_l1 (s : State) (k : Nat) : (s.setPoison k).l1 = s.l1 := rfl
@[simp] theorem State.setPoison_wq (s : State) (k : Nat) : (s.setPoison k).wq = s.wq := rfl
@[simp] theorem State.setPoison_l2 (s : State) (k : Nat) : (s.setPoison k).l2 = s.l2 := rfl
@[simp] theorem State.setPoison_fills (s : State) (k : Nat) : (s.setPoison k).fills = s.fills := rfl
@[simp] theorem State.setPoison_ways (s : State) (k : Nat) : (s.setPoison k).ways = s.ways := rfl
@[simp] theorem State.setPoison_perms (s : State) (k : Nat) : (s.setPoison k).perms = s.perms := rfl
@[simp] theorem State.setPoison_memReqs (s : State) (k : Nat) : (s.setPoison k).memReqs = s.memReqs := rfl
@[simp] theorem State.setPoison_snoops (s : State) (k : Nat) : (s.setPoison k).snoops = s.snoops := rfl
@[simp] theorem State.setPoison_snoopAnswers (s : State) (k : Nat) : (s.setPoison k).snoopAnswers = s.snoopAnswers := rfl
@[simp] theorem State.setPoison_tlb (s : State) (k : Nat) : (s.setPoison k).tlb = s.tlb := rfl
@[simp] theorem State.setPoison_walkCache (s : State) (k : Nat) : (s.setPoison k).walkCache = s.walkCache := rfl
@[simp] theorem State.setPoison_walks (s : State) (k : Nat) : (s.setPoison k).walks = s.walks := rfl
@[simp] theorem State.setPoison_icache (s : State) (k : Nat) : (s.setPoison k).icache = s.icache := rfl
@[simp] theorem State.setPoison_atomQ (s : State) (k : Nat) : (s.setPoison k).atomQ = s.atomQ := rfl
@[simp] theorem State.setPoison_rows (s : State) (k : Nat) : (s.setPoison k).rows = s.rows := rfl
@[simp] theorem State.setPoison_links (s : State) (k : Nat) : (s.setPoison k).links = s.links := rfl
@[simp] theorem State.setPoison_charges (s : State) (k : Nat) : (s.setPoison k).charges = s.charges := rfl
@[simp] theorem State.setPoison_softErrors (s : State) (k : Nat) : (s.setPoison k).softErrors = s.softErrors := rfl
@[simp] theorem State.setPoison_engines (s : State) (k : Nat) : (s.setPoison k).engines = s.engines := rfl
@[simp] theorem State.setPoison_chans (s : State) (k : Nat) : (s.setPoison k).chans = s.chans := rfl
@[simp] theorem State.setPoison_bars (s : State) (k : Nat) : (s.setPoison k).bars = s.bars := rfl
@[simp] theorem State.setPoison_gates (s : State) (k : Nat) : (s.setPoison k).gates = s.gates := rfl
@[simp] theorem State.setPoison_pod (s : State) (k : Nat) : (s.setPoison k).pod = s.pod := rfl
@[simp] theorem State.setPoison_rounds (s : State) (k : Nat) : (s.setPoison k).rounds = s.rounds := rfl
@[simp] theorem State.setPoison_holders (s : State) (k : Nat) : (s.setPoison k).holders = s.holders := rfl
@[simp] theorem State.setPoison_lostHeads (s : State) (k : Nat) : (s.setPoison k).lostHeads = s.lostHeads := rfl
@[simp] theorem State.setPoison_runner (s : State) (k : Nat) : (s.setPoison k).runner = s.runner := rfl
@[simp] theorem State.setPoison_mboxes (s : State) (k : Nat) : (s.setPoison k).mboxes = s.mboxes := rfl
@[simp] theorem State.setPoison_lds (s : State) (k : Nat) : (s.setPoison k).lds = s.lds := rfl
@[simp] theorem State.setPoison_fabricAnswer (s : State) (k : Nat) : (s.setPoison k).fabricAnswer = s.fabricAnswer := rfl
@[simp] theorem State.setPoison_hostAnswer (s : State) (k : Nat) : (s.setPoison k).hostAnswer = s.hostAnswer := rfl
@[simp] theorem State.setPoison_hostPoison (s : State) (k : Nat) : (s.setPoison k).hostPoison = s.hostPoison := rfl
@[simp] theorem State.setPoison_msix (s : State) (k : Nat) : (s.setPoison k).msix = s.msix := rfl

/-! ## State.clearPoison -/

@[simp] theorem State.clearPoison_cyc (s : State) (k : Nat) : (s.clearPoison k).cyc = s.cyc := rfl
@[simp] theorem State.clearPoison_free (s : State) (k : Nat) : (s.clearPoison k).free = s.free := rfl
@[simp] theorem State.clearPoison_turn (s : State) (k : Nat) : (s.clearPoison k).turn = s.turn := rfl
@[simp] theorem State.clearPoison_agenda (s : State) (k : Nat) : (s.clearPoison k).agenda = s.agenda := rfl
@[simp] theorem State.clearPoison_issue (s : State) (k : Nat) : (s.clearPoison k).issue = s.issue := rfl
@[simp] theorem State.clearPoison_call (s : State) (k : Nat) : (s.clearPoison k).call = s.call := rfl
@[simp] theorem State.clearPoison_dev (s : State) (k : Nat) : (s.clearPoison k).dev = s.dev := rfl
@[simp] theorem State.clearPoison_parts (s : State) (k : Nat) : (s.clearPoison k).parts = s.parts := rfl
@[simp] theorem State.clearPoison_sets (s : State) (k : Nat) : (s.clearPoison k).sets = s.sets := rfl
@[simp] theorem State.clearPoison_switches (s : State) (k : Nat) : (s.clearPoison k).switches = s.switches := rfl
@[simp] theorem State.clearPoison_launches (s : State) (k : Nat) : (s.clearPoison k).launches = s.launches := rfl
@[simp] theorem State.clearPoison_waves (s : State) (k : Nat) : (s.clearPoison k).waves = s.waves := rfl
@[simp] theorem State.clearPoison_nextSeq (s : State) (k : Nat) : (s.clearPoison k).nextSeq = s.nextSeq := rfl
@[simp] theorem State.clearPoison_nextTag (s : State) (k : Nat) : (s.clearPoison k).nextTag = s.nextTag := rfl
@[simp] theorem State.clearPoison_mem (s : State) (k : Nat) : (s.clearPoison k).mem = s.mem := rfl
@[simp] theorem State.clearPoison_stale (s : State) (k : Nat) : (s.clearPoison k).stale = s.stale := rfl
@[simp] theorem State.clearPoison_l1 (s : State) (k : Nat) : (s.clearPoison k).l1 = s.l1 := rfl
@[simp] theorem State.clearPoison_wq (s : State) (k : Nat) : (s.clearPoison k).wq = s.wq := rfl
@[simp] theorem State.clearPoison_l2 (s : State) (k : Nat) : (s.clearPoison k).l2 = s.l2 := rfl
@[simp] theorem State.clearPoison_fills (s : State) (k : Nat) : (s.clearPoison k).fills = s.fills := rfl
@[simp] theorem State.clearPoison_ways (s : State) (k : Nat) : (s.clearPoison k).ways = s.ways := rfl
@[simp] theorem State.clearPoison_perms (s : State) (k : Nat) : (s.clearPoison k).perms = s.perms := rfl
@[simp] theorem State.clearPoison_memReqs (s : State) (k : Nat) : (s.clearPoison k).memReqs = s.memReqs := rfl
@[simp] theorem State.clearPoison_snoops (s : State) (k : Nat) : (s.clearPoison k).snoops = s.snoops := rfl
@[simp] theorem State.clearPoison_snoopAnswers (s : State) (k : Nat) : (s.clearPoison k).snoopAnswers = s.snoopAnswers := rfl
@[simp] theorem State.clearPoison_tlb (s : State) (k : Nat) : (s.clearPoison k).tlb = s.tlb := rfl
@[simp] theorem State.clearPoison_walkCache (s : State) (k : Nat) : (s.clearPoison k).walkCache = s.walkCache := rfl
@[simp] theorem State.clearPoison_walks (s : State) (k : Nat) : (s.clearPoison k).walks = s.walks := rfl
@[simp] theorem State.clearPoison_icache (s : State) (k : Nat) : (s.clearPoison k).icache = s.icache := rfl
@[simp] theorem State.clearPoison_atomQ (s : State) (k : Nat) : (s.clearPoison k).atomQ = s.atomQ := rfl
@[simp] theorem State.clearPoison_rows (s : State) (k : Nat) : (s.clearPoison k).rows = s.rows := rfl
@[simp] theorem State.clearPoison_links (s : State) (k : Nat) : (s.clearPoison k).links = s.links := rfl
@[simp] theorem State.clearPoison_charges (s : State) (k : Nat) : (s.clearPoison k).charges = s.charges := rfl
@[simp] theorem State.clearPoison_softErrors (s : State) (k : Nat) : (s.clearPoison k).softErrors = s.softErrors := rfl
@[simp] theorem State.clearPoison_engines (s : State) (k : Nat) : (s.clearPoison k).engines = s.engines := rfl
@[simp] theorem State.clearPoison_chans (s : State) (k : Nat) : (s.clearPoison k).chans = s.chans := rfl
@[simp] theorem State.clearPoison_bars (s : State) (k : Nat) : (s.clearPoison k).bars = s.bars := rfl
@[simp] theorem State.clearPoison_gates (s : State) (k : Nat) : (s.clearPoison k).gates = s.gates := rfl
@[simp] theorem State.clearPoison_pod (s : State) (k : Nat) : (s.clearPoison k).pod = s.pod := rfl
@[simp] theorem State.clearPoison_rounds (s : State) (k : Nat) : (s.clearPoison k).rounds = s.rounds := rfl
@[simp] theorem State.clearPoison_holders (s : State) (k : Nat) : (s.clearPoison k).holders = s.holders := rfl
@[simp] theorem State.clearPoison_lostHeads (s : State) (k : Nat) : (s.clearPoison k).lostHeads = s.lostHeads := rfl
@[simp] theorem State.clearPoison_runner (s : State) (k : Nat) : (s.clearPoison k).runner = s.runner := rfl
@[simp] theorem State.clearPoison_mboxes (s : State) (k : Nat) : (s.clearPoison k).mboxes = s.mboxes := rfl
@[simp] theorem State.clearPoison_lds (s : State) (k : Nat) : (s.clearPoison k).lds = s.lds := rfl
@[simp] theorem State.clearPoison_fabricAnswer (s : State) (k : Nat) : (s.clearPoison k).fabricAnswer = s.fabricAnswer := rfl
@[simp] theorem State.clearPoison_hostAnswer (s : State) (k : Nat) : (s.clearPoison k).hostAnswer = s.hostAnswer := rfl
@[simp] theorem State.clearPoison_hostPoison (s : State) (k : Nat) : (s.clearPoison k).hostPoison = s.hostPoison := rfl
@[simp] theorem State.clearPoison_msix (s : State) (k : Nat) : (s.clearPoison k).msix = s.msix := rfl

/-! ## State.after -/

@[simp] theorem State.after_cyc (s : State) (w : Wave) (i : Issue) : (s.after w i).cyc = s.cyc := rfl
@[simp] theorem State.after_free (s : State) (w : Wave) (i : Issue) : (s.after w i).free = s.free := rfl
@[simp] theorem State.after_turn (s : State) (w : Wave) (i : Issue) : (s.after w i).turn = s.turn := rfl
@[simp] theorem State.after_agenda (s : State) (w : Wave) (i : Issue) : (s.after w i).agenda = s.agenda := rfl
@[simp] theorem State.after_issue (s : State) (w : Wave) (i : Issue) : (s.after w i).issue = s.issue := rfl
@[simp] theorem State.after_call (s : State) (w : Wave) (i : Issue) : (s.after w i).call = s.call := rfl
@[simp] theorem State.after_dev (s : State) (w : Wave) (i : Issue) : (s.after w i).dev = s.dev := rfl
@[simp] theorem State.after_parts (s : State) (w : Wave) (i : Issue) : (s.after w i).parts = s.parts := rfl
@[simp] theorem State.after_sets (s : State) (w : Wave) (i : Issue) : (s.after w i).sets = s.sets := rfl
@[simp] theorem State.after_switches (s : State) (w : Wave) (i : Issue) : (s.after w i).switches = s.switches := rfl
@[simp] theorem State.after_launches (s : State) (w : Wave) (i : Issue) : (s.after w i).launches = s.launches := rfl
@[simp] theorem State.after_nextSeq (s : State) (w : Wave) (i : Issue) : (s.after w i).nextSeq = s.nextSeq := rfl
@[simp] theorem State.after_nextTag (s : State) (w : Wave) (i : Issue) : (s.after w i).nextTag = s.nextTag := rfl
@[simp] theorem State.after_mem (s : State) (w : Wave) (i : Issue) : (s.after w i).mem = s.mem := rfl
@[simp] theorem State.after_poison (s : State) (w : Wave) (i : Issue) : (s.after w i).poison = s.poison := rfl
@[simp] theorem State.after_stale (s : State) (w : Wave) (i : Issue) : (s.after w i).stale = s.stale := rfl
@[simp] theorem State.after_l1 (s : State) (w : Wave) (i : Issue) : (s.after w i).l1 = s.l1 := rfl
@[simp] theorem State.after_wq (s : State) (w : Wave) (i : Issue) : (s.after w i).wq = s.wq := rfl
@[simp] theorem State.after_l2 (s : State) (w : Wave) (i : Issue) : (s.after w i).l2 = s.l2 := rfl
@[simp] theorem State.after_fills (s : State) (w : Wave) (i : Issue) : (s.after w i).fills = s.fills := rfl
@[simp] theorem State.after_ways (s : State) (w : Wave) (i : Issue) : (s.after w i).ways = s.ways := rfl
@[simp] theorem State.after_perms (s : State) (w : Wave) (i : Issue) : (s.after w i).perms = s.perms := rfl
@[simp] theorem State.after_memReqs (s : State) (w : Wave) (i : Issue) : (s.after w i).memReqs = s.memReqs := rfl
@[simp] theorem State.after_snoops (s : State) (w : Wave) (i : Issue) : (s.after w i).snoops = s.snoops := rfl
@[simp] theorem State.after_snoopAnswers (s : State) (w : Wave) (i : Issue) : (s.after w i).snoopAnswers = s.snoopAnswers := rfl
@[simp] theorem State.after_tlb (s : State) (w : Wave) (i : Issue) : (s.after w i).tlb = s.tlb := rfl
@[simp] theorem State.after_walkCache (s : State) (w : Wave) (i : Issue) : (s.after w i).walkCache = s.walkCache := rfl
@[simp] theorem State.after_walks (s : State) (w : Wave) (i : Issue) : (s.after w i).walks = s.walks := rfl
@[simp] theorem State.after_icache (s : State) (w : Wave) (i : Issue) : (s.after w i).icache = s.icache := rfl
@[simp] theorem State.after_atomQ (s : State) (w : Wave) (i : Issue) : (s.after w i).atomQ = s.atomQ := rfl
@[simp] theorem State.after_rows (s : State) (w : Wave) (i : Issue) : (s.after w i).rows = s.rows := rfl
@[simp] theorem State.after_links (s : State) (w : Wave) (i : Issue) : (s.after w i).links = s.links := rfl
@[simp] theorem State.after_charges (s : State) (w : Wave) (i : Issue) : (s.after w i).charges = s.charges := rfl
@[simp] theorem State.after_softErrors (s : State) (w : Wave) (i : Issue) : (s.after w i).softErrors = s.softErrors := rfl
@[simp] theorem State.after_engines (s : State) (w : Wave) (i : Issue) : (s.after w i).engines = s.engines := rfl
@[simp] theorem State.after_chans (s : State) (w : Wave) (i : Issue) : (s.after w i).chans = s.chans := rfl
@[simp] theorem State.after_bars (s : State) (w : Wave) (i : Issue) : (s.after w i).bars = s.bars := rfl
@[simp] theorem State.after_gates (s : State) (w : Wave) (i : Issue) : (s.after w i).gates = s.gates := rfl
@[simp] theorem State.after_pod (s : State) (w : Wave) (i : Issue) : (s.after w i).pod = s.pod := rfl
@[simp] theorem State.after_rounds (s : State) (w : Wave) (i : Issue) : (s.after w i).rounds = s.rounds := rfl
@[simp] theorem State.after_holders (s : State) (w : Wave) (i : Issue) : (s.after w i).holders = s.holders := rfl
@[simp] theorem State.after_lostHeads (s : State) (w : Wave) (i : Issue) : (s.after w i).lostHeads = s.lostHeads := rfl
@[simp] theorem State.after_runner (s : State) (w : Wave) (i : Issue) : (s.after w i).runner = s.runner := rfl
@[simp] theorem State.after_mboxes (s : State) (w : Wave) (i : Issue) : (s.after w i).mboxes = s.mboxes := rfl
@[simp] theorem State.after_lds (s : State) (w : Wave) (i : Issue) : (s.after w i).lds = s.lds := rfl
@[simp] theorem State.after_fabricAnswer (s : State) (w : Wave) (i : Issue) : (s.after w i).fabricAnswer = s.fabricAnswer := rfl
@[simp] theorem State.after_hostAnswer (s : State) (w : Wave) (i : Issue) : (s.after w i).hostAnswer = s.hostAnswer := rfl
@[simp] theorem State.after_hostPoison (s : State) (w : Wave) (i : Issue) : (s.after w i).hostPoison = s.hostPoison := rfl
@[simp] theorem State.after_msix (s : State) (w : Wave) (i : Issue) : (s.after w i).msix = s.msix := rfl

/-! ## Wave.goto -/

@[simp] theorem Wave.goto_seq (w : Wave) (a : Arm) (pc : Nat) : (w.goto a pc).seq = w.seq := by cases a <;> rfl
@[simp] theorem Wave.goto_wid (w : Wave) (a : Arm) (pc : Nat) : (w.goto a pc).wid = w.wid := by cases a <;> rfl
@[simp] theorem Wave.goto_part (w : Wave) (a : Arm) (pc : Nat) : (w.goto a pc).part = w.part := by cases a <;> rfl
@[simp] theorem Wave.goto_core (w : Wave) (a : Arm) (pc : Nat) : (w.goto a pc).core = w.core := by cases a <;> rfl
@[simp] theorem Wave.goto_place (w : Wave) (a : Arm) (pc : Nat) : (w.goto a pc).place = w.place := by cases a <;> rfl
@[simp] theorem Wave.goto_status (w : Wave) (a : Arm) (pc : Nat) : (w.goto a pc).status = w.status := by cases a <;> rfl
@[simp] theorem Wave.goto_saved (w : Wave) (a : Arm) (pc : Nat) : (w.goto a pc).saved = w.saved := by cases a <;> rfl
@[simp] theorem Wave.goto_started (w : Wave) (a : Arm) (pc : Nat) : (w.goto a pc).started = w.started := by cases a <;> rfl
@[simp] theorem Wave.goto_ctx (w : Wave) (a : Arm) (pc : Nat) : (w.goto a pc).ctx = w.ctx := by cases a <;> rfl
@[simp] theorem Wave.goto_parkedAt (w : Wave) (a : Arm) (pc : Nat) : (w.goto a pc).parkedAt = w.parkedAt := by cases a <;> rfl
@[simp] theorem Wave.goto_readyAt (w : Wave) (a : Arm) (pc : Nat) : (w.goto a pc).readyAt = w.readyAt := by cases a <;> rfl
@[simp] theorem Wave.goto_ctxAt (w : Wave) (a : Arm) (pc : Nat) : (w.goto a pc).ctxAt = w.ctxAt := by cases a <;> rfl
@[simp] theorem Wave.goto_vregs (w : Wave) (a : Arm) (pc : Nat) : (w.goto a pc).vregs = w.vregs := by cases a <;> rfl
@[simp] theorem Wave.goto_lo (w : Wave) (a : Arm) (pc : Nat) : (w.goto a pc).lo = w.lo := by cases a <;> rfl
@[simp] theorem Wave.goto_winBase (w : Wave) (a : Arm) (pc : Nat) : (w.goto a pc).winBase = w.winBase := by cases a <;> rfl
@[simp] theorem Wave.goto_sregs (w : Wave) (a : Arm) (pc : Nat) : (w.goto a pc).sregs = w.sregs := by cases a <;> rfl
@[simp] theorem Wave.goto_spoison (w : Wave) (a : Arm) (pc : Nat) : (w.goto a pc).spoison = w.spoison := by cases a <;> rfl
@[simp] theorem Wave.goto_pregs (w : Wave) (a : Arm) (pc : Nat) : (w.goto a pc).pregs = w.pregs := by cases a <;> rfl
@[simp] theorem Wave.goto_qregs (w : Wave) (a : Arm) (pc : Nat) : (w.goto a pc).qregs = w.qregs := by cases a <;> rfl
@[simp] theorem Wave.goto_qpoison (w : Wave) (a : Arm) (pc : Nat) : (w.goto a pc).qpoison = w.qpoison := by cases a <;> rfl
@[simp] theorem Wave.goto_tiles (w : Wave) (a : Arm) (pc : Nat) : (w.goto a pc).tiles = w.tiles := by cases a <;> rfl
@[simp] theorem Wave.goto_accs (w : Wave) (a : Arm) (pc : Nat) : (w.goto a pc).accs = w.accs := by cases a <;> rfl
@[simp] theorem Wave.goto_fpFlags (w : Wave) (a : Arm) (pc : Nat) : (w.goto a pc).fpFlags = w.fpFlags := by cases a <;> rfl
@[simp] theorem Wave.goto_trapCause (w : Wave) (a : Arm) (pc : Nat) : (w.goto a pc).trapCause = w.trapCause := by cases a <;> rfl
@[simp] theorem Wave.goto_trapAddr (w : Wave) (a : Arm) (pc : Nat) : (w.goto a pc).trapAddr = w.trapAddr := by cases a <;> rfl
@[simp] theorem Wave.goto_trapPc (w : Wave) (a : Arm) (pc : Nat) : (w.goto a pc).trapPc = w.trapPc := by cases a <;> rfl
@[simp] theorem Wave.goto_trapBase (w : Wave) (a : Arm) (pc : Nat) : (w.goto a pc).trapBase = w.trapBase := by cases a <;> rfl
@[simp] theorem Wave.goto_savedFmt (w : Wave) (a : Arm) (pc : Nat) : (w.goto a pc).savedFmt = w.savedFmt := by cases a <;> rfl
@[simp] theorem Wave.goto_handler (w : Wave) (a : Arm) (pc : Nat) : (w.goto a pc).handler = w.handler := by cases a <;> rfl
@[simp] theorem Wave.goto_bucket (w : Wave) (a : Arm) (pc : Nat) : (w.goto a pc).bucket = w.bucket := by cases a <;> rfl
@[simp] theorem Wave.goto_bounds (w : Wave) (a : Arm) (pc : Nat) : (w.goto a pc).bounds = w.bounds := by cases a <;> rfl
@[simp] theorem Wave.goto_phaseVar (w : Wave) (a : Arm) (pc : Nat) : (w.goto a pc).phaseVar = w.phaseVar := by cases a <;> rfl
@[simp] theorem Wave.goto_phaseStart (w : Wave) (a : Arm) (pc : Nat) : (w.goto a pc).phaseStart = w.phaseStart := by cases a <;> rfl
@[simp] theorem Wave.goto_cycCapture (w : Wave) (a : Arm) (pc : Nat) : (w.goto a pc).cycCapture = w.cycCapture := by cases a <;> rfl
@[simp] theorem Wave.goto_progress (w : Wave) (a : Arm) (pc : Nat) : (w.goto a pc).progress = w.progress := by cases a <;> rfl
@[simp] theorem Wave.goto_watchdogFired (w : Wave) (a : Arm) (pc : Nat) : (w.goto a pc).watchdogFired = w.watchdogFired := by cases a <;> rfl
@[simp] theorem Wave.goto_missed (w : Wave) (a : Arm) (pc : Nat) : (w.goto a pc).missed = w.missed := by cases a <;> rfl
@[simp] theorem Wave.goto_late (w : Wave) (a : Arm) (pc : Nat) : (w.goto a pc).late = w.late := by cases a <;> rfl
@[simp] theorem Wave.goto_calls (w : Wave) (a : Arm) (pc : Nat) : (w.goto a pc).calls = w.calls := by cases a <;> rfl
@[simp] theorem Wave.goto_spilledCalls (w : Wave) (a : Arm) (pc : Nat) : (w.goto a pc).spilledCalls = w.spilledCalls := by cases a <;> rfl
@[simp] theorem Wave.goto_callArm (w : Wave) (a : Arm) (pc : Nat) : (w.goto a pc).callArm = w.callArm := by cases a <;> rfl
@[simp] theorem Wave.goto_spillBase (w : Wave) (a : Arm) (pc : Nat) : (w.goto a pc).spillBase = w.spillBase := by cases a <;> rfl
@[simp] theorem Wave.goto_spillSize (w : Wave) (a : Arm) (pc : Nat) : (w.goto a pc).spillSize = w.spillSize := by cases a <;> rfl
@[simp] theorem Wave.goto_spillPoison (w : Wave) (a : Arm) (pc : Nat) : (w.goto a pc).spillPoison = w.spillPoison := by cases a <;> rfl
@[simp] theorem Wave.goto_haltedLanes (w : Wave) (a : Arm) (pc : Nat) : (w.goto a pc).haltedLanes = w.haltedLanes := by cases a <;> rfl
@[simp] theorem Wave.goto_divergent (w : Wave) (a : Arm) (pc : Nat) : (w.goto a pc).divergent = w.divergent := by cases a <;> rfl
@[simp] theorem Wave.goto_pend (w : Wave) (a : Arm) (pc : Nat) : (w.goto a pc).pend = w.pend := by cases a <;> rfl
@[simp] theorem Wave.goto_nextOp (w : Wave) (a : Arm) (pc : Nat) : (w.goto a pc).nextOp = w.nextOp := by cases a <;> rfl
@[simp] theorem Wave.goto_withdrawn (w : Wave) (a : Arm) (pc : Nat) : (w.goto a pc).withdrawn = w.withdrawn := by cases a <;> rfl
@[simp] theorem Wave.goto_dbgStop (w : Wave) (a : Arm) (pc : Nat) : (w.goto a pc).dbgStop = w.dbgStop := by cases a <;> rfl
@[simp] theorem Wave.goto_dbgStep (w : Wave) (a : Arm) (pc : Nat) : (w.goto a pc).dbgStep = w.dbgStep := by cases a <;> rfl

/-! ## Wave.setUnit -/

@[simp] theorem Wave.setUnit_seq (w : Wave) (a : Arm) (u : UnitSt) : (w.setUnit a u).seq = w.seq := by cases a <;> rfl
@[simp] theorem Wave.setUnit_wid (w : Wave) (a : Arm) (u : UnitSt) : (w.setUnit a u).wid = w.wid := by cases a <;> rfl
@[simp] theorem Wave.setUnit_part (w : Wave) (a : Arm) (u : UnitSt) : (w.setUnit a u).part = w.part := by cases a <;> rfl
@[simp] theorem Wave.setUnit_core (w : Wave) (a : Arm) (u : UnitSt) : (w.setUnit a u).core = w.core := by cases a <;> rfl
@[simp] theorem Wave.setUnit_place (w : Wave) (a : Arm) (u : UnitSt) : (w.setUnit a u).place = w.place := by cases a <;> rfl
@[simp] theorem Wave.setUnit_status (w : Wave) (a : Arm) (u : UnitSt) : (w.setUnit a u).status = w.status := by cases a <;> rfl
@[simp] theorem Wave.setUnit_saved (w : Wave) (a : Arm) (u : UnitSt) : (w.setUnit a u).saved = w.saved := by cases a <;> rfl
@[simp] theorem Wave.setUnit_started (w : Wave) (a : Arm) (u : UnitSt) : (w.setUnit a u).started = w.started := by cases a <;> rfl
@[simp] theorem Wave.setUnit_ctx (w : Wave) (a : Arm) (u : UnitSt) : (w.setUnit a u).ctx = w.ctx := by cases a <;> rfl
@[simp] theorem Wave.setUnit_parkedAt (w : Wave) (a : Arm) (u : UnitSt) : (w.setUnit a u).parkedAt = w.parkedAt := by cases a <;> rfl
@[simp] theorem Wave.setUnit_readyAt (w : Wave) (a : Arm) (u : UnitSt) : (w.setUnit a u).readyAt = w.readyAt := by cases a <;> rfl
@[simp] theorem Wave.setUnit_ctxAt (w : Wave) (a : Arm) (u : UnitSt) : (w.setUnit a u).ctxAt = w.ctxAt := by cases a <;> rfl
@[simp] theorem Wave.setUnit_vregs (w : Wave) (a : Arm) (u : UnitSt) : (w.setUnit a u).vregs = w.vregs := by cases a <;> rfl
@[simp] theorem Wave.setUnit_lo (w : Wave) (a : Arm) (u : UnitSt) : (w.setUnit a u).lo = w.lo := by cases a <;> rfl
@[simp] theorem Wave.setUnit_winBase (w : Wave) (a : Arm) (u : UnitSt) : (w.setUnit a u).winBase = w.winBase := by cases a <;> rfl
@[simp] theorem Wave.setUnit_sregs (w : Wave) (a : Arm) (u : UnitSt) : (w.setUnit a u).sregs = w.sregs := by cases a <;> rfl
@[simp] theorem Wave.setUnit_spoison (w : Wave) (a : Arm) (u : UnitSt) : (w.setUnit a u).spoison = w.spoison := by cases a <;> rfl
@[simp] theorem Wave.setUnit_pregs (w : Wave) (a : Arm) (u : UnitSt) : (w.setUnit a u).pregs = w.pregs := by cases a <;> rfl
@[simp] theorem Wave.setUnit_qregs (w : Wave) (a : Arm) (u : UnitSt) : (w.setUnit a u).qregs = w.qregs := by cases a <;> rfl
@[simp] theorem Wave.setUnit_qpoison (w : Wave) (a : Arm) (u : UnitSt) : (w.setUnit a u).qpoison = w.qpoison := by cases a <;> rfl
@[simp] theorem Wave.setUnit_tiles (w : Wave) (a : Arm) (u : UnitSt) : (w.setUnit a u).tiles = w.tiles := by cases a <;> rfl
@[simp] theorem Wave.setUnit_accs (w : Wave) (a : Arm) (u : UnitSt) : (w.setUnit a u).accs = w.accs := by cases a <;> rfl
@[simp] theorem Wave.setUnit_fpFlags (w : Wave) (a : Arm) (u : UnitSt) : (w.setUnit a u).fpFlags = w.fpFlags := by cases a <;> rfl
@[simp] theorem Wave.setUnit_trapCause (w : Wave) (a : Arm) (u : UnitSt) : (w.setUnit a u).trapCause = w.trapCause := by cases a <;> rfl
@[simp] theorem Wave.setUnit_trapAddr (w : Wave) (a : Arm) (u : UnitSt) : (w.setUnit a u).trapAddr = w.trapAddr := by cases a <;> rfl
@[simp] theorem Wave.setUnit_trapPc (w : Wave) (a : Arm) (u : UnitSt) : (w.setUnit a u).trapPc = w.trapPc := by cases a <;> rfl
@[simp] theorem Wave.setUnit_trapBase (w : Wave) (a : Arm) (u : UnitSt) : (w.setUnit a u).trapBase = w.trapBase := by cases a <;> rfl
@[simp] theorem Wave.setUnit_savedFmt (w : Wave) (a : Arm) (u : UnitSt) : (w.setUnit a u).savedFmt = w.savedFmt := by cases a <;> rfl
@[simp] theorem Wave.setUnit_handler (w : Wave) (a : Arm) (u : UnitSt) : (w.setUnit a u).handler = w.handler := by cases a <;> rfl
@[simp] theorem Wave.setUnit_bucket (w : Wave) (a : Arm) (u : UnitSt) : (w.setUnit a u).bucket = w.bucket := by cases a <;> rfl
@[simp] theorem Wave.setUnit_bounds (w : Wave) (a : Arm) (u : UnitSt) : (w.setUnit a u).bounds = w.bounds := by cases a <;> rfl
@[simp] theorem Wave.setUnit_phaseVar (w : Wave) (a : Arm) (u : UnitSt) : (w.setUnit a u).phaseVar = w.phaseVar := by cases a <;> rfl
@[simp] theorem Wave.setUnit_phaseStart (w : Wave) (a : Arm) (u : UnitSt) : (w.setUnit a u).phaseStart = w.phaseStart := by cases a <;> rfl
@[simp] theorem Wave.setUnit_cycCapture (w : Wave) (a : Arm) (u : UnitSt) : (w.setUnit a u).cycCapture = w.cycCapture := by cases a <;> rfl
@[simp] theorem Wave.setUnit_progress (w : Wave) (a : Arm) (u : UnitSt) : (w.setUnit a u).progress = w.progress := by cases a <;> rfl
@[simp] theorem Wave.setUnit_watchdogFired (w : Wave) (a : Arm) (u : UnitSt) : (w.setUnit a u).watchdogFired = w.watchdogFired := by cases a <;> rfl
@[simp] theorem Wave.setUnit_missed (w : Wave) (a : Arm) (u : UnitSt) : (w.setUnit a u).missed = w.missed := by cases a <;> rfl
@[simp] theorem Wave.setUnit_late (w : Wave) (a : Arm) (u : UnitSt) : (w.setUnit a u).late = w.late := by cases a <;> rfl
@[simp] theorem Wave.setUnit_calls (w : Wave) (a : Arm) (u : UnitSt) : (w.setUnit a u).calls = w.calls := by cases a <;> rfl
@[simp] theorem Wave.setUnit_spilledCalls (w : Wave) (a : Arm) (u : UnitSt) : (w.setUnit a u).spilledCalls = w.spilledCalls := by cases a <;> rfl
@[simp] theorem Wave.setUnit_callArm (w : Wave) (a : Arm) (u : UnitSt) : (w.setUnit a u).callArm = w.callArm := by cases a <;> rfl
@[simp] theorem Wave.setUnit_spillBase (w : Wave) (a : Arm) (u : UnitSt) : (w.setUnit a u).spillBase = w.spillBase := by cases a <;> rfl
@[simp] theorem Wave.setUnit_spillSize (w : Wave) (a : Arm) (u : UnitSt) : (w.setUnit a u).spillSize = w.spillSize := by cases a <;> rfl
@[simp] theorem Wave.setUnit_spillPoison (w : Wave) (a : Arm) (u : UnitSt) : (w.setUnit a u).spillPoison = w.spillPoison := by cases a <;> rfl
@[simp] theorem Wave.setUnit_haltedLanes (w : Wave) (a : Arm) (u : UnitSt) : (w.setUnit a u).haltedLanes = w.haltedLanes := by cases a <;> rfl
@[simp] theorem Wave.setUnit_divergent (w : Wave) (a : Arm) (u : UnitSt) : (w.setUnit a u).divergent = w.divergent := by cases a <;> rfl
@[simp] theorem Wave.setUnit_pend (w : Wave) (a : Arm) (u : UnitSt) : (w.setUnit a u).pend = w.pend := by cases a <;> rfl
@[simp] theorem Wave.setUnit_nextOp (w : Wave) (a : Arm) (u : UnitSt) : (w.setUnit a u).nextOp = w.nextOp := by cases a <;> rfl
@[simp] theorem Wave.setUnit_withdrawn (w : Wave) (a : Arm) (u : UnitSt) : (w.setUnit a u).withdrawn = w.withdrawn := by cases a <;> rfl
@[simp] theorem Wave.setUnit_dbgStop (w : Wave) (a : Arm) (u : UnitSt) : (w.setUnit a u).dbgStop = w.dbgStop := by cases a <;> rfl
@[simp] theorem Wave.setUnit_dbgStep (w : Wave) (a : Arm) (u : UnitSt) : (w.setUnit a u).dbgStep = w.dbgStep := by cases a <;> rfl

/-! ## Wave.setS -/

@[simp] theorem Wave.setS_seq (w : Wave) (n : Nat) (x : Word) (p : Bool) : (w.setS n x p).seq = w.seq := by unfold Wave.setS; split <;> rfl
@[simp] theorem Wave.setS_wid (w : Wave) (n : Nat) (x : Word) (p : Bool) : (w.setS n x p).wid = w.wid := by unfold Wave.setS; split <;> rfl
@[simp] theorem Wave.setS_part (w : Wave) (n : Nat) (x : Word) (p : Bool) : (w.setS n x p).part = w.part := by unfold Wave.setS; split <;> rfl
@[simp] theorem Wave.setS_core (w : Wave) (n : Nat) (x : Word) (p : Bool) : (w.setS n x p).core = w.core := by unfold Wave.setS; split <;> rfl
@[simp] theorem Wave.setS_place (w : Wave) (n : Nat) (x : Word) (p : Bool) : (w.setS n x p).place = w.place := by unfold Wave.setS; split <;> rfl
@[simp] theorem Wave.setS_status (w : Wave) (n : Nat) (x : Word) (p : Bool) : (w.setS n x p).status = w.status := by unfold Wave.setS; split <;> rfl
@[simp] theorem Wave.setS_saved (w : Wave) (n : Nat) (x : Word) (p : Bool) : (w.setS n x p).saved = w.saved := by unfold Wave.setS; split <;> rfl
@[simp] theorem Wave.setS_started (w : Wave) (n : Nat) (x : Word) (p : Bool) : (w.setS n x p).started = w.started := by unfold Wave.setS; split <;> rfl
@[simp] theorem Wave.setS_ctx (w : Wave) (n : Nat) (x : Word) (p : Bool) : (w.setS n x p).ctx = w.ctx := by unfold Wave.setS; split <;> rfl
@[simp] theorem Wave.setS_parkedAt (w : Wave) (n : Nat) (x : Word) (p : Bool) : (w.setS n x p).parkedAt = w.parkedAt := by unfold Wave.setS; split <;> rfl
@[simp] theorem Wave.setS_readyAt (w : Wave) (n : Nat) (x : Word) (p : Bool) : (w.setS n x p).readyAt = w.readyAt := by unfold Wave.setS; split <;> rfl
@[simp] theorem Wave.setS_ctxAt (w : Wave) (n : Nat) (x : Word) (p : Bool) : (w.setS n x p).ctxAt = w.ctxAt := by unfold Wave.setS; split <;> rfl
@[simp] theorem Wave.setS_vregs (w : Wave) (n : Nat) (x : Word) (p : Bool) : (w.setS n x p).vregs = w.vregs := by unfold Wave.setS; split <;> rfl
@[simp] theorem Wave.setS_lo (w : Wave) (n : Nat) (x : Word) (p : Bool) : (w.setS n x p).lo = w.lo := by unfold Wave.setS; split <;> rfl
@[simp] theorem Wave.setS_winBase (w : Wave) (n : Nat) (x : Word) (p : Bool) : (w.setS n x p).winBase = w.winBase := by unfold Wave.setS; split <;> rfl
@[simp] theorem Wave.setS_pregs (w : Wave) (n : Nat) (x : Word) (p : Bool) : (w.setS n x p).pregs = w.pregs := by unfold Wave.setS; split <;> rfl
@[simp] theorem Wave.setS_qregs (w : Wave) (n : Nat) (x : Word) (p : Bool) : (w.setS n x p).qregs = w.qregs := by unfold Wave.setS; split <;> rfl
@[simp] theorem Wave.setS_qpoison (w : Wave) (n : Nat) (x : Word) (p : Bool) : (w.setS n x p).qpoison = w.qpoison := by unfold Wave.setS; split <;> rfl
@[simp] theorem Wave.setS_tiles (w : Wave) (n : Nat) (x : Word) (p : Bool) : (w.setS n x p).tiles = w.tiles := by unfold Wave.setS; split <;> rfl
@[simp] theorem Wave.setS_accs (w : Wave) (n : Nat) (x : Word) (p : Bool) : (w.setS n x p).accs = w.accs := by unfold Wave.setS; split <;> rfl
@[simp] theorem Wave.setS_fpFlags (w : Wave) (n : Nat) (x : Word) (p : Bool) : (w.setS n x p).fpFlags = w.fpFlags := by unfold Wave.setS; split <;> rfl
@[simp] theorem Wave.setS_trapCause (w : Wave) (n : Nat) (x : Word) (p : Bool) : (w.setS n x p).trapCause = w.trapCause := by unfold Wave.setS; split <;> rfl
@[simp] theorem Wave.setS_trapAddr (w : Wave) (n : Nat) (x : Word) (p : Bool) : (w.setS n x p).trapAddr = w.trapAddr := by unfold Wave.setS; split <;> rfl
@[simp] theorem Wave.setS_trapPc (w : Wave) (n : Nat) (x : Word) (p : Bool) : (w.setS n x p).trapPc = w.trapPc := by unfold Wave.setS; split <;> rfl
@[simp] theorem Wave.setS_trapBase (w : Wave) (n : Nat) (x : Word) (p : Bool) : (w.setS n x p).trapBase = w.trapBase := by unfold Wave.setS; split <;> rfl
@[simp] theorem Wave.setS_savedFmt (w : Wave) (n : Nat) (x : Word) (p : Bool) : (w.setS n x p).savedFmt = w.savedFmt := by unfold Wave.setS; split <;> rfl
@[simp] theorem Wave.setS_handler (w : Wave) (n : Nat) (x : Word) (p : Bool) : (w.setS n x p).handler = w.handler := by unfold Wave.setS; split <;> rfl
@[simp] theorem Wave.setS_bucket (w : Wave) (n : Nat) (x : Word) (p : Bool) : (w.setS n x p).bucket = w.bucket := by unfold Wave.setS; split <;> rfl
@[simp] theorem Wave.setS_bounds (w : Wave) (n : Nat) (x : Word) (p : Bool) : (w.setS n x p).bounds = w.bounds := by unfold Wave.setS; split <;> rfl
@[simp] theorem Wave.setS_phaseVar (w : Wave) (n : Nat) (x : Word) (p : Bool) : (w.setS n x p).phaseVar = w.phaseVar := by unfold Wave.setS; split <;> rfl
@[simp] theorem Wave.setS_phaseStart (w : Wave) (n : Nat) (x : Word) (p : Bool) : (w.setS n x p).phaseStart = w.phaseStart := by unfold Wave.setS; split <;> rfl
@[simp] theorem Wave.setS_cycCapture (w : Wave) (n : Nat) (x : Word) (p : Bool) : (w.setS n x p).cycCapture = w.cycCapture := by unfold Wave.setS; split <;> rfl
@[simp] theorem Wave.setS_progress (w : Wave) (n : Nat) (x : Word) (p : Bool) : (w.setS n x p).progress = w.progress := by unfold Wave.setS; split <;> rfl
@[simp] theorem Wave.setS_watchdogFired (w : Wave) (n : Nat) (x : Word) (p : Bool) : (w.setS n x p).watchdogFired = w.watchdogFired := by unfold Wave.setS; split <;> rfl
@[simp] theorem Wave.setS_missed (w : Wave) (n : Nat) (x : Word) (p : Bool) : (w.setS n x p).missed = w.missed := by unfold Wave.setS; split <;> rfl
@[simp] theorem Wave.setS_late (w : Wave) (n : Nat) (x : Word) (p : Bool) : (w.setS n x p).late = w.late := by unfold Wave.setS; split <;> rfl
@[simp] theorem Wave.setS_calls (w : Wave) (n : Nat) (x : Word) (p : Bool) : (w.setS n x p).calls = w.calls := by unfold Wave.setS; split <;> rfl
@[simp] theorem Wave.setS_spilledCalls (w : Wave) (n : Nat) (x : Word) (p : Bool) : (w.setS n x p).spilledCalls = w.spilledCalls := by unfold Wave.setS; split <;> rfl
@[simp] theorem Wave.setS_callArm (w : Wave) (n : Nat) (x : Word) (p : Bool) : (w.setS n x p).callArm = w.callArm := by unfold Wave.setS; split <;> rfl
@[simp] theorem Wave.setS_spillBase (w : Wave) (n : Nat) (x : Word) (p : Bool) : (w.setS n x p).spillBase = w.spillBase := by unfold Wave.setS; split <;> rfl
@[simp] theorem Wave.setS_spillSize (w : Wave) (n : Nat) (x : Word) (p : Bool) : (w.setS n x p).spillSize = w.spillSize := by unfold Wave.setS; split <;> rfl
@[simp] theorem Wave.setS_spillPoison (w : Wave) (n : Nat) (x : Word) (p : Bool) : (w.setS n x p).spillPoison = w.spillPoison := by unfold Wave.setS; split <;> rfl
@[simp] theorem Wave.setS_haltedLanes (w : Wave) (n : Nat) (x : Word) (p : Bool) : (w.setS n x p).haltedLanes = w.haltedLanes := by unfold Wave.setS; split <;> rfl
@[simp] theorem Wave.setS_divergent (w : Wave) (n : Nat) (x : Word) (p : Bool) : (w.setS n x p).divergent = w.divergent := by unfold Wave.setS; split <;> rfl
@[simp] theorem Wave.setS_unitT (w : Wave) (n : Nat) (x : Word) (p : Bool) : (w.setS n x p).unitT = w.unitT := by unfold Wave.setS; split <;> rfl
@[simp] theorem Wave.setS_unitE (w : Wave) (n : Nat) (x : Word) (p : Bool) : (w.setS n x p).unitE = w.unitE := by unfold Wave.setS; split <;> rfl
@[simp] theorem Wave.setS_pend (w : Wave) (n : Nat) (x : Word) (p : Bool) : (w.setS n x p).pend = w.pend := by unfold Wave.setS; split <;> rfl
@[simp] theorem Wave.setS_nextOp (w : Wave) (n : Nat) (x : Word) (p : Bool) : (w.setS n x p).nextOp = w.nextOp := by unfold Wave.setS; split <;> rfl
@[simp] theorem Wave.setS_withdrawn (w : Wave) (n : Nat) (x : Word) (p : Bool) : (w.setS n x p).withdrawn = w.withdrawn := by unfold Wave.setS; split <;> rfl
@[simp] theorem Wave.setS_dbgStop (w : Wave) (n : Nat) (x : Word) (p : Bool) : (w.setS n x p).dbgStop = w.dbgStop := by unfold Wave.setS; split <;> rfl
@[simp] theorem Wave.setS_dbgStep (w : Wave) (n : Nat) (x : Word) (p : Bool) : (w.setS n x p).dbgStep = w.dbgStep := by unfold Wave.setS; split <;> rfl

/-! ## Wave.setQ -/

@[simp] theorem Wave.setQ_seq (w : Wave) (n : Nat) (x p : Bool) : (w.setQ n x p).seq = w.seq := by unfold Wave.setQ; split <;> rfl
@[simp] theorem Wave.setQ_wid (w : Wave) (n : Nat) (x p : Bool) : (w.setQ n x p).wid = w.wid := by unfold Wave.setQ; split <;> rfl
@[simp] theorem Wave.setQ_part (w : Wave) (n : Nat) (x p : Bool) : (w.setQ n x p).part = w.part := by unfold Wave.setQ; split <;> rfl
@[simp] theorem Wave.setQ_core (w : Wave) (n : Nat) (x p : Bool) : (w.setQ n x p).core = w.core := by unfold Wave.setQ; split <;> rfl
@[simp] theorem Wave.setQ_place (w : Wave) (n : Nat) (x p : Bool) : (w.setQ n x p).place = w.place := by unfold Wave.setQ; split <;> rfl
@[simp] theorem Wave.setQ_status (w : Wave) (n : Nat) (x p : Bool) : (w.setQ n x p).status = w.status := by unfold Wave.setQ; split <;> rfl
@[simp] theorem Wave.setQ_saved (w : Wave) (n : Nat) (x p : Bool) : (w.setQ n x p).saved = w.saved := by unfold Wave.setQ; split <;> rfl
@[simp] theorem Wave.setQ_started (w : Wave) (n : Nat) (x p : Bool) : (w.setQ n x p).started = w.started := by unfold Wave.setQ; split <;> rfl
@[simp] theorem Wave.setQ_ctx (w : Wave) (n : Nat) (x p : Bool) : (w.setQ n x p).ctx = w.ctx := by unfold Wave.setQ; split <;> rfl
@[simp] theorem Wave.setQ_parkedAt (w : Wave) (n : Nat) (x p : Bool) : (w.setQ n x p).parkedAt = w.parkedAt := by unfold Wave.setQ; split <;> rfl
@[simp] theorem Wave.setQ_readyAt (w : Wave) (n : Nat) (x p : Bool) : (w.setQ n x p).readyAt = w.readyAt := by unfold Wave.setQ; split <;> rfl
@[simp] theorem Wave.setQ_ctxAt (w : Wave) (n : Nat) (x p : Bool) : (w.setQ n x p).ctxAt = w.ctxAt := by unfold Wave.setQ; split <;> rfl
@[simp] theorem Wave.setQ_vregs (w : Wave) (n : Nat) (x p : Bool) : (w.setQ n x p).vregs = w.vregs := by unfold Wave.setQ; split <;> rfl
@[simp] theorem Wave.setQ_lo (w : Wave) (n : Nat) (x p : Bool) : (w.setQ n x p).lo = w.lo := by unfold Wave.setQ; split <;> rfl
@[simp] theorem Wave.setQ_winBase (w : Wave) (n : Nat) (x p : Bool) : (w.setQ n x p).winBase = w.winBase := by unfold Wave.setQ; split <;> rfl
@[simp] theorem Wave.setQ_sregs (w : Wave) (n : Nat) (x p : Bool) : (w.setQ n x p).sregs = w.sregs := by unfold Wave.setQ; split <;> rfl
@[simp] theorem Wave.setQ_spoison (w : Wave) (n : Nat) (x p : Bool) : (w.setQ n x p).spoison = w.spoison := by unfold Wave.setQ; split <;> rfl
@[simp] theorem Wave.setQ_pregs (w : Wave) (n : Nat) (x p : Bool) : (w.setQ n x p).pregs = w.pregs := by unfold Wave.setQ; split <;> rfl
@[simp] theorem Wave.setQ_tiles (w : Wave) (n : Nat) (x p : Bool) : (w.setQ n x p).tiles = w.tiles := by unfold Wave.setQ; split <;> rfl
@[simp] theorem Wave.setQ_accs (w : Wave) (n : Nat) (x p : Bool) : (w.setQ n x p).accs = w.accs := by unfold Wave.setQ; split <;> rfl
@[simp] theorem Wave.setQ_fpFlags (w : Wave) (n : Nat) (x p : Bool) : (w.setQ n x p).fpFlags = w.fpFlags := by unfold Wave.setQ; split <;> rfl
@[simp] theorem Wave.setQ_trapCause (w : Wave) (n : Nat) (x p : Bool) : (w.setQ n x p).trapCause = w.trapCause := by unfold Wave.setQ; split <;> rfl
@[simp] theorem Wave.setQ_trapAddr (w : Wave) (n : Nat) (x p : Bool) : (w.setQ n x p).trapAddr = w.trapAddr := by unfold Wave.setQ; split <;> rfl
@[simp] theorem Wave.setQ_trapPc (w : Wave) (n : Nat) (x p : Bool) : (w.setQ n x p).trapPc = w.trapPc := by unfold Wave.setQ; split <;> rfl
@[simp] theorem Wave.setQ_trapBase (w : Wave) (n : Nat) (x p : Bool) : (w.setQ n x p).trapBase = w.trapBase := by unfold Wave.setQ; split <;> rfl
@[simp] theorem Wave.setQ_savedFmt (w : Wave) (n : Nat) (x p : Bool) : (w.setQ n x p).savedFmt = w.savedFmt := by unfold Wave.setQ; split <;> rfl
@[simp] theorem Wave.setQ_handler (w : Wave) (n : Nat) (x p : Bool) : (w.setQ n x p).handler = w.handler := by unfold Wave.setQ; split <;> rfl
@[simp] theorem Wave.setQ_bucket (w : Wave) (n : Nat) (x p : Bool) : (w.setQ n x p).bucket = w.bucket := by unfold Wave.setQ; split <;> rfl
@[simp] theorem Wave.setQ_bounds (w : Wave) (n : Nat) (x p : Bool) : (w.setQ n x p).bounds = w.bounds := by unfold Wave.setQ; split <;> rfl
@[simp] theorem Wave.setQ_phaseVar (w : Wave) (n : Nat) (x p : Bool) : (w.setQ n x p).phaseVar = w.phaseVar := by unfold Wave.setQ; split <;> rfl
@[simp] theorem Wave.setQ_phaseStart (w : Wave) (n : Nat) (x p : Bool) : (w.setQ n x p).phaseStart = w.phaseStart := by unfold Wave.setQ; split <;> rfl
@[simp] theorem Wave.setQ_cycCapture (w : Wave) (n : Nat) (x p : Bool) : (w.setQ n x p).cycCapture = w.cycCapture := by unfold Wave.setQ; split <;> rfl
@[simp] theorem Wave.setQ_progress (w : Wave) (n : Nat) (x p : Bool) : (w.setQ n x p).progress = w.progress := by unfold Wave.setQ; split <;> rfl
@[simp] theorem Wave.setQ_watchdogFired (w : Wave) (n : Nat) (x p : Bool) : (w.setQ n x p).watchdogFired = w.watchdogFired := by unfold Wave.setQ; split <;> rfl
@[simp] theorem Wave.setQ_missed (w : Wave) (n : Nat) (x p : Bool) : (w.setQ n x p).missed = w.missed := by unfold Wave.setQ; split <;> rfl
@[simp] theorem Wave.setQ_late (w : Wave) (n : Nat) (x p : Bool) : (w.setQ n x p).late = w.late := by unfold Wave.setQ; split <;> rfl
@[simp] theorem Wave.setQ_calls (w : Wave) (n : Nat) (x p : Bool) : (w.setQ n x p).calls = w.calls := by unfold Wave.setQ; split <;> rfl
@[simp] theorem Wave.setQ_spilledCalls (w : Wave) (n : Nat) (x p : Bool) : (w.setQ n x p).spilledCalls = w.spilledCalls := by unfold Wave.setQ; split <;> rfl
@[simp] theorem Wave.setQ_callArm (w : Wave) (n : Nat) (x p : Bool) : (w.setQ n x p).callArm = w.callArm := by unfold Wave.setQ; split <;> rfl
@[simp] theorem Wave.setQ_spillBase (w : Wave) (n : Nat) (x p : Bool) : (w.setQ n x p).spillBase = w.spillBase := by unfold Wave.setQ; split <;> rfl
@[simp] theorem Wave.setQ_spillSize (w : Wave) (n : Nat) (x p : Bool) : (w.setQ n x p).spillSize = w.spillSize := by unfold Wave.setQ; split <;> rfl
@[simp] theorem Wave.setQ_spillPoison (w : Wave) (n : Nat) (x p : Bool) : (w.setQ n x p).spillPoison = w.spillPoison := by unfold Wave.setQ; split <;> rfl
@[simp] theorem Wave.setQ_haltedLanes (w : Wave) (n : Nat) (x p : Bool) : (w.setQ n x p).haltedLanes = w.haltedLanes := by unfold Wave.setQ; split <;> rfl
@[simp] theorem Wave.setQ_divergent (w : Wave) (n : Nat) (x p : Bool) : (w.setQ n x p).divergent = w.divergent := by unfold Wave.setQ; split <;> rfl
@[simp] theorem Wave.setQ_unitT (w : Wave) (n : Nat) (x p : Bool) : (w.setQ n x p).unitT = w.unitT := by unfold Wave.setQ; split <;> rfl
@[simp] theorem Wave.setQ_unitE (w : Wave) (n : Nat) (x p : Bool) : (w.setQ n x p).unitE = w.unitE := by unfold Wave.setQ; split <;> rfl
@[simp] theorem Wave.setQ_pend (w : Wave) (n : Nat) (x p : Bool) : (w.setQ n x p).pend = w.pend := by unfold Wave.setQ; split <;> rfl
@[simp] theorem Wave.setQ_nextOp (w : Wave) (n : Nat) (x p : Bool) : (w.setQ n x p).nextOp = w.nextOp := by unfold Wave.setQ; split <;> rfl
@[simp] theorem Wave.setQ_withdrawn (w : Wave) (n : Nat) (x p : Bool) : (w.setQ n x p).withdrawn = w.withdrawn := by unfold Wave.setQ; split <;> rfl
@[simp] theorem Wave.setQ_dbgStop (w : Wave) (n : Nat) (x p : Bool) : (w.setQ n x p).dbgStop = w.dbgStop := by unfold Wave.setQ; split <;> rfl
@[simp] theorem Wave.setQ_dbgStep (w : Wave) (n : Nat) (x p : Bool) : (w.setQ n x p).dbgStep = w.dbgStep := by unfold Wave.setQ; split <;> rfl

/-! ## Wave.setP -/

@[simp] theorem Wave.setP_seq (w : Wave) (n : Nat) (m b p : Lanes) : (w.setP n m b p).seq = w.seq := by unfold Wave.setP; split <;> rfl
@[simp] theorem Wave.setP_wid (w : Wave) (n : Nat) (m b p : Lanes) : (w.setP n m b p).wid = w.wid := by unfold Wave.setP; split <;> rfl
@[simp] theorem Wave.setP_part (w : Wave) (n : Nat) (m b p : Lanes) : (w.setP n m b p).part = w.part := by unfold Wave.setP; split <;> rfl
@[simp] theorem Wave.setP_core (w : Wave) (n : Nat) (m b p : Lanes) : (w.setP n m b p).core = w.core := by unfold Wave.setP; split <;> rfl
@[simp] theorem Wave.setP_place (w : Wave) (n : Nat) (m b p : Lanes) : (w.setP n m b p).place = w.place := by unfold Wave.setP; split <;> rfl
@[simp] theorem Wave.setP_status (w : Wave) (n : Nat) (m b p : Lanes) : (w.setP n m b p).status = w.status := by unfold Wave.setP; split <;> rfl
@[simp] theorem Wave.setP_saved (w : Wave) (n : Nat) (m b p : Lanes) : (w.setP n m b p).saved = w.saved := by unfold Wave.setP; split <;> rfl
@[simp] theorem Wave.setP_started (w : Wave) (n : Nat) (m b p : Lanes) : (w.setP n m b p).started = w.started := by unfold Wave.setP; split <;> rfl
@[simp] theorem Wave.setP_ctx (w : Wave) (n : Nat) (m b p : Lanes) : (w.setP n m b p).ctx = w.ctx := by unfold Wave.setP; split <;> rfl
@[simp] theorem Wave.setP_parkedAt (w : Wave) (n : Nat) (m b p : Lanes) : (w.setP n m b p).parkedAt = w.parkedAt := by unfold Wave.setP; split <;> rfl
@[simp] theorem Wave.setP_readyAt (w : Wave) (n : Nat) (m b p : Lanes) : (w.setP n m b p).readyAt = w.readyAt := by unfold Wave.setP; split <;> rfl
@[simp] theorem Wave.setP_ctxAt (w : Wave) (n : Nat) (m b p : Lanes) : (w.setP n m b p).ctxAt = w.ctxAt := by unfold Wave.setP; split <;> rfl
@[simp] theorem Wave.setP_vregs (w : Wave) (n : Nat) (m b p : Lanes) : (w.setP n m b p).vregs = w.vregs := by unfold Wave.setP; split <;> rfl
@[simp] theorem Wave.setP_lo (w : Wave) (n : Nat) (m b p : Lanes) : (w.setP n m b p).lo = w.lo := by unfold Wave.setP; split <;> rfl
@[simp] theorem Wave.setP_winBase (w : Wave) (n : Nat) (m b p : Lanes) : (w.setP n m b p).winBase = w.winBase := by unfold Wave.setP; split <;> rfl
@[simp] theorem Wave.setP_sregs (w : Wave) (n : Nat) (m b p : Lanes) : (w.setP n m b p).sregs = w.sregs := by unfold Wave.setP; split <;> rfl
@[simp] theorem Wave.setP_spoison (w : Wave) (n : Nat) (m b p : Lanes) : (w.setP n m b p).spoison = w.spoison := by unfold Wave.setP; split <;> rfl
@[simp] theorem Wave.setP_qregs (w : Wave) (n : Nat) (m b p : Lanes) : (w.setP n m b p).qregs = w.qregs := by unfold Wave.setP; split <;> rfl
@[simp] theorem Wave.setP_qpoison (w : Wave) (n : Nat) (m b p : Lanes) : (w.setP n m b p).qpoison = w.qpoison := by unfold Wave.setP; split <;> rfl
@[simp] theorem Wave.setP_tiles (w : Wave) (n : Nat) (m b p : Lanes) : (w.setP n m b p).tiles = w.tiles := by unfold Wave.setP; split <;> rfl
@[simp] theorem Wave.setP_accs (w : Wave) (n : Nat) (m b p : Lanes) : (w.setP n m b p).accs = w.accs := by unfold Wave.setP; split <;> rfl
@[simp] theorem Wave.setP_fpFlags (w : Wave) (n : Nat) (m b p : Lanes) : (w.setP n m b p).fpFlags = w.fpFlags := by unfold Wave.setP; split <;> rfl
@[simp] theorem Wave.setP_trapCause (w : Wave) (n : Nat) (m b p : Lanes) : (w.setP n m b p).trapCause = w.trapCause := by unfold Wave.setP; split <;> rfl
@[simp] theorem Wave.setP_trapAddr (w : Wave) (n : Nat) (m b p : Lanes) : (w.setP n m b p).trapAddr = w.trapAddr := by unfold Wave.setP; split <;> rfl
@[simp] theorem Wave.setP_trapPc (w : Wave) (n : Nat) (m b p : Lanes) : (w.setP n m b p).trapPc = w.trapPc := by unfold Wave.setP; split <;> rfl
@[simp] theorem Wave.setP_trapBase (w : Wave) (n : Nat) (m b p : Lanes) : (w.setP n m b p).trapBase = w.trapBase := by unfold Wave.setP; split <;> rfl
@[simp] theorem Wave.setP_savedFmt (w : Wave) (n : Nat) (m b p : Lanes) : (w.setP n m b p).savedFmt = w.savedFmt := by unfold Wave.setP; split <;> rfl
@[simp] theorem Wave.setP_handler (w : Wave) (n : Nat) (m b p : Lanes) : (w.setP n m b p).handler = w.handler := by unfold Wave.setP; split <;> rfl
@[simp] theorem Wave.setP_bucket (w : Wave) (n : Nat) (m b p : Lanes) : (w.setP n m b p).bucket = w.bucket := by unfold Wave.setP; split <;> rfl
@[simp] theorem Wave.setP_bounds (w : Wave) (n : Nat) (m b p : Lanes) : (w.setP n m b p).bounds = w.bounds := by unfold Wave.setP; split <;> rfl
@[simp] theorem Wave.setP_phaseVar (w : Wave) (n : Nat) (m b p : Lanes) : (w.setP n m b p).phaseVar = w.phaseVar := by unfold Wave.setP; split <;> rfl
@[simp] theorem Wave.setP_phaseStart (w : Wave) (n : Nat) (m b p : Lanes) : (w.setP n m b p).phaseStart = w.phaseStart := by unfold Wave.setP; split <;> rfl
@[simp] theorem Wave.setP_cycCapture (w : Wave) (n : Nat) (m b p : Lanes) : (w.setP n m b p).cycCapture = w.cycCapture := by unfold Wave.setP; split <;> rfl
@[simp] theorem Wave.setP_progress (w : Wave) (n : Nat) (m b p : Lanes) : (w.setP n m b p).progress = w.progress := by unfold Wave.setP; split <;> rfl
@[simp] theorem Wave.setP_watchdogFired (w : Wave) (n : Nat) (m b p : Lanes) : (w.setP n m b p).watchdogFired = w.watchdogFired := by unfold Wave.setP; split <;> rfl
@[simp] theorem Wave.setP_missed (w : Wave) (n : Nat) (m b p : Lanes) : (w.setP n m b p).missed = w.missed := by unfold Wave.setP; split <;> rfl
@[simp] theorem Wave.setP_late (w : Wave) (n : Nat) (m b p : Lanes) : (w.setP n m b p).late = w.late := by unfold Wave.setP; split <;> rfl
@[simp] theorem Wave.setP_calls (w : Wave) (n : Nat) (m b p : Lanes) : (w.setP n m b p).calls = w.calls := by unfold Wave.setP; split <;> rfl
@[simp] theorem Wave.setP_spilledCalls (w : Wave) (n : Nat) (m b p : Lanes) : (w.setP n m b p).spilledCalls = w.spilledCalls := by unfold Wave.setP; split <;> rfl
@[simp] theorem Wave.setP_callArm (w : Wave) (n : Nat) (m b p : Lanes) : (w.setP n m b p).callArm = w.callArm := by unfold Wave.setP; split <;> rfl
@[simp] theorem Wave.setP_spillBase (w : Wave) (n : Nat) (m b p : Lanes) : (w.setP n m b p).spillBase = w.spillBase := by unfold Wave.setP; split <;> rfl
@[simp] theorem Wave.setP_spillSize (w : Wave) (n : Nat) (m b p : Lanes) : (w.setP n m b p).spillSize = w.spillSize := by unfold Wave.setP; split <;> rfl
@[simp] theorem Wave.setP_spillPoison (w : Wave) (n : Nat) (m b p : Lanes) : (w.setP n m b p).spillPoison = w.spillPoison := by unfold Wave.setP; split <;> rfl
@[simp] theorem Wave.setP_haltedLanes (w : Wave) (n : Nat) (m b p : Lanes) : (w.setP n m b p).haltedLanes = w.haltedLanes := by unfold Wave.setP; split <;> rfl
@[simp] theorem Wave.setP_divergent (w : Wave) (n : Nat) (m b p : Lanes) : (w.setP n m b p).divergent = w.divergent := by unfold Wave.setP; split <;> rfl
@[simp] theorem Wave.setP_unitT (w : Wave) (n : Nat) (m b p : Lanes) : (w.setP n m b p).unitT = w.unitT := by unfold Wave.setP; split <;> rfl
@[simp] theorem Wave.setP_unitE (w : Wave) (n : Nat) (m b p : Lanes) : (w.setP n m b p).unitE = w.unitE := by unfold Wave.setP; split <;> rfl
@[simp] theorem Wave.setP_pend (w : Wave) (n : Nat) (m b p : Lanes) : (w.setP n m b p).pend = w.pend := by unfold Wave.setP; split <;> rfl
@[simp] theorem Wave.setP_nextOp (w : Wave) (n : Nat) (m b p : Lanes) : (w.setP n m b p).nextOp = w.nextOp := by unfold Wave.setP; split <;> rfl
@[simp] theorem Wave.setP_withdrawn (w : Wave) (n : Nat) (m b p : Lanes) : (w.setP n m b p).withdrawn = w.withdrawn := by unfold Wave.setP; split <;> rfl
@[simp] theorem Wave.setP_dbgStop (w : Wave) (n : Nat) (m b p : Lanes) : (w.setP n m b p).dbgStop = w.dbgStop := by unfold Wave.setP; split <;> rfl
@[simp] theorem Wave.setP_dbgStep (w : Wave) (n : Nat) (m b p : Lanes) : (w.setP n m b p).dbgStep = w.dbgStep := by unfold Wave.setP; split <;> rfl

/-! ## Wave.writeV -/

@[simp] theorem Wave.writeV_seq (w : Wave) (n : Nat) (m : Lanes) (l : List Elem) : (w.writeV n m l).seq = w.seq := rfl
@[simp] theorem Wave.writeV_wid (w : Wave) (n : Nat) (m : Lanes) (l : List Elem) : (w.writeV n m l).wid = w.wid := rfl
@[simp] theorem Wave.writeV_part (w : Wave) (n : Nat) (m : Lanes) (l : List Elem) : (w.writeV n m l).part = w.part := rfl
@[simp] theorem Wave.writeV_core (w : Wave) (n : Nat) (m : Lanes) (l : List Elem) : (w.writeV n m l).core = w.core := rfl
@[simp] theorem Wave.writeV_place (w : Wave) (n : Nat) (m : Lanes) (l : List Elem) : (w.writeV n m l).place = w.place := rfl
@[simp] theorem Wave.writeV_status (w : Wave) (n : Nat) (m : Lanes) (l : List Elem) : (w.writeV n m l).status = w.status := rfl
@[simp] theorem Wave.writeV_saved (w : Wave) (n : Nat) (m : Lanes) (l : List Elem) : (w.writeV n m l).saved = w.saved := rfl
@[simp] theorem Wave.writeV_started (w : Wave) (n : Nat) (m : Lanes) (l : List Elem) : (w.writeV n m l).started = w.started := rfl
@[simp] theorem Wave.writeV_ctx (w : Wave) (n : Nat) (m : Lanes) (l : List Elem) : (w.writeV n m l).ctx = w.ctx := rfl
@[simp] theorem Wave.writeV_parkedAt (w : Wave) (n : Nat) (m : Lanes) (l : List Elem) : (w.writeV n m l).parkedAt = w.parkedAt := rfl
@[simp] theorem Wave.writeV_readyAt (w : Wave) (n : Nat) (m : Lanes) (l : List Elem) : (w.writeV n m l).readyAt = w.readyAt := rfl
@[simp] theorem Wave.writeV_ctxAt (w : Wave) (n : Nat) (m : Lanes) (l : List Elem) : (w.writeV n m l).ctxAt = w.ctxAt := rfl
@[simp] theorem Wave.writeV_lo (w : Wave) (n : Nat) (m : Lanes) (l : List Elem) : (w.writeV n m l).lo = w.lo := rfl
@[simp] theorem Wave.writeV_winBase (w : Wave) (n : Nat) (m : Lanes) (l : List Elem) : (w.writeV n m l).winBase = w.winBase := rfl
@[simp] theorem Wave.writeV_sregs (w : Wave) (n : Nat) (m : Lanes) (l : List Elem) : (w.writeV n m l).sregs = w.sregs := rfl
@[simp] theorem Wave.writeV_spoison (w : Wave) (n : Nat) (m : Lanes) (l : List Elem) : (w.writeV n m l).spoison = w.spoison := rfl
@[simp] theorem Wave.writeV_pregs (w : Wave) (n : Nat) (m : Lanes) (l : List Elem) : (w.writeV n m l).pregs = w.pregs := rfl
@[simp] theorem Wave.writeV_qregs (w : Wave) (n : Nat) (m : Lanes) (l : List Elem) : (w.writeV n m l).qregs = w.qregs := rfl
@[simp] theorem Wave.writeV_qpoison (w : Wave) (n : Nat) (m : Lanes) (l : List Elem) : (w.writeV n m l).qpoison = w.qpoison := rfl
@[simp] theorem Wave.writeV_tiles (w : Wave) (n : Nat) (m : Lanes) (l : List Elem) : (w.writeV n m l).tiles = w.tiles := rfl
@[simp] theorem Wave.writeV_accs (w : Wave) (n : Nat) (m : Lanes) (l : List Elem) : (w.writeV n m l).accs = w.accs := rfl
@[simp] theorem Wave.writeV_fpFlags (w : Wave) (n : Nat) (m : Lanes) (l : List Elem) : (w.writeV n m l).fpFlags = w.fpFlags := rfl
@[simp] theorem Wave.writeV_trapCause (w : Wave) (n : Nat) (m : Lanes) (l : List Elem) : (w.writeV n m l).trapCause = w.trapCause := rfl
@[simp] theorem Wave.writeV_trapAddr (w : Wave) (n : Nat) (m : Lanes) (l : List Elem) : (w.writeV n m l).trapAddr = w.trapAddr := rfl
@[simp] theorem Wave.writeV_trapPc (w : Wave) (n : Nat) (m : Lanes) (l : List Elem) : (w.writeV n m l).trapPc = w.trapPc := rfl
@[simp] theorem Wave.writeV_trapBase (w : Wave) (n : Nat) (m : Lanes) (l : List Elem) : (w.writeV n m l).trapBase = w.trapBase := rfl
@[simp] theorem Wave.writeV_savedFmt (w : Wave) (n : Nat) (m : Lanes) (l : List Elem) : (w.writeV n m l).savedFmt = w.savedFmt := rfl
@[simp] theorem Wave.writeV_handler (w : Wave) (n : Nat) (m : Lanes) (l : List Elem) : (w.writeV n m l).handler = w.handler := rfl
@[simp] theorem Wave.writeV_bucket (w : Wave) (n : Nat) (m : Lanes) (l : List Elem) : (w.writeV n m l).bucket = w.bucket := rfl
@[simp] theorem Wave.writeV_bounds (w : Wave) (n : Nat) (m : Lanes) (l : List Elem) : (w.writeV n m l).bounds = w.bounds := rfl
@[simp] theorem Wave.writeV_phaseVar (w : Wave) (n : Nat) (m : Lanes) (l : List Elem) : (w.writeV n m l).phaseVar = w.phaseVar := rfl
@[simp] theorem Wave.writeV_phaseStart (w : Wave) (n : Nat) (m : Lanes) (l : List Elem) : (w.writeV n m l).phaseStart = w.phaseStart := rfl
@[simp] theorem Wave.writeV_cycCapture (w : Wave) (n : Nat) (m : Lanes) (l : List Elem) : (w.writeV n m l).cycCapture = w.cycCapture := rfl
@[simp] theorem Wave.writeV_progress (w : Wave) (n : Nat) (m : Lanes) (l : List Elem) : (w.writeV n m l).progress = w.progress := rfl
@[simp] theorem Wave.writeV_watchdogFired (w : Wave) (n : Nat) (m : Lanes) (l : List Elem) : (w.writeV n m l).watchdogFired = w.watchdogFired := rfl
@[simp] theorem Wave.writeV_missed (w : Wave) (n : Nat) (m : Lanes) (l : List Elem) : (w.writeV n m l).missed = w.missed := rfl
@[simp] theorem Wave.writeV_late (w : Wave) (n : Nat) (m : Lanes) (l : List Elem) : (w.writeV n m l).late = w.late := rfl
@[simp] theorem Wave.writeV_calls (w : Wave) (n : Nat) (m : Lanes) (l : List Elem) : (w.writeV n m l).calls = w.calls := rfl
@[simp] theorem Wave.writeV_spilledCalls (w : Wave) (n : Nat) (m : Lanes) (l : List Elem) : (w.writeV n m l).spilledCalls = w.spilledCalls := rfl
@[simp] theorem Wave.writeV_callArm (w : Wave) (n : Nat) (m : Lanes) (l : List Elem) : (w.writeV n m l).callArm = w.callArm := rfl
@[simp] theorem Wave.writeV_spillBase (w : Wave) (n : Nat) (m : Lanes) (l : List Elem) : (w.writeV n m l).spillBase = w.spillBase := rfl
@[simp] theorem Wave.writeV_spillSize (w : Wave) (n : Nat) (m : Lanes) (l : List Elem) : (w.writeV n m l).spillSize = w.spillSize := rfl
@[simp] theorem Wave.writeV_spillPoison (w : Wave) (n : Nat) (m : Lanes) (l : List Elem) : (w.writeV n m l).spillPoison = w.spillPoison := rfl
@[simp] theorem Wave.writeV_haltedLanes (w : Wave) (n : Nat) (m : Lanes) (l : List Elem) : (w.writeV n m l).haltedLanes = w.haltedLanes := rfl
@[simp] theorem Wave.writeV_divergent (w : Wave) (n : Nat) (m : Lanes) (l : List Elem) : (w.writeV n m l).divergent = w.divergent := rfl
@[simp] theorem Wave.writeV_unitT (w : Wave) (n : Nat) (m : Lanes) (l : List Elem) : (w.writeV n m l).unitT = w.unitT := rfl
@[simp] theorem Wave.writeV_unitE (w : Wave) (n : Nat) (m : Lanes) (l : List Elem) : (w.writeV n m l).unitE = w.unitE := rfl
@[simp] theorem Wave.writeV_pend (w : Wave) (n : Nat) (m : Lanes) (l : List Elem) : (w.writeV n m l).pend = w.pend := rfl
@[simp] theorem Wave.writeV_nextOp (w : Wave) (n : Nat) (m : Lanes) (l : List Elem) : (w.writeV n m l).nextOp = w.nextOp := rfl
@[simp] theorem Wave.writeV_withdrawn (w : Wave) (n : Nat) (m : Lanes) (l : List Elem) : (w.writeV n m l).withdrawn = w.withdrawn := rfl
@[simp] theorem Wave.writeV_dbgStop (w : Wave) (n : Nat) (m : Lanes) (l : List Elem) : (w.writeV n m l).dbgStop = w.dbgStop := rfl
@[simp] theorem Wave.writeV_dbgStep (w : Wave) (n : Nat) (m : Lanes) (l : List Elem) : (w.writeV n m l).dbgStep = w.dbgStep := rfl

/-! ## Wave.setTile -/

@[simp] theorem Wave.setTile_seq (w : Wave) (n : Nat) (x : BitVec 128) : (w.setTile n x).seq = w.seq := rfl
@[simp] theorem Wave.setTile_wid (w : Wave) (n : Nat) (x : BitVec 128) : (w.setTile n x).wid = w.wid := rfl
@[simp] theorem Wave.setTile_part (w : Wave) (n : Nat) (x : BitVec 128) : (w.setTile n x).part = w.part := rfl
@[simp] theorem Wave.setTile_core (w : Wave) (n : Nat) (x : BitVec 128) : (w.setTile n x).core = w.core := rfl
@[simp] theorem Wave.setTile_place (w : Wave) (n : Nat) (x : BitVec 128) : (w.setTile n x).place = w.place := rfl
@[simp] theorem Wave.setTile_status (w : Wave) (n : Nat) (x : BitVec 128) : (w.setTile n x).status = w.status := rfl
@[simp] theorem Wave.setTile_saved (w : Wave) (n : Nat) (x : BitVec 128) : (w.setTile n x).saved = w.saved := rfl
@[simp] theorem Wave.setTile_started (w : Wave) (n : Nat) (x : BitVec 128) : (w.setTile n x).started = w.started := rfl
@[simp] theorem Wave.setTile_ctx (w : Wave) (n : Nat) (x : BitVec 128) : (w.setTile n x).ctx = w.ctx := rfl
@[simp] theorem Wave.setTile_parkedAt (w : Wave) (n : Nat) (x : BitVec 128) : (w.setTile n x).parkedAt = w.parkedAt := rfl
@[simp] theorem Wave.setTile_readyAt (w : Wave) (n : Nat) (x : BitVec 128) : (w.setTile n x).readyAt = w.readyAt := rfl
@[simp] theorem Wave.setTile_ctxAt (w : Wave) (n : Nat) (x : BitVec 128) : (w.setTile n x).ctxAt = w.ctxAt := rfl
@[simp] theorem Wave.setTile_vregs (w : Wave) (n : Nat) (x : BitVec 128) : (w.setTile n x).vregs = w.vregs := rfl
@[simp] theorem Wave.setTile_lo (w : Wave) (n : Nat) (x : BitVec 128) : (w.setTile n x).lo = w.lo := rfl
@[simp] theorem Wave.setTile_winBase (w : Wave) (n : Nat) (x : BitVec 128) : (w.setTile n x).winBase = w.winBase := rfl
@[simp] theorem Wave.setTile_sregs (w : Wave) (n : Nat) (x : BitVec 128) : (w.setTile n x).sregs = w.sregs := rfl
@[simp] theorem Wave.setTile_spoison (w : Wave) (n : Nat) (x : BitVec 128) : (w.setTile n x).spoison = w.spoison := rfl
@[simp] theorem Wave.setTile_pregs (w : Wave) (n : Nat) (x : BitVec 128) : (w.setTile n x).pregs = w.pregs := rfl
@[simp] theorem Wave.setTile_qregs (w : Wave) (n : Nat) (x : BitVec 128) : (w.setTile n x).qregs = w.qregs := rfl
@[simp] theorem Wave.setTile_qpoison (w : Wave) (n : Nat) (x : BitVec 128) : (w.setTile n x).qpoison = w.qpoison := rfl
@[simp] theorem Wave.setTile_accs (w : Wave) (n : Nat) (x : BitVec 128) : (w.setTile n x).accs = w.accs := rfl
@[simp] theorem Wave.setTile_fpFlags (w : Wave) (n : Nat) (x : BitVec 128) : (w.setTile n x).fpFlags = w.fpFlags := rfl
@[simp] theorem Wave.setTile_trapCause (w : Wave) (n : Nat) (x : BitVec 128) : (w.setTile n x).trapCause = w.trapCause := rfl
@[simp] theorem Wave.setTile_trapAddr (w : Wave) (n : Nat) (x : BitVec 128) : (w.setTile n x).trapAddr = w.trapAddr := rfl
@[simp] theorem Wave.setTile_trapPc (w : Wave) (n : Nat) (x : BitVec 128) : (w.setTile n x).trapPc = w.trapPc := rfl
@[simp] theorem Wave.setTile_trapBase (w : Wave) (n : Nat) (x : BitVec 128) : (w.setTile n x).trapBase = w.trapBase := rfl
@[simp] theorem Wave.setTile_savedFmt (w : Wave) (n : Nat) (x : BitVec 128) : (w.setTile n x).savedFmt = w.savedFmt := rfl
@[simp] theorem Wave.setTile_handler (w : Wave) (n : Nat) (x : BitVec 128) : (w.setTile n x).handler = w.handler := rfl
@[simp] theorem Wave.setTile_bucket (w : Wave) (n : Nat) (x : BitVec 128) : (w.setTile n x).bucket = w.bucket := rfl
@[simp] theorem Wave.setTile_bounds (w : Wave) (n : Nat) (x : BitVec 128) : (w.setTile n x).bounds = w.bounds := rfl
@[simp] theorem Wave.setTile_phaseVar (w : Wave) (n : Nat) (x : BitVec 128) : (w.setTile n x).phaseVar = w.phaseVar := rfl
@[simp] theorem Wave.setTile_phaseStart (w : Wave) (n : Nat) (x : BitVec 128) : (w.setTile n x).phaseStart = w.phaseStart := rfl
@[simp] theorem Wave.setTile_cycCapture (w : Wave) (n : Nat) (x : BitVec 128) : (w.setTile n x).cycCapture = w.cycCapture := rfl
@[simp] theorem Wave.setTile_progress (w : Wave) (n : Nat) (x : BitVec 128) : (w.setTile n x).progress = w.progress := rfl
@[simp] theorem Wave.setTile_watchdogFired (w : Wave) (n : Nat) (x : BitVec 128) : (w.setTile n x).watchdogFired = w.watchdogFired := rfl
@[simp] theorem Wave.setTile_missed (w : Wave) (n : Nat) (x : BitVec 128) : (w.setTile n x).missed = w.missed := rfl
@[simp] theorem Wave.setTile_late (w : Wave) (n : Nat) (x : BitVec 128) : (w.setTile n x).late = w.late := rfl
@[simp] theorem Wave.setTile_calls (w : Wave) (n : Nat) (x : BitVec 128) : (w.setTile n x).calls = w.calls := rfl
@[simp] theorem Wave.setTile_spilledCalls (w : Wave) (n : Nat) (x : BitVec 128) : (w.setTile n x).spilledCalls = w.spilledCalls := rfl
@[simp] theorem Wave.setTile_callArm (w : Wave) (n : Nat) (x : BitVec 128) : (w.setTile n x).callArm = w.callArm := rfl
@[simp] theorem Wave.setTile_spillBase (w : Wave) (n : Nat) (x : BitVec 128) : (w.setTile n x).spillBase = w.spillBase := rfl
@[simp] theorem Wave.setTile_spillSize (w : Wave) (n : Nat) (x : BitVec 128) : (w.setTile n x).spillSize = w.spillSize := rfl
@[simp] theorem Wave.setTile_spillPoison (w : Wave) (n : Nat) (x : BitVec 128) : (w.setTile n x).spillPoison = w.spillPoison := rfl
@[simp] theorem Wave.setTile_haltedLanes (w : Wave) (n : Nat) (x : BitVec 128) : (w.setTile n x).haltedLanes = w.haltedLanes := rfl
@[simp] theorem Wave.setTile_divergent (w : Wave) (n : Nat) (x : BitVec 128) : (w.setTile n x).divergent = w.divergent := rfl
@[simp] theorem Wave.setTile_unitT (w : Wave) (n : Nat) (x : BitVec 128) : (w.setTile n x).unitT = w.unitT := rfl
@[simp] theorem Wave.setTile_unitE (w : Wave) (n : Nat) (x : BitVec 128) : (w.setTile n x).unitE = w.unitE := rfl
@[simp] theorem Wave.setTile_pend (w : Wave) (n : Nat) (x : BitVec 128) : (w.setTile n x).pend = w.pend := rfl
@[simp] theorem Wave.setTile_nextOp (w : Wave) (n : Nat) (x : BitVec 128) : (w.setTile n x).nextOp = w.nextOp := rfl
@[simp] theorem Wave.setTile_withdrawn (w : Wave) (n : Nat) (x : BitVec 128) : (w.setTile n x).withdrawn = w.withdrawn := rfl
@[simp] theorem Wave.setTile_dbgStop (w : Wave) (n : Nat) (x : BitVec 128) : (w.setTile n x).dbgStop = w.dbgStop := rfl
@[simp] theorem Wave.setTile_dbgStep (w : Wave) (n : Nat) (x : BitVec 128) : (w.setTile n x).dbgStep = w.dbgStep := rfl

/-! ## Wave.raise -/

@[simp] theorem Wave.raise_seq (w : Wave) (f : Flags) : (w.raise f).seq = w.seq := rfl
@[simp] theorem Wave.raise_wid (w : Wave) (f : Flags) : (w.raise f).wid = w.wid := rfl
@[simp] theorem Wave.raise_part (w : Wave) (f : Flags) : (w.raise f).part = w.part := rfl
@[simp] theorem Wave.raise_core (w : Wave) (f : Flags) : (w.raise f).core = w.core := rfl
@[simp] theorem Wave.raise_place (w : Wave) (f : Flags) : (w.raise f).place = w.place := rfl
@[simp] theorem Wave.raise_status (w : Wave) (f : Flags) : (w.raise f).status = w.status := rfl
@[simp] theorem Wave.raise_saved (w : Wave) (f : Flags) : (w.raise f).saved = w.saved := rfl
@[simp] theorem Wave.raise_started (w : Wave) (f : Flags) : (w.raise f).started = w.started := rfl
@[simp] theorem Wave.raise_ctx (w : Wave) (f : Flags) : (w.raise f).ctx = w.ctx := rfl
@[simp] theorem Wave.raise_parkedAt (w : Wave) (f : Flags) : (w.raise f).parkedAt = w.parkedAt := rfl
@[simp] theorem Wave.raise_readyAt (w : Wave) (f : Flags) : (w.raise f).readyAt = w.readyAt := rfl
@[simp] theorem Wave.raise_ctxAt (w : Wave) (f : Flags) : (w.raise f).ctxAt = w.ctxAt := rfl
@[simp] theorem Wave.raise_vregs (w : Wave) (f : Flags) : (w.raise f).vregs = w.vregs := rfl
@[simp] theorem Wave.raise_lo (w : Wave) (f : Flags) : (w.raise f).lo = w.lo := rfl
@[simp] theorem Wave.raise_winBase (w : Wave) (f : Flags) : (w.raise f).winBase = w.winBase := rfl
@[simp] theorem Wave.raise_sregs (w : Wave) (f : Flags) : (w.raise f).sregs = w.sregs := rfl
@[simp] theorem Wave.raise_spoison (w : Wave) (f : Flags) : (w.raise f).spoison = w.spoison := rfl
@[simp] theorem Wave.raise_pregs (w : Wave) (f : Flags) : (w.raise f).pregs = w.pregs := rfl
@[simp] theorem Wave.raise_qregs (w : Wave) (f : Flags) : (w.raise f).qregs = w.qregs := rfl
@[simp] theorem Wave.raise_qpoison (w : Wave) (f : Flags) : (w.raise f).qpoison = w.qpoison := rfl
@[simp] theorem Wave.raise_tiles (w : Wave) (f : Flags) : (w.raise f).tiles = w.tiles := rfl
@[simp] theorem Wave.raise_accs (w : Wave) (f : Flags) : (w.raise f).accs = w.accs := rfl
@[simp] theorem Wave.raise_trapCause (w : Wave) (f : Flags) : (w.raise f).trapCause = w.trapCause := rfl
@[simp] theorem Wave.raise_trapAddr (w : Wave) (f : Flags) : (w.raise f).trapAddr = w.trapAddr := rfl
@[simp] theorem Wave.raise_trapPc (w : Wave) (f : Flags) : (w.raise f).trapPc = w.trapPc := rfl
@[simp] theorem Wave.raise_trapBase (w : Wave) (f : Flags) : (w.raise f).trapBase = w.trapBase := rfl
@[simp] theorem Wave.raise_savedFmt (w : Wave) (f : Flags) : (w.raise f).savedFmt = w.savedFmt := rfl
@[simp] theorem Wave.raise_handler (w : Wave) (f : Flags) : (w.raise f).handler = w.handler := rfl
@[simp] theorem Wave.raise_bucket (w : Wave) (f : Flags) : (w.raise f).bucket = w.bucket := rfl
@[simp] theorem Wave.raise_bounds (w : Wave) (f : Flags) : (w.raise f).bounds = w.bounds := rfl
@[simp] theorem Wave.raise_phaseVar (w : Wave) (f : Flags) : (w.raise f).phaseVar = w.phaseVar := rfl
@[simp] theorem Wave.raise_phaseStart (w : Wave) (f : Flags) : (w.raise f).phaseStart = w.phaseStart := rfl
@[simp] theorem Wave.raise_cycCapture (w : Wave) (f : Flags) : (w.raise f).cycCapture = w.cycCapture := rfl
@[simp] theorem Wave.raise_progress (w : Wave) (f : Flags) : (w.raise f).progress = w.progress := rfl
@[simp] theorem Wave.raise_watchdogFired (w : Wave) (f : Flags) : (w.raise f).watchdogFired = w.watchdogFired := rfl
@[simp] theorem Wave.raise_missed (w : Wave) (f : Flags) : (w.raise f).missed = w.missed := rfl
@[simp] theorem Wave.raise_late (w : Wave) (f : Flags) : (w.raise f).late = w.late := rfl
@[simp] theorem Wave.raise_calls (w : Wave) (f : Flags) : (w.raise f).calls = w.calls := rfl
@[simp] theorem Wave.raise_spilledCalls (w : Wave) (f : Flags) : (w.raise f).spilledCalls = w.spilledCalls := rfl
@[simp] theorem Wave.raise_callArm (w : Wave) (f : Flags) : (w.raise f).callArm = w.callArm := rfl
@[simp] theorem Wave.raise_spillBase (w : Wave) (f : Flags) : (w.raise f).spillBase = w.spillBase := rfl
@[simp] theorem Wave.raise_spillSize (w : Wave) (f : Flags) : (w.raise f).spillSize = w.spillSize := rfl
@[simp] theorem Wave.raise_spillPoison (w : Wave) (f : Flags) : (w.raise f).spillPoison = w.spillPoison := rfl
@[simp] theorem Wave.raise_haltedLanes (w : Wave) (f : Flags) : (w.raise f).haltedLanes = w.haltedLanes := rfl
@[simp] theorem Wave.raise_divergent (w : Wave) (f : Flags) : (w.raise f).divergent = w.divergent := rfl
@[simp] theorem Wave.raise_unitT (w : Wave) (f : Flags) : (w.raise f).unitT = w.unitT := rfl
@[simp] theorem Wave.raise_unitE (w : Wave) (f : Flags) : (w.raise f).unitE = w.unitE := rfl
@[simp] theorem Wave.raise_pend (w : Wave) (f : Flags) : (w.raise f).pend = w.pend := rfl
@[simp] theorem Wave.raise_nextOp (w : Wave) (f : Flags) : (w.raise f).nextOp = w.nextOp := rfl
@[simp] theorem Wave.raise_withdrawn (w : Wave) (f : Flags) : (w.raise f).withdrawn = w.withdrawn := rfl
@[simp] theorem Wave.raise_dbgStop (w : Wave) (f : Flags) : (w.raise f).dbgStop = w.dbgStop := rfl
@[simp] theorem Wave.raise_dbgStep (w : Wave) (f : Flags) : (w.raise f).dbgStep = w.dbgStep := rfl

end Sys2Proof.Machine
end

