-- ==== Sys2Proof/Laws/Memory.lean ====
section
/-!
SUPPORT. Memory: every operation keeps the canonical form; a read after a write gives what was written, and a write leaves
every other byte alone.
-/
namespace Sys2Proof.Machine

/-- A memory whose cells stand at or above `b` stands at or above any lower address. -/
theorem Memory.wfFrom_mono {lo hi : Nat} (h : lo ≤ hi) : ∀ {m : Memory}, Memory.wfFrom hi m = true → Memory.wfFrom lo m = true
  | [], _ => rfl
  | (a, b) :: rest, hm => by
    simp only [Memory.wfFrom, Bool.and_eq_true, decide_eq_true_eq] at hm ⊢
    exact ⟨⟨by omega, hm.1.2⟩, hm.2⟩

/-- A canonical memory's tail is canonical above its first cell. -/
theorem Memory.wfFrom_tail {lo a : Nat} {b : Byte} {m : Memory} (h : Memory.wfFrom lo ((a, b) :: m) = true) :
    lo ≤ a ∧ b ≠ Memory.background ∧ Memory.wfFrom (a + 1) m = true := by
  simpa [Memory.wfFrom, and_assoc] using h

/-- A byte put in front of cells above it. -/
theorem Memory.wfFrom_cons {lo a : Nat} {b : Byte} {m : Memory} (hlo : lo ≤ a) (h : Memory.wfFrom (a + 1) m = true) :
    Memory.wfFrom lo (Memory.cons a b m) = true := by
  unfold Memory.cons
  split
  · exact Memory.wfFrom_mono (by omega) h
  · rename_i hb
    simp [Memory.wfFrom, hlo, hb, h]

/-- A write keeps the canonical form. -/
theorem Memory.wfFrom_write {lo a : Nat} {b : Byte} (hlo : lo ≤ a) :
    ∀ {m : Memory}, Memory.wfFrom lo m = true → Memory.wfFrom lo (m.write a b) = true
  | [], _ => Memory.wfFrom_cons hlo rfl
  | (k, x) :: rest, h => by
    obtain ⟨h1, h2, h3⟩ := Memory.wfFrom_tail h
    unfold Memory.write
    split
    · simp only [Memory.wfFrom, Bool.and_eq_true, decide_eq_true_eq]
      exact ⟨⟨h1, h2⟩, Memory.wfFrom_write (by omega) h3⟩
    · split
      · subst_vars; exact Memory.wfFrom_cons hlo h3
      · refine Memory.wfFrom_cons hlo ?_
        simp only [Memory.wfFrom, Bool.and_eq_true, decide_eq_true_eq]
        exact ⟨⟨by omega, h2⟩, h3⟩

/-- A write keeps the canonical form. -/
theorem Memory.wf_write {m : Memory} (h : m.wf = true) (a : Nat) (b : Byte) : (m.write a b).wf = true :=
  Memory.wfFrom_write (Nat.zero_le a) h

/-- Several writes keep the canonical form. -/
theorem Memory.wf_writeBytes : ∀ {m : Memory} (a : Nat) (bs : List Byte), m.wf = true → (m.writeBytes a bs).wf = true
  | _, _, [], h => h
  | _, a, b :: bs, h => Memory.wf_writeBytes (a + 1) bs (Memory.wf_write h a b)

/-- A number written keeps the canonical form. -/
theorem Memory.wf_writeNat {m : Memory} (h : m.wf = true) (a n x : Nat) : (m.writeNat a n x).wf = true :=
  Memory.wf_writeBytes a _ h

/-- Cells dropped by any test leave a canonical memory. -/
theorem Memory.wfFrom_filter (p : Host.Cell → Bool) :
    ∀ {lo : Nat} {m : Memory}, Memory.wfFrom lo m = true → Memory.wfFrom lo (m.filter p) = true
  | _, [], _ => rfl
  | lo, (a, b) :: rest, h => by
    obtain ⟨h1, h2, h3⟩ := Memory.wfFrom_tail h
    have ih := Memory.wfFrom_filter p h3
    rw [List.filter_cons]
    split
    · simp [Memory.wfFrom, h1, h2, ih]
    · exact Memory.wfFrom_mono (by omega) ih

/-- Cells dropped by any test leave a canonical memory. -/
theorem Memory.wf_filter {m : Memory} (p : Host.Cell → Bool) (h : m.wf = true) : Memory.wf (m.filter p) = true :=
  Memory.wfFrom_filter p h

/-- Bytes back at the background leave a canonical memory. -/
theorem Memory.wf_clear {m : Memory} (h : m.wf = true) (a n : Nat) : (m.clear a n).wf = true :=
  Memory.wfFrom_filter _ h

/-- Nothing stands below a canonical memory's first cell. -/
theorem Memory.read_below {a : Nat} : ∀ {lo : Nat} {m : Memory}, Memory.wfFrom lo m = true → a < lo → m.read a = Memory.background
  | _, [], _, _ => rfl
  | lo, (k, x) :: rest, h, ha => by
    obtain ⟨h1, _, _⟩ := Memory.wfFrom_tail h
    simp only [Memory.read]
    rw [if_neg (by omega), if_neg (by omega)]

/-- The byte in front of a memory. -/
theorem Memory.read_cons {a k : Nat} {b : Byte} {m : Memory} (h : Memory.wfFrom (a + 1) m = true) :
    (Memory.cons a b m).read k = if k = a then b else if k < a then Memory.background else m.read k := by
  unfold Memory.cons
  split
  · rename_i hb
    split
    · rename_i e; rw [hb, Memory.read_below h (by omega)]
    · split
      · exact Memory.read_below h (by omega)
      · rfl
  · simp only [Memory.read]
    rcases Nat.lt_trichotomy k a with hk | hk | hk
    · rw [if_neg (by omega), if_neg (by omega), if_neg (by omega), if_pos hk]
    · rw [if_neg (by omega), if_pos hk.symm, if_pos hk]
    · rw [if_pos hk, if_neg (by omega), if_neg (by omega)]

/-- A read after a write: the byte written at its address, and every other byte as it was. -/
theorem Memory.read_writeFrom {a k : Nat} {b : Byte} :
    ∀ {lo : Nat} {m : Memory}, Memory.wfFrom lo m = true → (m.write a b).read k = if k = a then b else m.read k
  | _, [], _ => by
    simp only [Memory.write, Memory.read]
    rw [Memory.read_cons rfl]
    simp [Memory.read]
  | lo, (c, x) :: rest, h => by
    obtain ⟨h1, h2, h3⟩ := Memory.wfFrom_tail h
    unfold Memory.write
    split
    · rename_i hc
      have ih := Memory.read_writeFrom (a := a) (k := k) (b := b) h3
      simp only [Memory.read]
      split
      · exact ih
      · rw [if_neg (show ¬ k = a by omega)]
    · split
      · rename_i hc he
        subst he
        rw [Memory.read_cons h3]
        simp only [Memory.read]
        rcases Nat.lt_trichotomy k c with hk | hk | hk
        · rw [if_neg (by omega), if_pos hk, if_neg (by omega), if_neg (by omega), if_neg (by omega)]
        · rw [if_pos hk, if_pos hk]
        · rw [if_neg (by omega), if_neg (by omega), if_neg (by omega), if_pos hk]
      · rename_i hc he
        have hw : Memory.wfFrom (a + 1) ((c, x) :: rest) = true := by
          simp only [Memory.wfFrom, Bool.and_eq_true, decide_eq_true_eq]
          exact ⟨⟨by omega, h2⟩, h3⟩
        rw [Memory.read_cons hw]
        split
        · rfl
        · split
          · simp only [Memory.read]; rw [if_neg (by omega), if_neg (by omega)]
          · rfl

/-- A read after a write: the byte written at its address, and every other byte as it was. -/
theorem Memory.read_write {m : Memory} (h : m.wf = true) (a k : Nat) (b : Byte) :
    (m.write a b).read k = if k = a then b else m.read k := Memory.read_writeFrom h

/-- A read after several writes. -/
theorem Memory.read_writeBytes : ∀ {m : Memory} (a : Nat) (bs : List Byte) (k : Nat), m.wf = true →
    (m.writeBytes a bs).read k = if a ≤ k ∧ k < a + bs.length then bs.getD (k - a) 0 else m.read k
  | m, a, [], k, _ => by
    simp only [Memory.writeBytes, List.length_nil]
    rw [if_neg (by omega)]
  | m, a, b :: bs, k, h => by
    simp only [Memory.writeBytes, List.length_cons]
    rw [Memory.read_writeBytes (a + 1) bs k (Memory.wf_write h a b), Memory.read_write h]
    by_cases h1 : k = a
    · subst h1
      rw [if_neg (by omega), if_pos rfl, if_pos (by omega)]
      simp
    · by_cases h2 : a + 1 ≤ k ∧ k < a + 1 + bs.length
      · rw [if_pos h2, if_pos (by omega)]
        have : k - a = (k - (a + 1)) + 1 := by omega
        rw [this, List.getD_cons_succ]
      · rw [if_neg h2, if_neg h1, if_neg (by omega)]

/-- Two canonical memories that read the same are the same list. -/
theorem Memory.ext_read : ∀ {lo : Nat} {m n : Memory}, Memory.wfFrom lo m = true → Memory.wfFrom lo n = true →
    (∀ k, m.read k = n.read k) → m = n
  | _, [], [], _, _, _ => rfl
  | _, [], (c, y) :: r, _, hn, h => by
    obtain ⟨_, h2, _⟩ := Memory.wfFrom_tail hn
    have := h c
    simp [Memory.read] at this
    exact absurd this.symm h2
  | _, (a, x) :: r, [], hm, _, h => by
    obtain ⟨_, h2, _⟩ := Memory.wfFrom_tail hm
    have := h a
    simp [Memory.read] at this
    exact absurd this h2
  | lo, (a, x) :: r, (c, y) :: q, hm, hn, h => by
    obtain ⟨_, hx, hr⟩ := Memory.wfFrom_tail hm
    obtain ⟨_, hy, hq⟩ := Memory.wfFrom_tail hn
    have hac : a = c := by
      rcases Nat.lt_trichotomy a c with hk | hk | hk
      · have := h a
        simp only [Memory.read] at this
        rw [if_neg (by omega), if_pos trivial, if_neg (by omega), if_neg (by omega)] at this
        exact absurd this hx
      · exact hk
      · have := h c
        simp only [Memory.read] at this
        rw [if_neg (by omega), if_neg (by omega), if_neg (by omega), if_pos trivial] at this
        exact absurd this.symm hy
    subst hac
    have hxy : x = y := by simpa [Memory.read] using h a
    subst hxy
    have hrq : r = q := Memory.ext_read hr hq (fun k => by
      have := h k
      simp only [Memory.read] at this
      by_cases hk : a < k
      · simpa [hk] using this
      · rw [Memory.read_below hr (by omega), Memory.read_below hq (by omega)])
    rw [hrq]

/-! ## The operations of the state -/

/-- Dropping poison marks leaves memory. -/
@[simp] theorem State.clearCovered_mem (s : State) (k n : Nat) : (s.clearCovered k n).mem = s.mem := by
  have one : ∀ (c : Prop) [Decidable c] (t : State) (j : Nat), (if c then t.clearPoison j else t).mem = t.mem := by
    intro c _ t j
    rcases Decidable.em c with h | h
    · rw [if_pos h, State.clearPoison_mem]
    · rw [if_neg h]
  have fold : ∀ (l : List Nat) (f : State → Nat → State) (t : State), (∀ t x, (f t x).mem = t.mem) →
      (l.foldl f t).mem = t.mem := by
    intro l f
    induction l with
    | nil => intro t _; rfl
    | cons x xs ih => intro t h; rw [List.foldl_cons, ih _ h, h]
  unfold State.clearCovered
  dsimp only
  exact fold _ _ _ fun t x => one _ t _

/-- Memory after bytes are written. -/
@[simp] theorem State.poke_mem (s : State) (k : Nat) (bs : List Byte) : (s.poke k bs).mem = s.mem.writeBytes k bs := rfl

/-- Memory after a number is written. -/
@[simp] theorem State.pokeNat_mem (s : State) (k n x : Nat) : (s.pokeNat k n x).mem = s.mem.writeNat k n x := rfl

/-- Writing bytes keeps the canonical form. -/
theorem State.poke_wf {s : State} (h : s.mem.wf = true) (k : Nat) (bs : List Byte) : (s.poke k bs).mem.wf = true :=
  Memory.wf_writeBytes k bs h

/-- Writing a number keeps the canonical form. -/
theorem State.pokeNat_wf {s : State} (h : s.mem.wf = true) (k n x : Nat) : (s.pokeNat k n x).mem.wf = true :=
  Memory.wf_writeBytes k _ h

/-- An error-log record keeps the canonical form. -/
theorem State.logError_wf {s : State} (h : s.mem.wf = true) (p : Nat) (r : LogRec) : (s.logError p r).mem.wf = true := by
  unfold State.logError
  split
  · exact h
  · dsimp only
    split
    · exact h
    · split
      · rw [State.setMbox_mem]
        exact State.pokeNat_wf h _ _ _
      · exact h

/-- The memory of the reset state is canonical. -/
theorem State.reset_wf : State.reset.mem.wf = true := rfl

end Sys2Proof.Machine
end

