-- ==== Sys2Proof/Laws/Legal.lean ====
section
/-!
SUPPORT. Illegal Instruction: for each word, when it is illegal; and what the shared forms of a legal word do.
-/
namespace Sys2Proof.Machine

@[simp] theorem illegal_nop (s : State) (w : Wave) (u : UnitSt) (lit : Word) :
    illegalSub s w u lit .nop =
      none := rfl

@[simp] theorem illegal_uadd (s : State) (w : Wave) (u : UnitSt) (lit : Word) (x0 : BitVec 6) (x1 : BitVec 6) (x2 : BitVec 6) (x3 : BitVec 3) :
    illegalSub s w u lit (.uadd x0 x1 x2 x3) =
      none := rfl

@[simp] theorem illegal_usub (s : State) (w : Wave) (u : UnitSt) (lit : Word) (x0 : BitVec 6) (x1 : BitVec 6) (x2 : BitVec 6) (x3 : BitVec 3) :
    illegalSub s w u lit (.usub x0 x1 x2 x3) =
      none := rfl

@[simp] theorem illegal_umul (s : State) (w : Wave) (u : UnitSt) (lit : Word) (x0 : BitVec 6) (x1 : BitVec 6) (x2 : BitVec 6) (x3 : BitVec 3) :
    illegalSub s w u lit (.umul x0 x1 x2 x3) =
      none := rfl

@[simp] theorem illegal_umulh (s : State) (w : Wave) (u : UnitSt) (lit : Word) (x0 : BitVec 6) (x1 : BitVec 6) (x2 : BitVec 6) (x3 : BitVec 3) :
    illegalSub s w u lit (.umulh x0 x1 x2 x3) =
      none := rfl

@[simp] theorem illegal_umulhu (s : State) (w : Wave) (u : UnitSt) (lit : Word) (x0 : BitVec 6) (x1 : BitVec 6) (x2 : BitVec 6) (x3 : BitVec 3) :
    illegalSub s w u lit (.umulhu x0 x1 x2 x3) =
      none := rfl

@[simp] theorem illegal_uand (s : State) (w : Wave) (u : UnitSt) (lit : Word) (x0 : BitVec 6) (x1 : BitVec 6) (x2 : BitVec 6) (x3 : BitVec 3) :
    illegalSub s w u lit (.uand x0 x1 x2 x3) =
      none := rfl

@[simp] theorem illegal_uor (s : State) (w : Wave) (u : UnitSt) (lit : Word) (x0 : BitVec 6) (x1 : BitVec 6) (x2 : BitVec 6) (x3 : BitVec 3) :
    illegalSub s w u lit (.uor x0 x1 x2 x3) =
      none := rfl

@[simp] theorem illegal_uxor (s : State) (w : Wave) (u : UnitSt) (lit : Word) (x0 : BitVec 6) (x1 : BitVec 6) (x2 : BitVec 6) (x3 : BitVec 3) :
    illegalSub s w u lit (.uxor x0 x1 x2 x3) =
      none := rfl

@[simp] theorem illegal_ushl (s : State) (w : Wave) (u : UnitSt) (lit : Word) (x0 : BitVec 6) (x1 : BitVec 6) (x2 : BitVec 6) (x3 : BitVec 3) :
    illegalSub s w u lit (.ushl x0 x1 x2 x3) =
      none := rfl

@[simp] theorem illegal_ushr (s : State) (w : Wave) (u : UnitSt) (lit : Word) (x0 : BitVec 6) (x1 : BitVec 6) (x2 : BitVec 6) (x3 : BitVec 3) :
    illegalSub s w u lit (.ushr x0 x1 x2 x3) =
      none := rfl

@[simp] theorem illegal_usar (s : State) (w : Wave) (u : UnitSt) (lit : Word) (x0 : BitVec 6) (x1 : BitVec 6) (x2 : BitVec 6) (x3 : BitVec 3) :
    illegalSub s w u lit (.usar x0 x1 x2 x3) =
      none := rfl

@[simp] theorem illegal_umin (s : State) (w : Wave) (u : UnitSt) (lit : Word) (x0 : BitVec 6) (x1 : BitVec 6) (x2 : BitVec 6) (x3 : BitVec 3) :
    illegalSub s w u lit (.umin x0 x1 x2 x3) =
      none := rfl

@[simp] theorem illegal_umax (s : State) (w : Wave) (u : UnitSt) (lit : Word) (x0 : BitVec 6) (x1 : BitVec 6) (x2 : BitVec 6) (x3 : BitVec 3) :
    illegalSub s w u lit (.umax x0 x1 x2 x3) =
      none := rfl

@[simp] theorem illegal_uminu (s : State) (w : Wave) (u : UnitSt) (lit : Word) (x0 : BitVec 6) (x1 : BitVec 6) (x2 : BitVec 6) (x3 : BitVec 3) :
    illegalSub s w u lit (.uminu x0 x1 x2 x3) =
      none := rfl

@[simp] theorem illegal_umaxu (s : State) (w : Wave) (u : UnitSt) (lit : Word) (x0 : BitVec 6) (x1 : BitVec 6) (x2 : BitVec 6) (x3 : BitVec 3) :
    illegalSub s w u lit (.umaxu x0 x1 x2 x3) =
      none := rfl

@[simp] theorem illegal_umov (s : State) (w : Wave) (u : UnitSt) (lit : Word) (x0 : BitVec 6) (x1 : BitVec 6) (x2 : BitVec 3) :
    illegalSub s w u lit (.umov x0 x1 x2) =
      none := rfl

@[simp] theorem illegal_uaddi (s : State) (w : Wave) (u : UnitSt) (lit : Word) (x0 : BitVec 6) (x1 : BitVec 6) (x2 : BitVec 10) :
    illegalSub s w u lit (.uaddi x0 x1 x2) =
      none := rfl

@[simp] theorem illegal_umuli (s : State) (w : Wave) (u : UnitSt) (lit : Word) (x0 : BitVec 6) (x1 : BitVec 6) (x2 : BitVec 10) :
    illegalSub s w u lit (.umuli x0 x1 x2) =
      none := rfl

@[simp] theorem illegal_uandi (s : State) (w : Wave) (u : UnitSt) (lit : Word) (x0 : BitVec 6) (x1 : BitVec 6) (x2 : BitVec 10) :
    illegalSub s w u lit (.uandi x0 x1 x2) =
      none := rfl

@[simp] theorem illegal_uori (s : State) (w : Wave) (u : UnitSt) (lit : Word) (x0 : BitVec 6) (x1 : BitVec 6) (x2 : BitVec 10) :
    illegalSub s w u lit (.uori x0 x1 x2) =
      none := rfl

@[simp] theorem illegal_uxori (s : State) (w : Wave) (u : UnitSt) (lit : Word) (x0 : BitVec 6) (x1 : BitVec 6) (x2 : BitVec 10) :
    illegalSub s w u lit (.uxori x0 x1 x2) =
      none := rfl

@[simp] theorem illegal_ushli (s : State) (w : Wave) (u : UnitSt) (lit : Word) (x0 : BitVec 6) (x1 : BitVec 6) (x2 : BitVec 10) :
    illegalSub s w u lit (.ushli x0 x1 x2) =
      none := rfl

@[simp] theorem illegal_ushri (s : State) (w : Wave) (u : UnitSt) (lit : Word) (x0 : BitVec 6) (x1 : BitVec 6) (x2 : BitVec 10) :
    illegalSub s w u lit (.ushri x0 x1 x2) =
      none := rfl

@[simp] theorem illegal_usari (s : State) (w : Wave) (u : UnitSt) (lit : Word) (x0 : BitVec 6) (x1 : BitVec 6) (x2 : BitVec 10) :
    illegalSub s w u lit (.usari x0 x1 x2) =
      none := rfl

@[simp] theorem illegal_ucmp (s : State) (w : Wave) (u : UnitSt) (lit : Word) (x0 : BitVec 4) (q : BitVec 6) (x2 : BitVec 6) (x3 : BitVec 6) (x4 : BitVec 3) :
    illegalSub s w u lit (.ucmp x0 q x2 x3 x4) =
      illegalIf (badQ q) := rfl

@[simp] theorem illegal_ucmpi (s : State) (w : Wave) (u : UnitSt) (lit : Word) (x0 : BitVec 3) (q : BitVec 6) (x2 : BitVec 6) (x3 : BitVec 10) :
    illegalSub s w u lit (.ucmpi x0 q x2 x3) =
      illegalIf (badQ q) := rfl

@[simp] theorem illegal_uclz (s : State) (w : Wave) (u : UnitSt) (lit : Word) (x0 : BitVec 6) (x1 : BitVec 6) (x2 : BitVec 3) :
    illegalSub s w u lit (.uclz x0 x1 x2) =
      none := rfl

@[simp] theorem illegal_upopc (s : State) (w : Wave) (u : UnitSt) (lit : Word) (x0 : BitVec 6) (x1 : BitVec 6) (x2 : BitVec 3) :
    illegalSub s w u lit (.upopc x0 x1 x2) =
      none := rfl

@[simp] theorem illegal_ubrev (s : State) (w : Wave) (u : UnitSt) (lit : Word) (x0 : BitVec 6) (x1 : BitVec 6) (x2 : BitVec 3) :
    illegalSub s w u lit (.ubrev x0 x1 x2) =
      none := rfl

@[simp] theorem illegal_ubfx (s : State) (w : Wave) (u : UnitSt) (lit : Word) (x0 : BitVec 6) (x1 : BitVec 6) (x2 : BitVec 6) (x3 : BitVec 3) :
    illegalSub s w u lit (.ubfx x0 x1 x2 x3) =
      none := rfl

@[simp] theorem illegal_ubfi (s : State) (w : Wave) (u : UnitSt) (lit : Word) (x0 : BitVec 6) (x1 : BitVec 6) (x2 : BitVec 6) (x3 : BitVec 3) :
    illegalSub s w u lit (.ubfi x0 x1 x2 x3) =
      none := rfl

@[simp] theorem illegal_usel (s : State) (w : Wave) (u : UnitSt) (lit : Word) (x0 : BitVec 6) (x1 : BitVec 6) (x2 : BitVec 6) (x3 : BitVec 3) :
    illegalSub s w u lit (.usel x0 x1 x2 x3) =
      none := rfl

@[simp] theorem illegal_uqop (s : State) (w : Wave) (u : UnitSt) (lit : Word) (d : BitVec 6) (a : BitVec 6) (b : BitVec 6) (x3 : BitVec 3) :
    illegalSub s w u lit (.uqop d a b x3) =
      illegalIf (badQ d || badQ a || badQ b) := rfl

@[simp] theorem illegal_uqmovTos (s : State) (w : Wave) (u : UnitSt) (lit : Word) (x0 : BitVec 6) :
    illegalSub s w u lit (.uqmovTos x0) =
      none := rfl

@[simp] theorem illegal_uqmovFroms (s : State) (w : Wave) (u : UnitSt) (lit : Word) (x0 : BitVec 6) :
    illegalSub s w u lit (.uqmovFroms x0) =
      none := rfl

@[simp] theorem illegal_uld32 (s : State) (w : Wave) (u : UnitSt) (lit : Word) (x0 : BitVec 6) (a : BitVec 6) (x2 : BitVec 10) :
    illegalSub s w u lit (.uld32 x0 a x2) =
      illegalIf (odd a) := rfl

@[simp] theorem illegal_uld64 (s : State) (w : Wave) (u : UnitSt) (lit : Word) (d : BitVec 6) (a : BitVec 6) (x2 : BitVec 10) :
    illegalSub s w u lit (.uld64 d a x2) =
      illegalIf (odd a || odd d) := rfl

@[simp] theorem illegal_ust32 (s : State) (w : Wave) (u : UnitSt) (lit : Word) (x0 : BitVec 6) (a : BitVec 6) (x2 : BitVec 10) :
    illegalSub s w u lit (.ust32 x0 a x2) =
      illegalIf (odd a) := rfl

@[simp] theorem illegal_ust64 (s : State) (w : Wave) (u : UnitSt) (lit : Word) (d : BitVec 6) (a : BitVec 6) (x2 : BitVec 10) :
    illegalSub s w u lit (.ust64 d a x2) =
      illegalIf (odd a || odd d) := rfl

@[simp] theorem illegal_urds (s : State) (w : Wave) (u : UnitSt) (lit : Word) (x0 : BitVec 6) (n : BitVec 10) :
    illegalSub s w u lit (.urds x0 n) =
      illegalIf (!specialReadable n.toNat) := rfl

@[simp] theorem illegal_uwrs (s : State) (w : Wave) (u : UnitSt) (lit : Word) (x0 : BitVec 6) (n : BitVec 10) :
    illegalSub s w u lit (.uwrs x0 n) =
      illegalIf (!specialWritable n.toNat) := rfl

@[simp] theorem illegal_setfmt (s : State) (w : Wave) (u : UnitSt) (lit : Word) (x0 : BitVec 8) (x1 : BitVec 8) :
    illegalSub s w u lit (.setfmt x0 x1) =
      none := rfl

@[simp] theorem illegal_bra (s : State) (w : Wave) (u : UnitSt) (lit : Word) (x0 : BitVec 3) (x1 : BitVec 19) :
    illegalSub s w u lit (.bra x0 x1) =
      none := rfl

@[simp] theorem illegal_bran (s : State) (w : Wave) (u : UnitSt) (lit : Word) (x0 : BitVec 3) (x1 : BitVec 19) :
    illegalSub s w u lit (.bran x0 x1) =
      none := rfl

@[simp] theorem illegal_call (s : State) (w : Wave) (u : UnitSt) (lit : Word) (x0 : BitVec 3) (x1 : BitVec 19) :
    illegalSub s w u lit (.call x0 x1) =
      illegalIf (lit.toNat % 8 ≠ 0 || 64 < lit.toNat) := rfl

@[simp] theorem illegal_ret (s : State) (w : Wave) (u : UnitSt) (lit : Word) (q : BitVec 3) :
    illegalSub s w u lit (.ret q) =
      illegalIf (w.q q.toNat && !w.qPoison q.toNat && badReturn w u) := rfl

@[simp] theorem illegal_jmpi (s : State) (w : Wave) (u : UnitSt) (lit : Word) (x0 : BitVec 3) (x1 : BitVec 6) :
    illegalSub s w u lit (.jmpi x0 x1) =
      none := rfl

@[simp] theorem illegal_calli (s : State) (w : Wave) (u : UnitSt) (lit : Word) (x0 : BitVec 3) (x1 : BitVec 6) :
    illegalSub s w u lit (.calli x0 x1) =
      illegalIf (lit.toNat % 8 ≠ 0 || 64 < lit.toNat) := rfl

@[simp] theorem illegal_split (s : State) (w : Wave) (u : UnitSt) (lit : Word) (x0 : BitVec 6) (x1 : BitVec 16) :
    illegalSub s w u lit (.split x0 x1) =
      none := rfl

@[simp] theorem illegal_join (s : State) (w : Wave) (u : UnitSt) (lit : Word) :
    illegalSub s w u lit .join =
      illegalIf (badJoin w u) := rfl

@[simp] theorem illegal_brkp (s : State) (w : Wave) (u : UnitSt) (lit : Word) (x0 : BitVec 6) :
    illegalSub s w u lit (.brkp x0) =
      illegalIf (w.innermost u).isNone := rfl

@[simp] theorem illegal_pmask (s : State) (w : Wave) (u : UnitSt) (lit : Word) (d : BitVec 6) :
    illegalSub s w u lit (.pmask d) =
      illegalIf (odd d) := rfl

@[simp] theorem illegal_anyp (s : State) (w : Wave) (u : UnitSt) (lit : Word) (d : BitVec 6) (x1 : BitVec 6) :
    illegalSub s w u lit (.anyp d x1) =
      illegalIf (badQ d) := rfl

@[simp] theorem illegal_allp (s : State) (w : Wave) (u : UnitSt) (lit : Word) (d : BitVec 6) (x1 : BitVec 6) :
    illegalSub s w u lit (.allp d x1) =
      illegalIf (badQ d) := rfl

@[simp] theorem illegal_halt (s : State) (w : Wave) (u : UnitSt) (lit : Word) :
    illegalSub s w u lit .halt =
      none := rfl

@[simp] theorem illegal_yield (s : State) (w : Wave) (u : UnitSt) (lit : Word) :
    illegalSub s w u lit .yield =
      none := rfl

@[simp] theorem illegal_sleepuntil (s : State) (w : Wave) (u : UnitSt) (lit : Word) (x0 : BitVec 5) :
    illegalSub s w u lit (.sleepuntil x0) =
      none := rfl

@[simp] theorem illegal_waitline (s : State) (w : Wave) (u : UnitSt) (lit : Word) (x0 : BitVec 5) (x1 : BitVec 6) (x2 : BitVec 6) :
    illegalSub s w u lit (.waitline x0 x1 x2) =
      none := rfl

@[simp] theorem illegal_trap (s : State) (w : Wave) (u : UnitSt) (lit : Word) (x0 : BitVec 8) :
    illegalSub s w u lit (.trap x0) =
      none := rfl

@[simp] theorem illegal_bkpt (s : State) (w : Wave) (u : UnitSt) (lit : Word) (x0 : BitVec 8) :
    illegalSub s w u lit (.bkpt x0) =
      none := rfl

@[simp] theorem illegal_rte (s : State) (w : Wave) (u : UnitSt) (lit : Word) :
    illegalSub s w u lit .rte =
      illegalIf w.handler.isNone := rfl

@[simp] theorem illegal_dispatch (s : State) (w : Wave) (u : UnitSt) (lit : Word) (a : BitVec 6) :
    illegalSub s w u lit (.dispatch a) =
      illegalIf (60 < a.toNat || ((s.launch? w.seq).map Launch.dtab).getD 0 = 0) := rfl

@[simp] theorem illegal_phasesel (s : State) (w : Wave) (u : UnitSt) (lit : Word) :
    illegalSub s w u lit .phasesel =
      firstOf (needs s .phasesel) (illegalIf (((s.launch? w.seq).map Launch.dtab).getD 0 = 0)) := rfl

@[simp] theorem illegal_phaseend (s : State) (w : Wave) (u : UnitSt) (lit : Word) (x0 : BitVec 2) :
    illegalSub s w u lit (.phaseend x0) =
      firstOf (needs s .phasesel) (illegalIf (((s.launch? w.seq).map Launch.dtab).getD 0 = 0)) := rfl

@[simp] theorem illegal_vadd (s : State) (w : Wave) (u : UnitSt) (lit : Word) (x0 : BitVec 1) (x1 : BitVec 6) (x2 : BitVec 6) (x3 : BitVec 6) (x4 : BitVec 3) :
    illegalSub s w u lit (.vadd x0 x1 x2 x3 x4) =
      none := rfl

@[simp] theorem illegal_vsub (s : State) (w : Wave) (u : UnitSt) (lit : Word) (x0 : BitVec 1) (x1 : BitVec 6) (x2 : BitVec 6) (x3 : BitVec 6) (x4 : BitVec 3) :
    illegalSub s w u lit (.vsub x0 x1 x2 x3 x4) =
      none := rfl

@[simp] theorem illegal_vmul (s : State) (w : Wave) (u : UnitSt) (lit : Word) (x0 : BitVec 1) (x1 : BitVec 6) (x2 : BitVec 6) (x3 : BitVec 6) (x4 : BitVec 3) :
    illegalSub s w u lit (.vmul x0 x1 x2 x3 x4) =
      none := rfl

@[simp] theorem illegal_vmulh (s : State) (w : Wave) (u : UnitSt) (lit : Word) (x0 : BitVec 1) (x1 : BitVec 6) (x2 : BitVec 6) (x3 : BitVec 6) (x4 : BitVec 3) :
    illegalSub s w u lit (.vmulh x0 x1 x2 x3 x4) =
      none := rfl

@[simp] theorem illegal_vmulhu (s : State) (w : Wave) (u : UnitSt) (lit : Word) (x0 : BitVec 1) (x1 : BitVec 6) (x2 : BitVec 6) (x3 : BitVec 6) (x4 : BitVec 3) :
    illegalSub s w u lit (.vmulhu x0 x1 x2 x3 x4) =
      none := rfl

@[simp] theorem illegal_vmin (s : State) (w : Wave) (u : UnitSt) (lit : Word) (x0 : BitVec 1) (x1 : BitVec 6) (x2 : BitVec 6) (x3 : BitVec 6) (x4 : BitVec 3) :
    illegalSub s w u lit (.vmin x0 x1 x2 x3 x4) =
      none := rfl

@[simp] theorem illegal_vmax (s : State) (w : Wave) (u : UnitSt) (lit : Word) (x0 : BitVec 1) (x1 : BitVec 6) (x2 : BitVec 6) (x3 : BitVec 6) (x4 : BitVec 3) :
    illegalSub s w u lit (.vmax x0 x1 x2 x3 x4) =
      none := rfl

@[simp] theorem illegal_vminu (s : State) (w : Wave) (u : UnitSt) (lit : Word) (x0 : BitVec 1) (x1 : BitVec 6) (x2 : BitVec 6) (x3 : BitVec 6) (x4 : BitVec 3) :
    illegalSub s w u lit (.vminu x0 x1 x2 x3 x4) =
      none := rfl

@[simp] theorem illegal_vand (s : State) (w : Wave) (u : UnitSt) (lit : Word) (x0 : BitVec 1) (x1 : BitVec 6) (x2 : BitVec 6) (x3 : BitVec 6) (x4 : BitVec 3) :
    illegalSub s w u lit (.vand x0 x1 x2 x3 x4) =
      none := rfl

@[simp] theorem illegal_vor (s : State) (w : Wave) (u : UnitSt) (lit : Word) (x0 : BitVec 1) (x1 : BitVec 6) (x2 : BitVec 6) (x3 : BitVec 6) (x4 : BitVec 3) :
    illegalSub s w u lit (.vor x0 x1 x2 x3 x4) =
      none := rfl

@[simp] theorem illegal_vxor (s : State) (w : Wave) (u : UnitSt) (lit : Word) (x0 : BitVec 1) (x1 : BitVec 6) (x2 : BitVec 6) (x3 : BitVec 6) (x4 : BitVec 3) :
    illegalSub s w u lit (.vxor x0 x1 x2 x3 x4) =
      none := rfl

@[simp] theorem illegal_vshl (s : State) (w : Wave) (u : UnitSt) (lit : Word) (x0 : BitVec 1) (x1 : BitVec 6) (x2 : BitVec 6) (x3 : BitVec 6) (x4 : BitVec 3) :
    illegalSub s w u lit (.vshl x0 x1 x2 x3 x4) =
      none := rfl

@[simp] theorem illegal_vshr (s : State) (w : Wave) (u : UnitSt) (lit : Word) (x0 : BitVec 1) (x1 : BitVec 6) (x2 : BitVec 6) (x3 : BitVec 6) (x4 : BitVec 3) :
    illegalSub s w u lit (.vshr x0 x1 x2 x3 x4) =
      none := rfl

@[simp] theorem illegal_vsar (s : State) (w : Wave) (u : UnitSt) (lit : Word) (x0 : BitVec 1) (x1 : BitVec 6) (x2 : BitVec 6) (x3 : BitVec 6) (x4 : BitVec 3) :
    illegalSub s w u lit (.vsar x0 x1 x2 x3 x4) =
      none := rfl

@[simp] theorem illegal_vmaxu (s : State) (w : Wave) (u : UnitSt) (lit : Word) (x0 : BitVec 1) (x1 : BitVec 6) (x2 : BitVec 6) (x3 : BitVec 6) (x4 : BitVec 3) :
    illegalSub s w u lit (.vmaxu x0 x1 x2 x3 x4) =
      none := rfl

@[simp] theorem illegal_vabsd (s : State) (w : Wave) (u : UnitSt) (lit : Word) (x0 : BitVec 1) (x1 : BitVec 6) (x2 : BitVec 6) (x3 : BitVec 6) (x4 : BitVec 3) :
    illegalSub s w u lit (.vabsd x0 x1 x2 x3 x4) =
      none := rfl

@[simp] theorem illegal_vaddi (s : State) (w : Wave) (u : UnitSt) (lit : Word) (x0 : BitVec 6) (x1 : BitVec 6) (x2 : BitVec 10) :
    illegalSub s w u lit (.vaddi x0 x1 x2) =
      none := rfl

@[simp] theorem illegal_vmuli (s : State) (w : Wave) (u : UnitSt) (lit : Word) (x0 : BitVec 6) (x1 : BitVec 6) (x2 : BitVec 10) :
    illegalSub s w u lit (.vmuli x0 x1 x2) =
      none := rfl

@[simp] theorem illegal_vandi (s : State) (w : Wave) (u : UnitSt) (lit : Word) (x0 : BitVec 6) (x1 : BitVec 6) (x2 : BitVec 10) :
    illegalSub s w u lit (.vandi x0 x1 x2) =
      none := rfl

@[simp] theorem illegal_vori (s : State) (w : Wave) (u : UnitSt) (lit : Word) (x0 : BitVec 6) (x1 : BitVec 6) (x2 : BitVec 10) :
    illegalSub s w u lit (.vori x0 x1 x2) =
      none := rfl

@[simp] theorem illegal_vxori (s : State) (w : Wave) (u : UnitSt) (lit : Word) (x0 : BitVec 6) (x1 : BitVec 6) (x2 : BitVec 10) :
    illegalSub s w u lit (.vxori x0 x1 x2) =
      none := rfl

@[simp] theorem illegal_vshli (s : State) (w : Wave) (u : UnitSt) (lit : Word) (x0 : BitVec 6) (x1 : BitVec 6) (x2 : BitVec 10) :
    illegalSub s w u lit (.vshli x0 x1 x2) =
      none := rfl

@[simp] theorem illegal_vshri (s : State) (w : Wave) (u : UnitSt) (lit : Word) (x0 : BitVec 6) (x1 : BitVec 6) (x2 : BitVec 10) :
    illegalSub s w u lit (.vshri x0 x1 x2) =
      none := rfl

@[simp] theorem illegal_vsari (s : State) (w : Wave) (u : UnitSt) (lit : Word) (x0 : BitVec 6) (x1 : BitVec 6) (x2 : BitVec 10) :
    illegalSub s w u lit (.vsari x0 x1 x2) =
      none := rfl

@[simp] theorem illegal_vicmp (s : State) (w : Wave) (u : UnitSt) (lit : Word) (x0 : BitVec 1) (x1 : BitVec 3) (x2 : BitVec 6) (x3 : BitVec 6) (x4 : BitVec 6) (x5 : BitVec 3) :
    illegalSub s w u lit (.vicmp x0 x1 x2 x3 x4 x5) =
      none := rfl

@[simp] theorem illegal_vicmpi (s : State) (w : Wave) (u : UnitSt) (lit : Word) (x0 : BitVec 3) (x1 : BitVec 6) (x2 : BitVec 6) (x3 : BitVec 10) :
    illegalSub s w u lit (.vicmpi x0 x1 x2 x3) =
      none := rfl

@[simp] theorem illegal_vclz (s : State) (w : Wave) (u : UnitSt) (lit : Word) (x0 : BitVec 1) (x1 : BitVec 6) (x2 : BitVec 6) (x3 : BitVec 3) :
    illegalSub s w u lit (.vclz x0 x1 x2 x3) =
      none := rfl

@[simp] theorem illegal_vpopc (s : State) (w : Wave) (u : UnitSt) (lit : Word) (x0 : BitVec 1) (x1 : BitVec 6) (x2 : BitVec 6) (x3 : BitVec 3) :
    illegalSub s w u lit (.vpopc x0 x1 x2 x3) =
      none := rfl

@[simp] theorem illegal_vbrev (s : State) (w : Wave) (u : UnitSt) (lit : Word) (x0 : BitVec 1) (x1 : BitVec 6) (x2 : BitVec 6) (x3 : BitVec 3) :
    illegalSub s w u lit (.vbrev x0 x1 x2 x3) =
      none := rfl

@[simp] theorem illegal_vbfx (s : State) (w : Wave) (u : UnitSt) (lit : Word) (x0 : BitVec 1) (x1 : BitVec 6) (x2 : BitVec 6) (x3 : BitVec 6) (x4 : BitVec 3) :
    illegalSub s w u lit (.vbfx x0 x1 x2 x3 x4) =
      none := rfl

@[simp] theorem illegal_vbfi (s : State) (w : Wave) (u : UnitSt) (lit : Word) (x0 : BitVec 1) (x1 : BitVec 6) (x2 : BitVec 6) (x3 : BitVec 6) (x4 : BitVec 3) :
    illegalSub s w u lit (.vbfi x0 x1 x2 x3 x4) =
      none := rfl

@[simp] theorem illegal_vsel (s : State) (w : Wave) (u : UnitSt) (lit : Word) (x0 : BitVec 1) (x1 : BitVec 6) (x2 : BitVec 6) (x3 : BitVec 6) (x4 : BitVec 3) :
    illegalSub s w u lit (.vsel x0 x1 x2 x3 x4) =
      none := rfl

@[simp] theorem illegal_vmad (s : State) (w : Wave) (u : UnitSt) (lit : Word) (x0 : BitVec 1) (x1 : BitVec 6) (x2 : BitVec 6) (x3 : BitVec 6) (x4 : BitVec 3) :
    illegalSub s w u lit (.vmad x0 x1 x2 x3 x4) =
      none := rfl

@[simp] theorem illegal_vlane (s : State) (w : Wave) (u : UnitSt) (lit : Word) (x0 : BitVec 1) (x1 : BitVec 6) (x2 : BitVec 3) :
    illegalSub s w u lit (.vlane x0 x1 x2) =
      none := rfl

@[simp] theorem illegal_vmov (s : State) (w : Wave) (u : UnitSt) (lit : Word) (x0 : BitVec 6) (x1 : BitVec 6) (x2 : BitVec 3) :
    illegalSub s w u lit (.vmov x0 x1 x2) =
      none := rfl

@[simp] theorem illegal_vmovs (s : State) (w : Wave) (u : UnitSt) (lit : Word) (x0 : BitVec 6) (x1 : BitVec 6) (x2 : BitVec 3) :
    illegalSub s w u lit (.vmovs x0 x1 x2) =
      none := rfl

@[simp] theorem illegal_vtos (s : State) (w : Wave) (u : UnitSt) (lit : Word) (x0 : BitVec 6) (x1 : BitVec 6) (x2 : BitVec 6) (g : BitVec 3) :
    illegalSub s w u lit (.vtos x0 x1 x2 g) =
      illegalIf (g ≠ 0) := rfl

@[simp] theorem illegal_vfroms (s : State) (w : Wave) (u : UnitSt) (lit : Word) (x0 : BitVec 6) (x1 : BitVec 6) (x2 : BitVec 6) (x3 : BitVec 3) :
    illegalSub s w u lit (.vfroms x0 x1 x2 x3) =
      none := rfl

@[simp] theorem illegal_fadd (s : State) (w : Wave) (u : UnitSt) (lit : Word) (x0 : BitVec 1) (x1 : BitVec 6) (x2 : BitVec 6) (x3 : BitVec 6) (x4 : BitVec 3) :
    illegalSub s w u lit (.fadd x0 x1 x2 x3 x4) =
      none := rfl

@[simp] theorem illegal_fsub (s : State) (w : Wave) (u : UnitSt) (lit : Word) (x0 : BitVec 1) (x1 : BitVec 6) (x2 : BitVec 6) (x3 : BitVec 6) (x4 : BitVec 3) :
    illegalSub s w u lit (.fsub x0 x1 x2 x3 x4) =
      none := rfl

@[simp] theorem illegal_fmul (s : State) (w : Wave) (u : UnitSt) (lit : Word) (x0 : BitVec 1) (x1 : BitVec 6) (x2 : BitVec 6) (x3 : BitVec 6) (x4 : BitVec 3) :
    illegalSub s w u lit (.fmul x0 x1 x2 x3 x4) =
      none := rfl

@[simp] theorem illegal_ffma (s : State) (w : Wave) (u : UnitSt) (lit : Word) (x0 : BitVec 1) (x1 : BitVec 6) (x2 : BitVec 6) (x3 : BitVec 6) (x4 : BitVec 3) :
    illegalSub s w u lit (.ffma x0 x1 x2 x3 x4) =
      none := rfl

@[simp] theorem illegal_ffnma (s : State) (w : Wave) (u : UnitSt) (lit : Word) (x0 : BitVec 1) (x1 : BitVec 6) (x2 : BitVec 6) (x3 : BitVec 6) (x4 : BitVec 3) :
    illegalSub s w u lit (.ffnma x0 x1 x2 x3 x4) =
      none := rfl

@[simp] theorem illegal_fmin (s : State) (w : Wave) (u : UnitSt) (lit : Word) (x0 : BitVec 1) (x1 : BitVec 6) (x2 : BitVec 6) (x3 : BitVec 6) (x4 : BitVec 3) :
    illegalSub s w u lit (.fmin x0 x1 x2 x3 x4) =
      none := rfl

@[simp] theorem illegal_fmax (s : State) (w : Wave) (u : UnitSt) (lit : Word) (x0 : BitVec 1) (x1 : BitVec 6) (x2 : BitVec 6) (x3 : BitVec 6) (x4 : BitVec 3) :
    illegalSub s w u lit (.fmax x0 x1 x2 x3 x4) =
      none := rfl

@[simp] theorem illegal_fabs (s : State) (w : Wave) (u : UnitSt) (lit : Word) (x0 : BitVec 1) (x1 : BitVec 6) (x2 : BitVec 6) (x3 : BitVec 3) :
    illegalSub s w u lit (.fabs x0 x1 x2 x3) =
      none := rfl

@[simp] theorem illegal_vfcmp (s : State) (w : Wave) (u : UnitSt) (lit : Word) (x0 : BitVec 1) (x1 : BitVec 3) (x2 : BitVec 6) (x3 : BitVec 6) (x4 : BitVec 6) (x5 : BitVec 3) :
    illegalSub s w u lit (.vfcmp x0 x1 x2 x3 x4 x5) =
      none := rfl

@[simp] theorem illegal_frcp (s : State) (w : Wave) (u : UnitSt) (lit : Word) (x0 : BitVec 1) (x1 : BitVec 6) (x2 : BitVec 6) (x3 : BitVec 3) :
    illegalSub s w u lit (.frcp x0 x1 x2 x3) =
      none := rfl

@[simp] theorem illegal_frsq (s : State) (w : Wave) (u : UnitSt) (lit : Word) (x0 : BitVec 1) (x1 : BitVec 6) (x2 : BitVec 6) (x3 : BitVec 3) :
    illegalSub s w u lit (.frsq x0 x1 x2 x3) =
      none := rfl

@[simp] theorem illegal_fsqrt (s : State) (w : Wave) (u : UnitSt) (lit : Word) (x0 : BitVec 1) (x1 : BitVec 6) (x2 : BitVec 6) (x3 : BitVec 3) :
    illegalSub s w u lit (.fsqrt x0 x1 x2 x3) =
      none := rfl

@[simp] theorem illegal_fdiv (s : State) (w : Wave) (u : UnitSt) (lit : Word) (x0 : BitVec 1) (x1 : BitVec 6) (x2 : BitVec 6) (x3 : BitVec 6) (x4 : BitVec 3) :
    illegalSub s w u lit (.fdiv x0 x1 x2 x3 x4) =
      none := rfl

@[simp] theorem illegal_fex2 (s : State) (w : Wave) (u : UnitSt) (lit : Word) (x0 : BitVec 1) (x1 : BitVec 6) (x2 : BitVec 6) (x3 : BitVec 3) :
    illegalSub s w u lit (.fex2 x0 x1 x2 x3) =
      none := rfl

@[simp] theorem illegal_flg2 (s : State) (w : Wave) (u : UnitSt) (lit : Word) (x0 : BitVec 1) (x1 : BitVec 6) (x2 : BitVec 6) (x3 : BitVec 3) :
    illegalSub s w u lit (.flg2 x0 x1 x2 x3) =
      none := rfl

@[simp] theorem illegal_frint (s : State) (w : Wave) (u : UnitSt) (lit : Word) (x0 : BitVec 1) (x1 : BitVec 6) (x2 : BitVec 6) (x3 : BitVec 3) :
    illegalSub s w u lit (.frint x0 x1 x2 x3) =
      none := rfl

@[simp] theorem illegal_fclass (s : State) (w : Wave) (u : UnitSt) (lit : Word) (x0 : BitVec 1) (x1 : BitVec 6) (x2 : BitVec 6) (x3 : BitVec 3) :
    illegalSub s w u lit (.fclass x0 x1 x2 x3) =
      none := rfl

@[simp] theorem illegal_b2add (s : State) (w : Wave) (u : UnitSt) (lit : Word) (x0 : BitVec 1) (x1 : BitVec 6) (x2 : BitVec 6) (x3 : BitVec 6) (x4 : BitVec 3) :
    illegalSub s w u lit (.b2add x0 x1 x2 x3 x4) =
      none := rfl

@[simp] theorem illegal_b2sub (s : State) (w : Wave) (u : UnitSt) (lit : Word) (x0 : BitVec 1) (x1 : BitVec 6) (x2 : BitVec 6) (x3 : BitVec 6) (x4 : BitVec 3) :
    illegalSub s w u lit (.b2sub x0 x1 x2 x3 x4) =
      none := rfl

@[simp] theorem illegal_b2mul (s : State) (w : Wave) (u : UnitSt) (lit : Word) (x0 : BitVec 1) (x1 : BitVec 6) (x2 : BitVec 6) (x3 : BitVec 6) (x4 : BitVec 3) :
    illegalSub s w u lit (.b2mul x0 x1 x2 x3 x4) =
      none := rfl

@[simp] theorem illegal_b2fma (s : State) (w : Wave) (u : UnitSt) (lit : Word) (x0 : BitVec 1) (x1 : BitVec 6) (x2 : BitVec 6) (x3 : BitVec 6) (x4 : BitVec 3) :
    illegalSub s w u lit (.b2fma x0 x1 x2 x3 x4) =
      none := rfl

@[simp] theorem illegal_b2max (s : State) (w : Wave) (u : UnitSt) (lit : Word) (x0 : BitVec 1) (x1 : BitVec 6) (x2 : BitVec 6) (x3 : BitVec 6) (x4 : BitVec 3) :
    illegalSub s w u lit (.b2max x0 x1 x2 x3 x4) =
      none := rfl

@[simp] theorem illegal_b2min (s : State) (w : Wave) (u : UnitSt) (lit : Word) (x0 : BitVec 1) (x1 : BitVec 6) (x2 : BitVec 6) (x3 : BitVec 6) (x4 : BitVec 3) :
    illegalSub s w u lit (.b2min x0 x1 x2 x3 x4) =
      none := rfl

@[simp] theorem illegal_fcvt (s : State) (w : Wave) (u : UnitSt) (lit : Word) (x0 : BitVec 6) (x1 : BitVec 6) (dst : BitVec 3) (src : BitVec 3) (x4 : BitVec 3) :
    illegalSub s w u lit (.fcvt x0 x1 dst src x4) =
      illegalIf (fcvtIllegal dst src) := rfl

@[simp] theorem illegal_icvt (s : State) (w : Wave) (u : UnitSt) (lit : Word) (x0 : BitVec 6) (x1 : BitVec 6) (dst : BitVec 3) (src : BitVec 3) (x4 : BitVec 3) :
    illegalSub s w u lit (.icvt x0 x1 dst src x4) =
      illegalIf (icvtIllegal dst src) := rfl

@[simp] theorem illegal_qpk (s : State) (w : Wave) (u : UnitSt) (lit : Word) (d : BitVec 6) (a : BitVec 6) (x2 : BitVec 6) (g : BitVec 3) :
    illegalSub s w u lit (.qpk d a x2 g) =
      quantIllegal s u d a g (packedGroupSize u.fmt) (fp32GroupSize u.fmt) := rfl

@[simp] theorem illegal_qunpk (s : State) (w : Wave) (u : UnitSt) (lit : Word) (d : BitVec 6) (a : BitVec 6) (x2 : BitVec 6) (g : BitVec 3) :
    illegalSub s w u lit (.qunpk d a x2 g) =
      quantIllegal s u d a g (fp32GroupSize u.fmt) (packedGroupSize u.fmt) := rfl

@[simp] theorem illegal_shfl (s : State) (w : Wave) (u : UnitSt) (lit : Word) (x0 : BitVec 6) (x1 : BitVec 6) (x2 : BitVec 6) (x3 : BitVec 3) :
    illegalSub s w u lit (.shfl x0 x1 x2 x3) =
      none := rfl

@[simp] theorem illegal_shflx (s : State) (w : Wave) (u : UnitSt) (lit : Word) (x0 : BitVec 6) (x1 : BitVec 6) (x2 : BitVec 6) (x3 : BitVec 3) :
    illegalSub s w u lit (.shflx x0 x1 x2 x3) =
      none := rfl

@[simp] theorem illegal_shflup (s : State) (w : Wave) (u : UnitSt) (lit : Word) (x0 : BitVec 6) (x1 : BitVec 6) (x2 : BitVec 6) (x3 : BitVec 3) :
    illegalSub s w u lit (.shflup x0 x1 x2 x3) =
      none := rfl

@[simp] theorem illegal_shfldn (s : State) (w : Wave) (u : UnitSt) (lit : Word) (x0 : BitVec 6) (x1 : BitVec 6) (x2 : BitVec 6) (x3 : BitVec 3) :
    illegalSub s w u lit (.shfldn x0 x1 x2 x3) =
      none := rfl

@[simp] theorem illegal_lanebc (s : State) (w : Wave) (u : UnitSt) (lit : Word) (x0 : BitVec 6) (x1 : BitVec 6) (x2 : BitVec 6) (x3 : BitVec 3) :
    illegalSub s w u lit (.lanebc x0 x1 x2 x3) =
      none := rfl

@[simp] theorem illegal_vredf (s : State) (w : Wave) (u : UnitSt) (lit : Word) (x0 : BitVec 6) (x1 : BitVec 6) (o : BitVec 6) (x3 : BitVec 3) :
    illegalSub s w u lit (.vredf x0 x1 o x3) =
      illegalIf (2 < o.toNat) := rfl

@[simp] theorem illegal_vredi (s : State) (w : Wave) (u : UnitSt) (lit : Word) (x0 : BitVec 6) (x1 : BitVec 6) (o : BitVec 6) (x3 : BitVec 3) :
    illegalSub s w u lit (.vredi x0 x1 o x3) =
      illegalIf (7 < o.toNat) := rfl

@[simp] theorem illegal_vscanf (s : State) (w : Wave) (u : UnitSt) (lit : Word) (x0 : BitVec 6) (x1 : BitVec 6) (o : BitVec 6) (x3 : BitVec 3) :
    illegalSub s w u lit (.vscanf x0 x1 o x3) =
      illegalIf (2 < o.toNat) := rfl

@[simp] theorem illegal_vldx (s : State) (w : Wave) (u : UnitSt) (lit : Word) (x0 : BitVec 6) (a : BitVec 6) (imm : BitVec 10) :
    illegalSub s w u lit (.vldx x0 a imm) =
      illegalIf (w.indexCheck a (immediate imm lit) u.mask = some .range) := rfl

@[simp] theorem illegal_vstx (s : State) (w : Wave) (u : UnitSt) (lit : Word) (x0 : BitVec 6) (a : BitVec 6) (imm : BitVec 10) :
    illegalSub s w u lit (.vstx x0 a imm) =
      illegalIf (w.indexCheck a (immediate imm lit) u.mask = some .range) := rfl

@[simp] theorem illegal_pand (s : State) (w : Wave) (u : UnitSt) (lit : Word) (x0 : BitVec 6) (x1 : BitVec 6) (x2 : BitVec 6) (x3 : BitVec 3) :
    illegalSub s w u lit (.pand x0 x1 x2 x3) =
      none := rfl

@[simp] theorem illegal_por (s : State) (w : Wave) (u : UnitSt) (lit : Word) (x0 : BitVec 6) (x1 : BitVec 6) (x2 : BitVec 6) (x3 : BitVec 3) :
    illegalSub s w u lit (.por x0 x1 x2 x3) =
      none := rfl

@[simp] theorem illegal_pxor (s : State) (w : Wave) (u : UnitSt) (lit : Word) (x0 : BitVec 6) (x1 : BitVec 6) (x2 : BitVec 6) (x3 : BitVec 3) :
    illegalSub s w u lit (.pxor x0 x1 x2 x3) =
      none := rfl

@[simp] theorem illegal_pandn (s : State) (w : Wave) (u : UnitSt) (lit : Word) (x0 : BitVec 6) (x1 : BitVec 6) (x2 : BitVec 6) (x3 : BitVec 3) :
    illegalSub s w u lit (.pandn x0 x1 x2 x3) =
      none := rfl

@[simp] theorem illegal_pnot (s : State) (w : Wave) (u : UnitSt) (lit : Word) (x0 : BitVec 6) (x1 : BitVec 6) (x2 : BitVec 3) :
    illegalSub s w u lit (.pnot x0 x1 x2) =
      none := rfl

@[simp] theorem illegal_pmov (s : State) (w : Wave) (u : UnitSt) (lit : Word) (x0 : BitVec 6) (x1 : BitVec 6) (x2 : BitVec 3) :
    illegalSub s w u lit (.pmov x0 x1 x2) =
      none := rfl

@[simp] theorem illegal_pset (s : State) (w : Wave) (u : UnitSt) (lit : Word) (x0 : BitVec 6) (x1 : BitVec 1) (x2 : BitVec 3) :
    illegalSub s w u lit (.pset x0 x1 x2) =
      none := rfl

@[simp] theorem illegal_vballot (s : State) (w : Wave) (u : UnitSt) (lit : Word) (sd : BitVec 6) (x1 : BitVec 6) (x2 : BitVec 3) :
    illegalSub s w u lit (.vballot sd x1 x2) =
      illegalIf (odd sd) := rfl

@[simp] theorem illegal_vmcnt (s : State) (w : Wave) (u : UnitSt) (lit : Word) (x0 : BitVec 6) (x1 : BitVec 6) (x2 : BitVec 3) :
    illegalSub s w u lit (.vmcnt x0 x1 x2) =
      none := rfl

@[simp] theorem illegal_ldg (s : State) (w : Wave) (u : UnitSt) (lit : Word) (z : BitVec 2) (sc : BitVec 3) (x2 : BitVec 2) (d : BitVec 6) (x4 : BitVec 6) (x5 : BitVec 5) (x6 : BitVec 1) :
    illegalSub s w u lit (.ldg z sc x2 d x4 x5 x6) =
      illegalIf (badScope sc || (z = 3 && d = 63)) := rfl

@[simp] theorem illegal_stg (s : State) (w : Wave) (u : UnitSt) (lit : Word) (z : BitVec 2) (sc : BitVec 3) (x2 : BitVec 2) (d : BitVec 6) (x4 : BitVec 6) (x5 : BitVec 5) (x6 : BitVec 1) :
    illegalSub s w u lit (.stg z sc x2 d x4 x5 x6) =
      illegalIf (badScope sc || (z = 3 && d = 63)) := rfl

@[simp] theorem illegal_ldq (s : State) (w : Wave) (u : UnitSt) (lit : Word) (z : BitVec 2) (sc : BitVec 3) (x2 : BitVec 2) (d : BitVec 6) (x4 : BitVec 6) (x5 : BitVec 5) (n : BitVec 1) :
    illegalSub s w u lit (.ldq z sc x2 d x4 x5 n) =
      illegalIf (badScope sc || (z = 3 && d = 63) || (z = 3 && n = 1)) := rfl

@[simp] theorem illegal_stq (s : State) (w : Wave) (u : UnitSt) (lit : Word) (z : BitVec 2) (sc : BitVec 3) (x2 : BitVec 2) (d : BitVec 6) (x4 : BitVec 6) (x5 : BitVec 5) (n : BitVec 1) :
    illegalSub s w u lit (.stq z sc x2 d x4 x5 n) =
      illegalIf (badScope sc || (z = 3 && d = 63) || (z = 3 && n = 1)) := rfl

@[simp] theorem illegal_gather (s : State) (w : Wave) (u : UnitSt) (lit : Word) (z : BitVec 2) (sc : BitVec 3) (x2 : BitVec 2) (d : BitVec 6) (x4 : BitVec 6) (x5 : BitVec 5) (x6 : BitVec 1) :
    illegalSub s w u lit (.gather z sc x2 d x4 x5 x6) =
      firstOf (needs s .gather) (illegalIf (badScope sc || (z = 3 && d = 63))) := rfl

@[simp] theorem illegal_scatter (s : State) (w : Wave) (u : UnitSt) (lit : Word) (z : BitVec 2) (sc : BitVec 3) (x2 : BitVec 2) (d : BitVec 6) (x4 : BitVec 6) (x5 : BitVec 5) (x6 : BitVec 1) :
    illegalSub s w u lit (.scatter z sc x2 d x4 x5 x6) =
      firstOf (needs s .gather) (illegalIf (badScope sc || (z = 3 && d = 63))) := rfl

@[simp] theorem illegal_atomg (s : State) (w : Wave) (u : UnitSt) (lit : Word) (p : BitVec 3) (w64 : BitVec 1) (sc : BitVec 3) (x3 : BitVec 2) (d : BitVec 6) (x5 : BitVec 6) (x6 : BitVec 4) :
    illegalSub s w u lit (.atomg p w64 sc x3 d x5 x6) =
      illegalIf (badScope sc || 64 < d.toNat + (if w64 = 1 then 2 else 1) * (if p = 7 then 2 else 1)) := rfl

@[simp] theorem illegal_atomq (s : State) (w : Wave) (u : UnitSt) (lit : Word) (p : BitVec 3) (x1 : BitVec 1) (sc : BitVec 3) (x3 : BitVec 2) (d : BitVec 6) (x5 : BitVec 6) (x6 : BitVec 4) :
    illegalSub s w u lit (.atomq p x1 sc x3 d x5 x6) =
      illegalIf (badScope sc || 64 < d.toNat + (if p = 7 then 2 else 1)) := rfl

@[simp] theorem illegal_fence (s : State) (w : Wave) (u : UnitSt) (lit : Word) (sc : BitVec 3) :
    illegalSub s w u lit (.fence sc) =
      illegalIf (badScope sc) := rfl

@[simp] theorem illegal_fenceacq (s : State) (w : Wave) (u : UnitSt) (lit : Word) (sc : BitVec 3) :
    illegalSub s w u lit (.fenceacq sc) =
      illegalIf (badScope sc) := rfl

@[simp] theorem illegal_fencerel (s : State) (w : Wave) (u : UnitSt) (lit : Word) (sc : BitVec 3) :
    illegalSub s w u lit (.fencerel sc) =
      illegalIf (badScope sc) := rfl

@[simp] theorem illegal_fenceeng (s : State) (w : Wave) (u : UnitSt) (lit : Word) (sc : BitVec 3) :
    illegalSub s w u lit (.fenceeng sc) =
      illegalIf (badScope sc) := rfl

@[simp] theorem illegal_pref (s : State) (w : Wave) (u : UnitSt) (lit : Word) (x0 : BitVec 6) (x1 : BitVec 5) (x2 : BitVec 1) :
    illegalSub s w u lit (.pref x0 x1 x2) =
      none := rfl

@[simp] theorem illegal_wbl (s : State) (w : Wave) (u : UnitSt) (lit : Word) (x0 : BitVec 6) (x1 : BitVec 5) (x2 : BitVec 1) :
    illegalSub s w u lit (.wbl x0 x1 x2) =
      none := rfl

@[simp] theorem illegal_invl (s : State) (w : Wave) (u : UnitSt) (lit : Word) (x0 : BitVec 6) (x1 : BitVec 5) (x2 : BitVec 1) :
    illegalSub s w u lit (.invl x0 x1 x2) =
      none := rfl

@[simp] theorem illegal_flushl (s : State) (w : Wave) (u : UnitSt) (lit : Word) (x0 : BitVec 6) (x1 : BitVec 5) (x2 : BitVec 1) :
    illegalSub s w u lit (.flushl x0 x1 x2) =
      none := rfl

@[simp] theorem illegal_rowpin (s : State) (w : Wave) (u : UnitSt) (lit : Word) (d : BitVec 6) (x1 : BitVec 5) :
    illegalSub s w u lit (.rowpin d x1) =
      firstOf (needs s .rowpin) (illegalIf (odd d)) := rfl

@[simp] theorem illegal_rowunpin (s : State) (w : Wave) (u : UnitSt) (lit : Word) (x0 : BitVec 6) (x1 : BitVec 6) :
    illegalSub s w u lit (.rowunpin x0 x1) =
      needs s .rowpin := rfl

@[simp] theorem illegal_rowqry (s : State) (w : Wave) (u : UnitSt) (lit : Word) (x0 : BitVec 6) (x1 : BitVec 6) :
    illegalSub s w u lit (.rowqry x0 x1) =
      needs s .rowpin := rfl

@[simp] theorem illegal_mqput (s : State) (w : Wave) (u : UnitSt) (lit : Word) (x0 : BitVec 5) (x1 : BitVec 6) (x2 : BitVec 6) :
    illegalSub s w u lit (.mqput x0 x1 x2) =
      none := rfl

@[simp] theorem illegal_mqget (s : State) (w : Wave) (u : UnitSt) (lit : Word) (x0 : BitVec 5) (x1 : BitVec 6) (x2 : BitVec 6) :
    illegalSub s w u lit (.mqget x0 x1 x2) =
      none := rfl

@[simp] theorem illegal_mred (s : State) (w : Wave) (u : UnitSt) (lit : Word) (x0 : BitVec 5) (d : BitVec 6) (r : BitVec 6) :
    illegalSub s w u lit (.mred x0 d r) =
      firstOf (needs s .modred) (illegalIf (odd d || 62 < r.toNat)) := rfl

@[simp] theorem illegal_mredrd (s : State) (w : Wave) (u : UnitSt) (lit : Word) (x0 : BitVec 5) (d : BitVec 6) (r : BitVec 6) :
    illegalSub s w u lit (.mredrd x0 d r) =
      firstOf (needs s .modred) (illegalIf (odd d || 62 < r.toNat)) := rfl

@[simp] theorem illegal_matom (s : State) (w : Wave) (u : UnitSt) (lit : Word) (x0 : BitVec 5) (d : BitVec 6) (r : BitVec 6) (w64 : BitVec 1) (p : BitVec 3) :
    illegalSub s w u lit (.matom x0 d r w64 p) =
      illegalIf (matomIllegal d r w64 p) := rfl

@[simp] theorem illegal_rwri (s : State) (w : Wave) (u : UnitSt) (lit : Word) (x0 : BitVec 5) (x1 : BitVec 5) (x2 : BitVec 6) :
    illegalSub s w u lit (.rwri x0 x1 x2) =
      needs s .relay := rfl

@[simp] theorem illegal_rrd (s : State) (w : Wave) (u : UnitSt) (lit : Word) (x0 : BitVec 5) (x1 : BitVec 5) (x2 : BitVec 6) :
    illegalSub s w u lit (.rrd x0 x1 x2) =
      needs s .relay := rfl

@[simp] theorem illegal_ratom (s : State) (w : Wave) (u : UnitSt) (lit : Word) (x0 : BitVec 5) (ctl : BitVec 5) (x2 : BitVec 6) :
    illegalSub s w u lit (.ratom x0 ctl x2) =
      firstOf (needs s .relay) (illegalIf (ratomIllegal w ctl)) := rfl

@[simp] theorem illegal_nqwait (s : State) (w : Wave) (u : UnitSt) (lit : Word) (d : BitVec 6) (x1 : BitVec 6) :
    illegalSub s w u lit (.nqwait d x1) =
      firstOf (needs s .relay) (illegalIf (odd d)) := rfl

@[simp] theorem illegal_tbinit (s : State) (w : Wave) (u : UnitSt) (lit : Word) (x0 : BitVec 5) (x1 : BitVec 1) (sc : BitVec 3) (x3 : BitVec 6) :
    illegalSub s w u lit (.tbinit x0 x1 sc x3) =
      illegalIf (badScope sc) := rfl

@[simp] theorem illegal_tbarrive (s : State) (w : Wave) (u : UnitSt) (lit : Word) (x0 : BitVec 5) (x1 : BitVec 1) (sc : BitVec 3) (x3 : BitVec 6) :
    illegalSub s w u lit (.tbarrive x0 x1 sc x3) =
      illegalIf (badScope sc) := rfl

@[simp] theorem illegal_tbexpect (s : State) (w : Wave) (u : UnitSt) (lit : Word) (x0 : BitVec 5) (x1 : BitVec 1) (sc : BitVec 3) (x3 : BitVec 6) :
    illegalSub s w u lit (.tbexpect x0 x1 sc x3) =
      illegalIf (badScope sc) := rfl

@[simp] theorem illegal_tbwait (s : State) (w : Wave) (u : UnitSt) (lit : Word) (x0 : BitVec 5) (x1 : BitVec 1) (sc : BitVec 3) (x3 : BitVec 6) :
    illegalSub s w u lit (.tbwait x0 x1 sc x3) =
      illegalIf (badScope sc) := rfl

@[simp] theorem illegal_tbquery (s : State) (w : Wave) (u : UnitSt) (lit : Word) (x0 : BitVec 5) (x1 : BitVec 1) (sc : BitVec 3) (r : BitVec 6) :
    illegalSub s w u lit (.tbquery x0 x1 sc r) =
      illegalIf (badScope sc || r.toNat % 4 ≠ 0) := rfl

@[simp] theorem illegal_barsync (s : State) (w : Wave) (u : UnitSt) (lit : Word) (sc : BitVec 3) (x1 : BitVec 4) (x2 : BitVec 6) :
    illegalSub s w u lit (.barsync sc x1 x2) =
      illegalIf (badScope sc || sc = 0) := rfl

@[simp] theorem illegal_bararrive (s : State) (w : Wave) (u : UnitSt) (lit : Word) (sc : BitVec 3) (x1 : BitVec 4) (x2 : BitVec 6) (x3 : BitVec 6) :
    illegalSub s w u lit (.bararrive sc x1 x2 x3) =
      illegalIf (badScope sc || sc = 0) := rfl

@[simp] theorem illegal_barwait (s : State) (w : Wave) (u : UnitSt) (lit : Word) (sc : BitVec 3) (x1 : BitVec 4) (x2 : BitVec 6) :
    illegalSub s w u lit (.barwait sc x1 x2) =
      illegalIf (badScope sc || sc = 0) := rfl

@[simp] theorem illegal_gatepost (s : State) (w : Wave) (u : UnitSt) (lit : Word) (x0 : BitVec 6) (x1 : BitVec 6) :
    illegalSub s w u lit (.gatepost x0 x1) =
      needs s .gates := rfl

@[simp] theorem illegal_gatetake (s : State) (w : Wave) (u : UnitSt) (lit : Word) (x0 : BitVec 6) (x1 : BitVec 6) (x2 : BitVec 6) :
    illegalSub s w u lit (.gatetake x0 x1 x2) =
      needs s .gates := rfl

@[simp] theorem illegal_gatepoll (s : State) (w : Wave) (u : UnitSt) (lit : Word) (x0 : BitVec 6) (x1 : BitVec 6) :
    illegalSub s w u lit (.gatepoll x0 x1) =
      needs s .gates := rfl

@[simp] theorem illegal_mloop (s : State) (w : Wave) (u : UnitSt) (lit : Word) (a : BitVec 3) (t : BitVec 4) (b : BitVec 4) (x3 : BitVec 1) (x4 : BitVec 1) (sp : BitVec 1) (n : BitVec 11) :
    illegalSub s w u lit (.mloop a t b x3 x4 sp n) =
      firstOf (if (tileFmt (w.tile t.toNat) = 4 || tileFmt (w.tile b.toNat) = 4) then needs s .ox4 else none) (firstOf (if sp = 1 then needs s .sparse48 else none) (illegalIf (badAcc w a || n = 0))) := rfl

@[simp] theorem illegal_mstep (s : State) (w : Wave) (u : UnitSt) (lit : Word) (a : BitVec 3) (v : BitVec 6) (w2 : BitVec 6) (f : BitVec 2) (x4 : BitVec 3) (x5 : BitVec 3) (g : BitVec 2) :
    illegalSub s w u lit (.mstep a v w2 f x4 x5 g) =
      firstOf (if f = 3 || g = 3 then needs s .ox4 else none) (illegalIf (badAcc w a || !mstepPairOk f.toNat g.toNat || 64 < v.toNat + mstepRegs f.toNat || 64 < w2.toNat + mstepRegs g.toNat || (f = 3 && g = 3 && (!positiveFiniteBf16 (lit.toNat % 65536) || !positiveFiniteBf16 (lit.toNat / 65536))))) := rfl

@[simp] theorem illegal_mdrain (s : State) (w : Wave) (u : UnitSt) (lit : Word) (a : BitVec 3) (d : BitVec 4) (t : BitVec 4) (tr : BitVec 1) (x4 : BitVec 1) :
    illegalSub s w u lit (.mdrain a d t tr x4) =
      firstOf (if tileFmt (w.tile d.toNat) = 4 || (tr = 1 && tileFmt (w.tile t.toNat) = 4) then needs s .ox4 else none) (illegalIf (badAcc w a)) := rfl

@[simp] theorem illegal_mzero (s : State) (w : Wave) (u : UnitSt) (lit : Word) (a : BitVec 3) :
    illegalSub s w u lit (.mzero a) =
      illegalIf (badAcc w a) := rfl

@[simp] theorem illegal_mwait (s : State) (w : Wave) (u : UnitSt) (lit : Word) (a : BitVec 3) :
    illegalSub s w u lit (.mwait a) =
      illegalIf (badAcc w a) := rfl

@[simp] theorem illegal_mload (s : State) (w : Wave) (u : UnitSt) (lit : Word) (a : BitVec 3) (t : BitVec 4) :
    illegalSub s w u lit (.mload a t) =
      firstOf (if tileFmt (w.tile t.toNat) = 4 then needs s .ox4 else none) (illegalIf (badAcc w a)) := rfl

@[simp] theorem illegal_mqry (s : State) (w : Wave) (u : UnitSt) (lit : Word) (a : BitVec 3) (d : BitVec 6) :
    illegalSub s w u lit (.mqry a d) =
      illegalIf (badAcc w a || odd d) := rfl

@[simp] theorem illegal_tset (s : State) (w : Wave) (u : UnitSt) (lit : Word) (x0 : BitVec 4) (a : BitVec 6) :
    illegalSub s w u lit (.tset x0 a) =
      illegalIf (a.toNat % 4 ≠ 0) := rfl

@[simp] theorem illegal_tget (s : State) (w : Wave) (u : UnitSt) (lit : Word) (d : BitVec 6) (x1 : BitVec 4) :
    illegalSub s w u lit (.tget d x1) =
      illegalIf (d.toNat % 4 ≠ 0) := rfl

@[simp] theorem illegal_tplset (s : State) (w : Wave) (u : UnitSt) (lit : Word) (x0 : BitVec 4) (x1 : BitVec 4) (x2 : BitVec 6) :
    illegalSub s w u lit (.tplset x0 x1 x2) =
      none := rfl

@[simp] theorem illegal_ctrsel (s : State) (w : Wave) (u : UnitSt) (lit : Word) (x0 : BitVec 4) (x1 : BitVec 6) :
    illegalSub s w u lit (.ctrsel x0 x1) =
      none := rfl

@[simp] theorem illegal_ctrrd (s : State) (w : Wave) (u : UnitSt) (lit : Word) (d : BitVec 6) (x1 : BitVec 4) :
    illegalSub s w u lit (.ctrrd d x1) =
      illegalIf (odd d) := rfl

@[simp] theorem illegal_ctrctl (s : State) (w : Wave) (u : UnitSt) (lit : Word) (d : BitVec 6) (x1 : BitVec 6) :
    illegalSub s w u lit (.ctrctl d x1) =
      illegalIf (odd d) := rfl

/-! ## Legal words -/

@[simp] theorem illegalIf_false : illegalIf false = none := rfl

/-- A latched legal word does what its meaning says. -/
theorem whenLegal_of {s : State} {w : Wave} {i : Issue} {x : Instr} (h : s.Legal w i x) (f : Wave → Issue → UnitSt → Out) :
    whenLegal s x f = f w i (w.issuing i) := by
  obtain ⟨⟨h1, h2⟩, h3⟩ := h
  simp only [Wave.issuing] at h3
  simp only [whenLegal, onUnit, h1, h2, h3, Wave.issuing]

/-- A latched illegal word takes Illegal Instruction with its subcode. -/
theorem whenLegal_illegal {s : State} {w : Wave} {i : Issue} {x : Instr} {sub : Nat} (h : s.Latched w i)
    (hi : illegalSub s w ((w.issuing i).at i) i.lit x = some sub) (f : Wave → Issue → UnitSt → Out) :
    whenLegal s x f = takeTrap s w i 1 sub 0 := by
  obtain ⟨h1, h2⟩ := h
  simp only [Wave.issuing] at hi
  simp only [whenLegal, onUnit, h1, h2, hi]

/-- A word that is done goes on with the next word. -/
theorem finish_eq (s : State) (w : Wave) (i : Issue) : finish s w i = .next (s.after w i) := rfl

/-- A uniform word under its guard. -/
theorem uGuarded_of {s : State} {w : Wave} {i : Issue} {x : Instr} {g : BitVec 3} (h : s.Legal w i x)
    (hq : w.qPoison g.toNat = false) (f : Wave → Wave) :
    uGuarded s x g f = .next (s.after (if w.q g.toNat then f w else w) i) := by
  unfold uGuarded
  rw [whenLegal_of h]
  simp only [hq, finish_eq, Bool.false_eq_true, if_false]

/-- A uniform word under a poisoned guard takes Poison Consumed. -/
theorem uGuarded_poison {s : State} {w : Wave} {i : Issue} {x : Instr} {g : BitVec 3} (h : s.Legal w i x)
    (hq : w.qPoison g.toNat = true) (f : Wave → Wave) : uGuarded s x g f = poisonTrap s w i := by
  unfold uGuarded
  rw [whenLegal_of h]
  simp only [hq, if_true]

/-- A uniform word with an immediate. -/
theorem uImm_of {s : State} {w : Wave} {i : Issue} {x : Instr} (h : s.Legal w i x) (f : Word → Word → Word)
    (d a : BitVec 6) (imm : BitVec 10) :
    uImm s x f d a imm = .next (s.after (w.uUn (fun y => f y (immediate imm i.lit)) d a) i) := by
  unfold uImm
  rw [whenLegal_of h]
  rfl

/-- A vector word under its guard. -/
theorem vGuarded_of {s : State} {w : Wave} {i : Issue} {x : Instr} {g : BitVec 3} (h : s.Legal w i x)
    (hg : w.guardPoison (w.issuing i) g = false) (f : Wave → Lanes → Wave) :
    vGuarded s x g f = .next (s.after (f w (w.written (w.issuing i) g)) i) := by
  unfold vGuarded
  rw [whenLegal_of h]
  simp only [hg, finish_eq, Bool.false_eq_true, if_false]

/-- A vector word with an immediate. -/
theorem vImm_of {s : State} {w : Wave} {i : Issue} {x : Instr} (h : s.Legal w i x) (f : Word → Word → Word)
    (d a : BitVec 6) (imm : BitVec 10) :
    vImm s x f d a imm
      = .next (s.after (w.vUn (fun y => f y (immediate imm i.lit)) d a (w.issuing i).mask) i) := by
  unfold vImm
  rw [whenLegal_of h]
  rfl

/-- A word with a base pair that is not poisoned. -/
theorem baseAccess_of {s : State} {w : Wave} {i : Issue} {x : Instr} {k : Nat} (h : s.Legal w i x)
    (hp : w.sPairPoison (2 * k) = false) (f : Wave → Issue → UnitSt → Nat → Out) :
    baseAccess s x k f = f w i (w.issuing i) (w.sPair (2 * k)) := by
  unfold baseAccess
  rw [whenLegal_of h]
  simp only [hp, Bool.false_eq_true, if_false]

/-- A word with a poisoned base pair takes Poison Consumed. -/
theorem baseAccess_poison {s : State} {w : Wave} {i : Issue} {x : Instr} {k : Nat} (h : s.Legal w i x)
    (hp : w.sPairPoison (2 * k) = true) (f : Wave → Issue → UnitSt → Nat → Out) :
    baseAccess s x k f = poisonTrap s w i := by
  unfold baseAccess
  rw [whenLegal_of h]
  simp only [hp, if_true]

/-! ## The issuing wave -/

/-- A wave of the state is found under its own names. -/
theorem State.wave?_names {s : State} {seq wid : Nat} {w : Wave} (h : s.wave? seq wid = some w) :
    w.seq = seq ∧ w.wid = wid := by
  have := List.find?_some h
  simpa using this

/-- After a wave is replaced, it reads as the new one, and every other wave as before. -/
theorem State.wave?_setWave (s : State) (w : Wave) (seq wid : Nat) :
    (s.setWave w).wave? seq wid
      = if seq = w.seq ∧ wid = w.wid then (s.wave? seq wid).map fun _ => w else s.wave? seq wid := by
  unfold State.wave? State.setWave mapWhere
  simp only
  induction s.waves with
  | nil => simp
  | cons x xs ih =>
    simp only [List.map_cons, List.find?_cons]
    by_cases hx : x.seq = w.seq ∧ x.wid = w.wid
    · have e : (decide (x.seq = w.seq) && decide (x.wid = w.wid)) = true := by simp [hx]
      simp only [e, if_true]
      by_cases hs : seq = w.seq ∧ wid = w.wid
      · simp [hs, hx]
      · have e1 : (decide (w.seq = seq) && decide (w.wid = wid)) = false := by
          simp only [Bool.and_eq_false_imp, decide_eq_true_eq, decide_eq_false_iff_not]
          intro h1 h2; exact hs ⟨h1.symm, h2.symm⟩
        have e2 : (decide (x.seq = seq) && decide (x.wid = wid)) = false := by
          simp only [Bool.and_eq_false_imp, decide_eq_true_eq, decide_eq_false_iff_not]
          intro h1 h2; exact hs ⟨by omega, by omega⟩
        rw [e1, e2, ih, if_neg hs]
    · have e : (decide (x.seq = w.seq) && decide (x.wid = w.wid)) = false := by
        simp only [Bool.and_eq_false_imp, decide_eq_true_eq, decide_eq_false_iff_not]
        intro h1 h2; exact hx ⟨h1, h2⟩
      simp only [e, Bool.false_eq_true, if_false]
      by_cases hs : seq = w.seq ∧ wid = w.wid
      · have e2 : (decide (x.seq = seq) && decide (x.wid = wid)) = false := by
          simp only [Bool.and_eq_false_imp, decide_eq_true_eq, decide_eq_false_iff_not]
          intro h1 h2; exact hx ⟨by omega, by omega⟩
        rw [e2, ih]
      · rw [ih, if_neg hs, if_neg hs]

/-- A unit replaced reads as the new one. -/
@[simp] theorem Wave.unit_setUnit (w : Wave) (a : Arm) (u : UnitSt) : (w.setUnit a u).unit a = u := by cases a <;> rfl

/-- The other unit stays. -/
@[simp] theorem Wave.unit_setUnit_other (w : Wave) (a : Arm) (u : UnitSt) : (w.setUnit a u).unit a.other = w.unit a.other := by
  cases a <;> rfl


end Sys2Proof.Machine
end

