-- ==== Sys2Proof/Laws/PerInstr.lean ====
section
/-!
SUPPORT. The encoder, one instruction at a time (09_encoding R208, R214, R216): a word's encoding leaves the chain bit zero, and
stands in the hint region exactly for the no-operation; an event has no word.
-/
namespace Sys2Proof.Laws

/-- An encoding leaves C zero, and stands in the hint region only for the no-operation. -/
def Encoding.Statement (i : Instr) : Prop :=
  ∀ x, encode i = some x → x < 2 ^ 31 ∧ chainBit x = false ∧ (isHint x = true ↔ i = .nop)

/-- An event has no word. -/
theorem Encoding.event (i : Instr) (h : encode i = none) : Encoding.Statement i :=
  fun x hx => by rw [h] at hx; cases hx

/-- A word below 2^31 and outside the hint region. -/
theorem Encoding.word (i : Instr) (x : Nat) (h : encode i = some x) (hx : x < 2 ^ 31) (hn : 2 ^ 26 ≤ x) (hi : i ≠ .nop) :
    Encoding.Statement i := by
  intro y hy
  rw [h] at hy
  obtain rfl := Option.some.inj hy
  have hm : ¬ x / 2 ^ 25 % 2 ^ 6 < 2 := by omega
  have hc : ¬ x / 2 ^ 31 % 2 ^ 1 = 1 := by omega
  exact ⟨hx, decide_eq_false hc, fun e => absurd (of_decide_eq_true e) hm, fun e => absurd e hi⟩

namespace Encoding

theorem nop : Statement .nop :=
  fun x hx => by obtain rfl := Option.some.inj hx; decide
theorem uadd (d : BitVec 6) (a : BitVec 6) (b : BitVec 6) (g : BitVec 3) : Statement (.uadd d a b g) :=
  word _ _ rfl (by simp only [wordOf, put]; omega) (by simp only [wordOf, put]; omega) nofun
theorem usub (d : BitVec 6) (a : BitVec 6) (b : BitVec 6) (g : BitVec 3) : Statement (.usub d a b g) :=
  word _ _ rfl (by simp only [wordOf, put]; omega) (by simp only [wordOf, put]; omega) nofun
theorem umul (d : BitVec 6) (a : BitVec 6) (b : BitVec 6) (g : BitVec 3) : Statement (.umul d a b g) :=
  word _ _ rfl (by simp only [wordOf, put]; omega) (by simp only [wordOf, put]; omega) nofun
theorem umulh (d : BitVec 6) (a : BitVec 6) (b : BitVec 6) (g : BitVec 3) : Statement (.umulh d a b g) :=
  word _ _ rfl (by simp only [wordOf, put]; omega) (by simp only [wordOf, put]; omega) nofun
theorem umulhu (d : BitVec 6) (a : BitVec 6) (b : BitVec 6) (g : BitVec 3) : Statement (.umulhu d a b g) :=
  word _ _ rfl (by simp only [wordOf, put]; omega) (by simp only [wordOf, put]; omega) nofun
theorem uand (d : BitVec 6) (a : BitVec 6) (b : BitVec 6) (g : BitVec 3) : Statement (.uand d a b g) :=
  word _ _ rfl (by simp only [wordOf, put]; omega) (by simp only [wordOf, put]; omega) nofun
theorem uor (d : BitVec 6) (a : BitVec 6) (b : BitVec 6) (g : BitVec 3) : Statement (.uor d a b g) :=
  word _ _ rfl (by simp only [wordOf, put]; omega) (by simp only [wordOf, put]; omega) nofun
theorem uxor (d : BitVec 6) (a : BitVec 6) (b : BitVec 6) (g : BitVec 3) : Statement (.uxor d a b g) :=
  word _ _ rfl (by simp only [wordOf, put]; omega) (by simp only [wordOf, put]; omega) nofun
theorem ushl (d : BitVec 6) (a : BitVec 6) (b : BitVec 6) (g : BitVec 3) : Statement (.ushl d a b g) :=
  word _ _ rfl (by simp only [wordOf, put]; omega) (by simp only [wordOf, put]; omega) nofun
theorem ushr (d : BitVec 6) (a : BitVec 6) (b : BitVec 6) (g : BitVec 3) : Statement (.ushr d a b g) :=
  word _ _ rfl (by simp only [wordOf, put]; omega) (by simp only [wordOf, put]; omega) nofun
theorem usar (d : BitVec 6) (a : BitVec 6) (b : BitVec 6) (g : BitVec 3) : Statement (.usar d a b g) :=
  word _ _ rfl (by simp only [wordOf, put]; omega) (by simp only [wordOf, put]; omega) nofun
theorem umin (d : BitVec 6) (a : BitVec 6) (b : BitVec 6) (g : BitVec 3) : Statement (.umin d a b g) :=
  word _ _ rfl (by simp only [wordOf, put]; omega) (by simp only [wordOf, put]; omega) nofun
theorem umax (d : BitVec 6) (a : BitVec 6) (b : BitVec 6) (g : BitVec 3) : Statement (.umax d a b g) :=
  word _ _ rfl (by simp only [wordOf, put]; omega) (by simp only [wordOf, put]; omega) nofun
theorem uminu (d : BitVec 6) (a : BitVec 6) (b : BitVec 6) (g : BitVec 3) : Statement (.uminu d a b g) :=
  word _ _ rfl (by simp only [wordOf, put]; omega) (by simp only [wordOf, put]; omega) nofun
theorem umaxu (d : BitVec 6) (a : BitVec 6) (b : BitVec 6) (g : BitVec 3) : Statement (.umaxu d a b g) :=
  word _ _ rfl (by simp only [wordOf, put]; omega) (by simp only [wordOf, put]; omega) nofun
theorem umov (d : BitVec 6) (a : BitVec 6) (g : BitVec 3) : Statement (.umov d a g) :=
  word _ _ rfl (by simp only [wordOf, put]; omega) (by simp only [wordOf, put]; omega) nofun
theorem uaddi (d : BitVec 6) (a : BitVec 6) (imm : BitVec 10) : Statement (.uaddi d a imm) :=
  word _ _ rfl (by simp only [wordOf, put]; omega) (by simp only [wordOf, put]; omega) nofun
theorem umuli (d : BitVec 6) (a : BitVec 6) (imm : BitVec 10) : Statement (.umuli d a imm) :=
  word _ _ rfl (by simp only [wordOf, put]; omega) (by simp only [wordOf, put]; omega) nofun
theorem uandi (d : BitVec 6) (a : BitVec 6) (imm : BitVec 10) : Statement (.uandi d a imm) :=
  word _ _ rfl (by simp only [wordOf, put]; omega) (by simp only [wordOf, put]; omega) nofun
theorem uori (d : BitVec 6) (a : BitVec 6) (imm : BitVec 10) : Statement (.uori d a imm) :=
  word _ _ rfl (by simp only [wordOf, put]; omega) (by simp only [wordOf, put]; omega) nofun
theorem uxori (d : BitVec 6) (a : BitVec 6) (imm : BitVec 10) : Statement (.uxori d a imm) :=
  word _ _ rfl (by simp only [wordOf, put]; omega) (by simp only [wordOf, put]; omega) nofun
theorem ushli (d : BitVec 6) (a : BitVec 6) (imm : BitVec 10) : Statement (.ushli d a imm) :=
  word _ _ rfl (by simp only [wordOf, put]; omega) (by simp only [wordOf, put]; omega) nofun
theorem ushri (d : BitVec 6) (a : BitVec 6) (imm : BitVec 10) : Statement (.ushri d a imm) :=
  word _ _ rfl (by simp only [wordOf, put]; omega) (by simp only [wordOf, put]; omega) nofun
theorem usari (d : BitVec 6) (a : BitVec 6) (imm : BitVec 10) : Statement (.usari d a imm) :=
  word _ _ rfl (by simp only [wordOf, put]; omega) (by simp only [wordOf, put]; omega) nofun
theorem ucmp (cc : BitVec 4) (q : BitVec 6) (a : BitVec 6) (b : BitVec 6) (g : BitVec 3) : Statement (.ucmp cc q a b g) :=
  word _ _ rfl (by simp only [wordOf, put]; omega) (by simp only [wordOf, put]; omega) nofun
theorem ucmpi (cc : BitVec 3) (q : BitVec 6) (a : BitVec 6) (imm : BitVec 10) : Statement (.ucmpi cc q a imm) :=
  word _ _ rfl (by simp only [wordOf, put]; omega) (by simp only [wordOf, put]; omega) nofun
theorem uclz (d : BitVec 6) (a : BitVec 6) (g : BitVec 3) : Statement (.uclz d a g) :=
  word _ _ rfl (by simp only [wordOf, put]; omega) (by simp only [wordOf, put]; omega) nofun
theorem upopc (d : BitVec 6) (a : BitVec 6) (g : BitVec 3) : Statement (.upopc d a g) :=
  word _ _ rfl (by simp only [wordOf, put]; omega) (by simp only [wordOf, put]; omega) nofun
theorem ubrev (d : BitVec 6) (a : BitVec 6) (g : BitVec 3) : Statement (.ubrev d a g) :=
  word _ _ rfl (by simp only [wordOf, put]; omega) (by simp only [wordOf, put]; omega) nofun
theorem ubfx (d : BitVec 6) (a : BitVec 6) (b : BitVec 6) (g : BitVec 3) : Statement (.ubfx d a b g) :=
  word _ _ rfl (by simp only [wordOf, put]; omega) (by simp only [wordOf, put]; omega) nofun
theorem ubfi (d : BitVec 6) (a : BitVec 6) (b : BitVec 6) (g : BitVec 3) : Statement (.ubfi d a b g) :=
  word _ _ rfl (by simp only [wordOf, put]; omega) (by simp only [wordOf, put]; omega) nofun
theorem usel (d : BitVec 6) (a : BitVec 6) (b : BitVec 6) (q : BitVec 3) : Statement (.usel d a b q) :=
  word _ _ rfl (by simp only [wordOf, put]; omega) (by simp only [wordOf, put]; omega) nofun
theorem uqop (d : BitVec 6) (a : BitVec 6) (b : BitVec 6) (o : BitVec 3) : Statement (.uqop d a b o) :=
  word _ _ rfl (by simp only [wordOf, put]; omega) (by simp only [wordOf, put]; omega) nofun
theorem uqmovTos (d : BitVec 6) : Statement (.uqmovTos d) :=
  word _ _ rfl (by simp only [wordOf, put]; omega) (by simp only [wordOf, put]; omega) nofun
theorem uqmovFroms (a : BitVec 6) : Statement (.uqmovFroms a) :=
  word _ _ rfl (by simp only [wordOf, put]; omega) (by simp only [wordOf, put]; omega) nofun
theorem uld32 (d : BitVec 6) (a : BitVec 6) (imm : BitVec 10) : Statement (.uld32 d a imm) :=
  word _ _ rfl (by simp only [wordOf, put]; omega) (by simp only [wordOf, put]; omega) nofun
theorem uld64 (d : BitVec 6) (a : BitVec 6) (imm : BitVec 10) : Statement (.uld64 d a imm) :=
  word _ _ rfl (by simp only [wordOf, put]; omega) (by simp only [wordOf, put]; omega) nofun
theorem ust32 (d : BitVec 6) (a : BitVec 6) (imm : BitVec 10) : Statement (.ust32 d a imm) :=
  word _ _ rfl (by simp only [wordOf, put]; omega) (by simp only [wordOf, put]; omega) nofun
theorem ust64 (d : BitVec 6) (a : BitVec 6) (imm : BitVec 10) : Statement (.ust64 d a imm) :=
  word _ _ rfl (by simp only [wordOf, put]; omega) (by simp only [wordOf, put]; omega) nofun
theorem urds (d : BitVec 6) (n : BitVec 10) : Statement (.urds d n) :=
  word _ _ rfl (by simp only [wordOf, put]; omega) (by simp only [wordOf, put]; omega) nofun
theorem uwrs (a : BitVec 6) (n : BitVec 10) : Statement (.uwrs a n) :=
  word _ _ rfl (by simp only [wordOf, put]; omega) (by simp only [wordOf, put]; omega) nofun
theorem setfmt (m : BitVec 8) (v : BitVec 8) : Statement (.setfmt m v) :=
  word _ _ rfl (by simp only [wordOf, put]; omega) (by simp only [wordOf, put]; omega) nofun
theorem bra (q : BitVec 3) (o : BitVec 19) : Statement (.bra q o) :=
  word _ _ rfl (by simp only [wordOf, put]; omega) (by simp only [wordOf, put]; omega) nofun
theorem bran (q : BitVec 3) (o : BitVec 19) : Statement (.bran q o) :=
  word _ _ rfl (by simp only [wordOf, put]; omega) (by simp only [wordOf, put]; omega) nofun
theorem call (q : BitVec 3) (o : BitVec 19) : Statement (.call q o) :=
  word _ _ rfl (by simp only [wordOf, put]; omega) (by simp only [wordOf, put]; omega) nofun
theorem ret (q : BitVec 3) : Statement (.ret q) :=
  word _ _ rfl (by simp only [wordOf, put]; omega) (by simp only [wordOf, put]; omega) nofun
theorem jmpi (q : BitVec 3) (a : BitVec 6) : Statement (.jmpi q a) :=
  word _ _ rfl (by simp only [wordOf, put]; omega) (by simp only [wordOf, put]; omega) nofun
theorem calli (q : BitVec 3) (a : BitVec 6) : Statement (.calli q a) :=
  word _ _ rfl (by simp only [wordOf, put]; omega) (by simp only [wordOf, put]; omega) nofun
theorem split (p : BitVec 6) (e : BitVec 16) : Statement (.split p e) :=
  word _ _ rfl (by simp only [wordOf, put]; omega) (by simp only [wordOf, put]; omega) nofun
theorem join : Statement .join := word _ _ rfl (by decide) (by decide) nofun
theorem brkp (p : BitVec 6) : Statement (.brkp p) :=
  word _ _ rfl (by simp only [wordOf, put]; omega) (by simp only [wordOf, put]; omega) nofun
theorem pmask (d : BitVec 6) : Statement (.pmask d) :=
  word _ _ rfl (by simp only [wordOf, put]; omega) (by simp only [wordOf, put]; omega) nofun
theorem anyp (d : BitVec 6) (p : BitVec 6) : Statement (.anyp d p) :=
  word _ _ rfl (by simp only [wordOf, put]; omega) (by simp only [wordOf, put]; omega) nofun
theorem allp (d : BitVec 6) (p : BitVec 6) : Statement (.allp d p) :=
  word _ _ rfl (by simp only [wordOf, put]; omega) (by simp only [wordOf, put]; omega) nofun
theorem halt : Statement .halt := word _ _ rfl (by decide) (by decide) nofun
theorem yield : Statement .yield := word _ _ rfl (by decide) (by decide) nofun
theorem sleepuntil (k : BitVec 5) : Statement (.sleepuntil k) :=
  word _ _ rfl (by simp only [wordOf, put]; omega) (by simp only [wordOf, put]; omega) nofun
theorem waitline (k : BitVec 5) (s : BitVec 6) (y : BitVec 6) : Statement (.waitline k s y) :=
  word _ _ rfl (by simp only [wordOf, put]; omega) (by simp only [wordOf, put]; omega) nofun
theorem trap (n : BitVec 8) : Statement (.trap n) :=
  word _ _ rfl (by simp only [wordOf, put]; omega) (by simp only [wordOf, put]; omega) nofun
theorem bkpt (n : BitVec 8) : Statement (.bkpt n) :=
  word _ _ rfl (by simp only [wordOf, put]; omega) (by simp only [wordOf, put]; omega) nofun
theorem rte : Statement .rte := word _ _ rfl (by decide) (by decide) nofun
theorem dispatch (a : BitVec 6) : Statement (.dispatch a) :=
  word _ _ rfl (by simp only [wordOf, put]; omega) (by simp only [wordOf, put]; omega) nofun
theorem phasesel : Statement .phasesel := word _ _ rfl (by decide) (by decide) nofun
theorem phaseend (g : BitVec 2) : Statement (.phaseend g) :=
  word _ _ rfl (by simp only [wordOf, put]; omega) (by simp only [wordOf, put]; omega) nofun
theorem vadd (u : BitVec 1) (d : BitVec 6) (a : BitVec 6) (b : BitVec 6) (g : BitVec 3) : Statement (.vadd u d a b g) :=
  word _ _ rfl (by simp only [wordOf, put]; omega) (by simp only [wordOf, put]; omega) nofun
theorem vsub (u : BitVec 1) (d : BitVec 6) (a : BitVec 6) (b : BitVec 6) (g : BitVec 3) : Statement (.vsub u d a b g) :=
  word _ _ rfl (by simp only [wordOf, put]; omega) (by simp only [wordOf, put]; omega) nofun
theorem vmul (u : BitVec 1) (d : BitVec 6) (a : BitVec 6) (b : BitVec 6) (g : BitVec 3) : Statement (.vmul u d a b g) :=
  word _ _ rfl (by simp only [wordOf, put]; omega) (by simp only [wordOf, put]; omega) nofun
theorem vmulh (u : BitVec 1) (d : BitVec 6) (a : BitVec 6) (b : BitVec 6) (g : BitVec 3) : Statement (.vmulh u d a b g) :=
  word _ _ rfl (by simp only [wordOf, put]; omega) (by simp only [wordOf, put]; omega) nofun
theorem vmulhu (u : BitVec 1) (d : BitVec 6) (a : BitVec 6) (b : BitVec 6) (g : BitVec 3) : Statement (.vmulhu u d a b g) :=
  word _ _ rfl (by simp only [wordOf, put]; omega) (by simp only [wordOf, put]; omega) nofun
theorem vmin (u : BitVec 1) (d : BitVec 6) (a : BitVec 6) (b : BitVec 6) (g : BitVec 3) : Statement (.vmin u d a b g) :=
  word _ _ rfl (by simp only [wordOf, put]; omega) (by simp only [wordOf, put]; omega) nofun
theorem vmax (u : BitVec 1) (d : BitVec 6) (a : BitVec 6) (b : BitVec 6) (g : BitVec 3) : Statement (.vmax u d a b g) :=
  word _ _ rfl (by simp only [wordOf, put]; omega) (by simp only [wordOf, put]; omega) nofun
theorem vminu (u : BitVec 1) (d : BitVec 6) (a : BitVec 6) (b : BitVec 6) (g : BitVec 3) : Statement (.vminu u d a b g) :=
  word _ _ rfl (by simp only [wordOf, put]; omega) (by simp only [wordOf, put]; omega) nofun
theorem vand (u : BitVec 1) (d : BitVec 6) (a : BitVec 6) (b : BitVec 6) (g : BitVec 3) : Statement (.vand u d a b g) :=
  word _ _ rfl (by simp only [wordOf, put]; omega) (by simp only [wordOf, put]; omega) nofun
theorem vor (u : BitVec 1) (d : BitVec 6) (a : BitVec 6) (b : BitVec 6) (g : BitVec 3) : Statement (.vor u d a b g) :=
  word _ _ rfl (by simp only [wordOf, put]; omega) (by simp only [wordOf, put]; omega) nofun
theorem vxor (u : BitVec 1) (d : BitVec 6) (a : BitVec 6) (b : BitVec 6) (g : BitVec 3) : Statement (.vxor u d a b g) :=
  word _ _ rfl (by simp only [wordOf, put]; omega) (by simp only [wordOf, put]; omega) nofun
theorem vshl (u : BitVec 1) (d : BitVec 6) (a : BitVec 6) (b : BitVec 6) (g : BitVec 3) : Statement (.vshl u d a b g) :=
  word _ _ rfl (by simp only [wordOf, put]; omega) (by simp only [wordOf, put]; omega) nofun
theorem vshr (u : BitVec 1) (d : BitVec 6) (a : BitVec 6) (b : BitVec 6) (g : BitVec 3) : Statement (.vshr u d a b g) :=
  word _ _ rfl (by simp only [wordOf, put]; omega) (by simp only [wordOf, put]; omega) nofun
theorem vsar (u : BitVec 1) (d : BitVec 6) (a : BitVec 6) (b : BitVec 6) (g : BitVec 3) : Statement (.vsar u d a b g) :=
  word _ _ rfl (by simp only [wordOf, put]; omega) (by simp only [wordOf, put]; omega) nofun
theorem vmaxu (u : BitVec 1) (d : BitVec 6) (a : BitVec 6) (b : BitVec 6) (g : BitVec 3) : Statement (.vmaxu u d a b g) :=
  word _ _ rfl (by simp only [wordOf, put]; omega) (by simp only [wordOf, put]; omega) nofun
theorem vabsd (u : BitVec 1) (d : BitVec 6) (a : BitVec 6) (b : BitVec 6) (g : BitVec 3) : Statement (.vabsd u d a b g) :=
  word _ _ rfl (by simp only [wordOf, put]; omega) (by simp only [wordOf, put]; omega) nofun
theorem vaddi (d : BitVec 6) (a : BitVec 6) (imm : BitVec 10) : Statement (.vaddi d a imm) :=
  word _ _ rfl (by simp only [wordOf, put]; omega) (by simp only [wordOf, put]; omega) nofun
theorem vmuli (d : BitVec 6) (a : BitVec 6) (imm : BitVec 10) : Statement (.vmuli d a imm) :=
  word _ _ rfl (by simp only [wordOf, put]; omega) (by simp only [wordOf, put]; omega) nofun
theorem vandi (d : BitVec 6) (a : BitVec 6) (imm : BitVec 10) : Statement (.vandi d a imm) :=
  word _ _ rfl (by simp only [wordOf, put]; omega) (by simp only [wordOf, put]; omega) nofun
theorem vori (d : BitVec 6) (a : BitVec 6) (imm : BitVec 10) : Statement (.vori d a imm) :=
  word _ _ rfl (by simp only [wordOf, put]; omega) (by simp only [wordOf, put]; omega) nofun
theorem vxori (d : BitVec 6) (a : BitVec 6) (imm : BitVec 10) : Statement (.vxori d a imm) :=
  word _ _ rfl (by simp only [wordOf, put]; omega) (by simp only [wordOf, put]; omega) nofun
theorem vshli (d : BitVec 6) (a : BitVec 6) (imm : BitVec 10) : Statement (.vshli d a imm) :=
  word _ _ rfl (by simp only [wordOf, put]; omega) (by simp only [wordOf, put]; omega) nofun
theorem vshri (d : BitVec 6) (a : BitVec 6) (imm : BitVec 10) : Statement (.vshri d a imm) :=
  word _ _ rfl (by simp only [wordOf, put]; omega) (by simp only [wordOf, put]; omega) nofun
theorem vsari (d : BitVec 6) (a : BitVec 6) (imm : BitVec 10) : Statement (.vsari d a imm) :=
  word _ _ rfl (by simp only [wordOf, put]; omega) (by simp only [wordOf, put]; omega) nofun
theorem vicmp (u : BitVec 1) (cc : BitVec 3) (d : BitVec 6) (a : BitVec 6) (b : BitVec 6) (g : BitVec 3) : Statement (.vicmp u cc d a b g) :=
  word _ _ rfl (by simp only [wordOf, put]; omega) (by simp only [wordOf, put]; omega) nofun
theorem vicmpi (cc : BitVec 3) (d : BitVec 6) (a : BitVec 6) (imm : BitVec 10) : Statement (.vicmpi cc d a imm) :=
  word _ _ rfl (by simp only [wordOf, put]; omega) (by simp only [wordOf, put]; omega) nofun
theorem vclz (u : BitVec 1) (d : BitVec 6) (a : BitVec 6) (g : BitVec 3) : Statement (.vclz u d a g) :=
  word _ _ rfl (by simp only [wordOf, put]; omega) (by simp only [wordOf, put]; omega) nofun
theorem vpopc (u : BitVec 1) (d : BitVec 6) (a : BitVec 6) (g : BitVec 3) : Statement (.vpopc u d a g) :=
  word _ _ rfl (by simp only [wordOf, put]; omega) (by simp only [wordOf, put]; omega) nofun
theorem vbrev (u : BitVec 1) (d : BitVec 6) (a : BitVec 6) (g : BitVec 3) : Statement (.vbrev u d a g) :=
  word _ _ rfl (by simp only [wordOf, put]; omega) (by simp only [wordOf, put]; omega) nofun
theorem vbfx (u : BitVec 1) (d : BitVec 6) (a : BitVec 6) (b : BitVec 6) (g : BitVec 3) : Statement (.vbfx u d a b g) :=
  word _ _ rfl (by simp only [wordOf, put]; omega) (by simp only [wordOf, put]; omega) nofun
theorem vbfi (u : BitVec 1) (d : BitVec 6) (a : BitVec 6) (b : BitVec 6) (g : BitVec 3) : Statement (.vbfi u d a b g) :=
  word _ _ rfl (by simp only [wordOf, put]; omega) (by simp only [wordOf, put]; omega) nofun
theorem vsel (u : BitVec 1) (d : BitVec 6) (a : BitVec 6) (b : BitVec 6) (p : BitVec 3) : Statement (.vsel u d a b p) :=
  word _ _ rfl (by simp only [wordOf, put]; omega) (by simp only [wordOf, put]; omega) nofun
theorem vmad (u : BitVec 1) (d : BitVec 6) (a : BitVec 6) (b : BitVec 6) (g : BitVec 3) : Statement (.vmad u d a b g) :=
  word _ _ rfl (by simp only [wordOf, put]; omega) (by simp only [wordOf, put]; omega) nofun
theorem vlane (u : BitVec 1) (d : BitVec 6) (g : BitVec 3) : Statement (.vlane u d g) :=
  word _ _ rfl (by simp only [wordOf, put]; omega) (by simp only [wordOf, put]; omega) nofun
theorem vmov (d : BitVec 6) (a : BitVec 6) (g : BitVec 3) : Statement (.vmov d a g) :=
  word _ _ rfl (by simp only [wordOf, put]; omega) (by simp only [wordOf, put]; omega) nofun
theorem vmovs (d : BitVec 6) (s : BitVec 6) (g : BitVec 3) : Statement (.vmovs d s g) :=
  word _ _ rfl (by simp only [wordOf, put]; omega) (by simp only [wordOf, put]; omega) nofun
theorem vtos (s : BitVec 6) (a : BitVec 6) (l : BitVec 6) (g : BitVec 3) : Statement (.vtos s a l g) :=
  word _ _ rfl (by simp only [wordOf, put]; omega) (by simp only [wordOf, put]; omega) nofun
theorem vfroms (d : BitVec 6) (s : BitVec 6) (l : BitVec 6) (g : BitVec 3) : Statement (.vfroms d s l g) :=
  word _ _ rfl (by simp only [wordOf, put]; omega) (by simp only [wordOf, put]; omega) nofun
theorem fadd (u : BitVec 1) (d : BitVec 6) (a : BitVec 6) (b : BitVec 6) (g : BitVec 3) : Statement (.fadd u d a b g) :=
  word _ _ rfl (by simp only [wordOf, put]; omega) (by simp only [wordOf, put]; omega) nofun
theorem fsub (u : BitVec 1) (d : BitVec 6) (a : BitVec 6) (b : BitVec 6) (g : BitVec 3) : Statement (.fsub u d a b g) :=
  word _ _ rfl (by simp only [wordOf, put]; omega) (by simp only [wordOf, put]; omega) nofun
theorem fmul (u : BitVec 1) (d : BitVec 6) (a : BitVec 6) (b : BitVec 6) (g : BitVec 3) : Statement (.fmul u d a b g) :=
  word _ _ rfl (by simp only [wordOf, put]; omega) (by simp only [wordOf, put]; omega) nofun
theorem ffma (u : BitVec 1) (d : BitVec 6) (a : BitVec 6) (b : BitVec 6) (g : BitVec 3) : Statement (.ffma u d a b g) :=
  word _ _ rfl (by simp only [wordOf, put]; omega) (by simp only [wordOf, put]; omega) nofun
theorem ffnma (u : BitVec 1) (d : BitVec 6) (a : BitVec 6) (b : BitVec 6) (g : BitVec 3) : Statement (.ffnma u d a b g) :=
  word _ _ rfl (by simp only [wordOf, put]; omega) (by simp only [wordOf, put]; omega) nofun
theorem fmin (u : BitVec 1) (d : BitVec 6) (a : BitVec 6) (b : BitVec 6) (g : BitVec 3) : Statement (.fmin u d a b g) :=
  word _ _ rfl (by simp only [wordOf, put]; omega) (by simp only [wordOf, put]; omega) nofun
theorem fmax (u : BitVec 1) (d : BitVec 6) (a : BitVec 6) (b : BitVec 6) (g : BitVec 3) : Statement (.fmax u d a b g) :=
  word _ _ rfl (by simp only [wordOf, put]; omega) (by simp only [wordOf, put]; omega) nofun
theorem fabs (u : BitVec 1) (d : BitVec 6) (a : BitVec 6) (g : BitVec 3) : Statement (.fabs u d a g) :=
  word _ _ rfl (by simp only [wordOf, put]; omega) (by simp only [wordOf, put]; omega) nofun
theorem vfcmp (u : BitVec 1) (cc : BitVec 3) (d : BitVec 6) (a : BitVec 6) (b : BitVec 6) (g : BitVec 3) : Statement (.vfcmp u cc d a b g) :=
  word _ _ rfl (by simp only [wordOf, put]; omega) (by simp only [wordOf, put]; omega) nofun
theorem frcp (u : BitVec 1) (d : BitVec 6) (a : BitVec 6) (g : BitVec 3) : Statement (.frcp u d a g) :=
  word _ _ rfl (by simp only [wordOf, put]; omega) (by simp only [wordOf, put]; omega) nofun
theorem frsq (u : BitVec 1) (d : BitVec 6) (a : BitVec 6) (g : BitVec 3) : Statement (.frsq u d a g) :=
  word _ _ rfl (by simp only [wordOf, put]; omega) (by simp only [wordOf, put]; omega) nofun
theorem fsqrt (u : BitVec 1) (d : BitVec 6) (a : BitVec 6) (g : BitVec 3) : Statement (.fsqrt u d a g) :=
  word _ _ rfl (by simp only [wordOf, put]; omega) (by simp only [wordOf, put]; omega) nofun
theorem fdiv (u : BitVec 1) (d : BitVec 6) (a : BitVec 6) (b : BitVec 6) (g : BitVec 3) : Statement (.fdiv u d a b g) :=
  word _ _ rfl (by simp only [wordOf, put]; omega) (by simp only [wordOf, put]; omega) nofun
theorem fex2 (u : BitVec 1) (d : BitVec 6) (a : BitVec 6) (g : BitVec 3) : Statement (.fex2 u d a g) :=
  word _ _ rfl (by simp only [wordOf, put]; omega) (by simp only [wordOf, put]; omega) nofun
theorem flg2 (u : BitVec 1) (d : BitVec 6) (a : BitVec 6) (g : BitVec 3) : Statement (.flg2 u d a g) :=
  word _ _ rfl (by simp only [wordOf, put]; omega) (by simp only [wordOf, put]; omega) nofun
theorem frint (u : BitVec 1) (d : BitVec 6) (a : BitVec 6) (g : BitVec 3) : Statement (.frint u d a g) :=
  word _ _ rfl (by simp only [wordOf, put]; omega) (by simp only [wordOf, put]; omega) nofun
theorem fclass (u : BitVec 1) (d : BitVec 6) (a : BitVec 6) (g : BitVec 3) : Statement (.fclass u d a g) :=
  word _ _ rfl (by simp only [wordOf, put]; omega) (by simp only [wordOf, put]; omega) nofun
theorem b2add (u : BitVec 1) (d : BitVec 6) (a : BitVec 6) (b : BitVec 6) (g : BitVec 3) : Statement (.b2add u d a b g) :=
  word _ _ rfl (by simp only [wordOf, put]; omega) (by simp only [wordOf, put]; omega) nofun
theorem b2sub (u : BitVec 1) (d : BitVec 6) (a : BitVec 6) (b : BitVec 6) (g : BitVec 3) : Statement (.b2sub u d a b g) :=
  word _ _ rfl (by simp only [wordOf, put]; omega) (by simp only [wordOf, put]; omega) nofun
theorem b2mul (u : BitVec 1) (d : BitVec 6) (a : BitVec 6) (b : BitVec 6) (g : BitVec 3) : Statement (.b2mul u d a b g) :=
  word _ _ rfl (by simp only [wordOf, put]; omega) (by simp only [wordOf, put]; omega) nofun
theorem b2fma (u : BitVec 1) (d : BitVec 6) (a : BitVec 6) (b : BitVec 6) (g : BitVec 3) : Statement (.b2fma u d a b g) :=
  word _ _ rfl (by simp only [wordOf, put]; omega) (by simp only [wordOf, put]; omega) nofun
theorem b2max (u : BitVec 1) (d : BitVec 6) (a : BitVec 6) (b : BitVec 6) (g : BitVec 3) : Statement (.b2max u d a b g) :=
  word _ _ rfl (by simp only [wordOf, put]; omega) (by simp only [wordOf, put]; omega) nofun
theorem b2min (u : BitVec 1) (d : BitVec 6) (a : BitVec 6) (b : BitVec 6) (g : BitVec 3) : Statement (.b2min u d a b g) :=
  word _ _ rfl (by simp only [wordOf, put]; omega) (by simp only [wordOf, put]; omega) nofun
theorem fcvt (d : BitVec 6) (a : BitVec 6) (dst : BitVec 3) (src : BitVec 3) (g : BitVec 3) : Statement (.fcvt d a dst src g) :=
  word _ _ rfl (by simp only [wordOf, put]; omega) (by simp only [wordOf, put]; omega) nofun
theorem icvt (d : BitVec 6) (a : BitVec 6) (dst : BitVec 3) (src : BitVec 3) (g : BitVec 3) : Statement (.icvt d a dst src g) :=
  word _ _ rfl (by simp only [wordOf, put]; omega) (by simp only [wordOf, put]; omega) nofun
theorem qpk (d : BitVec 6) (a : BitVec 6) (s : BitVec 6) (g : BitVec 3) : Statement (.qpk d a s g) :=
  word _ _ rfl (by simp only [wordOf, put]; omega) (by simp only [wordOf, put]; omega) nofun
theorem qunpk (d : BitVec 6) (a : BitVec 6) (s : BitVec 6) (g : BitVec 3) : Statement (.qunpk d a s g) :=
  word _ _ rfl (by simp only [wordOf, put]; omega) (by simp only [wordOf, put]; omega) nofun
theorem shfl (d : BitVec 6) (a : BitVec 6) (b : BitVec 6) (g : BitVec 3) : Statement (.shfl d a b g) :=
  word _ _ rfl (by simp only [wordOf, put]; omega) (by simp only [wordOf, put]; omega) nofun
theorem shflx (d : BitVec 6) (a : BitVec 6) (k : BitVec 6) (g : BitVec 3) : Statement (.shflx d a k g) :=
  word _ _ rfl (by simp only [wordOf, put]; omega) (by simp only [wordOf, put]; omega) nofun
theorem shflup (d : BitVec 6) (a : BitVec 6) (k : BitVec 6) (g : BitVec 3) : Statement (.shflup d a k g) :=
  word _ _ rfl (by simp only [wordOf, put]; omega) (by simp only [wordOf, put]; omega) nofun
theorem shfldn (d : BitVec 6) (a : BitVec 6) (k : BitVec 6) (g : BitVec 3) : Statement (.shfldn d a k g) :=
  word _ _ rfl (by simp only [wordOf, put]; omega) (by simp only [wordOf, put]; omega) nofun
theorem lanebc (d : BitVec 6) (a : BitVec 6) (k : BitVec 6) (g : BitVec 3) : Statement (.lanebc d a k g) :=
  word _ _ rfl (by simp only [wordOf, put]; omega) (by simp only [wordOf, put]; omega) nofun
theorem vredf (d : BitVec 6) (a : BitVec 6) (o : BitVec 6) (g : BitVec 3) : Statement (.vredf d a o g) :=
  word _ _ rfl (by simp only [wordOf, put]; omega) (by simp only [wordOf, put]; omega) nofun
theorem vredi (d : BitVec 6) (a : BitVec 6) (o : BitVec 6) (g : BitVec 3) : Statement (.vredi d a o g) :=
  word _ _ rfl (by simp only [wordOf, put]; omega) (by simp only [wordOf, put]; omega) nofun
theorem vscanf (d : BitVec 6) (a : BitVec 6) (o : BitVec 6) (g : BitVec 3) : Statement (.vscanf d a o g) :=
  word _ _ rfl (by simp only [wordOf, put]; omega) (by simp only [wordOf, put]; omega) nofun
theorem vldx (d : BitVec 6) (a : BitVec 6) (imm : BitVec 10) : Statement (.vldx d a imm) :=
  word _ _ rfl (by simp only [wordOf, put]; omega) (by simp only [wordOf, put]; omega) nofun
theorem vstx (d : BitVec 6) (a : BitVec 6) (imm : BitVec 10) : Statement (.vstx d a imm) :=
  word _ _ rfl (by simp only [wordOf, put]; omega) (by simp only [wordOf, put]; omega) nofun
theorem pand (d : BitVec 6) (a : BitVec 6) (b : BitVec 6) (g : BitVec 3) : Statement (.pand d a b g) :=
  word _ _ rfl (by simp only [wordOf, put]; omega) (by simp only [wordOf, put]; omega) nofun
theorem por (d : BitVec 6) (a : BitVec 6) (b : BitVec 6) (g : BitVec 3) : Statement (.por d a b g) :=
  word _ _ rfl (by simp only [wordOf, put]; omega) (by simp only [wordOf, put]; omega) nofun
theorem pxor (d : BitVec 6) (a : BitVec 6) (b : BitVec 6) (g : BitVec 3) : Statement (.pxor d a b g) :=
  word _ _ rfl (by simp only [wordOf, put]; omega) (by simp only [wordOf, put]; omega) nofun
theorem pandn (d : BitVec 6) (a : BitVec 6) (b : BitVec 6) (g : BitVec 3) : Statement (.pandn d a b g) :=
  word _ _ rfl (by simp only [wordOf, put]; omega) (by simp only [wordOf, put]; omega) nofun
theorem pnot (d : BitVec 6) (a : BitVec 6) (g : BitVec 3) : Statement (.pnot d a g) :=
  word _ _ rfl (by simp only [wordOf, put]; omega) (by simp only [wordOf, put]; omega) nofun
theorem pmov (d : BitVec 6) (a : BitVec 6) (g : BitVec 3) : Statement (.pmov d a g) :=
  word _ _ rfl (by simp only [wordOf, put]; omega) (by simp only [wordOf, put]; omega) nofun
theorem pset (d : BitVec 6) (v : BitVec 1) (g : BitVec 3) : Statement (.pset d v g) :=
  word _ _ rfl (by simp only [wordOf, put]; omega) (by simp only [wordOf, put]; omega) nofun
theorem vballot (s : BitVec 6) (a : BitVec 6) (g : BitVec 3) : Statement (.vballot s a g) :=
  word _ _ rfl (by simp only [wordOf, put]; omega) (by simp only [wordOf, put]; omega) nofun
theorem vmcnt (d : BitVec 6) (a : BitVec 6) (g : BitVec 3) : Statement (.vmcnt d a g) :=
  word _ _ rfl (by simp only [wordOf, put]; omega) (by simp only [wordOf, put]; omega) nofun
theorem ldg (z : BitVec 2) (s : BitVec 3) (r : BitVec 2) (d : BitVec 6) (o : BitVec 6) (k : BitVec 5) (n : BitVec 1) : Statement (.ldg z s r d o k n) :=
  word _ _ rfl (by simp only [wordOf, put]; omega) (by simp only [wordOf, put]; omega) nofun
theorem stg (z : BitVec 2) (s : BitVec 3) (r : BitVec 2) (d : BitVec 6) (o : BitVec 6) (k : BitVec 5) (n : BitVec 1) : Statement (.stg z s r d o k n) :=
  word _ _ rfl (by simp only [wordOf, put]; omega) (by simp only [wordOf, put]; omega) nofun
theorem ldq (z : BitVec 2) (s : BitVec 3) (r : BitVec 2) (d : BitVec 6) (o : BitVec 6) (k : BitVec 5) (n : BitVec 1) : Statement (.ldq z s r d o k n) :=
  word _ _ rfl (by simp only [wordOf, put]; omega) (by simp only [wordOf, put]; omega) nofun
theorem stq (z : BitVec 2) (s : BitVec 3) (r : BitVec 2) (d : BitVec 6) (o : BitVec 6) (k : BitVec 5) (n : BitVec 1) : Statement (.stq z s r d o k n) :=
  word _ _ rfl (by simp only [wordOf, put]; omega) (by simp only [wordOf, put]; omega) nofun
theorem gather (z : BitVec 2) (s : BitVec 3) (r : BitVec 2) (d : BitVec 6) (o : BitVec 6) (k : BitVec 5) (n : BitVec 1) : Statement (.gather z s r d o k n) :=
  word _ _ rfl (by simp only [wordOf, put]; omega) (by simp only [wordOf, put]; omega) nofun
theorem scatter (z : BitVec 2) (s : BitVec 3) (r : BitVec 2) (d : BitVec 6) (o : BitVec 6) (k : BitVec 5) (n : BitVec 1) : Statement (.scatter z s r d o k n) :=
  word _ _ rfl (by simp only [wordOf, put]; omega) (by simp only [wordOf, put]; omega) nofun
theorem atomg (p : BitVec 3) (w : BitVec 1) (s : BitVec 3) (r : BitVec 2) (d : BitVec 6) (o : BitVec 6) (k : BitVec 4) : Statement (.atomg p w s r d o k) :=
  word _ _ rfl (by simp only [wordOf, put]; omega) (by simp only [wordOf, put]; omega) nofun
theorem atomq (p : BitVec 3) (n : BitVec 1) (s : BitVec 3) (r : BitVec 2) (d : BitVec 6) (o : BitVec 6) (k : BitVec 4) : Statement (.atomq p n s r d o k) :=
  word _ _ rfl (by simp only [wordOf, put]; omega) (by simp only [wordOf, put]; omega) nofun
theorem fence (s : BitVec 3) : Statement (.fence s) :=
  word _ _ rfl (by simp only [wordOf, put]; omega) (by simp only [wordOf, put]; omega) nofun
theorem fenceacq (s : BitVec 3) : Statement (.fenceacq s) :=
  word _ _ rfl (by simp only [wordOf, put]; omega) (by simp only [wordOf, put]; omega) nofun
theorem fencerel (s : BitVec 3) : Statement (.fencerel s) :=
  word _ _ rfl (by simp only [wordOf, put]; omega) (by simp only [wordOf, put]; omega) nofun
theorem fenceeng (s : BitVec 3) : Statement (.fenceeng s) :=
  word _ _ rfl (by simp only [wordOf, put]; omega) (by simp only [wordOf, put]; omega) nofun
theorem pref (o : BitVec 6) (k : BitVec 5) (n : BitVec 1) : Statement (.pref o k n) :=
  word _ _ rfl (by simp only [wordOf, put]; omega) (by simp only [wordOf, put]; omega) nofun
theorem wbl (o : BitVec 6) (k : BitVec 5) (n : BitVec 1) : Statement (.wbl o k n) :=
  word _ _ rfl (by simp only [wordOf, put]; omega) (by simp only [wordOf, put]; omega) nofun
theorem invl (o : BitVec 6) (k : BitVec 5) (n : BitVec 1) : Statement (.invl o k n) :=
  word _ _ rfl (by simp only [wordOf, put]; omega) (by simp only [wordOf, put]; omega) nofun
theorem flushl (o : BitVec 6) (k : BitVec 5) (n : BitVec 1) : Statement (.flushl o k n) :=
  word _ _ rfl (by simp only [wordOf, put]; omega) (by simp only [wordOf, put]; omega) nofun
theorem rowpin (d : BitVec 6) (k : BitVec 5) : Statement (.rowpin d k) :=
  word _ _ rfl (by simp only [wordOf, put]; omega) (by simp only [wordOf, put]; omega) nofun
theorem rowunpin (d : BitVec 6) (a : BitVec 6) : Statement (.rowunpin d a) :=
  word _ _ rfl (by simp only [wordOf, put]; omega) (by simp only [wordOf, put]; omega) nofun
theorem rowqry (d : BitVec 6) (a : BitVec 6) : Statement (.rowqry d a) :=
  word _ _ rfl (by simp only [wordOf, put]; omega) (by simp only [wordOf, put]; omega) nofun
theorem mqput (k : BitVec 5) (d : BitVec 6) (r : BitVec 6) : Statement (.mqput k d r) :=
  word _ _ rfl (by simp only [wordOf, put]; omega) (by simp only [wordOf, put]; omega) nofun
theorem mqget (k : BitVec 5) (d : BitVec 6) (r : BitVec 6) : Statement (.mqget k d r) :=
  word _ _ rfl (by simp only [wordOf, put]; omega) (by simp only [wordOf, put]; omega) nofun
theorem mred (k : BitVec 5) (d : BitVec 6) (r : BitVec 6) : Statement (.mred k d r) :=
  word _ _ rfl (by simp only [wordOf, put]; omega) (by simp only [wordOf, put]; omega) nofun
theorem mredrd (k : BitVec 5) (d : BitVec 6) (r : BitVec 6) : Statement (.mredrd k d r) :=
  word _ _ rfl (by simp only [wordOf, put]; omega) (by simp only [wordOf, put]; omega) nofun
theorem matom (k : BitVec 5) (d : BitVec 6) (r : BitVec 6) (w : BitVec 1) (p : BitVec 3) : Statement (.matom k d r w p) :=
  word _ _ rfl (by simp only [wordOf, put]; omega) (by simp only [wordOf, put]; omega) nofun
theorem rwri (k : BitVec 5) (ctl : BitVec 5) (r : BitVec 6) : Statement (.rwri k ctl r) :=
  word _ _ rfl (by simp only [wordOf, put]; omega) (by simp only [wordOf, put]; omega) nofun
theorem rrd (k : BitVec 5) (ctl : BitVec 5) (r : BitVec 6) : Statement (.rrd k ctl r) :=
  word _ _ rfl (by simp only [wordOf, put]; omega) (by simp only [wordOf, put]; omega) nofun
theorem ratom (k : BitVec 5) (ctl : BitVec 5) (r : BitVec 6) : Statement (.ratom k ctl r) :=
  word _ _ rfl (by simp only [wordOf, put]; omega) (by simp only [wordOf, put]; omega) nofun
theorem nqwait (d : BitVec 6) (y : BitVec 6) : Statement (.nqwait d y) :=
  word _ _ rfl (by simp only [wordOf, put]; omega) (by simp only [wordOf, put]; omega) nofun
theorem tbinit (k : BitVec 5) (q : BitVec 1) (s : BitVec 3) (r : BitVec 6) : Statement (.tbinit k q s r) :=
  word _ _ rfl (by simp only [wordOf, put]; omega) (by simp only [wordOf, put]; omega) nofun
theorem tbarrive (k : BitVec 5) (q : BitVec 1) (s : BitVec 3) (r : BitVec 6) : Statement (.tbarrive k q s r) :=
  word _ _ rfl (by simp only [wordOf, put]; omega) (by simp only [wordOf, put]; omega) nofun
theorem tbexpect (k : BitVec 5) (q : BitVec 1) (s : BitVec 3) (r : BitVec 6) : Statement (.tbexpect k q s r) :=
  word _ _ rfl (by simp only [wordOf, put]; omega) (by simp only [wordOf, put]; omega) nofun
theorem tbwait (k : BitVec 5) (q : BitVec 1) (s : BitVec 3) (r : BitVec 6) : Statement (.tbwait k q s r) :=
  word _ _ rfl (by simp only [wordOf, put]; omega) (by simp only [wordOf, put]; omega) nofun
theorem tbquery (k : BitVec 5) (q : BitVec 1) (s : BitVec 3) (r : BitVec 6) : Statement (.tbquery k q s r) :=
  word _ _ rfl (by simp only [wordOf, put]; omega) (by simp only [wordOf, put]; omega) nofun
theorem barsync (s : BitVec 3) (imm : BitVec 4) (r : BitVec 6) : Statement (.barsync s imm r) :=
  word _ _ rfl (by simp only [wordOf, put]; omega) (by simp only [wordOf, put]; omega) nofun
theorem bararrive (s : BitVec 3) (imm : BitVec 4) (r : BitVec 6) (d : BitVec 6) : Statement (.bararrive s imm r d) :=
  word _ _ rfl (by simp only [wordOf, put]; omega) (by simp only [wordOf, put]; omega) nofun
theorem barwait (s : BitVec 3) (imm : BitVec 4) (r : BitVec 6) : Statement (.barwait s imm r) :=
  word _ _ rfl (by simp only [wordOf, put]; omega) (by simp only [wordOf, put]; omega) nofun
theorem gatepost (d : BitVec 6) (a : BitVec 6) : Statement (.gatepost d a) :=
  word _ _ rfl (by simp only [wordOf, put]; omega) (by simp only [wordOf, put]; omega) nofun
theorem gatetake (d : BitVec 6) (a : BitVec 6) (y : BitVec 6) : Statement (.gatetake d a y) :=
  word _ _ rfl (by simp only [wordOf, put]; omega) (by simp only [wordOf, put]; omega) nofun
theorem gatepoll (d : BitVec 6) (a : BitVec 6) : Statement (.gatepoll d a) :=
  word _ _ rfl (by simp only [wordOf, put]; omega) (by simp only [wordOf, put]; omega) nofun
theorem mloop (a : BitVec 3) (t : BitVec 4) (u : BitVec 4) (o : BitVec 1) (p : BitVec 1) (s : BitVec 1) (n : BitVec 11) : Statement (.mloop a t u o p s n) :=
  word _ _ rfl (by simp only [wordOf, put]; omega) (by simp only [wordOf, put]; omega) nofun
theorem mstep (a : BitVec 3) (v : BitVec 6) (w : BitVec 6) (f : BitVec 2) (imm : BitVec 3) (j : BitVec 3) (g : BitVec 2) : Statement (.mstep a v w f imm j g) :=
  word _ _ rfl (by simp only [wordOf, put]; omega) (by simp only [wordOf, put]; omega) nofun
theorem mdrain (a : BitVec 3) (d : BitVec 4) (t : BitVec 4) (r : BitVec 1) (z : BitVec 1) : Statement (.mdrain a d t r z) :=
  word _ _ rfl (by simp only [wordOf, put]; omega) (by simp only [wordOf, put]; omega) nofun
theorem mzero (a : BitVec 3) : Statement (.mzero a) :=
  word _ _ rfl (by simp only [wordOf, put]; omega) (by simp only [wordOf, put]; omega) nofun
theorem mwait (a : BitVec 3) : Statement (.mwait a) :=
  word _ _ rfl (by simp only [wordOf, put]; omega) (by simp only [wordOf, put]; omega) nofun
theorem mload (a : BitVec 3) (t : BitVec 4) : Statement (.mload a t) :=
  word _ _ rfl (by simp only [wordOf, put]; omega) (by simp only [wordOf, put]; omega) nofun
theorem mqry (a : BitVec 3) (d : BitVec 6) : Statement (.mqry a d) :=
  word _ _ rfl (by simp only [wordOf, put]; omega) (by simp only [wordOf, put]; omega) nofun
theorem tset (t : BitVec 4) (a : BitVec 6) : Statement (.tset t a) :=
  word _ _ rfl (by simp only [wordOf, put]; omega) (by simp only [wordOf, put]; omega) nofun
theorem tget (d : BitVec 6) (t : BitVec 4) : Statement (.tget d t) :=
  word _ _ rfl (by simp only [wordOf, put]; omega) (by simp only [wordOf, put]; omega) nofun
theorem tplset (d : BitVec 4) (t : BitVec 4) (a : BitVec 6) : Statement (.tplset d t a) :=
  word _ _ rfl (by simp only [wordOf, put]; omega) (by simp only [wordOf, put]; omega) nofun
theorem ctrsel (n : BitVec 4) (a : BitVec 6) : Statement (.ctrsel n a) :=
  word _ _ rfl (by simp only [wordOf, put]; omega) (by simp only [wordOf, put]; omega) nofun
theorem ctrrd (d : BitVec 6) (n : BitVec 4) : Statement (.ctrrd d n) :=
  word _ _ rfl (by simp only [wordOf, put]; omega) (by simp only [wordOf, put]; omega) nofun
theorem ctrctl (d : BitVec 6) (a : BitVec 6) : Statement (.ctrctl d a) :=
  word _ _ rfl (by simp only [wordOf, put]; omega) (by simp only [wordOf, put]; omega) nofun
theorem lateError : Statement .lateError := event _ rfl
theorem contextTake : Statement .contextTake := event _ rfl
theorem sleepuntilWake : Statement .sleepuntilWake := event _ rfl
theorem waitlineWake : Statement .waitlineWake := event _ rfl
theorem waitlineTimeout : Statement .waitlineTimeout := event _ rfl
theorem nqwaitWake : Statement .nqwaitWake := event _ rfl
theorem nqwaitTimeout : Statement .nqwaitTimeout := event _ rfl
theorem gatetakeWake : Statement .gatetakeWake := event _ rfl
theorem gatetakeTimeout : Statement .gatetakeTimeout := event _ rfl
theorem missedPromise : Statement .missedPromise := event _ rfl
theorem watchdog : Statement .watchdog := event _ rfl
theorem launchComplete : Statement .launchComplete := event _ rfl
theorem accessComplete : Statement .accessComplete := event _ rfl
theorem qspBankService : Statement .qspBankService := event _ rfl
theorem writeQueueMerge : Statement .writeQueueMerge := event _ rfl
theorem pageWalk : Statement .pageWalk := event _ rfl
theorem walkComplete : Statement .walkComplete := event _ rfl
theorem directoryRequest : Statement .directoryRequest := event _ rfl
theorem atomicUnitOp : Statement .atomicUnitOp := event _ rfl
theorem gatherPacket : Statement .gatherPacket := event _ rfl
theorem memCompletion : Statement .memCompletion := event _ rfl
theorem bisnpinv : Statement .bisnpinv := event _ rfl
theorem bisnpdata : Statement .bisnpdata := event _ rfl
theorem bisnpcur : Statement .bisnpcur := event _ rfl
theorem biconflictack : Statement .biconflictack := event _ rfl
theorem kweutResponse : Statement .kweutResponse := event _ rfl
theorem moduleCompletionTimeout : Statement .moduleCompletionTimeout := event _ rfl
theorem relayTimeout : Statement .relayTimeout := event _ rfl
theorem qput : Statement .qput := event _ rfl
theorem qget : Statement .qget := event _ rfl
theorem atom : Statement .atom := event _ rfl
theorem red : Statement .red := event _ rfl
theorem redrd : Statement .redrd := event _ rfl
theorem headGroupLost : Statement .headGroupLost := event _ rfl
theorem rwriPacket : Statement .rwriPacket := event _ rfl
theorem rrdPacket : Statement .rrdPacket := event _ rfl
theorem ratomPacket : Statement .ratomPacket := event _ rfl
theorem relayedRead : Statement .relayedRead := event _ rfl
theorem relayedWrite : Statement .relayedWrite := event _ rfl
theorem relayedAtomic : Statement .relayedAtomic := event _ rfl
theorem ack : Statement .ack := event _ rfl
theorem nak : Statement .nak := event _ rfl
theorem fault : Statement .fault := event _ rfl
theorem resume : Statement .resume := event _ rfl
theorem resp : Statement .resp := event _ rfl
theorem busyNakResend : Statement .busyNakResend := event _ rfl
theorem ackInterval : Statement .ackInterval := event _ rfl
theorem qputRetry : Statement .qputRetry := event _ rfl
theorem relayContextFetch : Statement .relayContextFetch := event _ rfl
theorem portDown : Statement .portDown := event _ rfl
theorem viral : Statement .viral := event _ rfl
theorem attachmentUp : Statement .attachmentUp := event _ rfl
theorem linkCrcFailure : Statement .linkCrcFailure := event _ rfl
theorem retrainComplete : Statement .retrainComplete := event _ rfl
theorem refresh : Statement .refresh := event _ rfl
theorem copyAccept : Statement .copyAccept := event _ rfl
theorem land : Statement .land := event _ rfl
theorem chstatClear : Statement .chstatClear := event _ rfl
theorem engineGrant : Statement .engineGrant := event _ rfl
theorem passComplete : Statement .passComplete := event _ rfl
theorem counterAdd : Statement .counterAdd := event _ rfl
theorem wayMove : Statement .wayMove := event _ rfl
theorem quantumExpiry : Statement .quantumExpiry := event _ rfl
theorem switchSave : Statement .switchSave := event _ rfl
theorem hostQueuePost : Statement .hostQueuePost := event _ rfl
theorem hostMemRead : Statement .hostMemRead := event _ rfl
theorem hostMemWrite : Statement .hostMemWrite := event _ rfl
theorem registerWrite : Statement .registerWrite := event _ rfl
theorem rlyctxsizeTakesEffect : Statement .rlyctxsizeTakesEffect := event _ rfl
theorem xltinvcPage : Statement .xltinvcPage := event _ rfl
theorem xltinvcAsid : Statement .xltinvcAsid := event _ rfl
theorem xltinvcPartition : Statement .xltinvcPartition := event _ rfl
theorem xltinvcComplete : Statement .xltinvcComplete := event _ rfl
theorem mailboxDoorbell : Statement .mailboxDoorbell := event _ rfl
theorem revokeComplete : Statement .revokeComplete := event _ rfl
theorem resetRelease : Statement .resetRelease := event _ rfl
theorem stageAdvance : Statement .stageAdvance := event _ rfl
theorem thermalThrottle : Statement .thermalThrottle := event _ rfl
theorem thermalShutdown : Statement .thermalShutdown := event _ rfl
theorem getLdInfo : Statement .getLdInfo := event _ rfl
theorem getLdAllocations : Statement .getLdAllocations := event _ rfl
theorem setLdAllocations : Statement .setLdAllocations := event _ rfl
theorem getQosControl : Statement .getQosControl := event _ rfl
theorem setQosControl : Statement .setQosControl := event _ rfl
theorem getQosStatus : Statement .getQosStatus := event _ rfl
theorem ident : Statement .ident := event _ rfl
theorem attest : Statement .attest := event _ rfl
theorem featget : Statement .featget := event _ rfl
theorem featset : Statement .featset := event _ rfl
theorem partcreate : Statement .partcreate := event _ rfl
theorem partdestroy : Statement .partdestroy := event _ rfl
theorem partsetHoldPolicy : Statement .partsetHoldPolicy := event _ rfl
theorem partsetWatchdog : Statement .partsetWatchdog := event _ rfl
theorem partsetQuantum : Statement .partsetQuantum := event _ rfl
theorem partsetWays : Statement .partsetWays := event _ rfl
theorem partsetQuota : Statement .partsetQuota := event _ rfl
theorem partsetGrant : Statement .partsetGrant := event _ rfl
theorem launch : Statement .launch := event _ rfl
theorem wswitch : Statement .wswitch := event _ rfl
theorem replay : Statement .replay := event _ rfl
theorem fatal : Statement .fatal := event _ rfl
theorem errlogSetRing : Statement .errlogSetRing := event _ rfl
theorem errlogReadRas : Statement .errlogReadRas := event _ rfl
theorem errlogClearRas : Statement .errlogClearRas := event _ rfl
theorem hqset : Statement .hqset := event _ rfl
theorem regreg : Statement .regreg := event _ rfl
theorem regrevoke : Statement .regrevoke := event _ rfl
theorem gatecreate : Statement .gatecreate := event _ rfl
theorem gatefreeze : Statement .gatefreeze := event _ rfl
theorem gateexport : Statement .gateexport := event _ rfl
theorem gateimport : Statement .gateimport := event _ rfl
theorem gatethaw : Statement .gatethaw := event _ rfl
theorem gatedestroy : Statement .gatedestroy := event _ rfl
theorem podconfigGroups : Statement .podconfigGroups := event _ rfl
theorem podconfigPrivilege : Statement .podconfigPrivilege := event _ rfl
theorem podconfigTimeouts : Statement .podconfigTimeouts := event _ rfl
theorem podconfigRoutes : Statement .podconfigRoutes := event _ rfl
theorem podconfigCapacities : Statement .podconfigCapacities := event _ rfl
theorem podctlClearDeadpeer : Statement .podctlClearDeadpeer := event _ rfl
theorem podctlDown : Statement .podctlDown := event _ rfl
theorem podctlRetrain : Statement .podctlRetrain := event _ rfl
theorem dbgopenOpen : Statement .dbgopenOpen := event _ rfl
theorem dbgopenClose : Statement .dbgopenClose := event _ rfl
theorem dbgctlStop : Statement .dbgctlStop := event _ rfl
theorem dbgctlStep : Statement .dbgctlStep := event _ rfl
theorem dbgctlResume : Statement .dbgctlResume := event _ rfl
theorem dbgctlCoreStop : Statement .dbgctlCoreStop := event _ rfl
theorem dbgctlCoreResume : Statement .dbgctlCoreResume := event _ rfl
theorem ctrwrite : Statement .ctrwrite := event _ rfl
theorem illegalInstruction : Statement .illegalInstruction := event _ rfl
theorem packetForward : Statement .packetForward := event _ rfl
theorem bindVppb : Statement .bindVppb := event _ rfl
theorem unbindVppb : Statement .unbindVppb := event _ rfl
theorem spillComplete : Statement .spillComplete := event _ rfl

end Encoding

end Sys2Proof.Laws
end

