-- ==== Sys2Proof/Laws/Vector.lean ====
section
/-!
SUPPORT. Lanes: masks from lists of bits, the elements of registers and operands lane by lane, and what a read of a register
gives after a write.
-/
namespace Sys2Proof.Machine

/-- The number of a list of bits: bit l is the l-th. -/
theorem testBit_foldr (l : List Bool) (k : Nat) :
    (l.foldr (fun b acc => bitOf b + 2 * acc) 0).testBit k = l.getD k false := by
  induction l generalizing k with
  | nil => simp
  | cons b bs ih =>
    rw [List.foldr_cons]
    cases k with
    | zero => cases b <;> simp [bitOf, Nat.testBit_zero, Nat.add_mod]
    | succ n =>
      have : (bitOf b + 2 * bs.foldr (fun b acc => bitOf b + 2 * acc) 0) / 2
          = bs.foldr (fun b acc => bitOf b + 2 * acc) 0 := by
        cases b <;> (simp [bitOf]; try omega)
      rw [Nat.testBit_succ, this, ih, List.getD_cons_succ]

/-- A bit of a mask made from a list. -/
theorem getLsbD_maskOf (l : List Bool) (k : Nat) : (maskOf l).getLsbD k = (decide (k < 64) && l.getD k false) := by
  unfold maskOf
  rw [BitVec.getLsbD_ofNat, testBit_foldr]

/-- A lane of a list over the lanes. -/
theorem getD_lanes {α : Type} (f : Nat → α) (k : Nat) (x : α) : (laneNumbers.map f).getD k x = if k < 64 then f k else x := by
  unfold laneNumbers
  by_cases h : k < 64
  · rw [if_pos h, List.getD_eq_getElem _ _ (by simpa using h)]
    simp
  · rw [if_neg h, List.getD_eq_default _ _ (by simpa using h)]

/-- A bit of a mask over the lanes. -/
@[simp] theorem getLsbD_maskOf_lanes (f : Nat → Bool) (k : Nat) :
    (maskOf (laneNumbers.map f)).getLsbD k = (decide (k < 64) && f k) := by
  rw [getLsbD_maskOf, getD_lanes]
  by_cases h : k < 64 <;> simp [h]

/-- A mask is the mask of its own bits. -/
theorem maskOf_bits (m : Lanes) : maskOf (laneNumbers.map m.getLsbD) = m := by
  apply BitVec.eq_of_getLsbD_eq
  intro k hk
  rw [getLsbD_maskOf_lanes]
  simp [hk]

/-- The lanes of a mask: those below 64 whose bit is set. -/
theorem mem_lanesOf (m : Lanes) (l : Nat) : l ∈ lanesOf m ↔ l < 64 ∧ m.getLsbD l = true := by
  simp [lanesOf, laneNumbers]

/-- The elements of a register, lane by lane. -/
theorem VReg.elems_eq (r : VReg) : r.elems = laneNumbers.map r.elem := rfl

/-- One value in every lane. -/
theorem replicate_lanes {α : Type} (x : α) : List.replicate 64 x = laneNumbers.map fun _ => x := by
  simp [laneNumbers, List.map_const']

/-- The b operand, lane by lane. -/
theorem Wave.opB_eq (w : Wave) (u : BitVec 1) (b : BitVec 6) : w.opB u b = laneNumbers.map (w.bElem u b) := by
  unfold Wave.opB
  by_cases h : u = 1
  · rw [if_pos h, replicate_lanes]
    congr 1; funext l; simp [Wave.bElem, h]
  · rw [if_neg h, VReg.elems_eq]
    congr 1; funext l; unfold Wave.bElem; rw [if_neg h]

/-- Two lists over the lanes, combined. -/
theorem zipWith_lanes {α β γ : Type} (f : α → β → γ) (x : Nat → α) (y : Nat → β) :
    List.zipWith f (laneNumbers.map x) (laneNumbers.map y) = laneNumbers.map fun l => f (x l) (y l) := by
  simp [List.zipWith_map, List.zipWith_self]

/-- Two lists over the lanes, paired. -/
theorem zip_lanes {α β : Type} (x : Nat → α) (y : Nat → β) :
    List.zip (laneNumbers.map x) (laneNumbers.map y) = laneNumbers.map fun l => (x l, y l) := by
  rw [List.zip_eq_zipWith, zipWith_lanes]

/-! ## Uniform registers -/

/-- A bit of a mask after one bit is set. -/
theorem getLsbD_setBit (m : Lanes) (i k : Nat) (b : Bool) (hi : i < 64) :
    (setBit m i b).getLsbD k = if k = i then b else m.getLsbD k := by
  have one : (BitVec.ofNat 64 (2 ^ i)).getLsbD k = (decide (k < 64) && decide (i = k)) := by
    rw [BitVec.getLsbD_ofNat, Nat.testBit_two_pow]
  have out : ¬ k < 64 → m.getLsbD k = false := fun h => BitVec.getLsbD_of_ge _ _ (by omega)
  unfold setBit
  cases b with
  | false =>
    simp only [Bool.false_eq_true, if_false, BitVec.getLsbD_and, BitVec.getLsbD_not, one]
    by_cases h : k = i
    · subst h; simp [hi]
    · have h' : ¬ i = k := fun e => h e.symm
      by_cases hk : k < 64
      · simp [h, h', hk]
      · simp [h, out hk]
  | true =>
    simp only [if_true, BitVec.getLsbD_or, one]
    by_cases h : k = i
    · subst h; simp [hi]
    · have h' : ¬ i = k := fun e => h e.symm
      simp [h, h']

/-- s(k) after s(n) is written: s0 stays 0, and only s(n) changes. -/
theorem Wave.s_setS (w : Wave) (n k : Nat) (x : Word) (p : Bool) :
    (w.setS n x p).s k = if k = n ∧ n ≠ 0 ∧ n < 64 then x else w.s k := by
  unfold Wave.setS Wave.s
  by_cases hn : n = 0
  · subst hn; simp
  · rw [if_neg hn]
    by_cases hk : k = 0
    · subst hk; simp [Ne.symm hn]
    · simp only [if_neg hk, Vector.getElem?_setIfInBounds]
      by_cases h : k = n
      · subst h
        by_cases hl : k < 64
        · simp [hl, hn]
        · simp [hl]
      · simp [h, Ne.symm h]

/-- The poison bit of s(k) after s(n) is written. -/
theorem Wave.sPoison_setS (w : Wave) (n k : Nat) (x : Word) (p : Bool) (hn : n < 64) :
    (w.setS n x p).sPoison k = if k = n ∧ n ≠ 0 then p else w.sPoison k := by
  unfold Wave.setS Wave.sPoison
  by_cases h0 : n = 0
  · subst h0; simp
  · rw [if_neg h0]
    simp only [getLsbD_setBit _ _ _ _ hn]
    by_cases h : k = n
    · subst h; simp [h0]
    · simp [h]

/-! ## Vector registers -/

/-- A lane of a merged register. -/
theorem VReg.elem_merge (r : VReg) (m : Lanes) (es : List Elem) (l : Nat) (hl : l < 64) :
    (r.merge m es).elem l = if m.getLsbD l then es.getD l (0, false) else r.elem l := by
  unfold VReg.merge VReg.ofElems VReg.elem
  simp only [List.map_map]
  rw [getD_lanes, getLsbD_maskOf_lanes]
  simp only [Function.comp, hl, if_true, decide_true, Bool.true_and]

/-- v(k) after the lanes of a mask of v(n) are written. -/
theorem Wave.v_writeV (w : Wave) (n k : Nat) (m : Lanes) (es : List Elem) :
    (w.writeV n m es).v k
      = if w.vregs ≠ [] ∧ (w.winBase + k) % w.vregs.length = (w.winBase + n) % w.vregs.length
        then (w.v n).merge m es else w.v k := by
  unfold Wave.writeV Wave.writeLogV Wave.setLogV Wave.v Wave.logV Wave.physV
  simp only [List.length_set, List.getD_eq_getElem?_getD, List.getElem?_set]
  by_cases hv : w.vregs = []
  · simp [hv]
  · have hpos : 0 < w.vregs.length := List.length_pos_iff.mpr hv
    by_cases h : (w.winBase + k) % w.vregs.length = (w.winBase + n) % w.vregs.length
    · simp [h, hv, Nat.mod_lt _ hpos]
    · simp [h, Ne.symm h]

end Sys2Proof.Machine
end

