-- ==== Sys2Proof/Tests/Slice0.lean ====
section
/-!
SUPPORT. The model's own tests: terms that WellFormed refuses, words written out from the spec's encodings, results that the
spec's examples and hand computation give, and a witness for the hypotheses of every statement.
-/
open Sys2Proof Sys2Proof.Machine
namespace Sys2Proof.Tests
set_option Elab.async false

/-! ## Ill-formed terms -/

/-- A command record whose widths are those of R358. -/
def tC : Cmd := { mbx := 16, slot := 0, tag := 1, part := 0 }

/-- A command record from a mailbox that does not exist. -/
def tBadC : Cmd := { mbx := 17, slot := 0, tag := 1, part := 0 }

/-- A Kweut request of lead head 0 (R76). -/
def tK : KReq := { module := 0, ld := 0, lead := 0, port := 0, subop := 0, tag := 0, addr := 0, a := 0, b := 0, payload := [] }

/-- A Kweut response on port 0 of attachment 0 (R76). -/
def tR : KRsp := { att := 0, port := 0, tag := 0, status := 0, value := 0, data := [] }

/-- A packet of the Runner for this package from package 1 (R87). -/
def tP : Packet :=
  { type := .rrd, stream := 0, forwarded := false, system := false, reason := 0, seq := 0, src := 1, dst := 0, opsize := 0,
    keyPart := 0, keyAsid := 0, sndAsid := 0, imm := 0, addr := 0, len := 4, tag := 0, module := 0, data := [], poison := 0 }

/-- A relay context's name (R88). -/
def tX : CtxId := { part := 0, asid := 0, peer := 1, keyPart := 0, keyAsid := 0, system := false, module := 0 }

/-- R228, R256: condition codes 6 and 7 stand for nothing; 5 does. -/
theorem test_wf_condition_codes :
    (Instr.ucmp 6 1 0 0 0).wf = false ∧ (Instr.ucmp 5 1 0 0 0).wf = true ∧ (Instr.ucmpi 6 1 0 0).wf = false
    ∧ (Instr.vicmp 0 6 1 0 0 0).wf = false ∧ (Instr.vicmpi 7 1 0 0).wf = false ∧ (Instr.vicmpi 5 1 0 0).wf = true := by
  decide

/-- R87, R88, R76: a field past its width is no packet, context, request or response. -/
theorem test_wf_records :
    (tC.wf && tK.wf && tR.wf && tP.wf && tX.wf) = true
    ∧ [tBadC.wf, { tC with slot := 2 ^ 32 }.wf, { tC with tag := 65536 }.wf, { tC with part := 256 }.wf,
       { tK with module := 64 }.wf, { tK with lead := 12 }.wf, { tK with port := 4 }.wf, { tK with subop := 256 }.wf,
       { tK with tag := 128 }.wf, { tK with addr := 2 ^ 64 }.wf, { tK with a := 2 ^ 64 }.wf, { tK with b := 2 ^ 64 }.wf,
       { tK with payload := List.replicate 321 0 }.wf, { tK with ld := 17 }.wf, { tR with att := 8 }.wf, { tR with port := 4 }.wf,
       { tR with tag := 65536 }.wf, { tR with status := 256 }.wf, { tR with value := 2 ^ 64 }.wf,
       { tR with data := List.replicate 321 0 }.wf, { tP with stream := 4 }.wf, { tP with reason := 16 }.wf,
       { tP with seq := 65536 }.wf, { tP with src := 256 }.wf, { tP with dst := 256 }.wf, { tP with opsize := 256 }.wf,
       { tP with keyPart := 16 }.wf, { tP with keyAsid := 16384 }.wf, { tP with sndAsid := 16384 }.wf,
       { tP with imm := 2 ^ 32 }.wf, { tP with addr := 2 ^ 64 }.wf, { tP with len := 257 }.wf, { tP with tag := 65536 }.wf,
       { tP with module := 64 }.wf, { tP with data := List.replicate 289 0 }.wf, { tX with part := 16 }.wf,
       { tX with asid := 16384 }.wf, { tX with peer := 64 }.wf, { tX with keyPart := 17 }.wf, { tX with keyAsid := 16384 }.wf,
       { tX with module := 64 }.wf, (RegSpace.page 16).wf, (RegSpace.mailbox 17).wf].all (fun b => !b) = true := by
  decide +kernel

/-- R6, R358: an event of a unit that does not exist, or with a field past its width, is refused. -/
theorem test_wf_events :
    ([.lateError (2 ^ 32) 0 false, .contextTake 0 24576, .sleepuntilWake 0 24576 false, .waitlineWake (2 ^ 32) 0 true,
      .waitlineTimeout 0 24576 true, .nqwaitWake 0 24576 false, .nqwaitTimeout 0 24576 false, .gatetakeWake 4096,
      .gatetakeTimeout 0 24576 false, .missedPromise 0 24576 false, .watchdog 0 24576, .launchComplete (2 ^ 32),
      .accessComplete 0 24576 0, .qspBankService 256, .writeQueueMerge 256, .pageWalk 9, .walkComplete 9 0,
      .walkComplete 0 1024, .directoryRequest 8 0 false 0, .directoryRequest 0 (2 ^ 46) false 0,
      .directoryRequest 0 0 false 16, .atomicUnitOp 8 0, .atomicUnitOp 0 16, .gatherPacket 8, .memCompletion 64 0 .own,
      .memCompletion 0 (2 ^ 35) .own, .bisnpinv 64 0 1, .bisnpinv 0 0 0, .bisnpdata 0 (2 ^ 35) 1, .bisnpcur 0 0 0,
      .biconflictack 64 0, .kweutResponse { tR with att := 8 }, .moduleCompletionTimeout 8, .relayTimeout 64,
      .qput { tK with tag := 128 }, .qget { tK with tag := 128 }, .atom { tK with tag := 128 }, .red { tK with tag := 128 },
      .redrd { tK with tag := 128 }, .headGroupLost 64 0, .headGroupLost 0 12, .rwriPacket { tP with seq := 65536 },
      .rrdPacket { tP with seq := 65536 }, .ratomPacket { tP with seq := 65536 }, .relayedRead { tP with seq := 65536 },
      .relayedWrite { tP with seq := 65536 }, .relayedAtomic { tP with seq := 65536 }, .ack { tP with seq := 65536 },
      .nak { tP with seq := 65536 }, .fault { tP with seq := 65536 }, .resume { tP with seq := 65536 },
      .resp { tP with seq := 65536 }, .busyNakResend tX 4, .busyNakResend { tX with peer := 64 } 0, .ackInterval tX 4,
      .qputRetry 64, .relayContextFetch { tX with peer := 64 }, .portDown 12 true, .viral 8, .attachmentUp 8,
      .linkCrcFailure 8, .retrainComplete 8 true, .refresh 8 0, .refresh 0 512, .copyAccept 8 0, .copyAccept 0 16,
      .land 0 0 0, .land 0 0 5, .land 8 0 1, .chstatClear 0 0 256, .engineGrant 256, .passComplete 256, .counterAdd 16 0 0,
      .counterAdd 0 65536 0, .counterAdd 0 0 (2 ^ 48), .wayMove 8 0, .wayMove 0 16, .quantumExpiry 16, .switchSave 16] :
      List Call).all (fun c => !c.wf) = true
    ∧ ([.contextTake 0 24575, .walkComplete 8 1023, .directoryRequest 7 (2 ^ 46 - 1) true 15, .bisnpinv 63 (2 ^ 35 - 1) 1,
        .land 7 15 4, .counterAdd 15 65535 (2 ^ 48 - 1)] : List Call).all Call.wf = true := by
  decide +kernel

/-- R354 to R358: the same of what the host and the fabric manager send. -/
theorem test_wf_host :
    ([.hostQueuePost 16, .hostMemRead 16 0 64, .hostMemRead 0 (2 ^ 64) 64, .hostMemWrite 16 0 [], .registerWrite (.page 16) 0 4 0,
      .registerWrite (.page 0) 4096 4 0, .registerWrite (.page 0) 0 3 0, .registerWrite (.page 0) 0 8 (2 ^ 64),
      .rlyctxsizeTakesEffect 16, .xltinvcPage 0 0 4, .xltinvcPage 0 16384 0, .xltinvcAsid 16 0, .xltinvcPartition 16,
      .xltinvcComplete 16, .mailboxDoorbell 17 0, .mailboxDoorbell 0 (2 ^ 32), .revokeComplete 16 0, .stageAdvance true 256,
      .thermalThrottle 8 0, .thermalThrottle 0 17, .getLdAllocations 256 0, .setLdAllocations 9 0 [],
      .setLdAllocations 0 0 [2 ^ 64], .setQosControl 16 0, .setQosControl 0 256, .ident tBadC 0 0, .attest tC 0 0 256 0,
      .attest tC 0 0 0 (2 ^ 256), .featget tC 256, .featset tC 0 0 0 (2 ^ 64), .partcreate tC (2 ^ 32) 0 0 0,
      .partdestroy tBadC, .partsetHoldPolicy tC (2 ^ 64), .partsetWatchdog tBadC 0, .partsetQuantum tBadC 0,
      .partsetWays tC 256 0 0, .partsetQuota tC 0 65536, .partsetGrant tC 0 (2 ^ 64) 0, .launch tC (2 ^ 64),
      .wswitch tC 0 256 0 0 0, .replay tC (2 ^ 32), .fatal tC (2 ^ 32), .errlogSetRing tC 0 256, .errlogReadRas tC 256,
      .errlogClearRas tBadC 0, .hqset tC (2 ^ 64), .regreg tC 65536 0 0 0 0, .regrevoke tC (2 ^ 32), .gatecreate tC 0 65536 0,
      .gatefreeze tC (2 ^ 32), .gateexport tC 0 (2 ^ 64), .gateimport tBadC 0 0, .gatethaw tC (2 ^ 32),
      .gatedestroy tC (2 ^ 32), .podconfigGroups tC (2 ^ 128), .podconfigPrivilege tC 256, .podconfigTimeouts tC 0 256,
      .podconfigRoutes tBadC, .podconfigCapacities tBadC, .podctlClearDeadpeer tC 256, .podctlDown tC 256,
      .podctlRetrain tC 256, .dbgopenOpen tBadC, .dbgopenClose tBadC, .dbgctlStop tC (2 ^ 32) 0 0, .dbgctlStop tC 0 0 256, .dbgctlStep tC 0 0 256,
      .dbgctlResume tC 0 (2 ^ 32) 0, .dbgctlResume tC 0 0 256, .dbgctlCoreStop tC 65536, .dbgctlCoreResume tC 65536, .ctrwrite tC 256 0,
      .ctrwrite tC 0 (2 ^ 64), .illegalInstruction 0, .illegalInstruction 3, .packetForward { tP with len := 257 },
      .bindVppb 16, .unbindVppb 16, .spillComplete 0 24576] : List Call).all (fun c => !c.wf) = true
    ∧ ([.registerWrite (.mailbox 16) 4095 8 (2 ^ 64 - 1), .thermalThrottle 7 16, .attest tC 0 0 255 (2 ^ 256 - 1),
        .ctrwrite tC 255 (2 ^ 64 - 1), .illegalInstruction 1, .illegalInstruction 2] : List Call).all Call.wf = true := by
  decide +kernel

/-! ## Words of the spec -/

/-- Words and the instructions they stand for, from the examples of 10_isa_uniform_control. -/
theorem test_decode_uniform : [
    (0x04020A30, Instr.uadd 4 5 6 0), (0x0B021FFF, .ucmpi 4 2 7 0x3FF), (0x0E4A2020, .uld64 10 8 0x20), (0x06061A00, .uaddi 6 6 0x200),
    (0x10800301, .setfmt 3 1), (0x10030020, .urds 3 0x20), (0x120FFFFD, .bra 1 0x7FFFD), (0x1300000C, .jmpi 0 12),
    (0x15010800, .anyp 1 2), (0x16840000, .sleepuntil 2), (0x16C430E0, .waitline 2 6 7), (0x1700002A, .trap 0x2A),
    (0x18080000, .dispatch 8), (0x18800001, .phaseend 1), (0x00000000, .nop), (0x03FFFFFF, .nop)].all (fun x => decodeWord x.1 = .ok x.2) = true := by
  decide +kernel

/-- From the examples of 11_isa_vector. -/
theorem test_decode_vector : [
    (0x20020A30, Instr.vadd 0 4 5 6 0), (0x25420002, .vshli 2 0 2), (0x24020900, .vaddi 2 2 256), (0x2883080A, .vicmpi 2 3 2 10),
    (0x2BC38210, .vmad 1 7 1 2 0), (0x31620631, .ffma 1 4 3 6 1), (0x33808600, .vfcmp 1 4 1 3 0 0), (0x35630818, .fdiv 1 6 4 3 0),
    (0x36630E40, .b2fma 0 6 7 8 0), (0x380184C0, .fcvt 3 2 3 0 0), (0x38018440, .fcvt 3 2 1 0 0), (0x38228980, .icvt 5 4 6 0 0),
    (0x39440020, .qpk 8 0 4 0), (0x39661020, .qunpk 12 8 4 0), (0x40210208, .shflx 2 1 1 0), (0x40A28800, .vredf 5 4 0 0),
    (0x42090408, .vldx 9 1 8), (0x44E20400, .vballot 4 2 0)].all (fun x => decodeWord x.1 = .ok x.2) = true := by
  decide +kernel

/-- From the examples of 09_encoding and 12_isa_memory_sync. -/
theorem test_decode_memory : [
    (0xD1448044, Instr.ldg 2 4 1 8 1 2 0), (0x55005043, .ldq 2 0 0 5 1 1 1), (0x588070CA, .gather 1 0 0 7 3 5 0),
    (0x5C101022, .atomg 0 0 4 0 4 2 2), (0x5DD11834, .atomg 7 0 4 1 6 3 4), (0x5E080810, .atomq 0 0 2 0 2 1 0),
    (0x60B00000, .fencerel 6), (0x60D80000, .fenceeng 3), (0x62800084, .wbl 2 2 0), (0x640A1000, .rowpin 10 2),
    (0x644C2800, .rowunpin 12 10), (0x66043100, .mqput 2 6 8), (0x66443120, .mqget 2 6 9), (0x67044185, .matom 2 8 12 0 5),
    (0x66C45180, .mredrd 2 10 12), (0x68043200, .rwri 2 3 8), (0x68CA1C00, .nqwait 10 7), (0x6AC36280, .tbwait 1 1 3 5),
    (0x6C100C00, .barsync 2 0 6), (0x6E041800, .gatepost 4 6), (0x6E441870, .gatetake 4 6 7)].all
      (fun x => decodeWord x.1 = .ok x.2) = true := by
  decide +kernel

/-- From the examples of 13_isa_matrix_system. -/
theorem test_decode_matrix : [
    (0x70006008, Instr.mloop 0 0 1 1 0 0 8), (0x7248284C, .mstep 1 8 10 0 2 3 0), (0x7408E000, .mdrain 0 2 3 1 0),
    (0x76100000, .mzero 2), (0x76400000, .mwait 0), (0x768A0000, .mload 1 4), (0x76C0C000, .mqry 0 6), (0x78008000, .tset 0 8),
    (0x784C1000, .tget 12 1), (0x78880500, .tplset 2 0 5), (0x7A0C6000, .ctrsel 3 6), (0x7A4A3000, .ctrrd 10 3),
    (0x7A841800, .ctrctl 4 6)].all (fun x => decodeWord x.1 = .ok x.2) = true := by
  decide +kernel

/-- R207, R217: a major that holds no instruction, and a function that its major does not assign. -/
theorem test_decode_refuses :
    decodeWord 0x2E092600 = .error .undefinedMajor ∧ decodeWord 0x41000000 = .error .unassignedFunction
    ∧ decodeTableWord 32 0x41000000 = none ∧ decodeTableWord 32 0x04020A30 = some (.uadd 4 5 6 0) := by decide +kernel

/-- 09_encoding, "A packet decoded": W1 as `vaddi v1, v1, 4`, the pair M with V writes what W0 reads; a chain bit in W1. -/
theorem test_chain_checks :
    chainSub 0 0x28 0x12 (.ldg 2 4 1 8 1 2 0) (.vaddi 1 1 4) false = some 4
    ∧ chainSub 0 0x28 0x03 (.ldg 2 4 1 8 1 2 0) (.uaddi 6 6 0x200) true = some 1
    ∧ chainSub 0 0x28 0x03 (.ldg 2 4 1 8 1 2 0) (.uaddi 6 6 0x200) false = none := by decide +kernel

/-! ## Results: uniform and vector words -/

/-- The latch of a word at offset 0. -/
def tI : Issue :=
  { seq := 1, wid := 0, arm := .t, off := 0, idx := 0, lit := 0, second := false, trapped := false, stalled := false }

/-- The placed wave with its latch, and every feature offered and committed at stage 4. -/
def tS : State :=
  { State.reset.placed 32 0 with
    issue := some tI, turn := [],
    dev := { Dev.reset with running := true, stage := 4, offered := 0xFF, accepted := 0xFF, committed := true } }

/-- The state before the word: the wave changed by `f`. -/
def tAt (f : Wave → Wave) : State := tS.setWave (f placedWave)

/-- The wave after the word, or none where it did not perform. -/
def tRun (i : Instr) (f : Wave → Wave) : Option Wave :=
  match exec i (tAt f) with
  | .next t => if t.performed then t.wave? 1 0 else none
  | _ => none

/-- The wave after a trap of the word. -/
def tTrap (i : Instr) (f : Wave → Wave) : Option Wave :=
  match exec i (tAt fun w => f { w with trapBase := 0x1000 }) with
  | .next t => t.wave? 1 0
  | _ => none

/-- s(k) of a wave that the word left. -/
def tSreg (k : Nat) (w : Option Wave) : Option Nat := w.map fun x => (x.s k).toNat

/-- Lane l of v(k) of a wave that the word left. -/
def tLane (k l : Nat) (w : Option Wave) : Option Nat := w.map fun x => ((x.v k).elem l).1.toNat

/-- The wave with s registers written. -/
def tPut (xs : List (Nat × Nat)) (w : Wave) : Wave := xs.foldl (fun v x => v.setS x.1 (BitVec.ofNat 32 x.2) false) w

/-- The wave with one value in every lane of v registers. -/
def tVec (xs : List (Nat × Nat)) (w : Wave) : Wave :=
  xs.foldl (fun v x => v.writeV x.1 allLanes (laneNumbers.map fun _ => (BitVec.ofNat 32 x.2, false))) w

/-- The wave with given values in the first lanes of v(k). -/
def tLanes (k : Nat) (xs : List Nat) (w : Wave) : Wave :=
  w.writeV k (BitVec.ofNat 64 (2 ^ xs.length - 1)) (laneNumbers.map fun l => (BitVec.ofNat 32 (xs.getD l 0), false))

/-- The wave with FMT changed. -/
def tFmt (f : BitVec 8) (w : Wave) : Wave := { w with unitT := { w.unitT with fmt := f } }

/-- R227's examples. -/
theorem test_ualu :
    tSreg 4 (tRun (.uadd 4 5 6 0) (tPut [(5, 0xFFFFFFFF), (6, 2)])) = some 1
    ∧ tSreg 4 (tRun (.umulh 4 5 6 0) (tPut [(5, 0x80000000), (6, 2)])) = some 0xFFFFFFFF
    ∧ tSreg 4 (tRun (.umulhu 4 5 6 0) (tPut [(5, 0x80000000), (6, 2)])) = some 1
    ∧ tSreg 7 (tRun (.usari 7 7 36) (tPut [(7, 0x80000000)])) = some 0xF8000000
    ∧ tSreg 4 (tRun (.usub 4 5 6 0) (tPut [(5, 1), (6, 2)])) = some 0xFFFFFFFF
    ∧ tSreg 4 (tRun (.umin 4 5 6 0) (tPut [(5, 0xFFFFFFFF), (6, 2)])) = some 0xFFFFFFFF
    ∧ tSreg 4 (tRun (.uminu 4 5 6 0) (tPut [(5, 0xFFFFFFFF), (6, 2)])) = some 2 := by decide +kernel

/-- R228's and R229's examples. -/
theorem test_ucmp_and_bits :
    (tRun (.ucmpi 4 2 7 0x3FF) (tPut [(7, 5)])).map (fun w => w.q 2) = some true
    ∧ (tRun (.ucmp 2 3 4 5 0) (tPut [(4, 0xFFFFFFFF), (5, 0)])).map (fun w => w.q 3) = some true
    ∧ tSreg 3 (tRun (.ubfx 3 4 5 0) (tPut [(4, 0xF80), (5, 0x10804)])) = some 0xFFFFFFF8
    ∧ tSreg 3 (tRun (.ubfi 3 4 5 0) (tPut [(3, 0xFFFFFFFF), (4, 3), (5, 0x408)])) = some 0xFFFFF3FF
    ∧ tSreg 3 (tRun (.uclz 3 4 0) (tPut [(4, 0)])) = some 32
    ∧ tSreg 3 (tRun (.ubrev 3 4 0) (tPut [(4, 1)])) = some 0x80000000 := by decide +kernel

/-- R211: the escape −512 takes the literal; R224: s0 discards. -/
theorem test_escape_and_zero :
    (match exec (.uaddi 6 6 0x200) { tAt (tPut [(6, 1)]) with issue := some { tI with lit := 100000 } } with
      | .next t => tSreg 6 (t.wave? 1 0) | _ => none) = some 100001
    ∧ tSreg 0 (tRun (.uadd 0 5 6 0) (tPut [(5, 1), (6, 2)])) = some 0 := by decide +kernel

/-- R216, R219 to R222: special registers. -/
theorem test_sregs :
    tSreg 3 (tRun (.urds 3 0x00B) (tFmt 0x43)) = some 0x43
    ∧ (tRun (.setfmt 3 1) (tFmt 0x42)).map (fun w => w.unitT.fmt) = some 0x41
    ∧ (tRun (.uwrs 4 0x00F) (tPut [(4, 0x1007)])).map (fun w => w.trapPc) = some 0x1004
    ∧ (tTrap (.urds 3 0x3FF) id).map (fun w => w.trapCause) = some 0x0401 := by decide +kernel

/-- R232's example at N29, whose packet is at offset 0x90; JMPI off a packet is Misaligned at its target's address. -/
theorem test_branch :
    (match exec (.bra 1 0x7FFFD) { tAt (fun w => w.setQ 1 true false) with issue := some { tI with off := 0x90 } } with
      | .next t => (t.wave? 1 0).map fun w => w.unitT.pc | _ => none) = some 0x60
    ∧ (tTrap (.jmpi 0 12) (tPut [(12, 0x14)])).map (fun w => (w.trapCause, w.trapAddr, w.unitT.pc)) = some (3, 0x14, 0x1000) := by
  decide +kernel

/-- R236: a call of 32 moves the window; its return comes back to the next packet. -/
theorem test_call :
    (match exec (.call 0 4) { tAt (fun w => { w with vregs := freshVregs 96 }) with issue := some { tI with lit := 32 } } with
      | .next t => (t.wave? 1 0).map fun w => (w.winBase, w.unitT.pc, w.calls) | _ => none)
      = some (32, 0x40, [{ ret := 0x10, step := 32, ddepth := 0 }])
    ∧ (tTrap (.ret 0) id).map (fun w => w.trapCause) = some 0x0401 := by decide +kernel

/-- R239, R240: a SPLIT on p1 (lanes 0 to 3), and the JOIN that reunites the arms with the FMT of the SPLIT. -/
theorem test_divergence :
    (match exec (.split 1 2) { tAt (fun w => w.setP 1 allLanes 0xF 0) with issue := some { tI with lit := 4 } } with
      | .next t => (t.wave? 1 0).map fun w => (w.divergent, w.unitT.mask, w.unitE.mask, w.unitE.pc) | _ => none)
      = some (true, 0xF, 0xFFFFFFFFFFFFFFF0, 0x20)
    ∧ (match exec .join { tAt (fun w =>
          let e : DivEntry := { trueLanes := 0xF, elseLanes := 0xF0, brk := 0, elseTarget := 0, joinTarget := 0, fmt := 1,
                                inElse := false }
          { w with divergent := true, unitT := { w.unitT with mask := 0xF, entries := [e] },
                   unitE := { w.unitT with mask := 0xF0, entries := [e], atJoin := true } }) with issue := some tI } with
      | .next t => (t.wave? 1 0).map fun w => (w.divergent, w.unitT.mask, w.unitT.fmt, w.unitT.pc) | _ => none)
      = some (false, 0xFF, 1, 4) := by decide +kernel

/-- R241, R242, R244. -/
theorem test_lane_control :
    (tRun (.anyp 1 2) (fun w => w.setP 2 allLanes 8 0)).map (fun w => w.q 1) = some true
    ∧ (tRun (.allp 1 2) (fun w => w.setP 2 allLanes 8 0)).map (fun w => w.q 1) = some false
    ∧ tSreg 5 (tRun (.pmask 4) (fun w => { w with unitT := { w.unitT with mask := 0x100000009 } })) = some 1
    ∧ (tRun .halt id).map (fun w => w.status) = some .halted
    ∧ (tRun .yield id).map (fun w => (w.unitT.yielded, w.unitT.pc)) = some (true, 4) := by decide +kernel

/-- R245: a time that has passed does not sleep; CYC + 1 does. R246: a misaligned WAITLINE. -/
theorem test_sleeps :
    (match exec (.sleepuntil 2) { tAt (tPut [(4, 9)]) with cyc := 10 } with
      | .next t => (t.wave? 1 0).map fun w => w.unitT.wait | _ => none) = some .none
    ∧ (match exec (.sleepuntil 2) { tAt (tPut [(4, 11)]) with cyc := 10 } with
      | .next t => (t.wave? 1 0).map fun w => w.unitT.wait | _ => none) = some (.sleepUntil 11)
    ∧ (tTrap (.waitline 2 6 7) (tPut [(4, 2)])).map (fun w => (w.trapCause, w.trapAddr)) = some (3, 2) := by decide +kernel

/-- R247, R331: `trap 0x2A`; a word inside a handler stops the wave (R332); RTE goes on behind the literal (R331). -/
theorem test_traps :
    (tTrap (.trap 0x2A) id).map (fun w => (w.trapCause, w.trapPc, w.unitT.pc, w.status)) = some (0x2A0F, 0, 0x1000, .running)
    ∧ (tTrap (.bkpt 7) id).map (fun w => w.trapCause) = some 0x070E
    ∧ (tTrap (.trap 1) (fun w => { w with handler := some { arm := .t, depth := 0, wait := .none, skip := none } })).map (fun w => w.status)
        = some .killed
    ∧ (tRun .rte (fun w => { w with handler := some { arm := .t, depth := 0, wait := .none, skip := none }, trapPc := 0x2C, savedFmt := 5 })).map
        (fun w => (w.unitT.pc, w.unitT.fmt, w.handler)) = some (0x30, 5, none) := by decide +kernel

/-- R254, R255's examples. -/
theorem test_valu :
    tLane 4 9 (tRun (.vadd 0 4 5 6 0) (tVec [(5, 0xFFFFFFFF), (6, 2)])) = some 1
    ∧ tLane 4 0 (tRun (.vmulh 0 4 5 6 0) (tVec [(5, 0x80000000), (6, 2)])) = some 0xFFFFFFFF
    ∧ tLane 4 63 (tRun (.vabsd 0 4 5 6 0) (tVec [(5, 3), (6, 0xFFFFFFFB)])) = some 8
    ∧ tLane 2 17 (tRun (.vshli 2 0 2) (tLanes 0 (List.range 18))) = some 68 := by decide +kernel

/-- R251's example: a guard keeps lanes 16 to 63. -/
theorem test_guard :
    let w := tRun (.vadd 1 5 5 9 1) fun w => tPut [(9, 1)] (tVec [(5, 7)] (w.setP 1 allLanes 0xFFFF 0))
    tLane 5 15 w = some 8 ∧ tLane 5 16 w = some 7 := by decide +kernel

/-- R256, R257. -/
theorem test_vector_compare_and_mad :
    ((tRun (.vicmpi 2 3 2 10) (tLanes 2 [9, 10, 0xFFFFFFFF])).map fun w => ((w.p 3).bits &&& 7)) = some 5
    ∧ tLane 7 0 (tRun (.vmad 1 7 1 2 0) (fun w => tPut [(2, 5)] (tVec [(1, 3), (7, 10)] w))) = some 25
    ∧ tLane 7 41 (tRun (.vlane 0 7 0) id) = some 41
    ∧ tSreg 3 (tRun (.vtos 3 1 2 0) (tLanes 1 [5, 6, 7])) = some 7 := by decide +kernel

/-- R259, R260's examples: a fused multiply-add; 1.0 / 3.0 to nearest even and to zero, which is inexact. -/
theorem test_float :
    tLane 4 0 (tRun (.ffma 1 4 3 6 1) fun w => tPut [(6, 0x40200000)] (tVec [(3, 0x3F800000), (4, 0x3E800000)]
      (w.setP 1 allLanes 1 0))) = some 0x40300000
    ∧ (tRun (.fdiv 1 6 4 3 0) fun w => tPut [(3, 0x40400000)] (tVec [(4, 0x3F800000)] w)).map
        (fun w => (((w.v 6).elem 0).1, w.fpFlags)) = some (0x3EAAAAAB, 1)
    ∧ tLane 6 0 (tRun (.fdiv 1 6 4 3 0) fun w => tFmt 1 (tPut [(3, 0x40400000)] (tVec [(4, 0x3F800000)] w))) = some 0x3EAAAAAA := by
  decide +kernel

/-- R261's example: neither −4.0 nor −0.0 is above 0. -/
theorem test_vfcmp :
    ((tRun (.vfcmp 1 4 1 3 0 0) (tLanes 3 [0xC0800000, 0x80000000, 0x3F800000])).map fun w => ((w.p 1).bits &&& 7)) = some 4 := by
  decide +kernel

/-- R263's example: packed sums of both halves. -/
theorem test_packed :
    tLane 1 0 (tRun (.b2add 0 1 2 3 0) (tVec [(2, 0x3F804000), (3, 0x3F803F80)])) = some 0x40004040 := by decide +kernel

/-- R193, R265's examples: 500.0 to E4M3 with and without SAT (OF and NX), and the tie 0x3F81_8000 to BF16. -/
theorem test_fcvt :
    (tRun (.fcvt 3 2 3 0 0) (fun w => tFmt 8 (tVec [(2, 0x43FA0000)] w))).map (fun w => (((w.v 3).elem 0).1, w.fpFlags)) = some (0x7E, 5)
    ∧ (tRun (.fcvt 3 2 3 0 0) (tVec [(2, 0x43FA0000)])).map (fun w => (((w.v 3).elem 0).1, w.fpFlags)) = some (0x7F, 5)
    ∧ tLane 3 0 (tRun (.fcvt 3 2 1 0 0) (tVec [(2, 0x3F818000)])) = some 0x3F82 := by decide +kernel

/-- R194, R266's examples: −2.5 to INT8 is inexact, 200.5 saturates and is invalid. -/
theorem test_icvt :
    (tRun (.icvt 5 4 6 0 0) (tVec [(4, 0xC0200000)])).map (fun w => (((w.v 5).elem 0).1, w.fpFlags)) = some (0xFFFFFFFE, 1)
    ∧ (tRun (.icvt 5 4 6 0 0) (tVec [(4, 0x43488000)])).map (fun w => (((w.v 5).elem 0).1, w.fpFlags)) = some (0x7F, 16) := by
  decide +kernel

/-- R196's examples: (3, −7), the outliers 8 and −256, and (−1, 7). -/
theorem test_ox4 :
    (List.range 10).map (ox4Elem [0x93, 0x08, 0x8D, 0x7F, 0x88]) = [3, -7, 8, 0, 0, -256, -1, 7, -8, 0] := by decide +kernel

/-- R270, R271, R204's example and VSCANF's: the tree gives 1.0; the scan 1.0, 3.0, 6.0 and 10.0. -/
theorem test_cross_lane :
    tLane 2 6 (tRun (.shflx 2 1 1 0) (tLanes 1 (List.range 64))) = some 7
    ∧ tLane 2 3 (tRun (.shflup 2 1 4 0) (tLanes 1 (List.range 64))) = some 3
    ∧ tLane 5 3 (tRun (.vredf 5 4 0 0) (fun w =>
        tLanes 4 [0x4B800000, 0x3F800000, 0x3F800000, 0xCB800000] { w with unitT := { w.unitT with mask := 0xF } })) = some 0x3F800000
    ∧ [0, 1, 2, 3].map (fun l => tLane 5 l (tRun (.vscanf 5 4 0 0) (fun w =>
        tLanes 4 [0x3F800000, 0x40000000, 0x40400000, 0x40800000] { w with unitT := { w.unitT with mask := 0xF } })))
      = [some 0x3F800000, some 0x40400000, some 0x40C00000, some 0x41200000] := by decide +kernel

/-- R273's example: lane 5 of v9 receives lane 5 of v11. -/
theorem test_vldx :
    tLane 9 5 (tRun (.vldx 9 1 8) (fun w => tVec [(1, 3), (11, 0x77)] w)) = some 0x77 := by decide +kernel

/-- R274's examples. -/
theorem test_predicates :
    let f := fun (w : Wave) => w.setP 2 allLanes 0x10000000009 0
    tSreg 4 (tRun (.vballot 4 2 0) f) = some 9 ∧ tSreg 5 (tRun (.vballot 4 2 0) f) = some 0x100
    ∧ tLane 6 3 (tRun (.vmcnt 6 2 0) f) = some 1 ∧ tLane 6 41 (tRun (.vmcnt 6 2 0) f) = some 3 := by decide +kernel

/-! ## Results: memory, synchronisation, the engine and the counters -/

/-- The state after an instruction or event, or none where it did not answer one. -/
def tNext (i : Instr) (s : State) : Option State :=
  match exec i s with
  | .next t => some t
  | _ => none

/-- An operand that a test's operation has read (R277): 4 bytes for lane 0 into s5, done with 7. -/
def tOp : PendOp :=
  { id := 1, arm := .t, shared := true, kind := .load, pc := 0, scope := .wave, acquire := false,
    parts := [{ lane := 0, key := 0x20, va := 0x20, size := 4, act := .read, route := .cache, age := 0, noAlloc := false,
                na := false, nt := false, col := false, done := true, val := 7, poison := false }],
    dest := .uni 5 false, att := 0, port := 0, ktag := 0, sent := 0, answered := true, data := [], dataPoison := 0,
    status := 0, value := 0, hidden := [], word := 0, slot := 0, left := false }

/-- R230, R275: an aligned uniform load issues one operation at its address; a misaligned one traps at it (R34). -/
theorem test_uniform_memory :
    (tRun (.uld32 10 8 0x20) (tPut [(8, 0x100)])).map (fun w => w.pend.map fun o => (o.dest, o.parts.map OpPart.key))
      = some [(.uni 10 false, [0x120])]
    ∧ (tTrap (.uld64 10 8 0x20) (tPut [(8, 0x104)])).map (fun w => (w.trapCause, w.trapAddr)) = some (3, 0x124) := by decide +kernel

/-- R165, R277: the completion writes the register and takes the operation out of OUTST. -/
theorem test_completion :
    (tNext .accessComplete { tAt (fun w => { w with pend := [tOp] }) with call := .accessComplete 1 0 1 }).map
      (fun t => (t.wave? 1 0).map fun w => (w.s 5, w.pend)) = some (some (7, [])) := by decide +kernel

/-- R277: the lanes of a load; an inactive lane takes no part. R279: 16 lanes of a scratchpad load a cycle. -/
theorem test_lane_memory :
    (tRun (.ldg 2 0 0 8 1 2 0) (fun w => tLanes 1 [0, 8] { w with unitT := { w.unitT with mask := 3 } })).map
      (fun w => w.pend.map fun o => o.parts.map fun p => (p.lane, p.key)) = some [[(0, 0), (1, 8)]]
    ∧ (tTrap (.stg 2 0 0 8 1 2 0) (fun w => tLanes 1 [0, 2] { w with unitT := { w.unitT with mask := 3 } })).map
      (fun w => (w.trapCause, w.trapAddr)) = some (3, 2) := by decide +kernel

/-- R60, R287: the row of "Held rows": bank 278, row 36, and the handle of GEN 3. -/
theorem test_rows :
    hbmBank 0x1234567 = 278 ∧ hbmRow 0x1234567 = 36 ∧ 0x3001234567 / 2 ^ 36 = 3 ∧ rowHandle 3 3 278 = 0x00030716 := by
  decide +kernel

/-- R140: TBINIT with one arrival; the arrival completes the phase; an expect, an acceptance and a landing do not while an
arrival is missing; the last landing does. -/
theorem test_barrier_arithmetic :
    (let b := tbInit 0 9 2 1
     b % 16 = 0 ∧ b / 16 % 2 ^ 20 = 1 ∧ b / 2 ^ 48 % 2 ^ 48 = 9 ∧ b / 2 ^ 96 = 0x8002
     ∧ tbArrive b 1 = some (b - 16 + 1) ∧ tbArrive b 2 = none ∧ tbExpect b (2 ^ 20 - 1) = none
     ∧ (tbAccept b 4 20) / 2 ^ 24 % 2 ^ 24 = 4 ∧ (tbAccept b 4 20) / 2 ^ 48 % 2 ^ 48 = 20
     ∧ tbLand (tbAccept (b - 16) 4 20) 4 % 16 = 1) := by decide +kernel

/-- R350's example: RATE 0x0100, BURST 2, an empty bucket and LASTFILL 1,000: throttled at 1,200, accepted at 1,256. -/
theorem test_gate_rate :
    let g : Gate := { index := 0, used := true, gen := 1, counter := 0, state := .live, acl := 0, burst := 2, rate := 0x100,
                      tokens := 0, lastFill := 1000 }
    (g.post 1200).2 = 1 ∧ (g.post 1256).2 = 0 ∧ (g.post 1256).1.counter = 1 ∧ (g.post 1256).1.tokens = 0 := by decide +kernel

/-- R174's example: shape (300, 64) in bucket 1 with tiles 128 and 64. -/
theorem test_bounds :
    let e := 128 * 2 ^ 576 + 64 * 2 ^ 592
    boundPair e 2 [300, 64, 0, 0] 0 = [44, 3] ∧ boundPair e 2 [300, 64, 0, 0] 1 = [64, 1] ∧ boundPair e 2 [300, 64, 0, 0] 2 = [0, 0] := by
  decide +kernel

/-- R177's example: CUR becomes 2; another phase changes nothing. -/
theorem test_phasesel :
    let e := 2000000 * 2 ^ 320 + 1200000 * 2 ^ 368 + 3 * 2 ^ 293 + (128 + 128 * 2 ^ 8) * 2 ^ 160 + (160 + 96 * 2 ^ 8) * 2 ^ 192
      + (96 + 160 * 2 ^ 8) * 2 ^ 224
    phaseVarOf (phaseselEntry e 0) = 0x00010200 ∧ phaseselEntry e 1 = e := by decide +kernel

/-- R84's example: heads 0, 4 and 8 fold to 3.0 three times. -/
theorem test_rescale :
    foldRound 3 0 1 ([[0x40400000, 0x40000000, 0x3F800000], [0x3F800000, 0x40800000, 0x41000000],
      [0xFF800000, 0x40A00000, 0x40C00000]].map fun xs => xs.flatMap (natToBytes 4))
      = [0x40400000, 0x40400000, 0x40400000].flatMap (natToBytes 4) := by decide +kernel

/-- R311's example: the descriptor of t0; R311: TPLSET changes BASE alone. -/
theorem test_tiles :
    let t := (tRun (.tset 0 8) (tPut [(8, 0), (9, 0x3FBF8000), (10, 0x90800004), (11, 0)])).map fun w => tileOf (w.tile 0)
    t.map (fun x => (x.base, x.rows, x.cols, x.stride, x.gstride)) = some (0, 128, 128, 4, 256)
    ∧ (tRun (.tplset 2 0 5) (fun w => tPut [(5, 0x10000)] (w.setTile 0 0x9080000400000000000000))).map (fun w => w.tile 2)
        = some 0x9080000400000000010000 := by decide +kernel

/-- R319: only the pairs of formats that R319 permits; R323: MQRY names an even pair. -/
theorem test_engine_legality :
    (tTrap (.mstep 0 8 10 0 2 3 1) (fun w => { w with accs := [{ slot := 0, elems := [], poison := false, faulted := false }] })).map
      (fun w => w.trapCause) = some 0x0401
    ∧ (tTrap (.mqry 0 7) (fun w => { w with accs := [{ slot := 0, elems := [], poison := false, faulted := false }] })).map
      (fun w => w.trapCause) = some 0x0401 := by decide +kernel

/-- R308, R327: a word of an accumulator that the launch does not have is illegal (subcode 5). -/
theorem test_mzero_enters :
    (tNext (.mzero 0) (tAt fun w => { w with accs := [{ slot := 0, elems := [], poison := false, faulted := false }] })).map
      (fun t => (t.engine 0).entries.map fun e => (e.op, e.acc, e.remaining)) = some [(.mzero, 0, 1)] := by decide +kernel

/-- A counter about to wrap, with its interrupt enabled. -/
def tCounter : Counter := { value := 2 ^ 48 - 2, event := 0x10, en := true, ie := true, ovf := false }

/-- R327: CTRSEL clears the counter that it selects; an addition wraps and sets OVF. -/
theorem test_counters :
    ((tNext (.ctrsel 3 6) (tAt (tPut [(6, 0x43)]))).bind fun t => (t.part? 0).map fun p => p.counters[3].event) = some 0x43
    ∧ ((tNext .counterAdd { tS with
          call := .counterAdd 0 8 5, charges := [{ part := 0, mask := 8, n := 5, since := 0 }],
          parts := [{ placedPart with counters := placedPart.counters.set 3 tCounter }] }).bind
        fun t => (t.part? 0).map fun p => (p.counters[3].value, p.counters[3].ovf, p.events.map Event.type))
      = some (3, true, [7]) := by decide +kernel

/-! ## Witnesses: the hypotheses of the statements are met, clause by clause -/

/-- The fetch of the placed wave's packet gives it, its wave stands, and `f` holds of the wave and the packet. -/
def tFetches (s : State) (f : Wave → FetchedPacket → Bool) : Bool :=
  match s.fetch placedWave tI placedWave.unitT with
  | .packet s1 p => (match s1.wave? 1 0 with | some w => f w p | none => false)
  | .stop _ => false

/-- The placed wave can be selected, and the fetch of its packet gives what `f` asks. -/
def tReady (nbits x : Nat) (f : Wave → FetchedPacket → Bool) : Bool :=
  let s := { State.reset.placed nbits x with turn := [], issue := none, call := .none }
  s.wave? 1 0 == some placedWave && s.mayIssue placedWave .t && !s.watchdogDue placedWave && placedWave.late == [] && tFetches s f

/-- The state after a word that performed. -/
def tDone (i : Instr) (s : State) : Option State := (tNext i s).filter State.performed

/-- What the condition of a state's wave is. -/
def tIs {α : Type} (x : Option α) (f : α → Bool) : Bool := (x.map f).getD false

theorem witness_StepRunsDecodedInstruction :
    tReady 32 0x04020A30 (fun w p => decodeWord (p.words.getD 0 0).toNat = .ok (.uadd 4 5 6 0)
      && w.sourcesReady .t 0 (.uadd 4 5 6 0) && !w.acquiring .t) = true
    ∧ tReady 32 0x41000000 (fun _ p => decodeWord (p.words.getD 0 0).toNat = .error .unassignedFunction) = true
    ∧ tReady 64 (0x2003FFFE * 2 ^ 32 + 0x84020A30) (fun w p =>
        chainBit (p.words.getD 0 0).toNat && !isHint (p.words.getD 0 0).toNat
          && decodeWord (p.words.getD 0 0).toNat = .ok (.uadd 4 5 6 0) && decodeWord (p.words.getD 1 0).toNat = .ok (.vadd 0 7 63 63 6)
          && chainSub 0 2 0x10 (.uadd 4 5 6 0) (.vadd 0 7 63 63 6) false = none && w.sourcesReady .t 0 (.vadd 0 7 63 63 6)) = true
    ∧ tIs (tDone (.uadd 4 5 6 0) tS) (fun t => tIs (tDone (.vadd 0 7 63 63 6) { t with issue := some { tI with idx := 1, second := true } })
        fun _ => (tDone (.vadd 0 7 63 63 6) { tS with issue := some { tI with idx := 1, second := true } }).isSome) = true := by
  decide +kernel

/-- The smallest and the largest word, and an encoder's instruction with each of its fields full. -/
theorem witness_DecodeAndEncodeAgree :
    (Instr.ldg 3 7 3 63 63 31 1).wf = true ∧ encode (.ldg 3 7 3 63 63 31 1) = some 0x51FFFFFF
    ∧ decodeWord 0 = .ok .nop ∧ decodeWord 0x51FFFFFF = .ok (.ldg 3 7 3 63 63 31 1) := by decide +kernel

/-- The placed wave's word is latched. -/
theorem witness_latched : tS.Latched placedWave tI := by unfold State.Latched; decide +kernel

theorem witness_HintWords : 0x03FFFFFF < 2 ^ 32 ∧ 0x03FFFFFF / 2 ^ 25 % 2 ^ 6 ≤ 1 ∧ tS.Latched placedWave tI :=
  ⟨by decide, by decide, witness_latched⟩

theorem witness_StepKeepsInvariant :
    (State.reset.placed 32 0x04020A30).Inv ∧ ∃ t, step (State.reset.placed 32 0x04020A30) = .next t := by
  refine ⟨by unfold State.Inv; decide +kernel, ?_⟩
  have h : (match step (State.reset.placed 32 0x04020A30) with | .next _ => true | _ => false) = true := by decide +kernel
  revert h
  cases step (State.reset.placed 32 0x04020A30) with
  | next t => exact fun _ => ⟨t, rfl⟩
  | fault r => intro h; cases h
  | refused r => intro h; cases h

theorem witness_LatchedInstructionsAnswer : tS.Latched placedWave tI := witness_latched

/-- The window of 64 registers at the file's first and last register. -/
theorem witness_RegistersHoldWhatIsWritten :
    64 ≤ placedWave.vregs.length ∧ placedWave.physV (placedWave.winBase + 63) = 63 ∧ placedWave.physV placedWave.winBase = 0 := by
  decide +kernel

theorem witness_ComputeFrame :
    tS.Latched placedWave tI ∧ (Instr.vadd 0 63 5 6 0).computes = true ∧ (tDone (.vadd 0 63 5 6 0) tS).isSome = true
    ∧ tS.performed = true ∧ Reg.s 4 ∉ regsWritten 0 (.vadd 0 63 5 6 0) ∧ Reg.v 63 ∈ regsWritten 0 (.vadd 0 63 5 6 0) :=
  ⟨witness_latched, by decide +kernel⟩

/-- A lane's store at the last byte of a sector, and a lane's load. -/
theorem witness_StoredBytes :
    State.reset.Inv ∧ tIs tOp.parts.head? (fun p => p.act = .read && { p with key := 63, size := 1, act := .write 255 }.key == 63)
      = true := by
  refine ⟨by unfold State.Inv; decide +kernel, ?_⟩
  decide +kernel

/-- The wave with a handler. -/
def tH : State := tAt fun w => { w with trapBase := 0x1000 }

/-- That wave. -/
def tHw : Wave := { placedWave with trapBase := 0x1000 }

theorem witness_handler : tH.Latched tHw tI ∧ tHw.canTrap := by
  unfold State.Latched Wave.canTrap; decide +kernel

/-- With a handler; without one; in one, with the greatest cause, subcode and SECOND. -/
theorem witness_TakingATrap :
    tH.Latched tHw tI ∧ tHw.canTrap ∧ tS.Latched placedWave tI ∧ placedWave.trapBase = 0 ∧ 255 + 256 * 255 + 65536 * 1 < 2 ^ 32 :=
  ⟨witness_handler.1, witness_handler.2, witness_latched, by decide +kernel⟩

theorem witness_IllegalWordsTrap :
    tS.Latched placedWave tI ∧ (encode (.pmask 1)).isSome = true ∧ illegalSub tS placedWave (placedWave.issuing tI) tI.lit (.pmask 1) = some 4 :=
  ⟨witness_latched, by decide +kernel⟩

/-- A poisoned base, a poisoned lane, a misaligned lane, a page without a translation and a refused one. -/
theorem witness_LaneAccessTraps :
    tH.Latched tHw tI ∧ tHw.outst < 63 ∧ tHw.canTrap ∧ (tHw.setS 4 0 true).sPairPoison 4 = true ∧ tHw.sPairPoison 4 = false
    ∧ (tHw.writeV 1 allLanes (laneNumbers.map fun _ => (0, true))).loadLanes tHw.unitT 1 0 4 = .poison
    ∧ (tHw.writeV 8 allLanes (laneNumbers.map fun _ => (0, true))).storeLanes tHw.unitT 8 1 0 4 = .poison
    ∧ (tVec [(1, 2)] tHw).loadLanes tHw.unitT 1 0 4 = .misaligned 2 ∧ (tVec [(1, 2)] tHw).storeLanes tHw.unitT 8 1 0 4 = .misaligned 2
    ∧ (match (tVec [(1, 0x2000)] tHw).loadLanes { tHw.unitT with mask := 1 } 1 0 4 with
        | .ok ls =>
          tH.placeLanes tHw tHw.unitT (fun _ => true) .read 4 ls = .walk [2]
          && tH.placeLanes tHw { tHw.unitT with refusals := [{ page := 2, sub := 1, level := 0, ras := false }] } (fun _ => true) .read 4 ls
              = .deny 0x2000 1 0
        | _ => false) = true :=
  ⟨witness_handler.1, by decide +kernel, witness_handler.2, by decide +kernel⟩

/-- A barrier at key 0x40 with one sector pending and a promise of CYC 9, at CYC 10. -/
def tLate : State := { tH with cyc := 10, mem := tH.mem.writeNat 0x40 16 (0x8000 * 2 ^ 96 + 9 * 2 ^ 48 + 2 ^ 24) }

/-- A word that is none; a pending late error; a missed promise; the watchdog at its limit, with a handler and without. -/
theorem witness_TrapsOutsideWords :
    tHw.canTrap ∧ tH.wave? 1 0 = some tHw ∧ tHw.status = .running ∧ tHw.saved = false ∧ tHw.unitReady .t = true
    ∧ tLate.passed (tbPromise (tLate.peekNat 0x40 16)) = true ∧ tbSectors (tLate.peekNat 0x40 16) ≠ 0 ∧ tHw.missed = none
    ∧ tIs (tH.part? 0) (fun p => p.watchdog ≠ 0 && p.watchdog ≤ 2 ^ 32) = true ∧ tHw.unitT.wait = .none ∧ tHw.unitE.wait = .none
    ∧ tHw.watchdogFired = false ∧ tHw.watchdogArm = .t ∧ placedWave.trapBase = 0 :=
  ⟨witness_handler.2, by decide +kernel⟩

theorem witness_UniformArithmeticWords : tS.Latched placedWave tI ∧ placedWave.qPoison 0 = false ∧ placedWave.qPoison 7 = false
    ∧ (0x200 : BitVec 10).toInt = -512 := ⟨witness_latched, by decide +kernel⟩

theorem witness_UniformBitAndPredicateWords :
    tS.Latched placedWave tI ∧ placedWave.qPoison 7 = false ∧ (7 : BitVec 6).toNat ≤ 7 := ⟨witness_latched, by decide +kernel⟩

theorem witness_SpecialRegisters :
    tS.Latched placedWave tI ∧ placedWave.sPoison 63 = false ∧ (tS.launch? 1).isSome = true := ⟨witness_latched, by decide +kernel⟩

theorem witness_CycleCounterReads :
    tS.Latched placedWave tI ∧ tIs (tNext (.urds 3 0) tS) (fun t => (t.wave? 1 0).isSome) = true := ⟨witness_latched, by decide +kernel⟩

/-- The partition has its 16 counters, the last of which is a counter too. -/
theorem witness_CounterControl :
    tS.Latched placedWave tI ∧ placedWave.sPoison 63 = false
    ∧ tIs (tS.part? 0) (fun p => (p.counters[15]?).isSome) = true := ⟨witness_latched, by decide +kernel⟩

theorem witness_VectorArithmeticWords :
    tS.Latched placedWave tI ∧ placedWave.guardPoison placedWave.unitT 0 = false ∧ placedWave.guardPoison placedWave.unitT 7 = false :=
  ⟨witness_latched, by decide +kernel⟩

/-- VBALLOT into the pairs s0:1 and s62:63. -/
theorem witness_VectorPredicateWords :
    tS.Latched placedWave tI ∧ placedWave.guardPoison placedWave.unitT 7 = false ∧ (0 : BitVec 6).toNat % 2 = 0
    ∧ (62 : BitVec 6).toNat % 2 = 0 := ⟨witness_latched, by decide +kernel⟩

theorem witness_VectorMoves :
    tS.Latched placedWave tI ∧ placedWave.guardPoison placedWave.unitT 7 = false := ⟨witness_latched, by decide +kernel⟩

/-- Every lane's index names the last register of the resident range. -/
theorem witness_CrossLaneWords :
    tS.Latched placedWave tI ∧ placedWave.guardPoison placedWave.unitT 7 = false
    ∧ (∀ l, l < 64 → ((tVec [(1, 55)] placedWave).v 1).poison.getLsbD l = false
        ∧ (((tVec [(1, 55)] placedWave).v 1).lanes.getD l 0).toInt + 8 = 63) ∧ placedWave.lo = 0 ∧ placedWave.vregs.length = 64 :=
  ⟨witness_latched, by decide +kernel⟩

/-- Formats 0 and 4 of FCVT, 5 and 6 of ICVT. -/
theorem witness_FloatArithmeticWords :
    tS.Latched placedWave tI ∧ placedWave.guardPoison placedWave.unitT 7 = false ∧ (4 : BitVec 3).toNat ≤ 4 ∧ (0 : BitVec 3) ≠ 4
    ∧ (1 : BitVec 3).toNat < 2 := ⟨witness_latched, by decide +kernel⟩

theorem witness_FloatComparesAndReductions :
    tS.Latched placedWave tI ∧ placedWave.guardPoison placedWave.unitT 7 = false ∧ (2 : BitVec 6).toNat ≤ 2 :=
  ⟨witness_latched, by decide +kernel⟩

/-- The wave with FMT for T = 16 and each packed format, and the groups of R268 and R269. -/
theorem witness_Quantisation :
    ∀ f ∈ [0x00, 0x10, 0x20, 0x30], (tAt (tFmt f)).Legal (tFmt f placedWave) tI (.qpk 8 0 4 0)
      ∧ (tAt (tFmt f)).Legal (tFmt f placedWave) tI (.qunpk 12 8 4 0) := by
  unfold State.Legal State.Latched; decide +kernel

/-- q0 reads 1 and q1 reads 0; a packet's offset, and one that is none. -/
theorem witness_Branches :
    tH.Latched tHw tI ∧ tHw.canTrap ∧ tHw.qPoison 0 = false ∧ tHw.q 0 = true ∧ tHw.q 1 = false ∧ tHw.sPoison 12 = false
    ∧ (tHw.s 12).toNat % 16 = 0 ∧ ((tPut [(12, 15)] tHw).s 12).toNat % 16 ≠ 0 :=
  ⟨witness_handler.1, witness_handler.2, by decide +kernel⟩

/-- A frame step of 0 and of 64, the 1,025th call, a call that spills nothing; a return without a record, with one of
another frame's depth, and with one of this. -/
theorem witness_CallsAndReturns :
    let r : CallRec := { ret := 16, step := 0, ddepth := 0 }
    tH.Latched tHw tI ∧ tHw.canTrap ∧ (64 : Word).toNat % 8 = 0 ∧ 1024 ≤ ({ tHw with calls := List.replicate 16 r, spilledCalls := 1008 } : Wave).openCalls
    ∧ tHw.openCalls < 1024 ∧ (tH.spillGranules tHw 0 0).2.2.isNone = true ∧ (tH.pushCall tHw r).isOk = true ∧ tHw.calls = []
    ∧ (1 : Nat) ≠ (tHw.issuing tI).open ∧ (0 : Nat) = (tHw.issuing tI).open
    ∧ (tH.fillGranules { tHw with calls := [r] } 0 0).isOk = true ∧ (tH.popCall { tHw with calls := [r] }).isOk = true :=
  ⟨witness_handler.1, witness_handler.2, by decide +kernel⟩

/-- An entry whose JOIN is the latched word. -/
def tEntry : DivEntry :=
  { trueLanes := 0xF, elseLanes := 0xF0, brk := 0, elseTarget := 0, joinTarget := 0, fmt := 0, inElse := false }

/-- A converged wave, an arm with one entry whose other arm waits or not, and an arm with two, in either half of the inner one. -/
theorem witness_Divergence :
    tS.Latched placedWave tI ∧ placedWave.unitT.mask ≠ 0 ∧ (placedWave.p 0).poison = 0 ∧ placedWave.unitT.open < 255
    ∧ placedWave.divergent = false
    ∧ (let w : Wave := { placedWave with divergent := true, unitT := { placedWave.unitT with entries := [tEntry] },
                                         unitE := { placedWave.unitT with entries := [tEntry], atJoin := true } }
       (tS.pushEntry w .t tEntry).isOk = true ∧ w.frameDepth < w.unitT.open ∧ w.unitT.open ≤ 1 ∧ w.unitE.atJoin = true
       ∧ tI.pc = 16 * tEntry.joinTarget ∧ (4 : Nat) ≠ 16 * tEntry.joinTarget)
    ∧ (let u : UnitSt := { placedWave.unitT with entries := [{ tEntry with inElse := true }, tEntry] }
       1 < u.open ∧ u.spilled = [] ∧ tEntry.elseLanes &&& ~~~placedWave.haltedLanes ≠ 0 ∧ u.mask ≠ 0) :=
  ⟨witness_latched, by decide +kernel⟩

theorem witness_LaneControl :
    tS.Latched placedWave tI ∧ placedWave.frameDepth < ({ placedWave.unitT with entries := [tEntry] } : UnitSt).open
    ∧ placedWave.unitT.mask &&& ~~~(placedWave.unitT.mask &&& (placedWave.p 1).bits) ≠ 0
    ∧ placedWave.unitT.mask &&& (placedWave.p 1).poison = 0 ∧ placedWave.unitT.entries = [] ∧ (62 : BitVec 6).toNat % 2 = 0
    ∧ (7 : BitVec 6).toNat ≤ 7 := ⟨witness_latched, by decide +kernel⟩

/-- WAITLINE on a word of the code page. -/
theorem witness_Sleeps :
    tS.Latched placedWave tI ∧ placedWave.sPairPoison 62 = false ∧ placedWave.sPoison 6 = false
    ∧ (match tS.waveXlate placedWave placedWave.unitT 0xFFC 4 .read with
        | .ok _ e => decide (e.tier ≠ .relay ∧ e.tier ≠ .aperture) | _ => false) = true
    ∧ (match tS.readData placedWave tI placedWave.unitT 0xFFC 4 true with | .ok _ v none _ _ => v == 0 | _ => false) = true :=
  ⟨witness_latched, by decide +kernel⟩

/-- With a debug session and without; in a handler whose interrupted wait was none or a sleep. -/
theorem witness_TrapsAndReturn :
    tH.Latched tHw tI ∧ tHw.canTrap ∧ ((tH.part? 0).map Part.debug).getD false = false
    ∧ (({ placedPart with debug := true } : Part)).debug = true ∧ (tHw.issuing tI).open ≤ 0
    ∧ (let h : HandlerSt := { arm := .t, depth := 0, wait := .sleepUntil 5, skip := none }
       ∃ t, h.wait = .sleepUntil t) :=
  ⟨witness_handler.1, witness_handler.2, by decide +kernel, by decide, by decide +kernel, ⟨5, rfl⟩⟩

/-! ### Memory and synchronisation words -/

/-- A state's wave, as the next words find it. -/
def tMe (s : State) : Wave := s.again placedWave

/-- The memory word goes through (the conditions of `State.admits`). -/
def tAdmits (s : State) (x : Access) : Bool :=
  let w := tMe s
  match x.lanes with
  | .ok ls =>
    let r := if isRelease x.order then s.releaseAt w .t (s.clampScope w.part x.scope).2 else (s, true)
    match r.1.placeLanes (r.1.again w) (r.1.again w).unitT x.tierOk x.acc x.size ls with
    | .ok placed =>
      let ps := r.1.laneParts x placed
      r.2 && decide (w.outst < 63) && !(x.acc.writes && r.1.storeStalls (r.1.again w) (s.clampScope w.part x.scope).2 ps)
        && !r.1.relayStalls (r.1.again w) ps && (ps.all fun p => !p.tier3 && !(r.1.again w).overlaps p.key p.size x.acc.writes)
        && (r.1.flushParts 0 (s.clampScope w.part x.scope).2 ps).2
    | _ => false
  | _ => false

/-- A lane access of the placed wave, lane l at 4 l, or for 8 bytes at 8 l. -/
def tAccess (kind : OpKind) (acc : AccKind) (size : Nat) (r : BitVec 2) (route : Nat → Route) : Access :=
  let w := tLanes 1 ((List.range 64).map fun l => l * size) placedWave
  { kind := kind, acc := acc, size := size, scope := .pkg, order := r,
    lanes := match acc with
      | .read => w.loadLanes w.unitT 1 0 size
      | .atomic => w.atomicLanes w.unitT 7 2 1 0 size
      | _ => w.storeLanes w.unitT 8 1 0 size,
    dest := .none, act := fun l => .write l.a, route := route, tierOk := fun t => t ≠ .aperture, noAlloc := false, nt := false }

/-- Uniform accesses at the last word of a page; loads and stores of 1 and 8 bytes, relaxed and acquiring or releasing; a
gather, a scatter and a compare-and-swap. -/
theorem witness_MemoryAccesses :
    tS.Latched placedWave tI ∧ placedWave.sPairPoison 62 = false ∧ placedWave.sPoison 0 = false ∧ tS.feature 6 = true
    ∧ (62 : BitVec 6).toNat + 1 * 2 ≤ 64
    ∧ ([(4, AccKind.read, OpKind.load), (8, .read, .load), (4, .write, .store), (8, .write, .store)].all fun x =>
        tAdmits tS { tAccess x.2.2 x.2.1 x.1 0 (fun _ => .cache) with
          lanes := .ok [{ lane := 0, addr := 4096 - x.1, a := 0, b := 0 }], scope := .wave }) = true
    ∧ ([(1, AccKind.read, OpKind.load, 0), (8, .read, .load, 1), (1, .write, .store, 0), (8, .write, .store, 2),
        (4, .atomic, .atomic, 3), (8, .atomic, .atomic, 0)].all fun x =>
          tAdmits tS (tAccess x.2.2.1 x.2.1 x.1 x.2.2.2 (fun _ => .cache))) = true
    ∧ tAdmits tS (tAccess .load .read 2 0 (fun key => .gather (key / 2 ^ 36))) = true
    ∧ tAdmits tS (tAccess .atomic .atomic 4 0 (fun _ => .atomicUnit)) = true := ⟨witness_latched, by decide +kernel⟩

/-- An operation with one part served by the quad; a finished one whose destination is none, and v63. -/
theorem witness_OperationsIssueAndComplete :
    tS.wave? 1 0 = some placedWave ∧ (∀ p ∈ tOp.parts, p.route ≠ .runner)
    ∧ (let o := { tOp with dest := .vec 63 false }
       let w : Wave := { placedWave with pend := [o] }
       (tAt fun _ => w).wave? 1 0 = some w ∧ o ∈ w.pend ∧ (w.pend.find? fun x => x.id = o.id) = some o ∧ o.finished = true
       ∧ o.acquire = false ∧ w.vregs ≠ []) ∧ ({ tOp with dest := .none } : PendOp).finished = true
    ∧ tOp.hidden.contains 5 = false ∧ ({ tOp with hidden := [5] } : PendOp).hidden.contains 5 = true := by decide +kernel

/-- The placed state with a window of two banks. -/
def tQ : State := { tS with launches := [{ placedLaunch with qsp := 2, windows := [(0, 0)] }] }

/-- A load, a store and an atomic whose lane 0 is at the window's last word. -/
theorem witness_ScratchpadAccesses :
    tQ.Latched placedWave tI ∧ placedWave.outst < 63 ∧ (tQ.releaseAt placedWave .t .pkg).2 = true
    ∧ tQ.again placedWave = placedWave ∧ (tQ.qspKeyOf placedWave 0x1FFFC).isSome = true ∧ (tQ.qspKeyOf placedWave 0x20000) = none
    ∧ placedWave.sPairPoison 30 = false ∧ (62 : BitVec 6).toNat + 2 ≤ 64
    ∧ (let w := tLanes 1 [0x1FFFC] { placedWave with unitT := { placedWave.unitT with mask := 1 } }
       w.loadLanes w.unitT 1 0 4 = .ok [{ lane := 0, addr := 0x1FFFC, a := 0, b := 0 }]
       ∧ w.storeLanes w.unitT 8 1 0 4 = .ok [{ lane := 0, addr := 0x1FFFC, a := 0, b := 0 }]
       ∧ w.atomicLanes w.unitT 0 4 1 0 4 = .ok [{ lane := 0, addr := 0x1FFFC, a := 0, b := 0 }])
    ∧ placedWave.overlaps (qspKey 0 0x1FFFC) 4 true = false := by
  unfold State.Latched; decide +kernel

/-- A handle of a held row of stack 0, bank 0, with GEN 1. -/
def tRow : RowSlot := { stack := 0, bank := 0, gen := 1, held := true, part := 0, row := 0, recorded := false, dropped := false }

/-- A TLB entry for page 1 in the window of attachment 0. -/
def tModuleEntry : TlbEntry := { placedEntry with page := 1, frame := 0x10000000000, tier := .module }

/-- An attachment with its four ports up. -/
def tAtt : Att :=
  { verified := true, portsUp := List.replicate 4 true, krspBase := List.replicate 4 0, fabricCap := List.replicate 16 0,
    readCap := List.replicate 16 0 }

/-- The placed state in the Fano pod as package 0, with its three attachments up, and partition 0 with peer 1. -/
def tM : State :=
  { tS with
    tlb := [placedEntry, tModuleEntry],
    parts := [{ placedPart with peerGroups := [1], windowLimit := List.replicate 8 (2 ^ 42), nqBase := 0x100, ld := some 0,
                                hqBase := some 0 }],
    lds := [{ LogDev.reset 0 with bound := true }],
    pod := { Pod.reset with order := some 2, privilege := some 0, atts := [tAtt, tAtt, tAtt] } }

/-- Each scope of a fence; lines of every lane; each answer of ROWPIN, and a current and a stale handle. -/
theorem witness_FenceCacheAndRowWords :
    tS.Latched placedWave tI ∧ (tS.releaseAt placedWave .t .part).2 = true ∧ (tS.acquireAt placedWave .part).2 = true
    ∧ placedWave.readsDone .t .part = true ∧ tS.engineIdle placedWave = true ∧ placedWave.pend = []
    ∧ placedWave.unitT.mask &&& (placedWave.v 2).poison = 0
    ∧ (match tS.lineXlate placedWave placedWave.unitT 0 true, tS.waveXlate placedWave placedWave.unitT 0xFFF 1 .read with
        | .ok .., .ok .. => true | _, _ => false) = true
    ∧ placedWave.overlaps 0 128 true = false ∧ ([LineOp.wbl, .invl, .flushl].all fun x => (tS.lineOp 0 0 x).2) = true
    ∧ tS.feature 5 = true ∧ placedWave.outst < 63
    ∧ (match tS.waveXlate placedWave placedWave.unitT 0 1 .read, tM.waveXlate placedWave placedWave.unitT 0x1000 1 .read with
        | .ok pa e, .ok _ f => pa == 0 && e.tier == .hbm && f.tier == .module | _, _ => false) = true
    ∧ (let s := { tS with rows := [tRow] }
       (s.rowSlot 0 0).held = true ∧ (s.rowSlot 0 0).part = 0 ∧ (s.rowSlot 0 0).row = hbmRow 0 ∧ s.rowsHeld 0 < 256 ∧ s.rowsOf 0 0 = 1)
    ∧ (tS.rowSlot 0 0).held = false ∧ ¬ (0 < tS.rowsOf 0 0) ∧ tS.rowsOf 0 0 < 1
    ∧ (let s := { tS with rows := (List.range 256).map fun b => { tRow with bank := b + 1, part := 1 } }
       256 ≤ s.rowsHeld 0 ∧ (s.rowSlot 0 0).held = false ∧ s.rowsOf 0 0 < 1) := ⟨witness_latched, by decide +kernel⟩

/-- A service of each kind on the module of attachment 0, at the first line of its window. -/
theorem witness_ServiceWords :
    tM.Latched placedWave tI ∧ placedWave.sPairPoison 4 = false ∧ physPlace 0x10000000000 = .attach 0 0
    ∧ tM.freeKtag 0 (tM.pod.portFor 0 0) = some 0 ∧ placedWave.outst < 63 ∧ tM.feature 1 = true
    ∧ placedWave.lanesPoison 62 64 = false ∧ placedWave.lanesPoison 63 16 = false ∧ placedWave.sPoison 63 = false
    ∧ matomIllegal 8 12 1 5 = false ∧ placedWave.sPairPoison 12 = false ∧ placedWave.sPairPoison 14 = false
    ∧ (match tM.waveXlate placedWave placedWave.unitT 0x1000 1 .write, tM.waveXlate placedWave placedWave.unitT 0x1000 1 .read with
        | .ok pa e, .ok _ _ => pa == 0x10000000000 && e.tier == .module | _, _ => false) = true
    ∧ placedWave.overlaps (moduleKey 0 0) 384 true = false := by
  unfold State.Latched; decide +kernel

/-- A descriptor of ASID 0 at 0x100: EN, a ring of one record at 0x1000. -/
def tNq (tail : Nat) : State := { tM with mem := (tM.mem.writeNat 0x100 8 0x1020).writeNat 0x108 8 (tail * 2 ^ 32) }

/-- A live peer, the longest length within a page, ATOP 7 on 8 bytes; no queue, a queue with a record and an empty one. -/
theorem witness_RemoteWords :
    tM.Latched placedWave tI ∧ tM.feature 0 = true ∧ placedWave.sPairPoison 4 = false
    ∧ tIs (tM.part? 0) (fun q => tM.peerState q 1 == 0 && !q.isDead 1 && !tM.nqEnabled (q.nqDesc 0)) = true ∧ 1 ≠ tM.pod.self
    ∧ (match tM.openCtx { tX with part := 0 } with | .ready _ => true | _ => false) = true ∧ 255 + 1 ≤ 256 ∧ ctlLen 0xFF00 = 256
    ∧ 3840 % 4096 + ctlLen 0xFF00 ≤ 4096 ∧ placedWave.lanesPoison 63 64 = false ∧ (7 : Nat) ≤ 7 ∧ placedWave.sPoison 7 = false
    ∧ tIs ((tNq 1).part? 0) (fun q => (tNq 1).nqEnabled (q.nqDesc 0) && ((tNq 1).takeRecord placedWave (q.nqDesc 0)).1.2
        && ((tNq 1).takeRecord placedWave (q.nqDesc 0)).2 == some (0, false)) = true
    ∧ tIs ((tNq 0).part? 0) (fun q => (tNq 0).nqEnabled (q.nqDesc 0) && ((tNq 0).takeRecord placedWave (q.nqDesc 0)).1.2
        && ((tNq 0).takeRecord placedWave (q.nqDesc 0)).2 == none) = true := by
  unfold State.Latched; decide +kernel

/-- A barrier of partition 0 at key 0x40 with PHASE 15, the greatest ARRIVALS and no sector. -/
def tBar : Nat := 0x8000 * 2 ^ 96 + (2 ^ 20 - 1) * 16 + 15

/-- The state that holds it. -/
def tB : State := { tS with mem := tS.mem.writeNat 0x40 16 tBar }

/-- A load's part at bank 0 of quad 0, presented at CYC `age`. -/
def tQPart (age : Nat) : OpPart :=
  { lane := 0, key := qspKey 0 0, va := 0, size := 4, act := .read, route := .qsp 0, age := age, noAlloc := false, na := false,
    nt := false, col := false, done := false, val := 0, poison := false }

/-- The request of a barrier word at a QSP barrier, and the state in which an older load stands at its bank. -/
def tBank (older : Bool) : State :=
  { tQ with
    cyc := 10,
    waves := [{ placedWave with
      pend := if older then [{ tOp with parts := [tQPart 9] }] else [] }] }

/-- The word's request at a barrier of bank 0. -/
def tBankReq : BankReq :=
  { who := .unit 1 0 .t, cls := 4, place := tQ.slotPlace placedWave.core placedWave.slot, age := 10, seg := (sectorKey (qspKey 0 64), false),
    reads := false }

/-- The barrier's arithmetic at its limits; a QSP barrier whose bank has come to the word and one whose bank has not; the barrier reached and owned; scoped barriers of one arrival, of a first of two,
and a generation done and not. -/
theorem witness_BarrierWords :
    tBar < 2 ^ 128 ∧ tbExpect tBar 0 = some tBar ∧ tbExpect tBar 1 = none ∧ (tbArrive tBar (2 ^ 20 - 1)).isSome = true
    ∧ tbArrive tBar (2 ^ 20) = none ∧ tbSectors tBar + (2 ^ 24 - 1) < 2 ^ 24
    ∧ tB.Latched placedWave tI ∧ placedWave.sPairPoison 4 = false ∧ placedWave.overlaps 0x40 16 true = false ∧ placedWave.sPoison 5 = false
    ∧ (match barrierAt tB placedWave tI placedWave.unitT 0 0x40 .write, barrierAt tB placedWave tI placedWave.unitT 0 0x40 .read with
        | .ok b, .ok _ =>
          let g := (tB.setWave placedWave).barrierReach placedWave b
          let t := g.1
          b.key == 0x40 && g.2 && t.wave? 1 0 == some placedWave && !t.barrierPoison 0 b && t.peekNat 0x40 16 == tBar
            && tBar / 2 ^ 96 % 65536 == 0x8000 && (t.releaseAt placedWave .t .pkg).2 && (t.acquireAt placedWave .pkg).2
            && (t.barrierWrite 0 0 b tBar).2 && !t.promiseMissed placedWave tBar
        | _, _ => false) = true
    ∧ (tBank false).bankTurn tBankReq (qspKey 0 64) = true ∧ (tBank true).bankTurn tBankReq (qspKey 0 64) = false
    ∧ placedWave.unitT.atBank = none ∧ placedWave.apertureDone = true ∧ (8 : BitVec 6).toNat % 4 = 0
    ∧ (tS.bar (tS.barKey placedWave .quad) 15).total = 0 ∧ 1 ≤ (0 : Nat) + 1 ∧ ¬ (2 ≤ (0 : Nat) + 1)
    ∧ (tS.releaseAt placedWave .t .quad).2 = true
    ∧ 1 ≤ (0 + 65536 - 65535) % 65536 ∧ (0 + 65536 - 32768) % 65536 ≤ 32768 ∧ ¬ (1 ≤ (0 + 65536 - 0) % 65536) := by
  unfold State.Latched; decide +kernel

/-- A gate of index 5 for partition 0 with both rights, live and empty. -/
def tGate : Gate :=
  { index := 5, used := true, gen := 3, counter := 0, state := .live, acl := 0xE0, burst := 1, rate := 0, tokens := 1, lastFill := 0 }

/-- The state with the gate. -/
def tG (g : Gate) : State := { tM with gates := [g] }

theorem witness_GateWords :
    (tG tGate).Latched placedWave tI ∧ (tG tGate).feature 4 = true ∧ placedWave.sPoison 6 = false ∧ (tG tGate).gateOf 0x30005 = some tGate
    ∧ tGate.allows 0 6 = true ∧ tGate.allows 0 5 = true ∧ tGate.state = .live
    ∧ (tG { tGate with state := .frozen }).gateOf 0x30005 = some { tGate with state := .frozen }
    ∧ (tG { tGate with counter := 2 ^ 32 - 1 }).gateOf 0x30005 = some { tGate with counter := 2 ^ 32 - 1 }
    ∧ ((tG tGate).releaseAt placedWave .t .part).2 = true ∧ ((tG tGate).acquireAt placedWave .part).2 = true
    ∧ (tG tGate).gateWaiters 0x30005 = 0 := by unfold State.Latched; decide +kernel

/-- An accumulator slot. -/
def tAcc : AccSlot := { slot := 0, elems := [], poison := false, faulted := false }

/-- A wave with an accumulator and BF16 descriptors of 128 by 128 in a window of 24 banks; tables with room and full. -/
def tE : State :=
  { tAt (fun w => ({ w with accs := [tAcc] }.setTile 0 0x908000043FBF800000000000).setTile 1 0x100084003FBF800000080000) with
    launches := [{ placedLaunch with qsp := 24, windows := [(0, 0)] }] }

theorem witness_MatrixAndCounterWords :
    let w := tMe tE
    tE.Latched w tI ∧ w.qspOpen = false
    ∧ ({ w with pend := [{ tOp with parts := [tQPart 0] }] } : Wave).qspOpen = true
    ∧ (0 : BitVec 3).toNat < w.accs.length ∧ (tE.engine 0).entries.length < 16 ∧ tE.feature 2 = true ∧ tE.feature 3 = true
    ∧ (let l := loopOf (w.tile 0) (w.tile 1) 0x70006008 0x00010008
       l.accepted = true ∧ (∀ c, c < 8 → l.stepFault (tE.windowOf w).2 c = none))
    ∧ illegalSub tE w w.unitT 0 (.mstep 0 8 10 0 2 3 0) = none ∧ illegalSub tE w w.unitT 0 (.mdrain 0 1 2 1 0) = none
    ∧ targetFault (tE.windowOf w).2 [tileOf (w.tile 1)] = none ∧ (w.groupPoison 8 2).any id = false
    ∧ tE.slotEntries w 0 = [] ∧ (tIs ((tE.setEngine { tE.engine 0 with entries := List.replicate 16 (tE.newEntry w w.unitT tI .mzero 0 (.mzero 0) 1) }).slotEntries w 0)[0]? fun _ => true) = true
    ∧ (∀ j, j < 4 → w.sPoison (60 + j) = false) ∧ (60 : BitVec 6).toNat % 4 = 0 ∧ (tE.part? 0).isSome = true := by
  unfold State.Latched; decide +kernel

/-! ### Steps of the other agents -/

/-- The placed wave with its unit asleep. -/
def tAsleep (x : Wait) : Wave := { placedWave with unitT := { placedWave.unitT with wait := x } }

/-- The pod's state at CYC 10 with the wave asleep. -/
def tZ (x : Wait) : State := { tNq 1 with cyc := 10, waves := [tAsleep x], gates := [tGate] }

/-- Each sleep at the first cycle at which it ends; a queue without and with a record; a gate frozen, empty and with a count. -/
theorem witness_SleepEnds :
    (tZ (.sleepUntil 9)).wave? 1 0 = some (tAsleep (.sleepUntil 9)) ∧ placedWave.saved = false
    ∧ (tAsleep (.line 0 10 true)).unitT.wait = .line 0 10 true ∧ (tAsleep (.gate 0x30005 6 10 1 false 0 false)).unitT.wait = .gate 0x30005 6 10 1 false 0 false
    ∧ 1 ≤ ((tZ .none).now48 + 2 ^ 48 - 9) % 2 ^ 48 ∧ ((tZ .none).now48 + 2 ^ 48 - 9) % 2 ^ 48 < 2 ^ 47
    ∧ (tZ .none).now = 10 ∧ (tS.nqEnabled 0x100) = false ∧ (tNq 0).nqEnabled 0x100 = true ∧ (tNq 0).nqTail 0x100 = (tNq 0).nqHead 0x100
    ∧ (tNq 1).nqTail 0x100 ≠ (tNq 1).nqHead 0x100 ∧ ((tNq 1).acquireQuad 0).2 = true
    ∧ (((tNq 1).acquireQuad 0).1.unitWrite 0 0 0x108 (natToBytes 4 1) false).2 = true
    ∧ (let x : Wait := .gate 0x30005 6 10 1 true 0 false
       (tZ x).gateOf 0x30005 = some tGate
       ∧ oldestSleeper (((tZ x).sleepers (gateWoken 5)).filter fun y => !y.1.saved) = some (tAsleep x, .t, 1)
       ∧ ((tZ x).acquireAt (tAsleep x) .part).2 = true)
    ∧ GateState.frozen ≠ .live := by decide +kernel

/-- A ready wave without a context, on a core with a free one; on a core whose sixteen are held, one by a parked wave. -/
def tCtx (n : Nat) : State :=
  { tS with
    waves := { placedWave with ctx := none, readyAt := 1 } :: (List.range n).map fun k =>
      { tAsleep (.sleepUntil 9) with wid := k + 1, ctx := some k, parkedAt := k + 1, place := k + 1 },
    launches := [{ placedLaunch with nwaves := n + 1 }] }

/-- The set of partition 0, or of it and a second partition with a ready wave, when the quantum has just ended. -/
def tSet (ms : List Nat) : State :=
  { tS with
    cyc := BitVec.ofNat 64 (2 ^ 32), sets := [{ num := 0, slices := 1, members := ms, holder := some 0, since := 0 }],
    parts := [placedPart, { placedPart with num := 1 }],
    waves := [placedWave, { placedWave with seq := 2, part := 1, saved := true }],
    launches := [placedLaunch, { placedLaunch with seq := 2, part := 1 }] }

/-- A switch of partition 0 out. -/
def tSwitch (x : Option Nat) : Switch := { set := 0, out := 0, inn := x, saveOut := 0x10000, saveIn := 0x20000, cmd := none }

theorem witness_ContextsLaunchesAndRotation :
    ((tCtx 1).contextless 0).map (fun w => (w.seq, w.wid)) = some (1, 0) ∧ (tCtx 1).freeContext 0 = some 1
    ∧ ((tCtx 16).contextless 0).map (fun w => (w.seq, w.wid)) = some (1, 0) ∧ (tCtx 16).freeContext 0 = none
    ∧ ((tCtx 16).giver 0 1).isSome = true
    ∧ tS.launch? 1 = some placedLaunch ∧ ({ placedWave with status := .halted } : Wave).pend = [] ∧ tS.engineIdle placedWave = true
    ∧ placedWave.withdrawn = [] ∧ ({ placedWave with status := .halted } : Wave).status ≠ .running
    ∧ tIs ((tSet [0]).set? 0) (fun g => (tSet [0]).nextMember g == none && g.holder == some 0) = true
    ∧ tIs ((tSet [0, 1]).set? 0) (fun g => (tSet [0, 1]).nextMember g == some 1) = true ∧ (tSet [0]).skolisUp = true
    ∧ tIs ((tSet [0]).part? 0) (fun p => 0 + p.quantum ≤ (tSet [0]).now) = true ∧ (tSet [0]).switches = []
    ∧ (tSet [0, 1]).drained 0 = true
    ∧ tIs ((tSet [0, 1]).set? 0) (fun g =>
        let r := gotAll (tSet [0, 1]) ((tSet [0, 1]).setQuads g) (fun t q => t.acquireQuad q)
        r.2 && (r.1.part? 0).isSome) = true := by decide +kernel

/-- A part of an operation that an L2's atomic unit or a gather packet serves. -/
def tPart (act : PartAct) (r : Route) : OpPart :=
  { lane := 0, key := 0x40, va := 0x40, size := 4, act := act, route := r, age := 0, noAlloc := false, na := false, nt := false, col := false,
    done := false, val := 0, poison := false }

/-- The state with one operation of one part outstanding. -/
def tWith (p : OpPart) : State := tAt fun w => { w with pend := [{ tOp with parts := [p], dest := .vec 0 false }] }

/-- A write-queue entry of quad 0. -/
def tWq : WqEntry := { quad := 0, key := 0x40, part := 0, nt := false, data := List.replicate 64 1, mask := 1 }

theorem witness_MemoryAgentsAndLinks :
    ([tWq].find? fun x => x.quad = 0) = some tWq ∧ (keyOfPa tS.pod (64 * 0)) = some 0
    ∧ (let p := tPart (.atomic 0 1 0) .atomicUnit
       let s := tWith p
       (match firstJob (s.atomJobs (homeDie s.pod 0) (l2SliceOf s.pod 0)) with
         | some (.lane _ _ x) => x == p
           && (s.sectorOut 0 0x40).2
           && ((s.sectorOut 0 0x40).1.l2Write (homeDie s.pod (lineKey 0x40)) 0 0x40 (natToBytes 4 1) (byteMask 0x40 4) false false).2
         | _ => false) = true)
    ∧ (let q : AtomReq := { key := 0x40, size := 4, op := 0, a := 1, b := 0, order := 0, na := false, packet := tP }
       let s := { tM with atomQ := [q] }
       (match firstJob (s.atomJobs (homeDie s.pod 0) (l2SliceOf s.pod 0)) with
         | some (.remote x) => x == q
           && (s.l2Write (homeDie s.pod (lineKey 0x40)) 0 0x40 (natToBytes 4 1) (byteMask 0x40 4) false false).2
           && !s.beyondModule 0 0x40 4
         | _ => false) = true)
    ∧ tIs ((tWith (tPart .read (.gather 0))).gatherOp 0) (fun x => x.1.seq == 1 && x.2.1.id == 1) = true
    ∧ ({ tS with rows := [tRow] }.slotOf 0 0) = some tRow ∧ tS.links[7]? = some StackLink.reset ∧ StackLink.reset.down = false
    ∧ StackLink.reset.retraining = false ∧ StackLink.reset.failedRetrains < 2
    ∧ 2 ≤ ({ StackLink.reset with retraining := true, failedRetrains := 2 } : StackLink).failedRetrains := by decide +kernel

/-- A request for a line of module 0, with a snoop that met it or without. -/
def tReq (k : MemKind) (snoop : Nat) : MemReq := { key := moduleLine 0 1, kind := k, die := 0, part := 0, sent := 0, snoop := snoop }

/-- A copy of a channel of die 0 that has a sector of that line to land. -/
def tCopy : Copy :=
  { seq := 1, wid := 0, part := 0, barrier := none, door := 0, sectors := [(0x1000, moduleLine 0 1)], promise := 0, accepted := 0,
    lost := false, moves := [], lands := [], lostMods := [] }

/-- The channel. -/
def tChan : Chan := { die := 0, ch := 15, tmpl := List.replicate 32 0, lastErr := 0, doors := [], copies := [tCopy] }

/-- A snoop of one line that met the request, held until its BIConflictAck. -/
def tSnoop : Snoop := { module := 0, first := 1, next := 1, left := 1, block := false, inv := true, held := true }

/-- Completions of both kinds that give a permission; a back-invalidation of free lines, one that a channel owns, and one that meets a
request; the request's BIConflictAck. -/
theorem witness_ModuleSnoops :
    ([tReq .own 0].find? fun x => x.key = moduleLine 0 1 && memKindBase x.kind = memKindBase .own) = some (tReq .own 0)
    ∧ ([tReq .ownHeld 0].find? fun x => x.key = moduleLine 0 1 && memKindBase x.kind = memKindBase .ownHeld) = some (tReq .ownHeld 0)
    ∧ (tReq .own 0).snoop = 0
    ∧ ([tReq .readShared 0].find? fun x => x.key = moduleLine 0 1 && memKindBase x.kind = memKindBase .readShared)
        = some (tReq .readShared 0)
    ∧ tM.permOf (moduleLine 0 1) = none ∧ tM.ladleOwns (moduleLine 0 1) = false ∧ tM.memReqs = [] ∧ tM.snoops = []
    ∧ { tM with chans := [tChan] }.ladleOwns (moduleLine 0 1) = true
    ∧ ([tReq .own 0].find? fun x => x.key = moduleLine 0 1) = some (tReq .own 0)
    ∧ ([tReq .own 1].find? fun x => x.key = moduleLine 0 1 && x.snoop ≠ 0) = some (tReq .own 1)
    ∧ tSnoop.held = true ∧ tSnoop.left = 1 ∧ tSnoop.inv = decide ((tReq .own 1).snoop = 1) := by decide +kernel

/-- A walk of page 5 of die 0, queued or in flight. -/
def tWalk (started : Bool) : Walk := { die := 0, part := 0, asid := 0, page := 5, started := started, root := 0x8000, clients := [] }

/-- The tables of a walk that ends in a leaf. -/
def tTables : State :=
  { tS with
    parts := [{ placedPart with xltBase := 0x8000, xltGo := true, ctxSizeNext := some 3, xltInvaVa := 5 * 4096,
                                ranges := [(0, 0, 2 ^ 30)] }],
    walks := [tWalk true] }

/-- The state with tables: the root entry, two levels of tables and a leaf of the third (R23, R25). -/
def tLeaf : State :=
  { tTables with mem := (((tTables.mem.writeNat 0x8000 8 0x9001).writeNat 0x9000 8 0xA001).writeNat 0xA000 8 0xB001).writeNat 0xB000 8 0x47 }

/-- A walk that can start, one that ends in a refusal, one that ends in a leaf; an invalidation of a page; a register's deferred value; GO. -/
theorem witness_WalksAndInvalidation :
    ([tWalk false].filter fun x => x.die = 0 && x.started).length < 64
    ∧ ([{ tWalk false with die := 8 }].filter fun x => x.die = 8 && x.started).length < 16 ∧ (tWalk false).started = false
    ∧ ([tWalk true].filter fun x => x.die = 0 && x.started)[0]? = some (tWalk true)
    ∧ tIs (tTables.part? 0) (fun p =>
        let s1 : State := { tTables with walks := tTables.walks.erase (tWalk true) }
        (match (s1.walk (some 0) p 0 0x8000 5).1 with | .refused .. => true | _ => false)
          && p.xltGo && p.ctxSizeNext == some 3) = true
    ∧ tIs (tLeaf.part? 0) (fun p => match ({ tLeaf with walks := [] }.walk (some 0) p 0 0x8000 5).1 with
        | .leaf .. => true | _ => false) = true
    ∧ tTables.partQuiet 0 = true ∧ (∀ c ∈ tTables.agenda, invalidates 0 c = false)
    ∧ (gotAll tTables (tTables.quadsOf 0) (fun (u : State) q => u.releaseQuad q)).2 = true ∧ tTables.runnerBusy 0 = false
    ∧ tTables.wayMoved 0 0 = false
    ∧ { tTables with ways := [{ die := 0, slice := some 0, owners := [], moved := some 0 }] }.wayMoved 0 0 = true := by
  decide +kernel

/-- The module of attachment 0 with a queue object of 2^0 entries at address 0, and KRSPBASE enabled on its heads. -/
def tKw (tail : Nat) : State :=
  { tM with
    pod := { tM.pod with atts := [{ tAtt with krspBase := List.replicate 4 1 }, tAtt, tAtt] },
    mem := (tM.mem.writeNat (moduleKey 0 0) 8 0x1000).writeNat (moduleKey 0 24) 8 tail }

/-- A cell of MASK 0x0011 and one FP32 element at address 0x400 of module 0, whose GEN is 5. -/
def tCell (xs : List (Nat × List Byte)) : State :=
  let h := 0 + 1 * 2 ^ 8 + 0x0011 * 2 ^ 16 + 5 * 2 ^ 112
  let s := tKw 0
  { s with
    mem := s.mem.writeNat (moduleKey 0 0x400) 16 h,
    rounds := if xs = [] then [] else [{ module := 0, ld := 0, cell := 0x400, gen := 5, broken := false, op := 0, fmt := 0, nelem := 1,
                                         mask := 0x11, arrived := xs }] }

/-- A request dropped by a lost head; a queue empty and full; an ATOM of CAS; a cell's first, last, second and foreign
contribution. -/
theorem witness_ModuleServices :
    { tKw 0 with lostHeads := [(0, 0)] }.kweutDropped tK = true ∧ (tKw 0).kweutDropped tK = false
    ∧ (tKw 0).kweutWaits tK 64 true = false ∧ (tKw 0).kweutObject tK 64 64 = none ∧ ((tKw 0).peekNat (moduleKey 0 8) 1) % 32 ≤ 20
    ∧ ((tKw 0).peekNat (moduleKey 0 0) 8) % 64 = 0 ∧ (0 + 2 ^ 64 - 0) % 2 ^ 64 ≠ 1 ∧ (1 + 2 ^ 64 - 0) % 2 ^ 64 = 1
    ∧ (tKw 1).kweutCheck tK 0x1000 64 = none ∧ (List.replicate 64 (0 : Byte)).length = 64
    ∧ (tKw 0).kweutObject { tK with subop := 133, addr := 8 } 8 8 = none ∧ 133 % 8 ≤ 5
    ∧ (tKw 0).kweutOp 0 0 95 = none ∧ ({ tKw 0 with waves := [{ placedWave with pend := [{ tOp with kind := .service, ktag := 95 }] }] }.kweutOp 0 0 95).isSome = true
    ∧ (tCell []).kweutObject { tK with addr := 0x400 } 128 384 = none ∧ ((tCell []).newRound 0 0 0x400).ok (tCell []).pod.q = true
    ∧ ((tCell []).newRound 0 0 0x400).mask.testBit 0 = true ∧ ((tCell []).newRound 0 0 0x400).mask.testBit 8 = false
    ∧ ((tCell []).newRound 0 0 0x400).gen = 5 ∧ tIs ((tCell [(4, [0, 0, 0, 0])]).roundAt 0 0x400) (fun x => x.arrived != []) = true
    ∧ ({ (tCell []).newRound 0 0 0x400 with arrived := insertArrival (0, [0, 0, 0, 0]) [(4, [0, 0, 0, 0])] } : Round).arrivedMask = 0x11
    ∧ ({ (tCell []).newRound 0 0 0x400 with arrived := [(0, [0, 0, 0, 0])] } : Round).arrivedMask ≠ 0x11 ∧ tM.rounds = [] := by decide +kernel

/-- The last port of attachment 2 and one of four; Viral; a timeout's first cycle; the attachment down. -/
theorem witness_AttachmentsComeAndGo :
    tM.pod.atts[2]? = some tAtt ∧ portsPerAttachment tM.pod.q = 4 ∧ 11 / 4 = 2 ∧ tM.pod.attUp 2 = true
    ∧ ({ tM.pod with atts := tM.pod.atts.set 2 { tAtt with portsUp := [true, true, true, false] } } : Pod).attUp 2 = true
    ∧ ({ tM.pod with atts := tM.pod.atts.set 2 { tAtt with portsUp := List.replicate 4 false } } : Pod).attUp 2 = false
    ∧ tAtt.verified = true
    ∧ { tM with cyc := BitVec.ofNat 64 (2 ^ 22), memReqs := [tReq .own 0] }.moduleTimedOut 0 = true
    ∧ tM.pod.moduleOf 2 = some 6 := by decide +kernel

/-! ### The Runner, the Ladle and the engine -/

/-- A grant of page 0 of ASID 0 with every right to peer 1. -/
def tGrant (revoked : Bool) : Grant :=
  { idx := 0, asid := 0, base := 0, len := 4096, rights := 7, peers := 2, revoked := revoked, revoker := none }

/-- The pod's state with grants, a notification queue of one record with `tail` records, and page 0 in the Runner's TLB. -/
def tRx (gs : List Grant) (tail : Nat) : State :=
  let s := tNq tail
  { s with tlb := { placedEntry with place := .runner } :: s.tlb,
           parts := s.parts.map fun p => { p with grants := gs } }

/-- What a request comes to at the receiver. -/
def tServed : Served → Nat
  | .done _ => 0
  | .resp .. => 1
  | .queued _ => 2
  | .busy _ => 3
  | .refused .. => 4
  | .walk _ => 5

/-- A context of the receiver whose stream has been changed. -/
def tRxCtx (f : Stream → Stream) : State :=
  let s := tRx [tGrant false] 0
  s.modRunner fun r => { r with ctxs := [{ Rctx.new (s.rxCtx tP) 0 with streams := [f Stream.zero, Stream.zero, Stream.zero, Stream.zero] }] }

/-- A request for another package; each way of being served; a frozen stream; a number ahead of and behind the expected one. -/
theorem witness_RequestsAtTheReceiver :
    (6 : Nat) ≠ tM.pod.self ∧ tP.dst = tM.pod.self
    ∧ (let s := (tRx [tGrant false] 0).heard 1
       (match s.openCtx (s.rxCtx tP) with
        | .ready s1 => !(s1.rxStream tP).frozen && (s1.rxStream tP).inHand == none && !s1.unperformed tP
            && (s1.rxStream tP).expected == 0 && tIs (s1.ctx? (s1.rxCtx tP)) (fun c => !c.spilled)
        | _ => false) = true)
    ∧ [tServed (performRwri (tRx [tGrant false] 0) { tP with type := .rwri, data := [1, 2, 3, 4] }), tServed (performRrd (tRx [tGrant false] 0) tP),
       tServed (performRatom (tRx [tGrant false] 0) { tP with type := .ratom }),
       tServed (performRwri (tRx [tGrant false] 1) { tP with type := .rwri, data := [1, 2, 3, 4] }),
       tServed (performRrd (tRx [tGrant true] 0) tP), tServed (performRrd (tRx [] 0) tP),
       tServed (performRrd (tRx [tGrant false] 0) { tP with keyAsid := 1 }),
       tServed (performRrd { tRx [tGrant false] 0 with tlb := [] } tP)] = [0, 1, 2, 3, 4, 4, 4, 5]
    ∧ (let q := { tP with system := true }
       let s := { tRx [] 0 with perms := [{ key := moduleLine 0 0, perm := .exclusive }] }
       tServed (performRelayedRead s q) = 1 ∧ tServed (performRelayedWrite s { q with data := [1, 2, 3, 4] }) = 0
       ∧ tServed (performRelayedAtomic (tRx [] 0) q) = 2)
    ∧ ((tRxCtx fun t => { t with frozen := true }).rxStream tP).frozen = true
    ∧ ((tRxCtx fun t => { t with inHand := some tP }).rxStream tP).inHand = some tP
    ∧ (tRxCtx fun t => { t with inHand := some { tP with seq := 65535 } }).unperformed tP = true
    ∧ seqBefore 0 1 = true ∧ seqBefore 0 0x7FFF = true ∧ seqBefore 0 65535 = false
    ∧ (((tRxCtx fun t => { t with responses := [{ tP with seq := 65535 }] }).rxStream tP).responses.find? fun x =>
        x.seq = 65535).isSome = true
    ∧ ({ tGrant false with revoked := true }).revoked = true ∧ tM.pod.attOf 0 = some 0 ∧ tM.pod.attUp 0 = true
    ∧ ({ tM.pod with atts := [{ tAtt with verified := false }, tAtt, tAtt] } : Pod).attUp 0 = false := by decide +kernel

/-- A sender's context with a request of each kind unacknowledged. -/
def tTx (x : PacketType) : State :=
  let u : Unacked := { packet := { tP with type := x, src := 0, dst := 1 }, seq := 1, wid := 0, op := 1, lane := 0 }
  tM.modRunner fun r => { r with ctxs := [{ Rctx.new tX 0 with
    streams := [{ Stream.zero with unacked := [u], busyAt := some 0 }, Stream.zero, Stream.zero, Stream.zero] }] }

/-- A context of an answer; a busy time 512 cycles ago; an acknowledgement owed; a spilled context; a timeout; a packet to
pass on. -/
theorem witness_AnswersAndTimersAtTheSource :
    tP.dst = tM.pod.self ∧ ((((tTx .rrd).heard 1).senderCtx tP).isSome = true)
    ∧ tIs (((tTx .rrd).heard 1).senderCtx tP) (fun c =>
        (((c.stream 0).unacked.find? fun x => x.packet.seq = 0).isSome
          && ((c.stream 0).unacked.find? fun x => x.packet.seq = 0 && !(x.packet.type = .rwri || x.packet.type = .relayedWrite)).isSome)) = true
    ∧ tIs ((tTx .rrd).ctx? tX) (fun c => (c.stream 0).busyAt == some 0) = true ∧ 0 + 512 ≤ 512
    ∧ (Stream.zero.ackDue = 0 ∧ ({ Stream.zero with ackDue := 1 } : Stream).ackDue ≠ 0) ∧ tM.atomQ = []
    ∧ (∀ x ∈ (tTx .rrd).runner.ctxs, ∀ y ∈ x.streams, y.inHand = none)
    ∧ ((tTx .rrd).runner.ctxs.filter fun x => !x.spilled).length < ctxCacheSize
    ∧ { tTx .rrd with cyc := BitVec.ofNat 64 (2 ^ 25) }.relayTimedOut 1 = true
    ∧ ({ tP with forwarded := true, dst := 3 } : Packet).forwarded = true ∧ (3 : Nat) ≠ tM.pod.self
    ∧ (tM.routeTo 3).isSome = true ∧ { tM with pod := Pod.reset }.routeTo 3 = none := by decide +kernel

/-- A template of a copy in the scratchpad: `x` bytes, `y` rows, from SRCBASE to DSTBASE. -/
def tTmpl (x y src dst : Nat) : BitVec 512 := BitVec.ofNat 512 (src * 2 ^ 448 + dst * 2 ^ 384 + x * 2 ^ 240 + y * 2 ^ 224 + 2 ^ 208 + 3)

/-- A channel of die 0 with that template at index 0 and a doorbell for it, without a barrier. -/
def tLadle (t : BitVec 512) (bad : Bool) : State :=
  { tQ with chans := [{ die := 0, ch := 15, tmpl := t :: List.replicate 31 0, lastErr := 1,
                        doors := [{ seq := 1, wid := 0, op := 1, desc := 0x200, va := 0, malformed := bad, pages := [], refusals := [],
                                    presented := none }], copies := [] }] }

/-- What the sectors of the copy come to: sources and destinations, the first of each that is refused. -/
def tSectors (t : BitVec 512) : Bool × Bool × Bool × Bool :=
  let s := tLadle t false
  let c := s.chan 0 15
  let sh := copyShape t.toNat 0x200
  match s.part? 0 with
  | none => (false, false, false, false)
  | some p =>
    let d := c.doors.headD { seq := 0, wid := 0, op := 0, desc := 0, va := 0, malformed := true, pages := [], refusals := [],
                             presented := none }
    let x := sh.sources.map (s.sectorAt c d placedWave p sh.srcQsp 64 .read)
    let y := sh.dests.map (s.sectorAt c d placedWave p sh.dstQsp 64 .write)
    (sh.bad, (missedPages (x ++ y)).isEmpty && (x ++ y).all fun g => g ≠ .badTier, (firstRefused x).isNone, (firstRefused y).isNone)

/-- The doorbell of a copy within the scratchpad with a barrier at 0x40, whose page the channel has or has to walk; `x` is what stands
there. -/
def tDoor (page : Bool) : Doorbell :=
  { seq := 1, wid := 0, op := 1, desc := 4 * 2 ^ 11, va := 0, malformed := false, pages := if page then [placedEntry] else [],
    refusals := [], presented := none }

/-- The state with the barrier's bytes. -/
def tLadleB (x : Nat) : State := { tLadle (tTmpl 64 1 0 0x1FFC0) false with mem := tQ.mem.writeNat 0x40 16 x }

/-- The barrier of the copy. -/
def tLadleBar (x : Nat) (page : Bool) : Option (BarrierRef × SectorGot) :=
  (tLadleB x).copyBarrier ((tLadleB x).chan 0 15) (tDoor page) placedWave placedPart

/-- The copy has room and its barrier's turn has come. -/
def tLadleTurn : Bool :=
  let s := tLadleB (0x8000 * 2 ^ 96)
  match tLadleBar (0x8000 * 2 ^ 96) true with
  | some b =>
    b.1.qsp == false && b.1.key == 0x40 && (s.barrierInvalid 0 b).isNone
      && (s.chanBarrierReady 0 (s.chanRequester 0 15 1) b.1).2 && tbSectors (s.peekNat b.1.key 16) + 1 ≤ 2 ^ 24 - 1
  | none => false

/-- A malformed doorbell, an invalid template, a refused source, a refused destination, a copy that is accepted; a page to be walked;
a barrier that is owned and one that is not; a copy with a sector to land, of HBM; LASTERR cleared by its own bits. -/
theorem witness_LadleChannels :
    (((tLadle 0 true).chan 0 15).doors.map Doorbell.malformed = [true]) ∧ ((tLadle 0 true).wave? 1 0).isSome = true
    ∧ (tSectors (tTmpl 0 1 0 0)).1 = true ∧ tSectors (tTmpl 64 1 0x20000 0) = (false, true, false, true)
    ∧ tSectors (tTmpl 64 1 0 0x20000) = (false, true, true, false) ∧ tSectors (tTmpl 128 2 0 0x1FF80) = (false, true, true, true)
    ∧ (copyShape (tTmpl 64 32768 0 0).toNat 0x200).count = 32768 ∧ 32768 < (copyShape (tTmpl 64 32769 0 0).toNat 0x200).count
    ∧ coreDie placedWave.core = 0
    ∧ (tLadle 0 true).copyBarrier ((tLadle 0 true).chan 0 15) { tDoor true with desc := 0x200 } placedWave placedPart = none
    ∧ missedPages ((tLadleBar 0 false).map Prod.snd).toList = [0] ∧ missedPages ((tLadleBar 0 true).map Prod.snd).toList = []
    ∧ (((tLadleBar 0 true).bind ((tLadleB 0).barrierInvalid 0)).isSome = true) ∧ tLadleTurn = true
    ∧ (0 < 64 ∧ (((tLadle 0 true).chan 0 15).copies.length = 0))
    ∧ (tM.chanBarrierReady 0 (tM.chanRequester 0 15 1) { key := 0x40, va := 0x40, qsp := false }).2 = true ∧ tCopy.lands = []
    ∧ (tM.sourceFree (tM.chan 0 15) (lineKey 0x1000) && !isQspKey 0x1000 && !tM.keyDown 0x1000 && !tM.beyondModule 0 0x1000 64
        && (tM.permitted (homeDie tM.pod (lineKey 0x1000)) 0 (lineKey 0x1000) false).2) = true
    ∧ (3 : Nat).testBit 0 = true ∧ (1 : Nat).testBit 1 = false := by decide +kernel

/-- A table entry of an operation. -/
def tEnt (op : EngOp) : EngEntry :=
  { seq := 1, wid := 0, acc := 0, op := op, d1 := tileMask 0x100084003FBF800000080000, d2 := 0, word := 0, lit := 0, remaining := 1,
    nextStep := 0, sat := false, regs := [], prio := 0, age := 0, lastGrant := 0, granted := false, id := 0 }

/-- An engine of quad 0 with one entry, granted or not. -/
def tEng (op : EngOp) (granted : Bool) : Engine :=
  { quad := 0, entries := [{ tEnt op with granted := granted }], running := granted, stepsRun := 0,
    nextId := 1, segs := [], since := 0, got := [] }

/-- A grant; a pass that ends well and one that ends in a late error (a drain of a poisoned accumulator); a counter that wraps. -/
theorem witness_PassesAndCounterAdditions :
    (tEng .mzero false).running = false
    ∧ tIs (Engine.choose { tEng .mzero false with entries := (tEng .mzero false).entries.filter fun y => !tE.entryStopped y } tE.now)
        (fun _ => true) = true
    ∧ ((tEng .mzero true).entries.find? EngEntry.granted).isSome = true ∧ (tMe tE).accs[0]? = some tAcc
    ∧ ((tEng .mzero true).segs = [] ∧ (tEng .mzero true).got.findSome? SegData.bad = none)
    ∧ ([({ key := 0, col := false, data := [], bad := some 5 } : SegData)].findSome? SegData.bad) = some 5
    ∧ (match passOf (gotMemory []) 0 0 (tEnt .mzero) tAcc, passOf (gotMemory []) 0 0 (tEnt .mdrain) { tAcc with poison := true } with
        | .done .., .late .. => true | _, _ => false) = true
    ∧ tIs (tS.part? 0) (fun p => (p.counters[15]?).isSome && p.events == []) = true ∧ 2 ^ 48 ≤ tCounter.value + 2 ∧ tCounter.value + 1 < 2 ^ 48
    ∧ tCounter.ie = true ∧ tCounter.ovf = false
    ∧ ([({ part := 0, mask := 8, n := 5, since := 0 } : Charge)].any fun c => c.part = 0 && c.mask = 8 && c.n = 5) = true := by decide +kernel

/-! ### Shapes and phases, the host, start and the commands -/

/-- The answered pieces of a table: a header of two buckets of one dimension, their ranges 5 to 9 and 1 to 2, and the second's counts. -/
def tPieces : List TableRead :=
  [{ key := moduleKey 1 0, size := 4, val := 2 + 2 ^ 16, bad := 0 },
   { key := moduleKey 1 128, size := 64, val := 5 + 9 * 2 ^ 32, bad := 0 }, { key := moduleKey 1 192, size := 20, val := 0, bad := 0 },
   { key := moduleKey 1 256, size := 64, val := 1 + 2 * 2 ^ 32, bad := 0 }, { key := moduleKey 1 320, size := 20, val := 0, bad := 0 },
   { key := moduleKey 1 320, size := 64, val := 0, bad := 0 }]

/-- A wave of bucket 1 whose unit has read those pieces, or none. -/
def tTw (pieces : List TableRead) : Wave := { placedWave with bucket := 1, unitT := { placedWave.unitT with table := pieces } }

/-- A dispatch table at page 1, in the relay window of module 1. -/
def tPh (pieces : List TableRead) : State :=
  { tM with
    waves := [tTw pieces], launches := [{ placedLaunch with dtab := 0x1000 }],
    tlb := [placedEntry, { placedEntry with page := 1, frame := Config.relayBase + Config.attachWindow, tier := .relay }] }

/-- The same table in HBM. -/
def tPhHbm : State :=
  { tPh [] with
    tlb := [placedEntry, { placedEntry with page := 1, frame := 0x1000 }],
    mem := ((tS.mem.writeNat 0x1000 4 (2 + 2 ^ 16)).writeNat 0x1080 8 (5 + 9 * 2 ^ 32)).writeNat 0x1100 8 (1 + 2 * 2 ^ 32) }

/-- What a read of the table gives, when it leaves the state as it was. -/
def tData (s : State) (w : Wave) (va n : Nat) : Option Nat :=
  match s.readData w tI w.unitT va n false with
  | .ok t v none _ _ => if t = s then some v else none
  | _ => none

/-- The phase words find the upper half of bucket 1 and write it back: by a relayed write of their own, or through the atomic unit
of its line's L2. -/
def tPhases (s : State) (w : Wave) : Bool :=
  match s.readData w tI w.unitT 0x1000 4 false with
  | .ok s1 _ none _ _ =>
    match s1.readData (s1.again w) tI w.unitT 0x1140 64 false with
    | .ok s2 e none key x =>
      let y := s2.again w
      !w.overlaps key 64 true && key % 64 == 0 && (
        if x.tier = .relay then decide (y.outst < 63) && !s2.relayStalls y
          [{ lane := 0, key := key, va := 0x1140, size := 64, act := .write (phaseselEntry e 0 % 2 ^ 512), route := .runner, age := s2.now,
             noAlloc := false, na := false, nt := false, col := false, done := false, val := 0, poison := false }]
        else x.tier ≠ .aperture && (s2.unitWrite 0 0 key (natToBytes 64 (phaseselEntry e 0)) false).2)
    | _ => false
  | _ => false

/-- A shape that the second bucket holds and the first does not, and one that none holds; a phase whose bucket is in the table, in
another package's module and in HBM, and one whose bucket is not. -/
theorem witness_ShapesAndPhases :
    (let x := (tPh tPieces, tTw tPieces)
     x.1.Latched x.2 tI ∧ x.1.dtab x.2 = 0x1000 ∧ x.1.feature 7 = true
      ∧ tData x.1 x.2 0x1000 4 = some (2 + 2 ^ 16) ∧ tData x.1 x.2 0x1080 84 = some (5 + 9 * 2 ^ 32)
      ∧ tData x.1 x.2 0x1100 84 = some (1 + 2 * 2 ^ 32) ∧ tData x.1 x.2 0x1140 64 = some 0 ∧ tPhases x.1 x.2 = true)
    ∧ tPhHbm.Latched (tTw []) tI ∧ tPhases tPhHbm (tTw []) = true
    ∧ (4 : BitVec 6).toNat ≤ 60 ∧ placedWave.sPoison 4 = false ∧ (headerBuckets (2 + 2 ^ 16) = 2 ∧ headerBuckets 257 = 0)
    ∧ bucketMatches (5 + 9 * 2 ^ 32) 1 [2, 0, 0, 0] = false ∧ bucketMatches (1 + 2 * 2 ^ 32) 1 [2, 0, 0, 0] = true
    ∧ bucketMatches (1 + 2 * 2 ^ 32) 1 [3, 0, 0, 0] = false ∧ bucketMatches (5 + 9 * 2 ^ 32) 1 [9, 0, 0, 0] = true
    ∧ (0xFFFFFFFF : Word).toNat ≠ 1 ∧ (tTw []).bucket.toNat < (2 + 2 ^ 16) % 2 ^ 16 ∧ (2 + 2 ^ 16) % 2 ^ 16 ≤ (2 : Word).toNat := by
  unfold State.Latched; decide +kernel

/-- A table in a relay window of which nothing has come. -/
theorem witness_RelayedTable :
    (tPh []).Latched (tTw []) tI ∧ (tPh []).dtab (tTw []) ≠ 0 ∧ physPlace (Config.relayBase + Config.attachWindow) = .relay 1 0
    ∧ (match (tPh []).waveXlate (tTw []) (tTw []).unitT 0x1000 4 .read with
        | .ok pa e => pa == Config.relayBase + Config.attachWindow && e.tier == .relay | _ => false) = true
    ∧ (tTw []).overlaps (moduleKey 1 0) 4 false = false ∧ (tTw []).unitT.table = [] ∧ (tTw []).outst < 63
    ∧ (tPh []).relayStalls (tTw [])
        [{ lane := 0, key := moduleKey 1 0, va := 0x1000, size := 4, act := .read, route := .runner, age := (tPh []).now, noAlloc := false,
           na := false, nt := false, col := false, done := false, val := 0, poison := false }] = false := by
  unfold State.Latched; decide +kernel

/-- The partition of the pod's state. -/
def tMp : Part := tM.parts.headD placedPart

/-- The first byte of logical device 0. -/
theorem host_place_first (s : State) (k : AccKind) (h1 : s.physRefusal tMp 0 1 k = none) (h2 : keyOfPa s.pod 0 = some 0) :
    s.hostPlace tMp 0 (Config.hdmBase 0) 1 k = .ok [(0, 1)] := by
  unfold State.hostPlace
  rw [if_neg (Nat.lt_irrefl _), Nat.sub_self, show hdmPieces tMp.hdmRanges 0 1 = some [(0, 1)] by decide +kernel]
  simp only [State.piecePlace, List.mapM_cons, List.mapM_nil, h1, h2, pure_bind]
  rfl

/-- One byte is one transfer. -/
theorem transfers_one (a : Nat) : transfers a 1 = [(a, 1)] := by
  have h : (a % 64 + 1 + 63) / 64 = 1 := by omega
  unfold transfers
  rw [h]
  simp only [List.range_succ, List.range_zero, List.map_cons, List.map_nil, List.nil_append, Nat.mul_zero, Nat.add_zero]
  congr 1
  simp only [Prod.mk.injEq]
  omega

/-- A read of the first byte of logical device 0 can be answered, and a write of it performs. -/
theorem host_first_byte :
    tM.hostReach tMp 0 .read (transfers (Config.hdmBase 0) 1) = ((tM.linesReached 0 0 1).1, true)
    ∧ ((tM.linesReached 0 0 1).1.hostReadAll tMp 0 0 (transfers (Config.hdmBase 0) 1)).2 = some ([0], 0)
    ∧ (tM.hostWriteOne tMp 0 (Config.hdmBase 0) (([7].drop (Config.hdmBase 0 - Config.hdmBase 0)).take 1)).2 = true := by
  refine ⟨?_, ?_, ?_⟩
  · simp only [State.hostReach, transfers_one, gotAll, List.foldl_cons, List.foldl_nil, Bool.true_and]
    rw [host_place_first tM .read (by decide +kernel) (by decide +kernel)]
    exact Prod.ext rfl (by decide +kernel)
  · simp only [transfers_one, State.hostReadAll, State.hostReadOne]
    rw [host_place_first _ .read (by decide +kernel) (by decide +kernel)]
    decide +kernel
  · simp only [State.hostWriteOne, Nat.sub_self]
    rw [show (([(7 : Byte)].drop 0).take 1).length = 1 from rfl, host_place_first tM .write (by decide +kernel) (by decide +kernel)]
    decide +kernel

/-- The host's state: a partition that posts events and does not. -/
def tHost : State := { tM with parts := tM.parts.map fun p => { p with events := [{ type := 1, seq := 1, cyc := 0, body := [] }] } }

/-- A bound device and an unbound one; its first byte read and written; registers aligned and not, open and closed; an event with
room for it. -/
theorem witness_HostAccesses :
    tM.ldPart 0 = some tMp ∧ tM.ldPart 1 = none ∧ 4 % 8 ≠ 0 ∧ 8 % 8 = 0
    ∧ (tM.part? 0 = some tMp ∧ tMp.ld = some 0 ∧ tM.ldBound 0 = true ∧ tM.skolisUp = true)
    ∧ tM.mailboxOpen 0 = true ∧ tM.mailboxOpen 16 = true ∧ tM.mailboxOpen 1 = false
    ∧ tIs (tHost.part? 0) (fun p => tHost.postParked p == tHost && p.events.length == 1 && p.hqBase == some 0
        && ringUsed (tHost.mbox p.mbx).hqTail (tHost.mbox p.mbx).hqHead == 0) = true
    ∧ (ringUsed 256 0 = 256 ∧ ringUsed 0 1 = 2 ^ 32 - 1) := by decide +kernel

/-- The start at a stage. -/
def tStage (n failing : Nat) : State := { tS with dev := { tS.dev with stage := n, failing := failing, committed := false } }

/-- Each stage without a failure; an attachment whose capacities are known. -/
theorem witness_StartAndFabricManager :
    ([0, 1, 2].all fun n => (tStage n 0).skolisUp && (tStage n 0).dev.failing = 0 && (tStage n 0).dev.stage = n) = true
    ∧ State.reset.mem.wf = true ∧ tM.skolisUp = true ∧ tM.pod.atts.length ≤ 8 ∧ tM.pod.atts[2]? = some tAtt := by decide +kernel

/-- A package without Skolis; a sender with the right and one without; a command before its stage and at it; a partition in
mid-switch; a register of a stage that has failed; features not committed, committed, offered and not. -/
theorem witness_DeviceCommands :
    State.reset.skolisUp = false ∧ tS.skolisUp = true ∧ tS.mayAdmin tC.mbx = true ∧ tS.mayAdmin tBadC.mbx = false
    ∧ (tStage 2 0).dev.stage < 3 ∧ tS.acts tC false 0 ∧ tS.acts tC true 4 ∧ tM.actsOn tC true tMp ∧ tM.actsOn tC false tMp
    ∧ { tM with switches := [tSwitch none] }.midSwitch tMp.num = true ∧ tM.cmdPart true tC = some tMp
    ∧ (tStage 2 3).dev.failing = 3 ∧ (tStage 3 0).dev.committed = false ∧ tS.dev.committed = true
    ∧ (BitVec.ofNat 64 1 &&& ~~~(tStage 3 0).dev.offered) = 0 ∧ (BitVec.ofNat 64 256 &&& ~~~(tStage 3 0).dev.offered) ≠ 0 := by
  unfold State.actsOn State.acts; decide +kernel

/-- Fifteen more partitions of one set, and a package full of ASIDs. -/
def tParts (n asids : Nat) : State :=
  { tM with parts := (List.range n).map fun k => { tMp with num := k, asidCount := asids, ld := if k = 0 then some 0 else none },
            sets := [{ num := 0, slices := 1, members := List.range n, holder := some 0, since := 0 }] }

/-- Slices in range, partly overlapping and not; a device in use and not; a number free; ASIDs that fit and do not; a partition
that is idle once its waves are killed; bounds of each setting. -/
theorem witness_PartitionCommands :
    tM.createOk 1 1 16 16 = true ∧ tM.createOk 3 0xFF 16384 32 = true ∧ tM.createOk 1 16 1 16 = false ∧ tM.createOk 1 0 1 15 = false
    ∧ tM.partlyOverlaps 3 = true ∧ tM.partlyOverlaps 1 = false ∧ tM.partlyOverlaps 2 = false
    ∧ (0 : Nat) ≠ 0xFF ∧ tMp.ld = some 0 ∧ tM.parts.all (fun p => p.ld ≠ some 1) = true
    ∧ tM.part? 1 = none ∧ tM.part? 0 ≠ none ∧ tM.asidsGranted = 1 ∧ (16384 < tM.asidsGranted + 16384)
    ∧ (tParts 15 1).sets.all (fun g => g.members.length < 16) = true ∧ (tParts 15 1).part? 15 = none
    ∧ (tM.killWaves 0).partIdle 0 = true
    ∧ (gotAll (tM.killWaves 0) ((tM.killWaves 0).quadsOf 0) fun (t : State) q => t.acquireQuad q).2 = true
    ∧ tM.otherFloors 0 0 + 16 ≤ 16 ∧ tM.actsOn tC true tMp := by
  unfold State.actsOn State.acts; decide +kernel

/-- A launch record in HBM: `n` waves of 64 registers and two scratchpad banks on slice 0; and another launch's window of `m` banks. -/
def tLaunchRec (n m : Nat) : State :=
  { tM with mem := tM.mem.writeNat 0x400 192 (2 ^ 416 + n * 2 ^ 400 + 64 * 2 ^ 373 + 2 * 2 ^ 363),
            launches := [{ placedLaunch with qsp := m, windows := [(0, 0)] }] }

/-- The record's checks: granted, its fields in range, and whether its waves find places. -/
def tLaunches (s : State) (pa : Nat) : Bool × Bool × Bool :=
  let r := LaunchRec.ofNat (s.peekNat pa 192)
  (tMp.granted pa 192, r.ok tMp, (s.startLaunch tMp r).isSome)

/-- A wave that waits for the answer of a fault with tag 9, and a frozen stream with tag 8. -/
def tFault : State :=
  { tRxCtx (fun x => { x with frozen := true, faultTag := 8, faultPacket := some tP }) with
    waves := [tAsleep (.fault 9 0x1000 0 6 .read true 0 0 false)] }

/-- A partition with grants. -/
def tGrants (gs : List Grant) : Part := { tMp with grants := gs }

/-- The first `n` grants made. -/
def tFull (n : Nat) : Part := tGrants ((List.range n).map fun i => { tGrant false with idx := i })

/-- Each of them is in use. -/
theorem grants_used (n i : Nat) (hi : i < n) : ((tFull n).grants.any fun g => g.held && g.idx = i) = true :=
  List.any_eq_true.mpr ⟨{ tGrant false with idx := i }, List.mem_map.mpr ⟨i, List.mem_range.mpr hi, rfl⟩, decide_eq_true rfl⟩

/-- A partition whose every grant index is in use has none free. -/
theorem witness_no_free_grant : (tFull 1024).freeGrant = none := by
  unfold Part.freeGrant
  rw [List.find?_eq_none]
  intro i hi
  rw [grants_used 1024 i (List.mem_range.mp hi)]
  decide

/-- A launch that is outside the grants, out of range, without room, and with room; a switch that may start and one that may not;
a fault of a wave, one of a stream, and none; rings and stacks; the bounds of a grant, and a partition full of them; a grant to be
revoked, one that is revoked, and one that lets something through still. -/
theorem witness_RunningCommands :
    tM.actsOn tC false tMp ∧ keyOfPa tM.pod 0x400 = some 0x400
    ∧ tLaunches (tLaunchRec 1 2) 0x400 = (true, true, true) ∧ tLaunches (tLaunchRec 1 32) 0x400 = (true, true, false)
    ∧ tLaunches (tLaunchRec 0 2) 0x400 = (true, false, true) ∧ tMp.granted 0x100000 192 = false ∧ tM.launchQuads tMp 1 ≠ []
    ∧ tM.acts tC true 4 ∧ tM.midSwitch 0 = false ∧ tM.midSwitch 0xFF = false ∧ (tM.setOf 0).isSome = true
    ∧ tM.switchRefusal tMp 0xFF 1 0x10000 0 = none ∧ tM.switchRefusal tMp 0xFF 2 0x10000 0 = some .state
    ∧ tFault.faultWave 0 7 = none ∧ tFault.faultStream 0 7 = none ∧ (tFault.faultWave 0 9).isSome = true
    ∧ tFault.faultWave 0 8 = none ∧ (tFault.faultStream 0 8).isSome = true
    ∧ tM.acts tC false 2 ∧ (tM.links[7]?).isSome = true ∧ tM.feature 0 = true ∧ { tM with dev := Dev.reset }.feature 0 = false
    ∧ 0 < tMp.asidCount ∧ 0x1000 % 4096 = 0 ∧ 0xFFFFFFFFFFFFF000 + 0x1000 ≤ 2 ^ 64 ∧ tMp.freeGrant = some 0
    ∧ (tGrants [tGrant true]).grants.all (fun g => g.idx ≠ 0 || g.revoked) = true
    ∧ (tGrants [tGrant false]).grants.any (fun g => g.idx = 0 && !g.revoked) = true
    ∧ (let g : Grant := { tGrant true with revoker := some tC }
       ((tGrants [g]).grants.find? fun x => x.idx = 0 && x.revoked && x.revoker.isSome) = some g ∧ tM.grantBusy 0 g = false) := by
  unfold State.actsOn State.acts; decide +kernel

/-- An open debug session. -/
def tDbg : State := { tM with parts := tM.parts.map fun p => { p with debug := true, stoppedCores := [1] } }

/-- The first `n` gates in use. -/
def tGates (n : Nat) : State := { tM with gates := (List.range n).map fun i => { tGate with index := i } }

/-- Each of them is in use. -/
theorem gates_used (n i : Nat) (hi : i < n) : (((tGates n).gateAt i).map Gate.used).getD false = true := by
  cases hg : (tGates n).gateAt i with
  | none =>
    have := List.find?_eq_none.mp hg { tGate with index := i } (List.mem_map.mpr ⟨i, List.mem_range.mpr hi, rfl⟩)
    simp at this
  | some g =>
    obtain ⟨k, -, rfl⟩ := List.mem_map.mp (List.mem_of_find?_eq_some hg)
    rfl

/-- An access list in order and one that is not; a gate free and none; a handle of no gate, of a live one and of a frozen one; an
object whose gate is free here and one whose gate is in use; the pod with an order and without; attachments up and down; a
debugged wave, a stopped core and one that runs. -/
theorem witness_GatePodAndDebugCommands :
    tM.acts tC true 4 ∧ tM.feature 4 = true ∧ { tM with dev := Dev.reset }.feature 4 = false
    ∧ aclOk 0x10 = false ∧ aclOk 0xEFEFEFEF = true ∧ tM.midSwitch 0 = false ∧ tM.midSwitch 0xFF = false ∧ tM.freeGate = some 0
    ∧ tM.gateOf 0x10000 = none ∧ (tG tGate).gateOf tGate.handle = some tGate ∧ tGate.state = .live
    ∧ (tG { tGate with state := .frozen }).gateOf tGate.handle = some { tGate with state := .frozen }
    ∧ (let s := tM.pokeNat (hostKey 0) 64 (5 * 2 ^ 32)
       let x := s.peekNat (hostKey 0) 64
       (5 * 2 ^ 16 + 4095) % 2 ^ 16 < 4096 ∧ x / 2 ^ 32 % 2 ^ 16 = (5 * 2 ^ 16 + 4095) / 2 ^ 16 ∧ x / 2 ^ 32 % 2 ^ 16 ≠ 0)
    ∧ (tG tGate).gateAt tGate.index = some tGate ∧ tGate.used = true ∧ tM.gateAt 4095 = none
    ∧ tS.acts tC true 3 ∧ tS.pod.order = none ∧ tM.acts tC true 3 ∧ tM.pod.order ≠ none ∧ tM.part? 0 ≠ none ∧ tM.part? 254 = none
    ∧ tM.actsOn tC true tMp ∧ tM.actsOn tC false tMp ∧ tMp.debug = false ∧ 0 ≠ tM.pod.self + 1
    ∧ tM.pod.atts[0]? = some tAtt ∧ tM.pod.attUp 0 = true
    ∧ ({ tM.pod with atts := [{ tAtt with verified := false }, tAtt, tAtt] } : Pod).attUp 0 = false
    ∧ tIs (tDbg.part? 0) (fun p => p.debug && decide (tDbg.physCore p 0 = some 0) && decide (tDbg.physCore p 1 = some 1)) = true
    ∧ tDbg.wave? 1 0 = some placedWave ∧ placedWave.part = 0 ∧ placedWave.status = .running ∧ placedWave.dbgStop = false
    ∧ { placedWave with dbgStop := true }.dbgStop = true := by
  unfold State.actsOn State.acts; decide +kernel

/-- No gate is free when every index is in use. -/
theorem witness_no_free_gate : (tGates 4096).freeGate = none := by
  unfold State.freeGate
  rw [List.find?_eq_none]
  intro i hi
  rw [gates_used 4096 i (List.mem_range.mp hi)]
  decide

/-- A word's whole step: fetched, decoded, performed; the next word's offset. -/
theorem test_step_runs_placed :
    (match step { State.reset.withFetchWord 32 0x04020A30 with dev := tS.dev } with
     | .next t => tIs (t.wave? 1 0) (fun w => w.unitT.pc == 4)
     | _ => false) = true := by decide +kernel

/-! ### Further clauses of the statements -/

/-- A word behind an acquire, one whose source a load still brings, the other word of a pair that has waited, and a TBWAIT and a
GATETAKE that sleep as the second word of a pair. -/
theorem witness_StepRuns_waits :
    ({ placedWave with pend := [{ tOp with acquire := true }] } : Wave).acquiring .t = true ∧ accesses (majorOf 0xD1448044) = true
    ∧ accesses (majorOf 0x04020A30) = false ∧ ({ placedWave with pend := [tOp] } : Wave).sourcesReady .t 0 (.uadd 4 5 6 0) = false
    ∧ ({ placedWave.unitT with skip := some 0 } : UnitSt).skip = some placedWave.unitT.pc
    ∧ (let w := tPut [(4, 0x40), (6, 15), (7, 9)] placedWave
       let i := { tI with idx := 1, second := true }
       let sleeps := fun (j : Instr) (s : State) => tIs (tDone j { (s.setWave w) with issue := some i }) fun t => t.sleepsInPair i
       sleeps (.tbwait 2 0 2 6) tB = true
       ∧ sleeps (.gatetake 5 8 7) ((tG tGate).setWave w) = false
       ∧ tIs (tDone (.gatetake 5 8 7) { ((tG tGate).setWave (tPut [(8, 0x30005)] w)) with issue := some i }) (fun t => t.sleepsInPair i)
          = true) := by decide +kernel

/-- An event runs with a wave's word latched and with none, in a state without waves too. -/
theorem witness_Events :
    encode .refresh = none ∧ encode .illegalInstruction = none ∧ State.reset.issue = none ∧ State.reset.waves = []
    ∧ tS.issue ≠ none := by decide +kernel

/-- Each form of a lane access: an atomic with poison and misaligned; an aperture's page refused to it; OUTST full; a release that has
to wait, and one that need not. -/
theorem witness_LaneAccessForms :
    tH.feature 6 = true ∧ (62 : Nat) + (if (1 : BitVec 1) = 1 then 2 else 1) * (if (3 : BitVec 3) = 7 then 2 else 1) ≤ 64
    ∧ (tHw.writeV 1 allLanes (laneNumbers.map fun _ => (0, true))).atomicLanes tHw.unitT 3 8 1 0 8 = .poison
    ∧ (tVec [(1, 4)] tHw).atomicLanes tHw.unitT 3 8 1 0 8 = .misaligned 4
    ∧ tH.placeLanes tHw tHw.unitT (fun t => t ≠ .hbm) .atomic 4 [{ lane := 0, addr := 0, a := 0, b := 0 }] = .deny 0 0x11 15
    ∧ (let w := { tHw with pend := (List.range 63).map fun i => { tOp with id := i } }
       (tH.setWave w).Latched w tI ∧ 63 ≤ w.outst ∧ w.sPairPoison 4 = false)
    ∧ (let w := { tHw with pend := [{ tOp with parts := tOp.parts.map fun p => { p with act := .write 1, done := false } }] }
       isRelease 2 = true ∧ ((tH.setWave w).releaseAt w .t .pkg).2 = false ∧ (tH.releaseAt tHw .t .pkg).2 = true) := by
  unfold State.Latched; decide +kernel

/-- A BRKP that leaves no lane; accesses that hold a JOIN up; the halt of the last lanes; an inner entry that closes with no lane. -/
theorem witness_Arrivals :
    placedWave.unitT.mask &&& ~~~(placedWave.unitT.mask &&& (placedWave.p 0).bits) = 0
    ∧ ({ placedWave with pend := [{ tOp with answered := false, parts := tOp.parts.map fun p => { p with done := false } }] } : Wave).joinReady .t
        = false ∧ placedWave.joinReady .t = true
    ∧ (let w := { placedWave with
          divergent := true, haltedLanes := allLanes,
          unitT := { placedWave.unitT with mask := 0, entries := [tEntry] },
          unitE := { placedWave.unitT with mask := 0, entries := [tEntry], atJoin := true } }
       w.unitT.open ≤ 1 ∧ (w.unit Arm.t.other).atJoin = true
       ∧ (w.unitT.mask ||| w.unitE.mask ||| tEntry.brk ||| tEntry.brk) &&& ~~~w.haltedLanes = 0)
    ∧ (let u := { placedWave.unitT with mask := 0, entries := [{ tEntry with inElse := true, trueLanes := 0 }, tEntry] }
       1 < u.open ∧ u.spilled = [] ∧ ((0 : Lanes) ||| u.mask ||| tEntry.brk) &&& ~~~placedWave.haltedLanes = 0
       ∧ tEntry.elseLanes &&& ~~~allLanes = 0) := by decide +kernel

/-- The other arm's fault answered REPLAY, and FATAL, while a handler runs; a Watchdog trap due, and none. -/
theorem witness_HandlerEnds :
    (let w := fun n => { tHw with
        handler := some { arm := .t, depth := 0, wait := .none, skip := none },
        unitE := { tHw.unitE with wait := .fault 9 0x1000 0 6 .read true n 4 false } }
     (w 1).unitE.wait = .fault 9 0x1000 0 6 .read true 1 4 false ∧ (w 2).unitE.wait = .fault 9 0x1000 0 6 .read true 2 4 false
     ∧ (w 2).trapBase ≠ 0 ∧ (w 2).late = [] ∧ (w 2).dbgStep = none ∧ ((w 2).issuing tI).open ≤ 0)
    ∧ tIs (tH.part? 0) (fun p => p.watchdog == 0 || decide (tHw.progress < p.watchdog)) = true
    ∧ ¬ ((2 ^ 20 : Nat) = 0 ∨ ({ tHw with progress := 2 ^ 20 } : Wave).progress < 2 ^ 20)
    ∧ tLate.barrierPoison 0 { key := 0x40, va := 0x40, qsp := false } = false ∧ tHw.heldOut .t = false
    ∧ tS.stackHeld 0 = false ∧ { tS with links := tS.links.set 0 { StackLink.reset with retraining := true } }.stackHeld 0 = true := by
  decide +kernel

/-- Encodings of each format that its clauses speak of: 1, −1, 0.5, −0, the least subnormal, the infinities, a quiet and a signalling
NaN. -/
theorem witness_FloatResults :
    ∀ x ∈ [(fp32, 0x3F800000, 0x3F000000, 0x7F800000, 0x7FC00000, 0x7F800001), (bf16, 0x3F80, 0x3F00, 0x7F80, 0x7FC0, 0x7F81),
        (fp64, 0x3FF0000000000000, 0x3FE0000000000000, 0x7FF0000000000000, 0x7FF8000000000000, 0x7FF0000000000001)],
      let f := x.1
      let one := x.2.1
      let half := x.2.2.1
      let inf := x.2.2.2.1
      let quiet := x.2.2.2.2.1
      let noisy := x.2.2.2.2.2
      f ∈ [fp32, bf16, fp64] ∧ one < 2 ^ f.width ∧ f.flip inf < 2 ^ f.width ∧ noisy < 2 ^ f.width
      ∧ f.isNan quiet ∧ ¬ f.signals quiet ∧ f.isNan noisy ∧ f.signals noisy ∧ f.isInf inf ∧ f.isInf (f.flip inf)
      ∧ f.negative (f.flip inf) = true ∧ f.negative inf = false ∧ f.finite one ∧ f.finite (f.flip one) ∧ f.finite (f.flip 0) ∧ f.finite 1
      ∧ f.value false one + f.value false one ≠ 0 ∧ f.value false one + f.value false (f.flip one) = 0
      ∧ f.value false (f.flip 0) = 0 ∧ f.negative (f.flip 0) = true ∧ f.value false (f.flip one) < 0 ∧ 0 < f.value false one
      ∧ f.value false one = ((1 * f.one : Nat) : Int) ∧ f.value false (f.flip one) = -((1 * f.one : Nat) : Int)
      ∧ f.value false one = ((2 ^ 0 * f.one : Nat) : Int) ∧ f.value false half * 2 ^ 1 = f.one
      ∧ 2 ^ f.frac ≤ f.mag one ∧ f.mag 1 < 2 ^ f.frac ∧ f.mag 1 ≠ 0 ∧ f.mag 0 = 0 ∧ f.value true 1 = 0 ∧ f.value false 1 ≠ 0 := by
  unfold FpFormat.signals FpFormat.isNan FpFormat.isInf FpFormat.finite; decide +kernel

/-- A NaN, an infinity and a finite number of each source format; a destination with infinities and one without; ICVT's formats. -/
theorem witness_FloatConversions :
    (∀ x ∈ [(fp32, 0x7FC00000, 0x7F800001, 0x7F800000), (bf16, 0x7FC0, 0x7F81, 0x7F80), (fp16, 0x7E00, 0x7C01, 0x7C00),
        (e5m2, 0x7E, 0x7D, 0x7C)], x.1.isNan x.2.1 ∧ ¬ x.1.signals x.2.1 ∧ x.1.signals x.2.2.1 ∧ x.1.isInf x.2.2.2 ∧ x.1.finite 1)
    ∧ e4m3.isNan 0x7F ∧ e4m3.finite 0x7E ∧ e4m3.hasInf = false ∧ e5m2.hasInf = true ∧ (1 : BitVec 3).toNat < 2
    ∧ (200 : Nat) % 2 = 0 ∧ NearestInt (fp32.value false 0x3F800000).natAbs fp32.one 1
    ∧ NearestInt (fp32.value false 0x40200000).natAbs fp32.one 2 := by
  unfold NearestInt FpFormat.signals FpFormat.isNan FpFormat.isInf FpFormat.finite; decide +kernel

/-- A tree and a scan of any operation start from any values. -/
theorem witness_FloatReductions (both : Word × Flags → Word × Flags → Word × Flags) (given : Nat → Word × Flags) :
    (∃ t : Nat → Nat → Word × Flags, (∀ l, l < 64 → t 0 l = given l) ∧
      ∀ n l, n < 6 → l < 64 → l % 2 ^ (n + 1) = 0 → t (n + 1) l = both (t n l) (t n (l + 2 ^ n)))
    ∧ ∃ t : Nat → Nat → Word × Flags, (∀ l, l < 64 → t 0 l = given l) ∧
        ∀ n l, n < 6 → l < 64 → t (n + 1) l = if 2 ^ n ≤ l then both (t n (l - 2 ^ n)) (t n l) else t n l :=
  ⟨⟨fun n => Nat.rec given (fun k f l => both (f l) (f (l + 2 ^ k))) n, fun _ _ => rfl, fun _ _ _ _ _ => rfl⟩,
   ⟨fun n => Nat.rec given (fun k f l => if 2 ^ k ≤ l then both (f (l - 2 ^ k)) (f l) else f l) n, fun _ _ => rfl,
    fun _ _ _ _ => rfl⟩⟩

/-- Comparisons of numbers, with a quiet NaN, with a signalling one. -/
theorem witness_FloatConditions :
    (0x3F800000 : Nat) < 2 ^ 32 ∧ ¬ fp32.isNan 0x3F800000 ∧ ¬ fp32.isNan 0x7F800000 ∧ fp32.isNan 0x7FC00000 ∧ ¬ fp32.signals 0x7FC00000
    ∧ fp32.signals 0x7F800001 := by
  unfold FpFormat.signals FpFormat.isNan FpFormat.isInf FpFormat.finite; decide +kernel

/-- A group of T = 16 whose k-th largest magnitude is 0 or not; its elements' quotients by their scale; encodings to unpack: an infinity
and a NaN of E5M2, a scale that is 0, finite or an infinity. -/
theorem witness_QuantElements :
    (∀ f ∈ [(0x00 : BitVec 8), 0x10, 0x20, 0x30], (List.replicate 256 (0x3F800000 : Word)).length = fmtT f * fmtT f ∧ fmtNfmt f ≤ 3)
    ∧ (fmtNfmt 0x00 = 0 ∧ fmtNfmt 0x10 = 1 ∧ fmtNfmt 0x20 = 2 ∧ fmtNfmt 0x30 = 3)
    ∧ quantValue 0x3F800000 ≠ 0 ∧ quantValue 0x7FC00000 = 0 ∧ quantValue 0 = 0
    ∧ (let S := (bf16.value false 0x3E13).natAbs
       let N := (quantValue 0x3F800000).natAbs * bf16.one
       NearestInt N (S * fp32.one) 7 ∧ NearestPow2 N (S * fp32.one) 3 ∧ NearestInt (100 * N) (S * fp32.one) 697
       ∧ NearestPow2 (100 * N) (S * fp32.one) 9 ∧ NearestInt 0 (S * fp32.one) 0 ∧ NearestPow2 0 (S * fp32.one) 3)
    ∧ e5m2.isInf 0x7C ∧ e5m2.isNan 0x7E ∧ e4m3.isNan 0x7F ∧ bf16.finite 0x3F80 ∧ bf16.finite 0 ∧ bf16.value false 0 = 0 := by
  unfold NearestInt NearestPow2 FpFormat.isNan FpFormat.isInf FpFormat.finite; decide +kernel

/-- A sector of nines in an L1, its first byte dirty, whose line stands in the die's L2 in M. -/
def tOwned : State :=
  { tS with
    l1 := [{ quad := 0, key := 0, part := 0, s1 := L1Sector.empty,
             s0 := { valid := true, data := List.replicate 64 9, present := allLanes, dirty := 1, poison := false } }],
    l2 := [{ die := 0, key := 0, state := .m, tag := 0, way := 0, valid0 := true, valid1 := true, dirty0 := false, dirty1 := true }] }

/-- A full set of the L1 without the line that merges. -/
def tFullSet : State :=
  { tS with wq := [tWq], l1 := List.replicate 8 { quad := 0, key := 0x8000, part := 0, s0 := L1Sector.empty, s1 := L1Sector.empty } }

/-- A merge into a free set and into a full one; a write-back of an owned sector; a line that no die holds, one in S elsewhere and one
in M, with a way to take; a module's line without its permission and with it; a relayed atomic and one of this package. -/
theorem witness_CacheTraffic :
    (([tWq].find? fun x => x.quad = 0) = some tWq ∧ tS.l1 = [] ∧ tFullSet.l1Find 0 (lineKey tWq.key) = none)
    ∧ 8 ≤ (tFullSet.l1.filter fun x => x.quad = 0 && l1SetOf tS.pod x.key = l1SetOf tS.pod (lineKey tWq.key)).length
    ∧ (tOwned.l1Find 0 0).isSome = true ∧ isModuleKey 0 = false ∧ tOwned.keyDown 0 = false ∧ tOwned.ladleOwns 0 = false
    ∧ tOwned.owns (quadDie 0) 0 = true
    ∧ tOwned.l2Holders 0 ≠ [] ∧ tS.l2Holders 0 = [] ∧ (tS.directoryPeers 0).length < 16 ∧ tS.stackHeld 0 = false
    ∧ (tOwned.l2Find 0 0).isSome = true
    ∧ (let t : State := { tOwned with ways := tOwned.ways ++ [{ die := 1, slice := none, owners := List.replicate 16 0, moved := none }] }
       t.l2Find 1 0 = none ∧ (t.ownWays 1 0 (t.fillTag 1 0 0)).contains 3 = true ∧ t.setPeers 1 0 = [])
    ∧ (let line := moduleLine 0 1
       isModuleKey line = true ∧ tM.permOf line = none ∧ tM.wayFree 0 line (tM.fillTag 0 line 0) = true
       ∧ { tM with perms := [{ key := line, perm := .exclusive }] }.permOf line = some .exclusive)
    ∧ (let q : AtomReq := { key := moduleKey 0 0, size := 4, op := 0, a := 1, b := 0, order := 0, na := false, packet := { tP with system := true } }
       tM.remoteLine { q with packet := tP } = (tM, true) ∧ (tM.remoteLine q).2 = false
       ∧ ({ tM with perms := [{ key := moduleLine 0 0, perm := .exclusive }] }.remoteLine q).2 = true) := by decide +kernel

/-- The state with tables of the first GiB of MMIO: the leaf of the RAS page. -/
def tRasLeaf : State :=
  { tTables with
    mem := (((tTables.mem.writeNat 0x8000 8 0x9001).writeNat 0x9000 8 0xA001).writeNat 0xA000 8 0xB001).writeNat 0xB000 8
      (0xFF00000000000 + 0x41 + 24) }

/-- A walk of the Runner, one that ends at the RAS page, and one that waits for a stack whose link retrains. -/
theorem witness_Walks :
    (tIs (tRasLeaf.part? 0) fun p => match ({ tRasLeaf with walks := [] }.walk (some 0) p 0 0x8000 0x300).1 with
        | .ras .. => true | _ => false) = true
    ∧ (tIs (tLeaf.part? 0) fun p => match ({ tLeaf with walks := [] }.walk none p 0 0x8000 5).1 with | .leaf .. => true | _ => false) = true
    ∧ tLeaf.walkHeld (tWalk true) = false
    ∧ { tLeaf with links := tLeaf.links.set 0 { StackLink.reset with retraining := true } }.walkHeld (tWalk true) = true := by
  decide +kernel

/-- The state with a Runner queue of package 1 at its module: with the tail line shared, with an entry. -/
def tQueue (es : List (List Byte)) (shared : Bool) : State :=
  (tKw 0).modRunner fun r => r.setQueue { peer := 1, entries := es, tailShared := shared, bell := false, taken := [] }

/-- A request that a Ladle channel keeps waiting; an object misaligned, beyond its device and poisoned; a descriptor out of range, and one
whose entry is; an operation that is none. -/
theorem witness_ModuleServices_refused :
    (let s : State := { tKw 0 with chans := [{ tChan with copies := [{ tCopy with sectors := [(0x1000, moduleKey 0 0)] }] }] }
     s.kweutDropped tK = false ∧ s.kweutWaits tK 64 true = true ∧ s.kweutWaits tK 8 false = true)
    ∧ tK.addr % 64 = 0 ∧ ({ tK with addr := 1 } : KReq).addr % 64 ≠ 0 ∧ (tKw 0).kweutCap { tK with addr := 2 ^ 42 } < 2 ^ 42 + 64
    ∧ ((tKw 0).setPoison (moduleKey 0 0)).anyPoison (moduleKey 0 0) 64 = true ∧ (tKw 0).kweutCap tK = 2 ^ 42
    ∧ (let s : State := { tKw 0 with mem := (tKw 0).mem.writeNat (moduleKey 0 8) 1 21 }
       s.kweutWaits tK 64 true = false ∧ s.kweutObject tK 64 64 = none
       ∧ 20 < ((s.recall (moduleKey 0 0) 64 true).peekNat (moduleKey 0 8) 1) % 32)
    ∧ (let s : State := { tKw 0 with mem := (tKw 0).mem.writeNat (moduleKey 0 0) 8 (2 ^ 43) }
       s.kweutObject tK 64 64 = none ∧ (s.peekNat (moduleKey 0 0) 8) % 64 = 0 ∧ s.kweutCheck tK (2 ^ 43) 64 = some 10)
    ∧ 6 ≤ ({ tK with subop := 7 } : KReq).subop % 8 := by decide +kernel

/-- The Runner's own put, one of another package for it and for another; a queue with room, with its tail line shared and not; its get of
an empty queue and of one with an entry. -/
theorem witness_RunnerServices :
    (let r : KReq := { tK with tag := 96 }
     96 ≤ r.tag ∧ (tKw 0).kweutDropped r = false ∧ (tKw 0).ownRequest r = true ∧ (tKw 0).ownRequest { r with lead := 4 } = false
     ∧ { tKw 0 with lostHeads := [(0, 0)] }.kweutDropped r = true ∧ (tKw 0).kweutDropped { r with lead := 4 } = false
     ∧ (tKw 0).requestSource { r with lead := 4 } = some 1 ∧ (tKw 0).pod.self = 0 ∧ (tKw 0).requestSource { r with lead := 12 } = none)
    ∧ ((tQueue [] true).runner.queueOf 1).entries.length < 4096 ∧ ((tQueue [] true).runner.queueOf 1).tailShared = true
    ∧ ((tQueue [[1]] false).runner.queueOf 1).tailShared = false ∧ ((tQueue [[1]] false).runner.queueOf 1).entries = [[1]]
    ∧ ((tQueue [] true).runner.queueOf 1).entries = [] := by decide +kernel

/-- A queue is full with 4,096 entries. -/
theorem witness_runner_queue_full :
    4096 ≤ (((tQueue (List.replicate 4096 []) true).runner).queueOf 1).entries.length := by
  rw [show (((tQueue (List.replicate 4096 []) true).runner).queueOf 1).entries = List.replicate 4096 [] from rfl, List.length_replicate]

/-- The module of attachment 0 with the rounds `xs`. -/
def tRounds (xs : List Round) : State := { tKw 0 with rounds := xs }

/-- A round of another cell whose mask names heads 0 and 4. -/
def tRound : Round :=
  { module := 0, ld := 0, cell := 0x800, gen := 5, broken := false, op := 0, fmt := 0, nelem := 1, mask := 0x11, arrived := [(4, [0])] }

/-- A cell whose header is out of range; lost head groups: no round names the head, one does, two do; their cells lie in no cache. -/
theorem witness_ReductionCells :
    ((tKw 0).newRound 0 0 0x400).ok (tKw 0).pod.q = false
    ∧ (let hit := fun (lead : Nat) (z : Round) => decide (z.module = 0) && z.mask.testBit lead
       (∀ z ∈ (tRounds [tRound]).rounds, hit 8 z = false) ∧ (tRounds [tRound]).rounds.filter (hit 4) = [tRound]
       ∧ (tRounds [tRound, { tRound with cell := 0x400 }]).rounds.filter (hit 4) = [tRound, { tRound with cell := 0x400 }])
    ∧ (∀ y ∈ (tRounds [tRound, { tRound with cell := 0x400 }]).rounds, y.cell % 128 = 0)
    ∧ ([tRound, { tRound with cell := 0x400 }].Pairwise fun y z => ¬ (y.module = z.module ∧ y.cell = z.cell))
    ∧ (tRounds [tRound]).l2 = [] ∧ (tRounds [tRound]).stale = []
    ∧ (let h : ModHolder := { module := 0, line := moduleLine 0 1, lead := 4, exclusive := true }
       h.module = 0 ∧ h.lead = 4 ∧ h.exclusive = true) := by decide +kernel

/-- The module holds as many cells open for a logical device as it can. -/
theorem witness_no_cell :
    let xs := List.replicate (4096 + Config.extraRounds) tRound
    let s := tRounds xs
    4096 + Config.extraRounds ≤ (s.rounds.filter fun z => z.module = 0 && z.ld = 0).length ∧ s.roundAt 0 0x400 = none := by
  constructor
  · simp [tRounds, tRound]
  · show ((List.replicate (4096 + Config.extraRounds) tRound).find? _) = none
    rw [List.find?_eq_none]
    intro x hx
    rw [List.eq_of_mem_replicate hx]
    decide

/-- The pod's state with the peer's context, a queue from it and, of the attachments, the first alone up. -/
def tAlone : State :=
  let s := (tTx .rrd).modRunner fun r => r.setQueue { peer := 1, entries := [], tailShared := true, bell := false, taken := [] }
  { s with pod := { s.pod with atts := [tAtt, { tAtt with verified := false }, { tAtt with verified := false }] } }

/-- An attachment goes whose peers have another route, and one that was the last; one comes back. -/
theorem witness_PeersFollow :
    tM.pod.moduleOf 0 = some 0 ∧ tM.pod.attOf 0 = some 0 ∧ tM.pod.size = 7
    ∧ (let s := tTx .rrd
       let t := s.attachmentDown 0
       s.pod.shared 1 = some 0 ∧ s.routeTo 1 = some (1, false) ∧ t.routeTo 1 = some (2, true))
    ∧ (let t := tAlone.attachmentDown 0
       tAlone.routeTo 1 = some (1, false) ∧ t.routeTo 1 = none)
    ∧ physPlace (Config.attachBase) = .attach 0 0 ∧ 0 + 4 ≤ (tM.part? 0).elim 0 (fun p => p.limit 0) := by decide +kernel

/-- The context of the peer that went, with its oldest packet for that peer; an attachment that is down with a port and comes back;
the tail line of a queue of its module. -/
theorem witness_AttachmentBack :
    tIs ((tTx .rrd).ctx? tX) (fun c => c.id.peer == 1 && ((c.stream 0).unacked.head?.map fun y => y.packet.dst) == some 1) = true
    ∧ (let s := tAlone.attachmentDown 0
       s.pod.attUp 0 = false ∧ (s.pod.atts[0]?.map Att.portsUp) ≠ some [] ∧ s.pod.attOf 0 = some 0 ∧ s.pod.shared 1 = some 0
       ∧ { s with lostHeads := [] }.headUp 0 1 = true ∧ s.runner.queues.any (fun q => q.peer = 1) = true) := by decide +kernel

/-- A context cache full of one context, in flight or idle, of a partition without a backing table. -/
def tCache (c : Rctx) : State := tM.modRunner fun r => { r with ctxs := List.replicate ctxCacheSize c }

/-- A context that is in flight, and one that is idle. -/
def tBusyCtx : Rctx :=
  { Rctx.new { tX with peer := 3 } 0 with streams := [{ Stream.zero with inHand := some tP }, Stream.zero, Stream.zero, Stream.zero] }

/-- A system context, which is not among them. -/
def tSysCtx : CtxId := { tX with system := true }

/-- The oldest of equal contexts is the first. -/
theorem oldest_of_equal (c : Rctx) (n : Nat) :
    (List.replicate n c).foldl (fun (b : Option Rctx) c =>
      match b with
      | none => some c
      | some x => if c.lastUse < x.lastUse then some c else some x) (some c) = some c := by
  induction n with
  | zero => rfl
  | succ n ih => simpa [List.replicate_succ] using ih

/-- A full cache does not hold the context, and is full. -/
theorem cache_full (c : Rctx) (h : c.id ≠ tSysCtx) (hs : c.spilled = false) :
    (tCache c).adoptCtx tSysCtx = tCache c ∧ (tCache c).ctx? tSysCtx = none ∧ (tCache c).runner.full = true := by
  refine ⟨rfl, ?_, ?_⟩
  · show (List.replicate ctxCacheSize c).find? _ = none
    rw [List.find?_eq_none]
    intro x hx
    rw [List.eq_of_mem_replicate hx]
    simpa using h
  · show decide (ctxCacheSize ≤ ((List.replicate ctxCacheSize c).filter fun c => !c.spilled).length) = true
    simp [hs]

/-- No context can be opened while every context is in flight, nor when the one to be spilled has nowhere to go. -/
theorem witness_no_context :
    (tCache tBusyCtx).openCtx tSysCtx = .stall ∧ (tCache (Rctx.new { tX with peer := 3 } 0)).openCtx tSysCtx = .refused := by
  constructor
  · obtain ⟨h1, h2, h3⟩ := cache_full tBusyCtx (by decide) rfl
    have h4 : (tCache tBusyCtx).runner.spillVictim = none := by
      show ((List.replicate ctxCacheSize tBusyCtx).filter _).foldl _ none = none
      rw [List.filter_replicate_of_neg (by decide)]
      rfl
    simp [State.openCtx, h1, h2, h3, h4]
  · obtain ⟨h1, h2, h3⟩ := cache_full (Rctx.new { tX with peer := 3 } 0) (by decide) rfl
    have h4 : (tCache (Rctx.new { tX with peer := 3 } 0)).runner.spillVictim = some (Rctx.new { tX with peer := 3 } 0) := by
      show ((List.replicate ctxCacheSize (Rctx.new { tX with peer := 3 } 0)).filter _).foldl _ none = _
      rw [List.filter_replicate_of_pos (by decide)]
      rw [show ctxCacheSize = 4095 + 1 from rfl, List.replicate_succ, List.foldl_cons]
      exact oldest_of_equal _ _
    have h5 : ((tCache (Rctx.new { tX with peer := 3 } 0)).part? ((tCache (Rctx.new { tX with peer := 3 } 0)).ctxOwner
        (Rctx.new { tX with peer := 3 } 0).id)).bind (tCache (Rctx.new { tX with peer := 3 } 0)).freeSlot = none := by rfl
    simp [State.openCtx, h1, h2, h3, h4, h5]

/-- A request that needs a walk, with a free record and without. -/
theorem witness_RequestsThatWalk :
    [tServed (performRwri { tRx [tGrant false] 0 with tlb := [] } { tP with type := .rwri, data := [1, 2, 3, 4] }),
     tServed (performRwri { tRx [tGrant false] 1 with tlb := [] } { tP with type := .rwri, data := [1, 2, 3, 4] })] = [5, 3] := by
  decide +kernel

/-- A land on a poisoned barrier and on one that is not; a packet in the send buffer for a peer whose queue nothing asks. -/
theorem witness_LandsAndDeadPeers :
    (tM.setPoison 0x40).barrierPoison 0 { key := 0x40, va := 0x40, qsp := false } = true
    ∧ tM.barrierPoison 0 { key := 0x40, va := 0x40, qsp := false } = false
    ∧ tM.runner.asking 1 false = false
    ∧ (∀ q, physPlace (Config.rasBase + 0x18) ≠ .page q 0) := by
  refine ⟨by decide +kernel, by decide +kernel, by decide +kernel, fun q h => ?_⟩
  have : physPlace (Config.rasBase + 0x18) = .mmioHole := by decide +kernel
  rw [this] at h
  cases h
end Sys2Proof.Tests
end

section
/-!
PROOFS. O7: every step keeps memory in its canonical form. For each function of the model that answers a state there is one lemma, in
the model's own order: that it leaves memory (`f_mem`), or, where it may store, that it keeps the canonical form (`f_wf`). `exec_wf`
and `step_wf` put them together.
-/
namespace Sys2Proof.Machine

/-- The next state, where there is one, has memory in canonical form. -/
def OutWf (r : Out) : Prop := ∀ t, r = .next t → t.mem.wf = true

@[simp] theorem outWf_next {s : State} : OutWf (.next s) ↔ s.mem.wf = true := by
  simp [OutWf]

@[simp] theorem outWf_fault (f : Fault) : OutWf (.fault f) := by simp [OutWf]

@[simp] theorem outWf_refused (f : Refusal) : OutWf (.refused f) := by simp [OutWf]

/-- A fold whose steps leave something of a state leaves it. -/
theorem foldl_proj {α β : Type} (p : State → β) {f : State → α → State} (hf : ∀ t x, p (f t x) = p t) :
    ∀ (l : List α) (s : State), p (l.foldl f s) = p s
  | [], _ => rfl
  | x :: xs, s => (foldl_proj p hf xs (f s x)).trans (hf s x)

/-- A fold whose steps leave memory leaves memory. -/
theorem foldl_mem {α : Type} {f : State → α → State} (hf : ∀ t x, (f t x).mem = t.mem) (l : List α) (s : State) :
    (l.foldl f s).mem = s.mem :=
  foldl_proj State.mem hf l s

/-- A fold whose steps keep the canonical form keeps it. -/
theorem foldl_wf {α : Type} {f : State → α → State} (hf : ∀ t x, t.mem.wf = true → (f t x).mem.wf = true) :
    ∀ (l : List α) {s : State}, s.mem.wf = true → (l.foldl f s).mem.wf = true
  | [], _, h => h
  | x :: xs, s, h => foldl_wf hf xs (hf s x h)

/-- An answer with a state holds one whose memory is in canonical form. -/
def ResWf {ε α : Type} (r : Except ε (State × α)) : Prop := ∀ x, r = .ok x → x.1.mem.wf = true

@[simp] theorem resWf_ok {ε α : Type} {x : State × α} : ResWf (.ok x : Except ε (State × α)) ↔ x.1.mem.wf = true := by
  simp [ResWf]

@[simp] theorem resWf_error {ε α : Type} {e : ε} : ResWf (.error e : Except ε (State × α)) := by simp [ResWf]

/-- What a request at its receiver comes to leaves memory in canonical form. -/
def ServedWf : Served → Prop
  | .done s => s.mem.wf = true
  | .resp s _ _ => s.mem.wf = true
  | .queued s => s.mem.wf = true
  | .walk s => s.mem.wf = true
  | .busy s => s.mem.wf = true
  | .refused _ _ => True

/-- A read of data, or what becomes of the word instead, leaves memory in canonical form. -/
def DataWf : DataGot → Prop
  | .ok s _ _ _ _ => s.mem.wf = true
  | .out o => OutWf o

/-- A fold over a state and something beside it, whose steps keep the canonical form, keeps it. -/
theorem foldl_fst_wf {α β : Type} {f : State × β → α → State × β} (hf : ∀ t x, t.1.mem.wf = true → (f t x).1.mem.wf = true) :
    ∀ (l : List α) {s : State × β}, s.1.mem.wf = true → (l.foldl f s).1.mem.wf = true
  | [], _, h => h
  | x :: xs, s, h => foldl_fst_wf hf xs (hf s x h)

/-- Operations in turn, each of which keeps the canonical form. -/
theorem gotAll_wf {α : Type} {s : State} (h : s.mem.wf = true) (l : List α) {f : State → α → Got}
    (hf : ∀ t x, t.mem.wf = true → (f t x).1.mem.wf = true) : (gotAll s l f).1.mem.wf = true :=
  foldl_fst_wf (f := fun g x => ((f g.1 x).1, g.2 && (f g.1 x).2)) (fun t x ht => hf t.1 x ht) l (s := (s, true)) h

theorem outWf_ite {c : Prop} [Decidable c] {a b : Out} (ha : OutWf a) (hb : OutWf b) : OutWf (if c then a else b) := by
  split
  · exact ha
  · exact hb

theorem wf_ite {c : Prop} [Decidable c] {a b : State} (ha : a.mem.wf = true) (hb : b.mem.wf = true) :
    (if c then a else b).mem.wf = true := by
  split
  · exact ha
  · exact hb

theorem fst_wf_ite {β : Type} {c : Prop} [Decidable c] {a b : State × β} (ha : a.1.mem.wf = true) (hb : b.1.mem.wf = true) :
    (if c then a else b).1.mem.wf = true := by
  split
  · exact ha
  · exact hb

theorem dataWf_ite {c : Prop} [Decidable c] {a b : DataGot} (ha : DataWf a) (hb : DataWf b) : DataWf (if c then a else b) := by
  split
  · exact ha
  · exact hb

theorem servedWf_ite {c : Prop} [Decidable c] {a b : Served} (ha : ServedWf a) (hb : ServedWf b) : ServedWf (if c then a else b) := by
  split
  · exact ha
  · exact hb

theorem foldl_fst_fst_wf {α β γ : Type} {f : (State × β) × γ → α → (State × β) × γ}
    (hf : ∀ t x, t.1.1.mem.wf = true → (f t x).1.1.mem.wf = true) :
    ∀ (l : List α) {s : (State × β) × γ}, s.1.1.mem.wf = true → (l.foldl f s).1.1.mem.wf = true
  | [], _, h => h
  | x :: xs, s, h => foldl_fst_fst_wf hf xs (hf s x h)

theorem need_wf {b : Bool} {st : CmdStatus} {r : Done} (hr : ResWf r) : ResWf (need b st r) := by
  cases b with
  | false => exact resWf_error
  | true => exact hr

/-- The state of a fetch has memory in canonical form. -/
def FetchedWf : Fetched → Prop
  | .packet s _ => s.mem.wf = true
  | .stop s => s.mem.wf = true

theorem fetchedWf_ite {c : Prop} [Decidable c] {a b : Fetched} (ha : FetchedWf a) (hb : FetchedWf b) :
    FetchedWf (if c then a else b) := by
  split
  · exact ha
  · exact hb

/-! ### Operations over the state -/

@[simp] theorem State.fresh_mem (s : State) : (s.fresh).2.mem = s.mem := rfl

theorem finish_wf {s : State} (h : s.mem.wf = true) (w : Wave) (i : Issue) : OutWf (finish s w i) := by
  simp [finish, h]

theorem onUnit_wf {s : State} {f : Wave → Issue → UnitSt → Out} (hf : ∀ w i u, OutWf (f w i u)) : OutWf (onUnit s f) := by
  unfold onUnit
  split
  · exact outWf_fault _
  · split
    · exact outWf_fault _
    · exact hf _ _ _

theorem stallWord_wf {s : State} (h : s.mem.wf = true) : OutWf (stallWord s) := by
  simp [stallWord, h]

@[simp] theorem State.postEvent_mem (s : State) (p type seq : Nat) (body : List Byte) : (s.postEvent p type seq body).mem = s.mem := rfl

@[simp] theorem State.charge_mem (s : State) (p code n : Nat) : (s.charge p code n).mem = s.mem := by
  grind [State.charge]

@[simp] theorem State.chargePod_mem (s : State) (code n : Nat) : (s.chargePod code n).mem = s.mem := by
  unfold State.chargePod
  split <;> simp

@[simp] theorem State.enterTrap_mem (s : State) (w : Wave) (arm : Arm) (pc cause sub addr : Nat) (second : Bool) (wait : Wait) :
    (s.enterTrap w arm pc cause sub addr second wait).mem = s.mem := by
  grind [State.enterTrap, State.postEvent_mem, State.setWave_mem]

theorem takeTrap_wf {s : State} (h : s.mem.wf = true) (w : Wave) (i : Issue) (cause sub addr : Nat) :
    OutWf (takeTrap s w i cause sub addr) := by
  simp [takeTrap, h]

@[simp] theorem State.returnFromTrap_mem (s : State) (w : Wave) (arm : Arm) (hd : HandlerSt) :
    (s.returnFromTrap w arm hd).mem = s.mem := rfl

@[simp] theorem State.resave_mem (s : State) (p : Nat) : (s.resave p).mem = s.mem := rfl

@[simp] theorem State.touched_mem (s : State) (p : Nat) : (s.touched p).mem = s.mem := by
  unfold State.touched
  split <;> simp

@[simp] theorem State.lateError_mem (s : State) (seq wid cause sub addr : Nat) : (s.lateError seq wid cause sub addr).mem = s.mem := by
  grind [State.lateError, State.setWave_mem, State.resave_mem, State.postEvent_mem]

@[simp] theorem State.clampScope_mem (s : State) (p : Nat) (sc : Scope) : (s.clampScope p sc).1.mem = s.mem := by
  unfold State.clampScope
  split <;> simp

/-! ### Translation -/

@[simp] theorem State.logAway_wf {s : State} (h : s.mem.wf = true) (part : Nat) (r : Requester) (key kind : Nat) :
    (s.logAway part r key kind).mem.wf = true := State.logError_wf h _ _

@[simp] theorem State.transferred_mem (s : State) (stack : Nat) : (s.transferred stack).mem = s.mem := by
  grind [State.transferred]

@[simp] theorem State.rowAccess_mem (s : State) (key : Nat) : (s.rowAccess key).mem = s.mem := by
  grind [State.rowAccess, State.transferred_mem, State.charge_mem]

@[simp] theorem State.arrayAccess_mem (s : State) (key : Nat) : (s.arrayAccess key).mem = s.mem := by
  unfold State.arrayAccess
  split <;> simp

@[simp] theorem State.arraySpan_mem (s : State) (key n : Nat) : (s.arraySpan key n).mem = s.mem :=
  foldl_mem (fun _ _ => State.arrayAccess_mem _ _) _ _

@[simp] theorem State.walkReads_wf {s : State} (h : s.mem.wf = true) (die part asid root page : Nat) (es : List (Nat × Nat)) :
    (s.walkReads die part asid root page es).mem.wf = true := by
  refine foldl_wf (fun t k ht => ?_) _ h
  split
  · split
    · exact State.logAway_wf ht _ _ _ _
    · exact ht
  · simpa using ht

@[simp] theorem State.tlbFill_mem (s : State) (e : TlbEntry) : (s.tlbFill e).mem = s.mem := by
  grind [State.tlbFill, State.fresh_mem]

@[simp] theorem State.walkCachePut_mem (s : State) (c : WalkCacheEntry) : (s.walkCachePut c).mem = s.mem := by
  grind [State.walkCachePut, State.fresh_mem]

@[simp] theorem State.walkCacheFill_mem (s : State) (die part asid : Nat) (es : List (Nat × Nat)) :
    (s.walkCacheFill die part asid es).mem = s.mem := foldl_mem (fun _ _ => State.walkCachePut_mem _ _) _ _

@[simp] theorem State.requestWalk_mem (s : State) (die part asid page root : Nat) (c : WalkClient) :
    (s.requestWalk die part asid page root c).mem = s.mem := by
  grind [State.requestWalk]

@[simp] theorem State.askWalk_mem (s : State) (c : WalkClient) (part asid page : Nat) : (s.askWalk c part asid page).1.mem = s.mem := by
  unfold State.askWalk
  split <;> simp

@[simp] theorem State.askWalks_mem (w : Wave) (arm : Arm) : ∀ (l : List Nat) (s : State), (s.askWalks w arm l).1.mem = s.mem
  | [], _ => rfl
  | _ :: rest, s => by simp [State.askWalks, State.askWalks_mem w arm rest]

@[simp] theorem State.waitForWalks_mem (s : State) (w : Wave) (i : Issue) (pages : List Nat) :
    (s.waitForWalks w i pages).mem = s.mem := by
  grind [State.waitForWalks, State.askWalks_mem, State.stall_mem, State.setWave_mem]

@[simp] theorem State.logWave_wf {s : State} (h : s.mem.wf = true) (w : Wave) (addr sub level : Nat) (kind : AccKind) (phys : Bool) :
    (s.logWave w addr sub level kind phys).mem.wf = true := State.logError_wf h _ _

@[simp] theorem State.parkAtFault_mem (s : State) (w : Wave) (arm : Arm) (va sub : Nat) (kind : AccKind) (wordAt : Nat) (second : Bool) :
    (s.parkAtFault w arm va sub kind wordAt second).mem = s.mem := by
  grind [State.parkAtFault, State.setWave_mem, State.postEvent_mem]

@[simp] theorem State.refuseWord_wf {s : State} (h : s.mem.wf = true) (w : Wave) (i : Issue) (pc addr sub level : Nat) (kind : AccKind)
    (phys : Bool) : (s.refuseWord w i pc addr sub level kind phys).mem.wf = true := by
  unfold State.refuseWord
  split <;> simp [h]

/-! ### Caches and the write queue -/

@[simp] theorem State.wakeLine_mem (s : State) (line : Nat) : (s.wakeLine line).mem = s.mem := rfl

@[simp] theorem State.modL2_mem (s : State) (die line : Nat) (f : L2Line → L2Line) : (s.modL2 die line f).mem = s.mem := rfl

@[simp] theorem State.setPerm_mem (s : State) (line : Nat) (p : Option Perm) : (s.setPerm line p).mem = s.mem := rfl

@[simp] theorem State.chargeFlits_mem (s : State) (sent : Bool) (bytes : Nat) : (s.chargeFlits sent bytes).mem = s.mem := by
  unfold State.chargeFlits
  split <;> simp

@[simp] theorem State.askModule_mem (s : State) (die part line : Nat) (kind : MemKind) :
    (s.askModule die part line kind).mem = s.mem := by
  unfold State.askModule
  split <;> simp

@[simp] theorem State.permitted_mem (s : State) (die part line : Nat) (own : Bool) :
    (s.permitted die part line own).1.mem = s.mem := by
  unfold State.permitted
  split
  · rfl
  · split <;> simp

@[simp] theorem State.dirtyLine_mem (s : State) (line : Nat) : (s.dirtyLine line).mem = s.mem := by
  unfold State.dirtyLine
  split <;> simp

@[simp] theorem State.cleanLine_mem (s : State) (line : Nat) : (s.cleanLine line).mem = s.mem := rfl

@[simp] theorem State.chargeFetch_mem (s : State) (part key : Nat) : (s.chargeFetch part key).mem = s.mem := by
  unfold State.chargeFetch
  split <;> simp

@[simp] theorem State.restoreStale_wf {s : State} (h : s.mem.wf = true) (line : Nat) : (s.restoreStale line).mem.wf = true := by
  unfold State.restoreStale
  split
  · exact h
  · refine Memory.wf_writeBytes _ _ ?_
    split <;> simpa using h

@[simp] theorem State.returnLine_wf {s : State} (h : s.mem.wf = true) (l : L2Line) : (s.returnLine l).mem.wf = true := by
  unfold State.returnLine
  split <;> simp [h]

@[simp] theorem State.l2Evict_wf {s : State} (h : s.mem.wf = true) (l : L2Line) : (s.l2Evict l).mem.wf = true := by
  grind [State.l2Evict, State.rowAccess_mem, State.charge_mem, State.wakeLine_mem, State.restoreStale_wf, State.returnLine_wf,
  State.askModule_mem, State.setPerm_mem]

@[simp] theorem State.l2Place_wf {s : State} (h : s.mem.wf = true) (die key asked : Nat) (st : LineState) :
    (s.l2Place die key asked st).mem.wf = true := by
  grind [State.l2Place, State.fresh_mem, State.l2Evict_wf]

@[simp] theorem State.recallAll_wf {s : State} (h : s.mem.wf = true) (line : Nat) : (s.recallAll line).mem.wf = true :=
  foldl_wf (fun _ _ ht => State.l2Evict_wf ht _) _ h

@[simp] theorem State.directoryRoom_wf {s : State} (h : s.mem.wf = true) (line : Nat) : (s.directoryRoom line).1.mem.wf = true := by
  grind [State.directoryRoom, State.fresh_mem, State.recallAll_wf]

@[simp] theorem State.filled_mem (s : State) (die key : Nat) : (s.filled die key).mem = s.mem := rfl

@[simp] theorem State.fillBegins_mem (s : State) (die key part : Nat) : (s.fillBegins die key part).mem = s.mem := by
  unfold State.fillBegins
  split <;> simp

@[simp] theorem State.dirRead_wf {s : State} (h : s.mem.wf = true) (die key part : Nat) : (s.dirRead die key part).mem.wf = true := by
  grind [State.dirRead, State.modL2_mem, State.chargeFetch_mem, State.l2Place_wf]

@[simp] theorem State.dirOwn_wf {s : State} (h : s.mem.wf = true) (die key part : Nat) : (s.dirOwn die key part).mem.wf = true := by
  grind [State.dirOwn, State.chargeFetch_mem, State.wakeLine_mem, State.modL2_mem, State.l2Place_wf]

@[simp] theorem State.dropCopies_mem (s : State) (line : Nat) : (s.dropCopies line).mem = s.mem := rfl

@[simp] theorem State.directory_wf {s : State} (h : s.mem.wf = true) (die key part : Nat) (own : Bool) :
    (s.directory die key part own).1.mem.wf = true := by
  grind [State.directory, State.permitted_mem, State.filled_mem, State.directoryRoom_wf, State.dirOwn_wf, State.dirRead_wf]

/-- Masked bytes keep the canonical form. -/
theorem Memory.wf_writeMasked {m : Memory} (h : m.wf = true) (k : Nat) (bs : List Byte) (mask : Lanes) :
    (m.writeMasked k bs mask).wf = true :=
  List.foldlRecOn (motive := fun x : Memory => x.wf = true) (lanesOf mask) _ h fun _ hx _ _ => Memory.wf_write hx _ _

@[simp] theorem State.l2Store_wf {s : State} (h : s.mem.wf = true) (die key : Nat) (bs : List Byte) (mask : Lanes) :
    (s.l2Store die key bs mask).mem.wf = true := by
  refine Memory.wf_writeMasked ?_ _ _ _
  simp only [State.filled_mem, State.wakeLine_mem]
  split <;> simpa using h

@[simp] theorem State.writePast_wf {s : State} (h : s.mem.wf = true) (die part line : Nat) (ws : List (Nat × List Byte × Lanes))
    (poison : Bool) : (s.writePast die part line ws poison).1.mem.wf = true := by
  unfold State.writePast
  split
  · exact h
  · dsimp only
    split
    · simpa using h
    · refine foldl_wf (fun t x ht => ?_) _ ?_
      · grind [State.logAway_wf, State.clearPoison_mem, State.setPoison_mem, Memory.wf_writeMasked]
      · grind [State.restoreStale_wf, State.cleanLine_mem, State.askModule_mem, State.setPerm_mem, State.rowAccess_mem,
          State.wakeLine_mem, State.dropCopies_mem, State.permitted_mem]

@[simp] theorem State.l2Write_wf {s : State} (h : s.mem.wf = true) (die part key : Nat) (bs : List Byte) (mask : Lanes)
    (poison noAlloc : Bool) : (s.l2Write die part key bs mask poison noAlloc).1.mem.wf = true := by
  grind [State.l2Write, State.logAway_wf, State.setPoison_mem, Memory.wf_writeMasked, State.l2Store_wf, State.writePast_wf,
  State.directory_wf]

@[simp] theorem State.lineWrite_wf {s : State} (h : s.mem.wf = true) (die part line : Nat) (ws : List (Nat × List Byte × Lanes))
    (poison : Bool) : (s.lineWrite die part line ws poison).1.mem.wf = true :=
  fst_wf_ite h (fst_wf_ite (gotAll_wf h _ fun _ _ ht => State.l2Write_wf ht _ _ _ _ _ _ _) (State.writePast_wf h _ _ _ _ _))

@[simp] theorem State.l1Set_mem (s : State) (l : L1Line) : (s.l1Set l).mem = s.mem := rfl

@[simp] theorem State.l1Touch_mem (s : State) (l : L1Line) (nt : Bool) : (s.l1Touch l nt).mem = s.mem := rfl

@[simp] theorem State.writeBackSector_wf {s : State} (h : s.mem.wf = true) (quad line : Nat) (upper : Bool) :
    (s.writeBackSector quad line upper).1.mem.wf = true := by
  grind [State.writeBackSector, State.l2Write_wf, State.l1Set_mem]

@[simp] theorem State.writeBackLine_wf {s : State} (h : s.mem.wf = true) (quad line : Nat) :
    (s.writeBackLine quad line).1.mem.wf = true :=
  gotAll_wf h _ fun _ _ ht => State.writeBackSector_wf ht _ _ _

@[simp] theorem State.l1Drop_mem (s : State) (quad line : Nat) : (s.l1Drop quad line).mem = s.mem := rfl

@[simp] theorem State.l1Room_wf {s : State} (h : s.mem.wf = true) (quad line : Nat) : (s.l1Room quad line).1.mem.wf = true := by
  grind [State.l1Room, State.writeBackLine_wf, State.l1Drop_mem]

@[simp] theorem State.l1Alloc_wf {s : State} (h : s.mem.wf = true) (quad line part : Nat) :
    (s.l1Alloc quad line part).1.mem.wf = true := by
  grind [State.l1Alloc, State.l1Room_wf]

@[simp] theorem State.l1Fill_wf {s : State} (h : s.mem.wf = true) (quad key part : Nat) (nt : Bool) :
    (s.l1Fill quad key part nt).1.mem.wf = true := by
  grind [State.l1Fill, State.l1Alloc_wf, State.l1Touch_mem]

@[simp] theorem State.l1Store_wf {s : State} (h : s.mem.wf = true) (quad sec part : Nat) (bs : List Byte) (mask : Lanes) (nt : Bool) :
    (s.l1Store quad sec part bs mask nt).1.mem.wf = true := by
  grind [State.l1Store, State.l1Alloc_wf, State.l1Touch_mem]

@[simp] theorem State.wqMerge_wf {s : State} (h : s.mem.wf = true) (e : WqEntry) : (s.wqMerge e).1.mem.wf = true := by
  grind [State.wqMerge, State.l1Store_wf]

@[simp] theorem State.wqFlush_wf {s : State} (h : s.mem.wf = true) (quad sec : Nat) : (s.wqFlush quad sec).1.mem.wf = true := by
  unfold State.wqFlush
  split <;> simp [h]

@[simp] theorem State.wqDrain_wf {s : State} (h : s.mem.wf = true) (quad : Nat) : (s.wqDrain quad).1.mem.wf = true :=
  gotAll_wf h _ fun _ _ ht => State.wqMerge_wf ht _

@[simp] theorem State.wqPush_mem (s : State) (quad part key : Nat) (bs : List Byte) (nt : Bool) :
    (s.wqPush quad part key bs nt).1.mem = s.mem := by
  grind [State.wqPush]

@[simp] theorem State.writeBackAll_wf {s : State} (h : s.mem.wf = true) (quad : Nat) : (s.writeBackAll quad).1.mem.wf = true :=
  gotAll_wf h _ fun _ _ ht => State.writeBackLine_wf ht _ _

@[simp] theorem State.releaseQuad_wf {s : State} (h : s.mem.wf = true) (quad : Nat) : (s.releaseQuad quad).1.mem.wf = true := by
  grind [State.releaseQuad, State.wqDrain_wf, State.writeBackAll_wf]

@[simp] theorem State.acquireQuad_wf {s : State} (h : s.mem.wf = true) (quad : Nat) : (s.acquireQuad quad).1.mem.wf = true := by
  grind [State.acquireQuad, State.releaseQuad_wf]

@[simp] theorem State.sectorOut_wf {s : State} (h : s.mem.wf = true) (quad key : Nat) : (s.sectorOut quad key).1.mem.wf = true := by
  grind [State.sectorOut, State.wqFlush_wf, State.writeBackSector_wf]

@[simp] theorem State.l1DropSector_mem (s : State) (quad key : Nat) : (s.l1DropSector quad key).mem = s.mem := by
  unfold State.l1DropSector
  split <;> simp

@[simp] theorem State.l2Read_wf {s : State} (h : s.mem.wf = true) (die part key n : Nat) (noAlloc first : Bool) :
    (s.l2Read die part key n noAlloc first).1.mem.wf = true := by
  grind [State.l2Read, State.logAway_wf, State.permitted_mem, State.chargeFetch_mem]

@[simp] theorem State.readPast_wf {s : State} (h : s.mem.wf = true) (w : Wave) (quad die : Nat) (p : OpPart) (first : Bool) :
    (s.readPast w quad die p first).1.mem.wf = true := by
  grind [State.readPast, State.sectorOut_wf, State.l2Read_wf]

@[simp] theorem State.missRead_wf {s : State} (h : s.mem.wf = true) (w : Wave) (quad die : Nat) (p : OpPart) (first : Bool) :
    (s.missRead w quad die p first).1.mem.wf = true := by
  grind [State.missRead, State.charge_mem, State.readPast_wf, State.l2Read_wf, State.l1Fill_wf]

@[simp] theorem State.cacheRead_wf {s : State} (h : s.mem.wf = true) (w : Wave) (scope : Scope) (p : OpPart) (need : Lanes)
    (first lead : Bool) : (s.cacheRead w scope p need first lead).1.mem.wf = true := by
  grind [State.cacheRead, State.l1Touch_mem, State.missRead_wf, State.readPast_wf]

@[simp] theorem State.prefetch_wf {s : State} (h : s.mem.wf = true) (w : Wave) (p : OpPart) (l1 : Bool) :
    (s.prefetch w p l1).1.mem.wf = true := by
  grind [State.prefetch, State.directory_wf, State.fillBegins_mem, State.l1Fill_wf]

@[simp] theorem State.scatterWrite_wf {s : State} (h : s.mem.wf = true) (quad : Nat) (p : OpPart) (bs : List Byte) :
    (s.scatterWrite quad p bs).1.mem.wf = true := by
  unfold State.scatterWrite
  split <;> simp [h]

@[simp] theorem State.cacheWrite_wf {s : State} (h : s.mem.wf = true) (w : Wave) (scope : Scope) (p : OpPart) (val : Nat) :
    (s.cacheWrite w scope p val).1.mem.wf = true := by
  grind [State.cacheWrite, State.scatterWrite_wf, State.wqPush_mem, State.wqFlush_wf, State.l2Write_wf, State.l1Touch_mem,
  State.l1Set_mem]

/-! ### Memory-mapped registers -/

@[simp] theorem State.writeXltinvc_mem (s : State) (p : Part) (off size val : Nat) : (s.writeXltinvc p off size val).mem = s.mem := by
  grind [State.writeXltinvc, State.setPart_mem]

@[simp] theorem State.pageWrite_mem (s : State) (p : Part) (off size val : Nat) : (s.pageWrite p off size val).mem = s.mem := by
  grind [State.pageWrite, State.setPart_mem, State.writeXltinvc_mem]

@[simp] theorem State.setChan_mem (s : State) (c : Chan) : (s.setChan c).mem = s.mem := by
  unfold State.setChan
  split <;> simp

@[simp] theorem State.apertureWrite_mem (s : State) (die ch off size val : Nat) : (s.apertureWrite die ch off size val).mem = s.mem := by
  grind [State.apertureWrite, State.setChan_mem]

/-! ### The Runner's parts -/

@[simp] theorem State.modRunner_mem (s : State) (f : Runner → Runner) : (s.modRunner f).mem = s.mem := rfl

@[simp] theorem State.setCtx_mem (s : State) (c : Rctx) : (s.setCtx c).mem = s.mem := rfl

@[simp] theorem State.modStream_mem (s : State) (id : CtxId) (k : Nat) (f : Stream → Stream) : (s.modStream id k f).mem = s.mem := by
  unfold State.modStream
  split <;> simp

@[simp] theorem State.adoptCtx_mem (s : State) (id : CtxId) : (s.adoptCtx id).mem = s.mem := by
  unfold State.adoptCtx
  split <;> simp

theorem State.openCtx_mem {s t : State} {id : CtxId} (h : s.openCtx id = .ready t) : t.mem = s.mem := by
  unfold State.openCtx at h
  grind [State.adoptCtx_mem, State.setCtx_mem, State.modRunner_mem]

@[simp] theorem State.runnerAsk_mem (s : State) (peer : Nat) (get : Bool) (payload : List Byte) :
    (s.runnerAsk peer get payload).mem = s.mem := by
  grind [State.runnerAsk, State.modRunner_mem, State.chargeFlits_mem, State.chargePod_mem]

@[simp] theorem State.pump_mem (s : State) (via : Nat) : (s.pump via).mem = s.mem := by
  grind [State.pump, State.runnerAsk_mem]

@[simp] theorem State.enqueue_mem (s : State) (via : Nat) (p : Packet) : (s.enqueue via p).mem = s.mem := by
  simp [State.enqueue]

@[simp] theorem State.putPacket_mem (s : State) (peer : Nat) (p : Packet) : (s.putPacket peer p).mem = s.mem := by
  unfold State.putPacket
  split <;> simp

@[simp] theorem State.forwardPacket_mem (s : State) (p : Packet) : (s.forwardPacket p).mem = s.mem := by
  unfold State.forwardPacket
  split <;> simp

@[simp] theorem State.modWave_mem (s : State) (seq wid : Nat) (f : Wave → Wave) : (s.modWave seq wid f).mem = s.mem := rfl

@[simp] theorem State.failRequest_mem (s : State) (u : Unacked) (cause sub : Nat) : (s.failRequest u cause sub).mem = s.mem := by
  simp [State.failRequest]

@[simp] theorem State.peerDead_mem (s : State) (peer sub : Nat) : (s.peerDead peer sub).mem = s.mem :=
  foldl_mem (fun _ _ => State.failRequest_mem _ _ _ _) _ _

@[simp] theorem State.heard_mem (s : State) (peer : Nat) : (s.heard peer).mem = s.mem := rfl

@[simp] theorem State.releaseSent_mem (s : State) (seq wid op : Nat) : (s.releaseSent seq wid op).mem = s.mem := by
  grind [State.releaseSent, State.modWave_mem]

@[simp] theorem State.pumpStream_mem (id : CtxId) (k : Nat) : ∀ (n : Nat) (s : State), (s.pumpStream id k n).mem = s.mem
  | 0, _ => rfl
  | n + 1, s => by
    unfold State.pumpStream
    grind [State.pumpStream_mem id k n, State.heard_mem, State.setCtx_mem, State.putPacket_mem, State.releaseSent_mem]

@[simp] theorem State.sendRequest_mem (s : State) (id : CtxId) (k : Nat) (u : Unacked) : (s.sendRequest id k u).mem = s.mem := by
  simp [State.sendRequest]

@[simp] theorem State.refuseRelayed_wf {s : State} (h : s.mem.wf = true) (w : Wave) (p : OpPart) (u : Unacked) (cause sub : Nat) :
    (s.refuseRelayed w p u cause sub).mem.wf = true := by
  simp [State.refuseRelayed, h]

@[simp] theorem State.sendRelayed_wf {s : State} (h : s.mem.wf = true) (w : Wave) (op : Nat) (p : OpPart) :
    (s.sendRelayed w op p).mem.wf = true := by
  unfold State.sendRelayed
  dsimp only
  split
  · exact State.refuseRelayed_wf h _ _ _ _ _
  · split
    next e => simpa [State.openCtx_mem e] using h
    all_goals exact State.refuseRelayed_wf (by exact h) _ _ _ _ _

/-! ### Legality -/

theorem whenLegal_wf {s : State} (h : s.mem.wf = true) {i : Instr} {f : Wave → Issue → UnitSt → Out}
    (hf : ∀ w i u, OutWf (f w i u)) : OutWf (whenLegal s i f) := by
  unfold whenLegal
  refine onUnit_wf fun w is u => ?_
  split
  · exact takeTrap_wf h _ _ _ _ _
  · exact hf _ _ _

/-! ### Uniform words -/

theorem poisonTrap_wf {s : State} (h : s.mem.wf = true) (w : Wave) (i : Issue) : OutWf (poisonTrap s w i) := by
  grind [poisonTrap, takeTrap_wf, outWf_next, outWf_fault]

theorem uGuarded_wf {s : State} (h : s.mem.wf = true) (i : Instr) (g : BitVec 3) (f : Wave → Wave) : OutWf (uGuarded s i g f) := by
  refine whenLegal_wf h fun w i u => ?_
  grind [poisonTrap_wf, finish_wf, outWf_next, outWf_fault]

theorem uImm_wf {s : State} (h : s.mem.wf = true) (i : Instr) (f : Word → Word → Word) (d a : BitVec 6) (imm : BitVec 10) :
    OutWf (uImm s i f d a imm) := by
  refine whenLegal_wf h fun w i u => ?_
  grind [finish_wf, outWf_next, outWf_fault]

theorem execNop_wf {s : State} (h : s.mem.wf = true) : OutWf (execNop s) := by
  refine onUnit_wf fun w i u => ?_
  grind [finish_wf, outWf_next, outWf_fault]

theorem execUadd_wf {s : State} (h : s.mem.wf = true) (d a b : BitVec 6) (g : BitVec 3) : OutWf (execUadd d a b g s) :=
  uGuarded_wf h _ _ _

theorem execUsub_wf {s : State} (h : s.mem.wf = true) (d a b : BitVec 6) (g : BitVec 3) : OutWf (execUsub d a b g s) :=
  uGuarded_wf h _ _ _

theorem execUmul_wf {s : State} (h : s.mem.wf = true) (d a b : BitVec 6) (g : BitVec 3) : OutWf (execUmul d a b g s) :=
  uGuarded_wf h _ _ _

theorem execUmulh_wf {s : State} (h : s.mem.wf = true) (d a b : BitVec 6) (g : BitVec 3) : OutWf (execUmulh d a b g s) :=
  uGuarded_wf h _ _ _

theorem execUmulhu_wf {s : State} (h : s.mem.wf = true) (d a b : BitVec 6) (g : BitVec 3) : OutWf (execUmulhu d a b g s) :=
  uGuarded_wf h _ _ _

theorem execUand_wf {s : State} (h : s.mem.wf = true) (d a b : BitVec 6) (g : BitVec 3) : OutWf (execUand d a b g s) :=
  uGuarded_wf h _ _ _

theorem execUor_wf {s : State} (h : s.mem.wf = true) (d a b : BitVec 6) (g : BitVec 3) : OutWf (execUor d a b g s) :=
  uGuarded_wf h _ _ _

theorem execUxor_wf {s : State} (h : s.mem.wf = true) (d a b : BitVec 6) (g : BitVec 3) : OutWf (execUxor d a b g s) :=
  uGuarded_wf h _ _ _

theorem execUshl_wf {s : State} (h : s.mem.wf = true) (d a b : BitVec 6) (g : BitVec 3) : OutWf (execUshl d a b g s) :=
  uGuarded_wf h _ _ _

theorem execUshr_wf {s : State} (h : s.mem.wf = true) (d a b : BitVec 6) (g : BitVec 3) : OutWf (execUshr d a b g s) :=
  uGuarded_wf h _ _ _

theorem execUsar_wf {s : State} (h : s.mem.wf = true) (d a b : BitVec 6) (g : BitVec 3) : OutWf (execUsar d a b g s) :=
  uGuarded_wf h _ _ _

theorem execUmin_wf {s : State} (h : s.mem.wf = true) (d a b : BitVec 6) (g : BitVec 3) : OutWf (execUmin d a b g s) :=
  uGuarded_wf h _ _ _

theorem execUmax_wf {s : State} (h : s.mem.wf = true) (d a b : BitVec 6) (g : BitVec 3) : OutWf (execUmax d a b g s) :=
  uGuarded_wf h _ _ _

theorem execUminu_wf {s : State} (h : s.mem.wf = true) (d a b : BitVec 6) (g : BitVec 3) : OutWf (execUminu d a b g s) :=
  uGuarded_wf h _ _ _

theorem execUmaxu_wf {s : State} (h : s.mem.wf = true) (d a b : BitVec 6) (g : BitVec 3) : OutWf (execUmaxu d a b g s) :=
  uGuarded_wf h _ _ _

theorem execUmov_wf {s : State} (h : s.mem.wf = true) (d a : BitVec 6) (g : BitVec 3) : OutWf (execUmov d a g s) :=
  uGuarded_wf h _ _ _

theorem execUaddi_wf {s : State} (h : s.mem.wf = true) (d a : BitVec 6) (imm : BitVec 10) : OutWf (execUaddi d a imm s) :=
  uImm_wf h _ _ _ _ _

theorem execUmuli_wf {s : State} (h : s.mem.wf = true) (d a : BitVec 6) (imm : BitVec 10) : OutWf (execUmuli d a imm s) :=
  uImm_wf h _ _ _ _ _

theorem execUandi_wf {s : State} (h : s.mem.wf = true) (d a : BitVec 6) (imm : BitVec 10) : OutWf (execUandi d a imm s) :=
  uImm_wf h _ _ _ _ _

theorem execUori_wf {s : State} (h : s.mem.wf = true) (d a : BitVec 6) (imm : BitVec 10) : OutWf (execUori d a imm s) :=
  uImm_wf h _ _ _ _ _

theorem execUxori_wf {s : State} (h : s.mem.wf = true) (d a : BitVec 6) (imm : BitVec 10) : OutWf (execUxori d a imm s) :=
  uImm_wf h _ _ _ _ _

theorem execUshli_wf {s : State} (h : s.mem.wf = true) (d a : BitVec 6) (imm : BitVec 10) : OutWf (execUshli d a imm s) :=
  uImm_wf h _ _ _ _ _

theorem execUshri_wf {s : State} (h : s.mem.wf = true) (d a : BitVec 6) (imm : BitVec 10) : OutWf (execUshri d a imm s) :=
  uImm_wf h _ _ _ _ _

theorem execUsari_wf {s : State} (h : s.mem.wf = true) (d a : BitVec 6) (imm : BitVec 10) : OutWf (execUsari d a imm s) :=
  uImm_wf h _ _ _ _ _

theorem execUcmp_wf {s : State} (h : s.mem.wf = true) (cc : BitVec 4) (q a b : BitVec 6) (g : BitVec 3) : OutWf (execUcmp cc q a b g s) :=
  uGuarded_wf h _ _ _

theorem execUcmpi_wf {s : State} (h : s.mem.wf = true) (cc : BitVec 3) (q a : BitVec 6) (imm : BitVec 10) :
    OutWf (execUcmpi cc q a imm s) := by
  refine whenLegal_wf h fun w i u => ?_
  grind [finish_wf, outWf_next, outWf_fault]

theorem execUclz_wf {s : State} (h : s.mem.wf = true) (d a : BitVec 6) (g : BitVec 3) : OutWf (execUclz d a g s) :=
  uGuarded_wf h _ _ _

theorem execUpopc_wf {s : State} (h : s.mem.wf = true) (d a : BitVec 6) (g : BitVec 3) : OutWf (execUpopc d a g s) :=
  uGuarded_wf h _ _ _

theorem execUbrev_wf {s : State} (h : s.mem.wf = true) (d a : BitVec 6) (g : BitVec 3) : OutWf (execUbrev d a g s) :=
  uGuarded_wf h _ _ _

theorem execUbfx_wf {s : State} (h : s.mem.wf = true) (d a b : BitVec 6) (g : BitVec 3) : OutWf (execUbfx d a b g s) :=
  uGuarded_wf h _ _ _

theorem execUbfi_wf {s : State} (h : s.mem.wf = true) (d a b : BitVec 6) (g : BitVec 3) : OutWf (execUbfi d a b g s) :=
  uGuarded_wf h _ _ _

theorem execUsel_wf {s : State} (h : s.mem.wf = true) (d a b : BitVec 6) (q : BitVec 3) : OutWf (execUsel d a b q s) := by
  refine whenLegal_wf h fun w i u => ?_
  grind [finish_wf, outWf_next, outWf_fault]

theorem execUqop_wf {s : State} (h : s.mem.wf = true) (d a b : BitVec 6) (o : BitVec 3) : OutWf (execUqop d a b o s) := by
  refine whenLegal_wf h fun w i u => ?_
  grind [finish_wf, outWf_next, outWf_fault]

theorem execUqmovTos_wf {s : State} (h : s.mem.wf = true) (d : BitVec 6) : OutWf (execUqmovTos d s) := by
  refine whenLegal_wf h fun w i u => ?_
  grind [finish_wf, outWf_next, outWf_fault]

theorem execUqmovFroms_wf {s : State} (h : s.mem.wf = true) (a : BitVec 6) : OutWf (execUqmovFroms a s) := by
  refine whenLegal_wf h fun w i u => ?_
  grind [finish_wf, outWf_next, outWf_fault]

/-! ### Memory operations -/

@[simp] theorem State.releaseAt_wf {s : State} (h : s.mem.wf = true) (w : Wave) (a : Arm) (sc : Scope) :
    (s.releaseAt w a sc).1.mem.wf = true := by
  grind [State.releaseAt, State.releaseQuad_wf]

@[simp] theorem State.acquireAt_wf {s : State} (h : s.mem.wf = true) (w : Wave) (sc : Scope) : (s.acquireAt w sc).1.mem.wf = true := by
  unfold State.acquireAt
  split <;> simp [h]

@[simp] theorem State.advanceParts_wf (w : Wave) (sc : Scope) (all : List OpPart) :
    ∀ (ps : List OpPart) {s : State}, s.mem.wf = true → (s.advanceParts w sc all ps).1.mem.wf = true
  | [], _, h => h
  | p :: ps, s, h => by
    have ih {t : State} (ht : t.mem.wf = true) := State.advanceParts_wf w sc all ps ht
    have hr := State.cacheRead_wf h w sc p (coverMask all (sectorKey p.key)) (leadsSector all p) (leadsLine all p)
    unfold State.advanceParts
    grind [State.cacheWrite_wf, State.prefetch_wf]

@[simp] theorem State.clearSector_mem (s : State) (quad sec : Nat) : (s.clearSector quad sec).mem = s.mem := by
  grind [State.clearSector, State.clearPoison_mem, State.l1Set_mem]

@[simp] theorem State.clearCovers_mem (s : State) (w : Wave) (through : OpPart → Bool) (before after : List OpPart) :
    (s.clearCovers w through before after).mem = s.mem :=
  foldl_mem (fun _ _ => by split <;> simp) _ _

@[simp] theorem State.turnAway_wf {s : State} (h : s.mem.wf = true) (w : Wave) (o : PendOp) : (s.turnAway w o).1.mem.wf = true :=
  foldl_wf (fun _ _ ht => State.logAway_wf ht _ _ _ _) _ h

@[simp] theorem State.advance_wf {s : State} (h : s.mem.wf = true) (w : Wave) (o : PendOp) : (s.advance w o).1.mem.wf = true := by
  simp [State.advance, h]

@[simp] theorem State.countLookup_mem (s : State) (w : Wave) (sec : Nat) (noAlloc : Bool) :
    (s.countLookup w sec noAlloc).mem = s.mem := by
  grind [State.countLookup, State.charge_mem, State.fillBegins_mem]

@[simp] theorem foldl_countLookup_mem (w : Wave) (na : Bool) (secs : List Nat) (s : State) :
    (secs.foldl (fun (t : State) k => t.countLookup w k na) s).mem = s.mem :=
  foldl_mem (fun _ _ => State.countLookup_mem _ _ _ _) _ _

@[simp] theorem State.countLookups_mem (s : State) (w : Wave) (sc : Scope) (ps : List OpPart) :
    (s.countLookups w sc ps).mem = s.mem :=
  foldl_mem (fun _ _ => State.countLookup_mem _ _ _ _) _ _

@[simp] theorem State.tier3Part_mem (s : State) (w : Wave) (p : OpPart) : (s.tier3Part w p).1.mem = s.mem := by
  unfold State.tier3Part
  split <;> simp
  cases s.part? w.part <;> simp

@[simp] theorem State.tier3Parts_mem (w : Wave) : ∀ (ps : List OpPart) (s : State), (s.tier3Parts w ps).1.mem = s.mem
  | [], _ => rfl
  | p :: ps, s => by
    simp only [State.tier3Parts, State.tier3Parts_mem w ps]
    split <;> simp

@[simp] theorem State.flushParts_wf {s : State} (h : s.mem.wf = true) (quad : Nat) (sc : Scope) (ps : List OpPart) :
    (s.flushParts quad sc ps).1.mem.wf = true :=
  gotAll_wf h _ fun t p ht => by grind [State.sectorOut_wf, State.l1DropSector_mem]

@[simp] theorem State.ringDoor_mem (s : State) (d : Nat × Nat × Doorbell) : (s.ringDoor d).mem = s.mem := by
  simp [State.ringDoor]

@[simp] theorem State.relayParts_wf {s : State} (h : s.mem.wf = true) (w : Wave) (a : Arm) (id : Nat) (ps : List OpPart) :
    (s.relayParts w a id ps).mem.wf = true := by
  have hf := foldl_wf (f := fun (t : State) p => if p.route = .runner then t.sendRelayed w id p else t)
    (fun t p ht => by
      split
      · exact State.sendRelayed_wf ht _ _ _
      · exact ht) ps h
  unfold State.relayParts
  dsimp only
  split
  · exact hf
  · exact hf

@[simp] theorem foldl_ringDoor_mem (l : List (Nat × Nat × Doorbell)) (s : State) : (l.foldl State.ringDoor s).mem = s.mem :=
  foldl_mem State.ringDoor_mem _ _

@[simp] theorem State.issued_wf {s : State} (h : s.mem.wf = true) (w : Wave) (i : Issue) (x : Access) (sc : Scope) (ps : List OpPart)
    (lowest : Nat) : (s.issued w i x sc ps lowest).mem.wf = true := by
  simp [State.issued, h]

theorem issueAccess_wf {s : State} (h : s.mem.wf = true) (w : Wave) (i : Issue) (x : Access) (sc : Scope) (ps : List OpPart)
    (lowest : Nat) : OutWf (issueAccess s w i x sc ps lowest) := by
  simp [issueAccess, h]

theorem memAccess_wf {s : State} (h : s.mem.wf = true) (w : Wave) (i : Issue) (x : Access) : OutWf (memAccess s w i x) := by
  have hr (sc : Scope) : (if isRelease x.order then s.releaseAt w i.arm sc else (s, true)).1.mem.wf = true := by
    split <;> simp [h]
  have hr := hr (s.clampScope w.part x.scope).2
  unfold memAccess
  grind [stallWord_wf, poisonTrap_wf, takeTrap_wf, State.waitForWalks_mem, outWf_next, State.refuseWord_wf, State.flushParts_wf,
    issueAccess_wf]

@[simp] theorem State.completeOp_wf {s : State} (h : s.mem.wf = true) (seq wid : Nat) (o : PendOp) :
    (s.completeOp seq wid o).mem.wf = true := by
  grind [State.completeOp, State.modWave_mem, State.acquireAt_wf]

theorem execAccessComplete_wf {s : State} (h : s.mem.wf = true) : OutWf (execAccessComplete s) := by
  grind [execAccessComplete, State.advance_wf, State.completeOp_wf, outWf_next, outWf_fault]

/-! ### Control -/

theorem branchTo_wf {s : State} (h : s.mem.wf = true) (w : Wave) (i : Issue) (pc : Nat) : OutWf (branchTo s w i pc) := by
  simp [branchTo, h]

theorem condBranch_wf {s : State} (h : s.mem.wf = true) (i : Instr) (q : BitVec 3) (neg : Bool) (o : BitVec 19) :
    OutWf (condBranch s i q neg o) := by
  refine whenLegal_wf h fun w i u => ?_
  grind [poisonTrap_wf, branchTo_wf, finish_wf, outWf_next, outWf_fault]

theorem execBra_wf {s : State} (h : s.mem.wf = true) (q : BitVec 3) (o : BitVec 19) : OutWf (execBra q o s) :=
  condBranch_wf h _ _ _ _

theorem execBran_wf {s : State} (h : s.mem.wf = true) (q : BitVec 3) (o : BitVec 19) : OutWf (execBran q o s) :=
  condBranch_wf h _ _ _ _

theorem execJmpi_wf {s : State} (h : s.mem.wf = true) (q : BitVec 3) (a : BitVec 6) : OutWf (execJmpi q a s) := by
  refine whenLegal_wf h fun w i u => ?_
  grind [poisonTrap_wf, finish_wf, takeTrap_wf, branchTo_wf, outWf_next, outWf_fault]

theorem spillTrap_wf {s : State} (h : s.mem.wf = true) (w : Wave) (i : Issue) (f : SpillFail) (write : Bool) :
    OutWf (spillTrap s w i f write) := by
  unfold spillTrap
  split
  · exact takeTrap_wf h _ _ _ _ _
  · exact takeTrap_wf (State.logError_wf h _ _) _ _ _ _ _

@[simp] theorem State.spillReg_wf {s : State} (h : s.mem.wf = true) (w : Wave) (l : Nat) : (s.spillReg w l).1.mem.wf = true :=
  State.poke_wf (by simpa using h) _ _

@[simp] theorem State.spillGranules_wf : ∀ (n : Nat) {s : State}, s.mem.wf = true → ∀ (w : Wave) (l : Nat),
    (s.spillGranules w l n).1.mem.wf = true
  | 0, _, h, _, _ => h
  | n + 1, s, h, w, l => by
    unfold State.spillGranules
    split
    · exact h
    · exact State.spillGranules_wf n (foldl_fst_wf (f := fun (x : State × Wave) i => x.1.spillReg x.2 (l + i))
        (fun _ _ ht => State.spillReg_wf ht _ _) (List.range 8) (s := (s, w)) h) _ _

@[simp] theorem State.fillReg_mem (s : State) (w : Wave) (l : Nat) : (s.fillReg w l).1.mem = s.mem := by
  simp [State.fillReg]

@[simp] theorem State.foldl_fillReg_mem (l : Nat) : ∀ (is : List Nat) (x : State × Wave),
    (is.foldl (fun (x : State × Wave) i => x.1.fillReg x.2 (l + i)) x).1.mem = x.1.mem
  | [], _ => rfl
  | i :: is, x => by rw [List.foldl_cons, State.foldl_fillReg_mem l is, State.fillReg_mem]

theorem State.fillGranules_mem : ∀ (n : Nat) {s : State} {w : Wave} {l : Nat} {x : State × Wave},
    s.fillGranules w l n = .ok x → x.1.mem = s.mem
  | 0, _, _, _, _, e => by cases e; rfl
  | n + 1, s, w, l, x, e => by
    unfold State.fillGranules at e
    split at e
    · cases e
    · exact (State.fillGranules_mem n e).trans (State.foldl_fillReg_mem l (List.range 8) (s, w))

theorem State.pushCall_wf {s : State} (h : s.mem.wf = true) (w : Wave) (r : CallRec) : ResWf (s.pushCall w r) := by
  grind [State.pushCall, State.pokeNat_mem, State.pokeNat_wf, State.arrayAccess_mem, resWf_ok, resWf_error]

theorem State.popCall_wf {s : State} (h : s.mem.wf = true) (w : Wave) : ResWf (s.popCall w) := by
  grind [State.popCall, State.arrayAccess_mem, resWf_ok, resWf_error]

theorem State.pushEntry_wf {s : State} (h : s.mem.wf = true) (w : Wave) (a : Arm) (e : DivEntry) : ResWf (s.pushEntry w a e) := by
  grind [State.pushEntry, State.pokeNat_mem, State.pokeNat_wf, State.arrayAccess_mem, resWf_ok, resWf_error]

theorem State.popEntry_wf {s : State} (h : s.mem.wf = true) (w : Wave) (a : Arm) : ResWf (s.popEntry w a) := by
  grind [State.popEntry, State.arrayAccess_mem, resWf_ok, resWf_error]

theorem takeCall_wf {s : State} (h : s.mem.wf = true) (w : Wave) (i : Issue) (u : UnitSt) (step target : Nat) :
    OutWf (takeCall s w i u step target) := by
  have hg {s1 w1 f} (n : Nat) (e : s.spillGranules w w.lo n = (s1, w1, f)) : s1.mem.wf = true := by
    simpa [e] using State.spillGranules_wf n h w w.lo
  unfold takeCall
  split
  · exact takeTrap_wf h _ _ _ _ _
  · dsimp only
    split
    next e => exact spillTrap_wf (hg _ e) _ _ _ _
    next s1 w1 e =>
      split
      · exact spillTrap_wf (hg _ e) _ _ _ _
      next e2 => exact branchTo_wf (State.pushCall_wf (hg _ e) _ _ _ e2) _ _ _

theorem execCall_wf {s : State} (h : s.mem.wf = true) (q : BitVec 3) (o : BitVec 19) : OutWf (execCall q o s) := by
  refine whenLegal_wf h fun w i u => ?_
  grind [poisonTrap_wf, takeCall_wf, finish_wf, outWf_next, outWf_fault]

theorem execCalli_wf {s : State} (h : s.mem.wf = true) (q : BitVec 3) (a : BitVec 6) : OutWf (execCalli q a s) := by
  refine whenLegal_wf h fun w i u => ?_
  grind [poisonTrap_wf, finish_wf, takeTrap_wf, takeCall_wf, outWf_next, outWf_fault]

theorem takeRet_wf {s : State} (h : s.mem.wf = true) (w : Wave) (i : Issue) : OutWf (takeRet s w i) := by
  unfold takeRet
  split
  · exact takeTrap_wf h _ _ _ _ _
  · dsimp only
    split
    · exact spillTrap_wf h _ _ _ _
    next s1 w1 e =>
      have h1 : s1.mem.wf = true := by rw [State.fillGranules_mem _ e]; exact h
      split
      · exact spillTrap_wf h _ _ _ _
      next e2 => exact branchTo_wf (State.popCall_wf h1 _ _ e2) _ _ _

theorem execRet_wf {s : State} (h : s.mem.wf = true) (q : BitVec 3) : OutWf (execRet q s) := by
  refine whenLegal_wf h fun w i u => ?_
  grind [poisonTrap_wf, takeRet_wf, finish_wf, outWf_next, outWf_fault]

theorem execSpillComplete_wf {s : State} (h : s.mem.wf = true) : OutWf (execSpillComplete s) := by
  grind [execSpillComplete, State.setWave_mem, outWf_next, outWf_fault]

theorem State.arrive_wf : ∀ (n : Nat) {s : State}, s.mem.wf = true → ∀ (w : Wave) (a : Arm), ResWf (s.arrive n w a)
  | 0, _, h, _, _ => resWf_ok.mpr h
  | n + 1, s, h, w, a => by
    unfold State.arrive
    dsimp only
    split
    · exact resWf_ok.mpr h
    · split
      · exact resWf_ok.mpr h
      · split
        · exact resWf_ok.mpr h
        · split
          · exact resWf_error
          next e =>
            have h1 := State.popEntry_wf h w a _ e
            split
            · split
              · exact State.arrive_wf n h1 _ _
              · exact resWf_ok.mpr h1
            · split
              · exact State.arrive_wf n h1 _ _
              · exact resWf_ok.mpr h1

theorem arriveAtJoin_wf {s : State} (h : s.mem.wf = true) (w : Wave) (i : Issue) : OutWf (arriveAtJoin s w i) := by
  unfold arriveAtJoin
  split
  · exact stallWord_wf h
  · split
    · split
      · simpa using h
      · exact spillTrap_wf h _ _ _ _
    next e => simpa using State.arrive_wf _ h _ _ _ e

theorem execSplit_wf {s : State} (h : s.mem.wf = true) (p : BitVec 6) (e : BitVec 16) : OutWf (execSplit p e s) := by
  refine whenLegal_wf h fun w i u => outWf_ite (poisonTrap_wf h _ _) (outWf_ite (takeTrap_wf h _ _ _ _ _) ?_)
  refine outWf_ite (outWf_next.mpr (by simpa using h)) ?_
  dsimp only
  split
  · exact spillTrap_wf h _ _ _ _
  next e => exact outWf_next.mpr (by simpa using State.pushEntry_wf h _ _ _ _ e)

theorem execJoin_wf {s : State} (h : s.mem.wf = true) : OutWf (execJoin s) := by
  refine whenLegal_wf h fun w i u => ?_
  grind [arriveAtJoin_wf, outWf_next, outWf_fault]

theorem execBrkp_wf {s : State} (h : s.mem.wf = true) (p : BitVec 6) : OutWf (execBrkp p s) := by
  refine whenLegal_wf h fun w i u => ?_
  grind [poisonTrap_wf, arriveAtJoin_wf, finish_wf, outWf_next, outWf_fault]

theorem execPmask_wf {s : State} (h : s.mem.wf = true) (d : BitVec 6) : OutWf (execPmask d s) := by
  refine whenLegal_wf h fun w i u => ?_
  grind [finish_wf, outWf_next, outWf_fault]

theorem execAnyp_wf {s : State} (h : s.mem.wf = true) (d p : BitVec 6) : OutWf (execAnyp d p s) := by
  refine whenLegal_wf h fun w i u => ?_
  grind [finish_wf, outWf_next, outWf_fault]

theorem execAllp_wf {s : State} (h : s.mem.wf = true) (d p : BitVec 6) : OutWf (execAllp d p s) := by
  refine whenLegal_wf h fun w i u => ?_
  grind [finish_wf, outWf_next, outWf_fault]

theorem execHalt_wf {s : State} (h : s.mem.wf = true) : OutWf (execHalt s) := by
  refine whenLegal_wf h fun w i u => ?_
  grind [arriveAtJoin_wf, outWf_next, outWf_fault]

theorem execYield_wf {s : State} (h : s.mem.wf = true) : OutWf (execYield s) := by
  refine whenLegal_wf h fun w i u => ?_
  grind [finish_wf, outWf_next, outWf_fault]

theorem sleepWith_wf {s : State} (h : s.mem.wf = true) (w : Wave) (i : Issue) (x : Wait) : OutWf (sleepWith s w i x) := by
  simp [sleepWith, h]

theorem execSleepuntil_wf {s : State} (h : s.mem.wf = true) (k : BitVec 5) : OutWf (execSleepuntil k s) := by
  refine whenLegal_wf h fun w i u => ?_
  dsimp only
  split
  · exact poisonTrap_wf h _ _
  · split
    · exact finish_wf h _ _
    · exact sleepWith_wf h _ _ _

theorem execTrap_wf {s : State} (h : s.mem.wf = true) (n : BitVec 8) : OutWf (execTrap n s) := by
  refine whenLegal_wf h fun w i u => ?_
  grind [takeTrap_wf, outWf_next, outWf_fault]

@[simp] theorem State.debugStop_mem (s : State) (w : Wave) (reason : Nat) : (s.debugStop w reason).mem = s.mem := rfl

@[simp] theorem State.stopStep_mem (s : State) (seq wid : Nat) : (s.stopStep seq wid).mem = s.mem := by
  grind [State.stopStep, State.debugStop_mem]

theorem execBkpt_wf {s : State} (h : s.mem.wf = true) (n : BitVec 8) : OutWf (execBkpt n s) := by
  refine whenLegal_wf h fun w i u => ?_
  grind [State.trapped_mem, State.debugStop_mem, takeTrap_wf, outWf_next, outWf_fault]

/-! ### Loads, stores and fences -/

theorem uniformAccess_wf {s : State} (h : s.mem.wf = true) (i : Instr) (a : BitVec 6) (imm : BitVec 10) (size : Nat)
    (store : Option (BitVec 6)) (dest : Dest) : OutWf (uniformAccess s i a imm size store dest) := by
  refine whenLegal_wf h fun w i u => ?_
  grind [poisonTrap_wf, memAccess_wf, outWf_next, outWf_fault]

theorem execUld32_wf {s : State} (h : s.mem.wf = true) (d a : BitVec 6) (imm : BitVec 10) : OutWf (execUld32 d a imm s) :=
  uniformAccess_wf h _ _ _ _ _ _

theorem execUld64_wf {s : State} (h : s.mem.wf = true) (d a : BitVec 6) (imm : BitVec 10) : OutWf (execUld64 d a imm s) :=
  uniformAccess_wf h _ _ _ _ _ _

theorem execUst32_wf {s : State} (h : s.mem.wf = true) (d a : BitVec 6) (imm : BitVec 10) : OutWf (execUst32 d a imm s) :=
  uniformAccess_wf h _ _ _ _ _ _

theorem execUst64_wf {s : State} (h : s.mem.wf = true) (d a : BitVec 6) (imm : BitVec 10) : OutWf (execUst64 d a imm s) :=
  uniformAccess_wf h _ _ _ _ _ _

theorem baseAccess_wf {s : State} (h : s.mem.wf = true) (i : Instr) (k : Nat) {f : Wave → Issue → UnitSt → Nat → Out}
    (hf : ∀ w i u va, OutWf (f w i u va)) : OutWf (baseAccess s i k f) := by
  refine whenLegal_wf h fun w is u => ?_
  split
  · exact poisonTrap_wf h _ _
  · exact hf _ _ _ _

theorem execLdg_wf {s : State} (h : s.mem.wf = true) (z : BitVec 2) (sc : BitVec 3) (r : BitVec 2) (d o : BitVec 6) (k : BitVec 5)
    (n : BitVec 1) : OutWf (execLdg z sc r d o k n s) := by
  refine baseAccess_wf h _ _ fun w i u va => ?_
  grind [memAccess_wf, outWf_next, outWf_fault]

theorem execStg_wf {s : State} (h : s.mem.wf = true) (z : BitVec 2) (sc : BitVec 3) (r : BitVec 2) (d o : BitVec 6) (k : BitVec 5)
    (n : BitVec 1) : OutWf (execStg z sc r d o k n s) := by
  refine baseAccess_wf h _ _ fun w i u va => ?_
  grind [memAccess_wf, outWf_next, outWf_fault]

theorem execGather_wf {s : State} (h : s.mem.wf = true) (z : BitVec 2) (sc : BitVec 3) (r : BitVec 2) (d o : BitVec 6) (k : BitVec 5)
    (n : BitVec 1) : OutWf (execGather z sc r d o k n s) := by
  refine baseAccess_wf h _ _ fun w i u va => ?_
  grind [memAccess_wf, outWf_next, outWf_fault]

theorem execScatter_wf {s : State} (h : s.mem.wf = true) (z : BitVec 2) (sc : BitVec 3) (r : BitVec 2) (d o : BitVec 6) (k : BitVec 5)
    (n : BitVec 1) : OutWf (execScatter z sc r d o k n s) := by
  refine baseAccess_wf h _ _ fun w i u va => ?_
  grind [memAccess_wf, outWf_next, outWf_fault]

theorem execAtomg_wf {s : State} (h : s.mem.wf = true) (p : BitVec 3) (w64 : BitVec 1) (sc : BitVec 3) (r : BitVec 2) (d o : BitVec 6)
    (k : BitVec 4) : OutWf (execAtomg p w64 sc r d o k s) := by
  refine baseAccess_wf h _ _ fun w i u va => ?_
  grind [memAccess_wf, outWf_next, outWf_fault]

theorem qspAccess_wf {s : State} (h : s.mem.wf = true) (w : Wave) (i : Issue) (x : Access) (col : Bool) :
    OutWf (qspAccess s w i x col) := by
  grind [qspAccess, stallWord_wf, State.releaseAt_wf, State.clampScope_mem, poisonTrap_wf, takeTrap_wf, State.refuseWord_wf,
  issueAccess_wf, outWf_next, outWf_fault]

theorem execLdq_wf {s : State} (h : s.mem.wf = true) (z : BitVec 2) (sc : BitVec 3) (r : BitVec 2) (d o : BitVec 6) (k : BitVec 5)
    (n : BitVec 1) : OutWf (execLdq z sc r d o k n s) := by
  refine baseAccess_wf h _ _ fun w i u va => ?_
  grind [qspAccess_wf, outWf_next, outWf_fault]

theorem execStq_wf {s : State} (h : s.mem.wf = true) (z : BitVec 2) (sc : BitVec 3) (r : BitVec 2) (d o : BitVec 6) (k : BitVec 5)
    (n : BitVec 1) : OutWf (execStq z sc r d o k n s) := by
  refine baseAccess_wf h _ _ fun w i u va => ?_
  grind [qspAccess_wf, outWf_next, outWf_fault]

theorem execAtomq_wf {s : State} (h : s.mem.wf = true) (p : BitVec 3) (n : BitVec 1) (sc : BitVec 3) (r : BitVec 2) (d o : BitVec 6)
    (k : BitVec 4) : OutWf (execAtomq p n sc r d o k s) := by
  refine baseAccess_wf h _ _ fun w i u va => ?_
  grind [qspAccess_wf, outWf_next, outWf_fault]

theorem fenceDone_wf {g : Got} (h : g.1.mem.wf = true) (w : Wave) (i : Issue) (sc : Scope) (acquire : Bool) :
    OutWf (fenceDone g w i sc acquire) := by
  have ha : (if acquire then g.1.acquireAt (g.1.again w) (g.1.clampScope w.part sc).2 else (g.1, true)).1.mem.wf = true :=
    fst_wf_ite (State.acquireAt_wf h _ _) h
  exact outWf_ite (stallWord_wf h) (outWf_ite (stallWord_wf ha) (finish_wf (by simpa using ha) _ _))

theorem execFence_wf {s : State} (h : s.mem.wf = true) (sc : BitVec 3) : OutWf (execFence sc s) := by
  refine whenLegal_wf h fun w i u => ?_
  grind [fenceDone_wf, State.releaseAt_wf, State.clampScope_mem, outWf_next, outWf_fault]

theorem execFenceacq_wf {s : State} (h : s.mem.wf = true) (sc : BitVec 3) : OutWf (execFenceacq sc s) := by
  refine whenLegal_wf h fun w i u => ?_
  grind [fenceDone_wf, State.clampScope_mem, outWf_next, outWf_fault]

theorem execFencerel_wf {s : State} (h : s.mem.wf = true) (sc : BitVec 3) : OutWf (execFencerel sc s) := by
  refine whenLegal_wf h fun w i u => ?_
  grind [fenceDone_wf, State.releaseAt_wf, State.clampScope_mem, outWf_next, outWf_fault]

theorem execFenceeng_wf {s : State} (h : s.mem.wf = true) (sc : BitVec 3) : OutWf (execFenceeng sc s) := by
  refine whenLegal_wf h fun w i u => ?_
  grind [stallWord_wf, fenceDone_wf, State.releaseAt_wf, State.clampScope_mem, outWf_next, outWf_fault]

@[simp] theorem State.lineOp_wf {s : State} (h : s.mem.wf = true) (quad line : Nat) (op : LineOp) :
    (s.lineOp quad line op).1.mem.wf = true := by
  have hq := gotAll_wf h [line, line + 64] (f := fun t k => t.wqFlush quad k) fun _ _ ht => State.wqFlush_wf ht _ _
  unfold State.lineOp
  split
  · simpa using h
  · dsimp only
    split
    · exact hq
    · split
      · simpa using State.writeBackLine_wf hq quad line
      · exact State.writeBackLine_wf hq quad line

theorem lineWord_wf {s : State} (h : s.mem.wf = true) (i : Instr) (o : BitVec 6) (k : BitVec 5) (op : LineOp) :
    OutWf (lineWord s i o k op) := by
  refine baseAccess_wf h _ _ fun w i u va => ?_
  have hl (ls : List Nat) := gotAll_wf h ls (f := fun t l => t.lineOp (coreQuad w.core) l op) fun _ _ ht => State.lineOp_wf ht _ _ _
  split
  · exact poisonTrap_wf h _ _
  · dsimp only
    split
    · exact outWf_next.mpr (by simpa using h)
    · split
      · exact outWf_next.mpr (State.refuseWord_wf h _ _ _ _ _ _ _ _)
      · split
        · exact stallWord_wf h
        · split
          · exact finish_wf (hl _) _ _
          · exact stallWord_wf (hl _)

theorem execWbl_wf {s : State} (h : s.mem.wf = true) (o : BitVec 6) (k : BitVec 5) (n : BitVec 1) : OutWf (execWbl o k n s) :=
  lineWord_wf h _ _ _ _

theorem execInvl_wf {s : State} (h : s.mem.wf = true) (o : BitVec 6) (k : BitVec 5) (n : BitVec 1) : OutWf (execInvl o k n s) :=
  lineWord_wf h _ _ _ _

theorem execFlushl_wf {s : State} (h : s.mem.wf = true) (o : BitVec 6) (k : BitVec 5) (n : BitVec 1) : OutWf (execFlushl o k n s) :=
  lineWord_wf h _ _ _ _

theorem execPref_wf {s : State} (h : s.mem.wf = true) (o : BitVec 6) (k : BitVec 5) (n : BitVec 1) : OutWf (execPref o k n s) := by
  refine baseAccess_wf h _ _ fun w i u va => ?_
  split
  · exact poisonTrap_wf h _ _
  · split
    · exact stallWord_wf h
    · dsimp only
      split
      · exact outWf_next.mpr (by simpa using h)
      · split
        · exact finish_wf (State.advance_wf (by simpa using h) _ _) _ _
        · exact finish_wf (State.advance_wf (by simpa using h) _ _) _ _

/-! ### Rows -/

@[simp] theorem State.setSlot_mem (s : State) (r : RowSlot) : (s.setSlot r).mem = s.mem := rfl

@[simp] theorem State.pinRow_mem (s : State) (part key : Nat) : (s.pinRow part key).1.mem = s.mem := by
  grind [State.pinRow, State.setSlot_mem]

theorem rowWord_wf {s : State} (h : s.mem.wf = true) (w : Wave) (i : Issue) (d : BitVec 6) (wide : Bool) (val : Nat) :
    OutWf (rowWord s w i d wide val) := by
  grind [rowWord, finish_wf, outWf_next, outWf_fault]

theorem execRowpin_wf {s : State} (h : s.mem.wf = true) (d : BitVec 6) (k : BitVec 5) : OutWf (execRowpin d k s) := by
  refine baseAccess_wf h _ _ fun w i u va => ?_
  grind [State.waitForWalks_mem, State.refuseWord_wf, stallWord_wf, State.pinRow_mem, rowWord_wf, outWf_next, outWf_fault]

theorem execRowunpin_wf {s : State} (h : s.mem.wf = true) (d a : BitVec 6) : OutWf (execRowunpin d a s) := by
  refine whenLegal_wf h fun w i u => ?_
  grind [poisonTrap_wf, stallWord_wf, rowWord_wf, State.setSlot_mem, outWf_next, outWf_fault]

theorem execRowqry_wf {s : State} (h : s.mem.wf = true) (d a : BitVec 6) : OutWf (execRowqry d a s) := by
  refine whenLegal_wf h fun w i u => ?_
  grind [poisonTrap_wf, stallWord_wf, rowWord_wf, outWf_next, outWf_fault]

@[simp] theorem State.switchRowsOut_mem (s : State) (p : Part) : (s.switchRowsOut p).mem = s.mem := by
  unfold State.switchRowsOut
  split <;> simp

@[simp] theorem State.restoreRow_mem (s : State) (rec : RowSlot) : (s.restoreRow rec).mem = s.mem := by
  grind [State.restoreRow, State.setSlot_mem]

@[simp] theorem State.switchRowsIn_mem (s : State) (part : Nat) : (s.switchRowsIn part).mem = s.mem :=
  foldl_mem State.restoreRow_mem _ _

theorem execRefresh_wf {s : State} (h : s.mem.wf = true) : OutWf (execRefresh s) := by
  grind [execRefresh, State.charge_mem, outWf_next, outWf_fault]

/-! ### Phases -/

@[simp] theorem State.reachSector_wf {s : State} (h : s.mem.wf = true) (w : Wave) (key n : Nat) (noAlloc : Bool) :
    (s.reachSector w key n noAlloc).1.mem.wf = true := by
  grind [State.reachSector, State.sectorOut_wf, State.l2Read_wf, State.directory_wf]

theorem relayAsk_wf {s : State} (h : s.mem.wf = true) (w : Wave) (i : Issue) (u : UnitSt) (va key n : Nat) :
    OutWf (relayAsk s w i u va key n) := by
  grind [relayAsk, stallWord_wf, State.relayParts_wf, State.setWave_mem, outWf_next, outWf_fault]

/-- The sectors of a read at a table, each made visible to the die in turn. -/
theorem gotAll_sectorOut_wf {s : State} (h : s.mem.wf = true) (quad : Nat) (secs : List Nat) :
    (gotAll s secs fun t k => t.sectorOut quad k).1.mem.wf = true :=
  gotAll_wf h _ fun _ _ ht => State.sectorOut_wf ht _ _

theorem gotAll_reachSector_wf {s : State} (h : s.mem.wf = true) (w : Wave) (key : Nat) (na : Bool) (secs : List Nat) :
    (gotAll s secs fun t k => t.reachSector w (max k key) 1 na).1.mem.wf = true :=
  gotAll_wf h _ fun _ _ ht => State.reachSector_wf ht _ _ _ _

theorem State.readData_wf {s : State} (h : s.mem.wf = true) (w : Wave) (i : Issue) (u : UnitSt) (va n : Nat) (lookups : Bool) :
    DataWf (s.readData w i u va n lookups) := by
  have hf (k : Nat) := gotAll_sectorOut_wf h (coreQuad w.core) (sectorsOf k n)
  unfold State.readData
  split
  · exact outWf_next.mpr (by simpa using h)
  · exact outWf_next.mpr (State.refuseWord_wf h _ _ _ _ _ _ _ _)
  · refine dataWf_ite (stallWord_wf h) ?_
    split
    · exact h
    · exact h
    · exact dataWf_ite (stallWord_wf h) (dataWf_ite (relayAsk_wf h _ _ _ _ _ _) h)
    · split
      · exact outWf_next.mpr (State.refuseWord_wf h _ _ _ _ _ _ _ _)
      next key _ =>
        refine dataWf_ite (stallWord_wf h) (dataWf_ite (stallWord_wf (hf key)) (dataWf_ite (stallWord_wf ?_) ?_))
        all_goals exact gotAll_reachSector_wf (wf_ite (by simpa using hf key) (hf key)) _ _ _ _

theorem execWaitline_wf {s : State} (h : s.mem.wf = true) (k : BitVec 5) (sx sy : BitVec 6) : OutWf (execWaitline k sx sy s) := by
  refine baseAccess_wf h _ _ fun w i u va => ?_
  have hd := State.readData_wf h w i u va 4 true
  split
  · exact poisonTrap_wf h _ _
  · split
    · exact takeTrap_wf h _ _ _ _ _
    · split
      · split
        · exact outWf_next.mpr (State.refuseWord_wf h _ _ _ _ _ _ _ _)
        · split
          next e => simpa [e, DataWf] using hd
          next e =>
            have h1 := hd
            rw [e] at h1
            dsimp only
            split
            · exact takeTrap_wf h1 _ _ _ _ _
            · split
              · exact finish_wf h1 _ _
              · exact sleepWith_wf h1 _ _ _
      · exact outWf_next.mpr (by simpa using h)
      · exact outWf_next.mpr (State.refuseWord_wf h _ _ _ _ _ _ _ _)

theorem dispatchFrom_wf (i : Issue) (u : UnitSt) (ndim : Nat) (shape : List Nat) :
    ∀ (n b : Nat) (w : Wave) {s : State}, s.mem.wf = true → OutWf (dispatchFrom s w i u ndim shape b n)
  | 0, _, _, _, h => branchTo_wf h _ _ _
  | n + 1, b, w, s, h => by
    have hd := State.readData_wf h w i u (addAddr (s.dtab w) (128 * (b + 1))) 84 false
    unfold dispatchFrom
    split
    next e => simpa [e, DataWf] using hd
    next s1 _ _ _ _ e =>
      have h1 : s1.mem.wf = true := by simpa [e, DataWf] using hd
      dsimp only
      split
      · exact takeTrap_wf h1 _ _ _ _ _
      · exact outWf_ite (branchTo_wf h1 _ _ _) (dispatchFrom_wf i u ndim shape n _ _ h1)

theorem execDispatch_wf {s : State} (h : s.mem.wf = true) (a : BitVec 6) : OutWf (execDispatch a s) := by
  refine whenLegal_wf h fun w i u => ?_
  have hd := State.readData_wf h w i u (s.dtab w) 4 false
  split
  next e => simpa [e, DataWf] using hd
  next s1 _ _ _ _ e =>
    have h1 : s1.mem.wf = true := by simpa [e, DataWf] using hd
    dsimp only
    split
    · exact takeTrap_wf h1 _ _ _ _ _
    · exact outWf_ite (poisonTrap_wf h1 _ _) (dispatchFrom_wf _ _ _ _ _ _ _ h1)

@[simp] theorem State.unitWrite_wf {s : State} (h : s.mem.wf = true) (quad part key : Nat) (bs : List Byte) (poison : Bool) :
    (s.unitWrite quad part key bs poison).1.mem.wf = true := by
  grind [State.unitWrite, State.sectorOut_wf, State.l1DropSector_mem, State.l2Write_wf]

theorem withEntry_wf {s : State} (h : s.mem.wf = true) (w : Wave) (i : Issue) (u : UnitSt) {none' : State → Wave → Out}
    {f : State → Wave → Nat → Nat → TlbEntry → Out} (hn : ∀ t w, t.mem.wf = true → OutWf (none' t w))
    (hf : ∀ t w k n e, t.mem.wf = true → OutWf (f t w k n e)) : OutWf (withEntry s w i u none' f) := by
  have hd {t : State} (ht : t.mem.wf = true) (w : Wave) (va n : Nat) := State.readData_wf ht w i u va n false
  unfold withEntry
  split
  next e => simpa [e, DataWf] using hd h w (s.dtab w) 4
  next s1 _ _ _ _ e =>
    have h1 : s1.mem.wf = true := by simpa [e, DataWf] using hd h w (s.dtab w) 4
    split
    · exact takeTrap_wf h1 _ _ _ _ _
    · split
      · exact hn _ _ h1
      · split
        next e2 => simpa [e2, DataWf] using hd h1 (s1.again w) (addAddr (s.dtab w) (128 * (w.bucket.toNat + 1) + 64)) 64
        next s2 _ _ _ _ e2 =>
          have h2 : s2.mem.wf = true := by
            simpa [e2, DataWf] using hd h1 (s1.again w) (addAddr (s.dtab w) (128 * (w.bucket.toNat + 1) + 64)) 64
          split
          · exact takeTrap_wf h2 _ _ _ _ _
          · split
            · exact stallWord_wf h2
            · exact hf _ _ _ _ _ h2

theorem relayWrite_wf {s : State} (h : s.mem.wf = true) (w : Wave) (i : Issue) (key e : Nat) : OutWf (relayWrite s w i key e) :=
  outWf_ite (stallWord_wf h) (outWf_next.mpr (State.relayParts_wf (by exact h) _ _ _ _))

theorem writeEntry_wf {s : State} (h : s.mem.wf = true) (w : Wave) (i : Issue) (key e : Nat) (tlb : TlbEntry) (w' : Wave → Wave) :
    OutWf (writeEntry s w i key e tlb w') := by
  unfold writeEntry
  grind [outWf_next, State.refuseWord_wf, relayWrite_wf, State.unitWrite_wf, finish_wf, stallWord_wf]

theorem execPhaseend_wf {s : State} (h : s.mem.wf = true) (g : BitVec 2) : OutWf (execPhaseend g s) :=
  whenLegal_wf h fun _ _ _ => outWf_ite (finish_wf h _ _) <|
    withEntry_wf h _ _ _ (fun _ _ ht => finish_wf ht _ _) fun _ _ _ _ _ ht => writeEntry_wf ht _ _ _ _ _ _

theorem execPhasesel_wf {s : State} (h : s.mem.wf = true) : OutWf (execPhasesel s) :=
  whenLegal_wf h fun _ _ _ => withEntry_wf h _ _ _ (fun _ _ ht => finish_wf ht _ _) fun _ _ _ _ _ ht => writeEntry_wf ht _ _ _ _ _ _

/-! ### Modules -/

@[simp] theorem State.chargeSnoop_mem (s : State) (line : Nat) : (s.chargeSnoop line).mem = s.mem :=
  foldl_mem (fun _ _ => State.charge_mem _ _ _ _) _ _

@[simp] theorem State.snoopClean_wf {s : State} (h : s.mem.wf = true) (line : Nat) : (s.snoopClean line).mem.wf = true :=
  foldl_wf (fun _ _ ht => State.returnLine_wf (by simpa using ht) _) _ h

@[simp] theorem State.snoopInv_wf {s : State} (h : s.mem.wf = true) (line : Nat) : (s.snoopInv line).mem.wf = true := by
  simp [State.snoopInv, h]

@[simp] theorem State.snoopData_wf {s : State} (h : s.mem.wf = true) (line : Nat) : (s.snoopData line).mem.wf = true := by
  grind [State.snoopData, State.wakeLine_mem, State.snoopClean_wf, State.chargeSnoop_mem, State.setPerm_mem]

@[simp] theorem State.answerSnoop_mem (s : State) (a : SnoopAnswer) : (s.answerSnoop a).mem = s.mem := by
  simp [State.answerSnoop]

@[simp] theorem State.recallLine_wf {s : State} (h : s.mem.wf = true) (write : Bool) (line : Nat) :
    (s.recallLine write line).mem.wf = true := by
  grind [State.recallLine, State.answerSnoop_mem, State.snoopInv_wf]

@[simp] theorem State.recall_wf {s : State} (h : s.mem.wf = true) (key n : Nat) (write : Bool) : (s.recall key n write).mem.wf = true :=
  foldl_wf (fun _ _ ht => State.recallLine_wf ht _ _) _ h

@[simp] theorem State.kweutAtom_wf {s : State} (h : s.mem.wf = true) (r : KReq) : (s.kweutAtom r).1.mem.wf = true := by
  grind [State.kweutAtom, State.recall_wf, State.pokeNat_mem, State.pokeNat_wf]

/-- A module's QPUT keeps memory in canonical form. (The recalled state and the reads of the descriptor stand as variables of a lemma
of its own, so that the kernel does not evaluate them.) -/
@[simp] theorem State.kweutPut_wf {s : State} (h : s.mem.wf = true) (r : KReq) : (s.kweutPut r).1.mem.wf = true := by
  have hr := State.recall_wf h (moduleKey r.module r.addr) 64 true
  unfold State.kweutPut
  generalize s.kweutObject r 64 64 = refused, State.queueDesc = desc, State.peekNat = peek, s.recall = recalled at hr ⊢
  as_aux_lemma =>
    split
    · exact h
    · dsimp only
      split
      · exact hr
      · refine fst_wf_ite hr ?_
        split
        · exact hr
        · exact State.pokeNat_wf (State.poke_wf (State.recall_wf hr _ _ _) _ _) _ _ _

@[simp] theorem State.kweutGet_wf {s : State} (h : s.mem.wf = true) (r : KReq) : (s.kweutGet r).1.mem.wf = true := by
  have hr := State.recall_wf h (moduleKey r.module r.addr) 64 true
  unfold State.kweutGet
  generalize s.kweutObject r 64 64 = refused, State.queueDesc = desc, State.peekNat = peek, s.recall = recalled at hr ⊢
  as_aux_lemma =>
    split
    · exact h
    · dsimp only
      split
      · exact hr
      · refine fst_wf_ite hr ?_
        split
        · exact hr
        · exact State.pokeNat_wf (State.recall_wf hr _ _ _) _ _ _

@[simp] theorem State.setRound_mem (s : State) (m cell : Nat) (x : Option Round) : (s.setRound m cell x).mem = s.mem := rfl

@[simp] theorem State.mirrorCell_wf {s : State} (h : s.mem.wf = true) (key gen arrived : Nat) (broken : Bool) :
    (s.mirrorCell key gen arrived broken).mem.wf = true := by
  grind [State.mirrorCell, State.pokeNat_mem, State.pokeNat_wf]

@[simp] theorem State.contribute_wf {s : State} (h : s.mem.wf = true) (key : Nat) (x : Round) (r : KReq) :
    (s.contribute key x r).mem.wf = true := by
  grind [State.contribute, State.poke_mem, State.poke_wf, State.setRound_mem, State.mirrorCell_wf]

@[simp] theorem State.kweutRed_wf {s : State} (h : s.mem.wf = true) (r : KReq) : (s.kweutRed r).1.mem.wf = true := by
  have hr := State.recall_wf h (moduleKey r.module r.addr) 384 true
  unfold State.kweutRed
  split
  · exact h
  · exact fst_wf_ite hr (fst_wf_ite hr (fst_wf_ite hr (fst_wf_ite hr (State.contribute_wf hr _ _ _))))

@[simp] theorem State.kweutRedrd_wf {s : State} (h : s.mem.wf = true) (r : KReq) : (s.kweutRedrd r).1.mem.wf = true := by
  have hr := State.recall_wf h (moduleKey r.module r.addr) 384 false
  unfold State.kweutRedrd
  split
  · exact h
  · exact fst_wf_ite hr (fst_wf_ite hr hr)

@[simp] theorem State.answer_mem (s : State) (r : KReq) (a : KAns) : (s.answer r a).mem = s.mem := by
  grind [State.answer, State.fresh_mem]

theorem serveKweut_wf {s : State} (h : s.mem.wf = true) (r : KReq) (n : Nat) (queue : Bool) {f : State → KReq → State × KAns}
    (hf : ∀ t, t.mem.wf = true → (f t r).1.mem.wf = true) : OutWf (serveKweut s r n queue f) :=
  outWf_ite (outWf_next.mpr h) (outWf_ite (outWf_next.mpr h) (outWf_next.mpr (by rw [State.answer_mem]; exact hf _ h)))

@[simp] theorem State.tailRead_mem (s : State) (q : RQueue) : (s.tailRead q).mem = s.mem := by
  simp [State.tailRead]

@[simp] theorem State.tailSnoop_mem (s : State) (q : RQueue) (m addr : Nat) : (s.tailSnoop q m addr).mem = s.mem := by
  unfold State.tailSnoop
  split <;> simp

@[simp] theorem State.pull_mem (s : State) (peer : Nat) : (s.pull peer).mem = s.mem := by
  unfold State.pull
  split <;> simp

@[simp] theorem State.runnerPut_mem (s : State) (r : KReq) : (s.runnerPut r).mem = s.mem := by
  grind [State.runnerPut, State.answer_mem, State.pull_mem, State.tailSnoop_mem]

@[simp] theorem State.runnerGet_mem (s : State) (r : KReq) : (s.runnerGet r).mem = s.mem := by
  grind [State.runnerGet, State.answer_mem, State.modRunner_mem]

theorem execQput_wf {s : State} (h : s.mem.wf = true) : OutWf (execQput s) := by
  unfold execQput
  split
  · exact outWf_ite (outWf_next.mpr (wf_ite h (by simpa using h))) (serveKweut_wf h _ _ _ fun _ ht => State.kweutPut_wf ht _)
  · exact outWf_next.mpr h

theorem execQget_wf {s : State} (h : s.mem.wf = true) : OutWf (execQget s) := by
  unfold execQget
  split
  · exact outWf_ite (outWf_next.mpr (wf_ite h (by simpa using h))) (serveKweut_wf h _ _ _ fun _ ht => State.kweutGet_wf ht _)
  · exact outWf_next.mpr h

theorem execAtom_wf {s : State} (h : s.mem.wf = true) : OutWf (execAtom s) := by
  unfold execAtom
  split
  · exact serveKweut_wf h _ _ _ fun _ ht => State.kweutAtom_wf ht _
  · exact outWf_next.mpr h

theorem execRed_wf {s : State} (h : s.mem.wf = true) : OutWf (execRed s) := by
  unfold execRed
  split
  · exact serveKweut_wf h _ _ _ fun _ ht => State.kweutRed_wf ht _
  · exact outWf_next.mpr h

theorem execRedrd_wf {s : State} (h : s.mem.wf = true) : OutWf (execRedrd s) := by
  unfold execRedrd
  split
  · exact serveKweut_wf h _ _ _ fun _ ht => State.kweutRedrd_wf ht _
  · exact outWf_next.mpr h

theorem serviceWord_wf {s : State} (h : s.mem.wf = true) (i : Instr) (k : BitVec 5) (f : Wave → Service) :
    OutWf (serviceWord s i k f) := by
  refine baseAccess_wf h _ _ fun w i u va => ?_
  dsimp only
  split
  · exact poisonTrap_wf h _ _
  · split
    · exact outWf_next.mpr (by simpa using h)
    · exact outWf_next.mpr (State.refuseWord_wf h _ _ _ _ _ _ _ _)
    · split
      · split
        · exact stallWord_wf h
        · split
          · exact stallWord_wf h
          · exact finish_wf (by simpa using h) _ _
      · exact outWf_next.mpr (State.refuseWord_wf h _ _ _ _ _ _ _ _)

theorem execMqput_wf {s : State} (h : s.mem.wf = true) (k : BitVec 5) (d r : BitVec 6) : OutWf (execMqput k d r s) :=
  serviceWord_wf h _ _ _

theorem execMqget_wf {s : State} (h : s.mem.wf = true) (k : BitVec 5) (d r : BitVec 6) : OutWf (execMqget k d r s) :=
  serviceWord_wf h _ _ _

theorem execMred_wf {s : State} (h : s.mem.wf = true) (k : BitVec 5) (d r : BitVec 6) : OutWf (execMred k d r s) :=
  serviceWord_wf h _ _ _

theorem execMredrd_wf {s : State} (h : s.mem.wf = true) (k : BitVec 5) (d r : BitVec 6) : OutWf (execMredrd k d r s) :=
  serviceWord_wf h _ _ _

theorem execMatom_wf {s : State} (h : s.mem.wf = true) (k : BitVec 5) (d r : BitVec 6) (w64 : BitVec 1) (p : BitVec 3) :
    OutWf (execMatom k d r w64 p s) :=
  serviceWord_wf h _ _ _

@[simp] theorem State.endService_wf {s : State} (h : s.mem.wf = true) (w : Wave) (o : PendOp) (status value : Nat) (data : List Byte) :
    (s.endService w o status value data).mem.wf = true := by
  grind [State.endService, State.logError_wf, State.completeOp_wf]

@[simp] theorem State.logRunner_wf {s : State} (h : s.mem.wf = true) (x : RTag) (status : Nat) :
    (s.logRunner x status).mem.wf = true := by
  grind [State.logRunner, State.logError_wf]

@[simp] theorem State.endPut_wf {s : State} (h : s.mem.wf = true) (x : RTag) (status : Nat) : (s.endPut x status).mem.wf = true := by
  simp [State.endPut, h]

@[simp] theorem State.endGet_wf {s : State} (h : s.mem.wf = true) (x : RTag) (status : Nat) (data : List Byte) :
    (s.endGet x status data).mem.wf = true := by
  grind [State.endGet, State.pull_mem, State.tailRead_mem, State.logRunner_wf, State.modRunner_mem]

@[simp] theorem State.endRunner_wf {s : State} (h : s.mem.wf = true) (x : RTag) (status : Nat) (data : List Byte) :
    (s.endRunner x status data).mem.wf = true := by
  unfold State.endRunner
  split <;> simp [h]

theorem execKweutResponse_wf {s : State} (h : s.mem.wf = true) : OutWf (execKweutResponse s) := by
  grind [execKweutResponse, State.chargeFlits_mem, State.endService_wf, State.endRunner_wf, outWf_next, outWf_fault]

/-! ### Relays -/

@[simp] theorem State.remoteSent_mem (s : State) (w : Wave) (i : Issue) (id : CtxId) (stream va : Nat) (x : Remote) :
    (s.remoteSent w i id stream va x).mem = s.mem := by
  grind [State.remoteSent, State.sendRequest_mem, State.setWave_mem, State.modWave_mem]

theorem sendRemote_wf {s : State} (h : s.mem.wf = true) (w : Wave) (i : Issue) (id : CtxId) (stream va : Nat) (x : Remote) :
    OutWf (sendRemote s w i id stream va x) := by
  simp [sendRemote, h]

theorem remoteWord_wf {s : State} (h : s.mem.wf = true) (i : Instr) (k ctl : BitVec 5) (f : Wave → Nat → Nat → Remote) :
    OutWf (remoteWord s i k ctl f) := by
  refine whenLegal_wf h fun w i u => ?_
  grind [poisonTrap_wf, takeTrap_wf, stallWord_wf, State.openCtx_mem, State.logWave_wf, State.lateError_mem, State.setWave_mem,
  sendRemote_wf, outWf_next, outWf_fault]

theorem execRwri_wf {s : State} (h : s.mem.wf = true) (k ctl : BitVec 5) (r : BitVec 6) : OutWf (execRwri k ctl r s) :=
  remoteWord_wf h _ _ _ _

theorem execRrd_wf {s : State} (h : s.mem.wf = true) (k ctl : BitVec 5) (r : BitVec 6) : OutWf (execRrd k ctl r s) :=
  remoteWord_wf h _ _ _ _

theorem execRatom_wf {s : State} (h : s.mem.wf = true) (k ctl : BitVec 5) (r : BitVec 6) : OutWf (execRatom k ctl r s) :=
  remoteWord_wf h _ _ _ _

@[simp] theorem State.tableRead_mem (s : State) (u : Unacked) (a : Arm) (p : OpPart) (data : List Byte) (poison : Nat) :
    (s.tableRead u a p data poison).mem = s.mem := rfl

@[simp] theorem State.endRequest_wf {s : State} (h : s.mem.wf = true) (u : Unacked) (data : List Byte) (poison : Nat) :
    (s.endRequest u data poison).mem.wf = true := by
  unfold State.endRequest
  split
  · exact h
  · refine wf_ite (State.completeOp_wf h _ _ _) (State.completeOp_wf ?_ _ _ _)
    rwa [foldl_mem fun _ _ => State.tableRead_mem _ _ _ _ _ _]

@[simp] theorem State.ackUpTo_wf {s : State} (h : s.mem.wf = true) (id : CtxId) (k n : Nat) : (s.ackUpTo id k n).mem.wf = true := by
  unfold State.ackUpTo
  split
  · exact h
  · exact foldl_wf (fun _ _ ht => State.endRequest_wf ht _ _ _) _ (by simpa using h)

@[simp] theorem State.pumpAll_mem (s : State) (id : CtxId) (k : Nat) : (s.pumpAll id k).mem = s.mem := by
  simp [State.pumpAll]

@[simp] theorem State.resendFrom_mem (s : State) (id : CtxId) (k n : Nat) : (s.resendFrom id k n).mem = s.mem := by
  unfold State.resendFrom
  split
  · rfl
  · exact foldl_mem (fun _ _ => State.putPacket_mem _ _ _) _ _

theorem onAnswer_wf {s : State} (h : s.mem.wf = true) (p : Packet) {f : State → Rctx → State}
    (hf : ∀ t c, t.mem.wf = true → (f t c).mem.wf = true) : OutWf (onAnswer s p f) := by
  have h1 : (s.heard p.src).mem.wf = true := by simpa using h
  refine outWf_ite (outWf_next.mpr h) ?_
  dsimp only
  split
  · exact outWf_next.mpr h1
  · exact outWf_next.mpr (hf _ _ h1)

theorem execAck_wf {s : State} (h : s.mem.wf = true) : OutWf (execAck s) := by
  unfold execAck
  split
  · exact onAnswer_wf h _ fun _ _ ht => by simp [ht]
  · exact outWf_next.mpr h

theorem execNak_wf {s : State} (h : s.mem.wf = true) : OutWf (execNak s) := by
  unfold execNak
  split
  · exact onAnswer_wf h _ fun _ _ ht => wf_ite (by simpa using ht) (by simpa using ht)
  · exact outWf_next.mpr h

theorem execFault_wf {s : State} (h : s.mem.wf = true) : OutWf (execFault s) := by
  unfold execFault
  split
  · refine onAnswer_wf h _ fun t c ht => wf_ite (by simpa using ht) ?_
    split
    · simpa using ht
    · simpa using ht
  · exact outWf_next.mpr h

theorem execResume_wf {s : State} (h : s.mem.wf = true) : OutWf (execResume s) := by
  unfold execResume
  split
  · exact onAnswer_wf h _ fun _ _ ht => by simpa using ht
  · exact outWf_next.mpr h

theorem execResp_wf {s : State} (h : s.mem.wf = true) : OutWf (execResp s) := by
  unfold execResp
  split
  · refine onAnswer_wf h _ fun t c ht => ?_
    dsimp only
    split
    · simp [ht]
    · simp [ht]
  · exact outWf_next.mpr h

theorem execBusyNakResend_wf {s : State} (h : s.mem.wf = true) : OutWf (execBusyNakResend s) := by
  grind [execBusyNakResend, State.resendFrom_mem, State.modStream_mem, outWf_next, outWf_fault]

theorem execQputRetry_wf {s : State} (h : s.mem.wf = true) : OutWf (execQputRetry s) := by
  unfold execQputRetry
  split <;> simp [h]

/-- A context back in the cache, with its streams going on. -/
theorem foldl_pumpAll_mem (id : CtxId) (l : List Nat) (s : State) : (l.foldl (fun (x : State) k => x.pumpAll id k) s).mem = s.mem :=
  foldl_mem (fun _ _ => State.pumpAll_mem _ _ _) _ _

theorem execRelayContextFetch_wf {s : State} (h : s.mem.wf = true) : OutWf (execRelayContextFetch s) := by
  unfold execRelayContextFetch
  split
  · split
    · exact outWf_next.mpr h
    · refine outWf_ite (outWf_next.mpr h) (outWf_ite (outWf_next.mpr ?_) ?_)
      · rw [foldl_pumpAll_mem]
        simpa using h
      · split
        · exact outWf_next.mpr h
        · split
          · refine outWf_next.mpr ?_
            rw [foldl_pumpAll_mem]
            simpa using h
          · refine outWf_ite (outWf_next.mpr ?_) (outWf_next.mpr h)
            rw [foldl_pumpAll_mem]
            simpa using h
  · exact outWf_next.mpr h

theorem execRelayTimeout_wf {s : State} (h : s.mem.wf = true) : OutWf (execRelayTimeout s) := by
  grind [execRelayTimeout, State.peerDead_mem, outWf_next, outWf_fault]

theorem execPacketForward_wf {s : State} (h : s.mem.wf = true) : OutWf (execPacketForward s) := by
  grind [execPacketForward, State.forwardPacket_mem, outWf_next, outWf_fault]

/-! ### Received packets -/

@[simp] theorem State.modRx_mem (s : State) (p : Packet) (f : Stream → Stream) : (s.modRx p f).mem = s.mem := by
  simp [State.modRx]

@[simp] theorem State.reply_mem (s : State) (p : Packet) (type : PacketType) (seq reason imm : Nat) (data : List Byte) (poison : Nat) :
    (s.reply p type seq reason imm data poison).mem = s.mem := by
  simp [State.reply]

@[simp] theorem State.sendNak_mem (s : State) (p : Packet) (expected reason : Nat) : (s.sendNak p expected reason).mem = s.mem := by
  simp [State.sendNak]

@[simp] theorem State.logRemote_wf {s : State} (h : s.mem.wf = true) (p : Packet) (sub level : Nat) :
    (s.logRemote p sub level).mem.wf = true := by
  grind [State.logRemote, State.logError_wf]

@[simp] theorem State.passSeq_mem (s : State) (p : Packet) : (s.passSeq p).mem = s.mem := by
  grind [State.passSeq, State.modRx_mem, State.reply_mem]

@[simp] theorem State.finalFault_mem (s : State) (p : Packet) (sub : Nat) : (s.finalFault p sub).mem = s.mem := by
  simp [State.finalFault]

@[simp] theorem State.refuseRemote_wf {s : State} (h : s.mem.wf = true) (p : Packet) (sub level : Nat) :
    (s.refuseRemote p sub level).mem.wf = true := by
  unfold State.refuseRemote
  split <;> simp [h]

@[simp] theorem State.keepResponse_mem (s : State) (p : Packet) (data : List Byte) (poison : Nat) :
    (s.keepResponse p data poison).mem = s.mem := by
  simp [State.keepResponse]

@[simp] theorem State.respond_mem (s : State) (p : Packet) (data : List Byte) (poison : Nat) : (s.respond p data poison).mem = s.mem := by
  simp [State.respond]

@[simp] theorem State.oweAck_mem (s : State) (p : Packet) : (s.oweAck p).mem = s.mem := by
  simp [State.oweAck]

@[simp] theorem State.afterServing_wf {s : State} (h : s.mem.wf = true) (p : Packet) (held : Bool) {x : Served} (hx : ServedWf x) :
    (s.afterServing p held x).mem.wf = true := by
  cases x with
  | busy s2 => exact wf_ite hx ((State.sendNak_mem _ _ _ _).symm ▸ hx)
  | refused sub level => exact State.refuseRemote_wf h _ _ _
  | done s2 | resp s2 d q | queued s2 | walk s2 =>
    change s2.mem.wf = true at hx
    simpa [State.afterServing] using hx

@[simp] theorem State.answerOld_mem (s : State) (p : Packet) : (s.answerOld p).mem = s.mem := by
  grind [State.answerOld, State.putPacket_mem, State.reply_mem]

@[simp] theorem State.receive_wf {s : State} (h : s.mem.wf = true) (p : Packet) {perform : State → Packet → Served}
    (hf : ∀ t, t.mem.wf = true → ServedWf (perform t p)) : (s.receive p perform).mem.wf = true := by
  refine wf_ite h ?_
  dsimp only
  split
  · simpa using h
  · simpa using h
  next s1 e =>
    have h1 : s1.mem.wf = true := by simpa [State.openCtx_mem e] using h
    refine wf_ite h1 (wf_ite (State.afterServing_wf h1 _ _ (hf _ h1)) (wf_ite ?_ ?_))
    · exact wf_ite (by simpa using h1) (State.afterServing_wf h1 _ _ (hf _ h1))
    · exact wf_ite (wf_ite h1 (by simpa using h1)) (by simpa using h1)

@[simp] theorem State.takeInHand_mem (s : State) (id : CtxId) (k : Nat) (r : Option WalkRefusal) : (s.takeInHand id k r).mem = s.mem := by
  grind [State.takeInHand, State.modStream_mem]

theorem execAckInterval_wf {s : State} (h : s.mem.wf = true) : OutWf (execAckInterval s) := by
  grind [execAckInterval, State.reply_mem, State.modStream_mem, outWf_next, outWf_fault]

@[simp] theorem State.remoteXlate_mem (s : State) (q : Part) (p : Packet) (n : Nat) : (s.remoteXlate q p n).1.mem = s.mem := by
  unfold State.remoteXlate
  split <;> simp

@[simp] theorem State.homeWrite_wf {s : State} (h : s.mem.wf = true) (part : Nat) (r : Requester) (key : Nat) (bs : List Byte)
    (poison : Bool) : (s.homeWrite part r key bs poison).1.mem.wf = true :=
  gotAll_wf (foldl_wf (fun _ _ ht => State.logAway_wf ht _ _ _ _) _ h) _ fun _ _ ht => State.lineWrite_wf ht _ _ _ _ _

@[simp] theorem State.homeReady_wf {s : State} (h : s.mem.wf = true) (part line : Nat) : (s.homeReady part line).1.mem.wf = true := by
  grind [State.homeReady, State.directory_wf, State.permitted_mem]

@[simp] theorem State.homeReach_wf {s : State} (h : s.mem.wf = true) (part : Nat) (r : Requester) (key n : Nat) :
    (s.homeReach part r key n).1.mem.wf = true := by
  refine gotAll_wf h _ fun t l ht => ?_
  split
  · exact ht
  · split
    · exact ht
    · split
      · exact foldl_wf (fun _ _ hu => State.logAway_wf hu _ _ _ _) _ ht
      · dsimp only
        split
        · rw [foldl_mem fun _ _ => State.chargeFetch_mem _ _ _]
          simpa using ht
        · simpa using ht

@[simp] theorem State.wakeUnit_mem (s : State) (w : Wave) (a : Arm) : (s.wakeUnit w a).mem = s.mem := rfl

@[simp] theorem State.wakeOldest_mem (s : State) (f : Wait → Option Nat) : (s.wakeOldest f).mem = s.mem := by
  grind [State.wakeOldest, State.wakeUnit_mem]

@[simp] theorem State.notify_wf {s : State} (h : s.mem.wf = true) (q : Part) (r : Requester) (p : Packet) :
    (s.notify q r p).1.mem.wf = true := by
  grind [State.notify, State.homeWrite_wf, State.wakeOldest_mem]

theorem State.remoteCheck_wf {s : State} (h : s.mem.wf = true) (p : Packet) (n : Nat) (pre : Part → Option Nat) (room : Part → Bool)
    {f : State → Part → Nat → Bool → Served} (hf : ∀ t q k na, t.mem.wf = true → ServedWf (f t q k na)) :
    ServedWf (s.remoteCheck p n pre room f) := by
  have hx {q s1 r} (e : s.remoteXlate q p n = (s1, r)) : s1.mem.wf = true := by
    have := State.remoteXlate_mem s q p n
    rw [e] at this
    rwa [this]
  unfold State.remoteCheck
  split
  · trivial
  · refine servedWf_ite trivial ?_
    split
    · trivial
    · refine servedWf_ite trivial ?_
      split
      · trivial
      next e => exact servedWf_ite (hx e) h
      next e => exact hx e
      next e =>
        split
        · trivial
        · exact hf _ _ _ _ (hx e)

@[simp] theorem State.linesReady_wf {s : State} (h : s.mem.wf = true) (part : Nat) (lines : List Nat) :
    (s.linesReady part lines).1.mem.wf = true := gotAll_wf h _ fun _ _ ht => State.homeReady_wf ht _ _

theorem performRwri_wf {s : State} (h : s.mem.wf = true) (p : Packet) : ServedWf (performRwri s p) :=
  State.remoteCheck_wf h _ _ _ _ fun t q key _ ht => by
    have hg (ls : List Nat) := State.linesReady_wf ht q.num ls
    have hw (ls : List Nat) := State.homeWrite_wf (hg ls) q.num (packetRequester p) key (p.data.take p.len) (decide (p.poison ≠ 0))
    have hn (ls : List Nat) := State.notify_wf (hw ls) q (packetRequester p) p
    exact servedWf_ite ht (servedWf_ite (hg _) (servedWf_ite (hw _) (servedWf_ite (hn _) (hn _))))

theorem execRwriPacket_wf {s : State} (h : s.mem.wf = true) : OutWf (execRwriPacket s) := by
  unfold execRwriPacket
  split
  · exact outWf_next.mpr (State.receive_wf h _ fun _ ht => performRwri_wf ht _)
  · exact outWf_next.mpr h

theorem performRrd_wf {s : State} (h : s.mem.wf = true) (p : Packet) : ServedWf (performRrd s p) :=
  State.remoteCheck_wf h _ _ _ _ fun _ _ _ _ ht => servedWf_ite (State.homeReach_wf ht _ _ _ _) (State.homeReach_wf ht _ _ _ _)

theorem execRrdPacket_wf {s : State} (h : s.mem.wf = true) : OutWf (execRrdPacket s) := by
  unfold execRrdPacket
  split
  · exact outWf_next.mpr (State.receive_wf h _ fun _ ht => performRrd_wf ht _)
  · exact outWf_next.mpr h

@[simp] theorem State.queueAtom_mem (s : State) (p : Packet) (key : Nat) (na : Bool) : (s.queueAtom p key na).mem = s.mem := rfl

theorem performRatom_wf {s : State} (h : s.mem.wf = true) (p : Packet) : ServedWf (performRatom s p) :=
  State.remoteCheck_wf h _ _ _ _ fun t _ key na ht => show (t.queueAtom p key na).mem.wf = true by simpa using ht

theorem execRatomPacket_wf {s : State} (h : s.mem.wf = true) : OutWf (execRatomPacket s) := by
  unfold execRatomPacket
  split
  · exact outWf_next.mpr (State.receive_wf h _ fun _ ht => performRatom_wf ht _)
  · exact outWf_next.mpr h

theorem State.relayCheck_wf {s : State} (h : s.mem.wf = true) (p : Packet) {f : State → Nat → Served}
    (hf : ∀ t k, t.mem.wf = true → ServedWf (f t k)) : ServedWf (s.relayCheck p f) := by
  unfold State.relayCheck
  split
  · trivial
  · exact servedWf_ite (hf _ _ h) trivial

theorem performRelayedRead_wf {s : State} (h : s.mem.wf = true) (p : Packet) : ServedWf (performRelayedRead s p) :=
  State.relayCheck_wf h _ fun _ _ ht => servedWf_ite (State.homeReach_wf ht _ _ _ _) (State.homeReach_wf ht _ _ _ _)

theorem execRelayedRead_wf {s : State} (h : s.mem.wf = true) : OutWf (execRelayedRead s) := by
  unfold execRelayedRead
  split
  · exact outWf_next.mpr (State.receive_wf h _ fun _ ht => performRelayedRead_wf ht _)
  · exact outWf_next.mpr h

theorem performRelayedWrite_wf {s : State} (h : s.mem.wf = true) (p : Packet) : ServedWf (performRelayedWrite s p) :=
  State.relayCheck_wf h _ fun _ key ht =>
    have hg := State.linesReady_wf ht 16 (linesOf key p.len)
    have hw := State.homeWrite_wf hg 16 (packetRequester p) key (p.data.take p.len) (decide (p.poison ≠ 0))
    servedWf_ite hg (servedWf_ite hw hw)

theorem execRelayedWrite_wf {s : State} (h : s.mem.wf = true) : OutWf (execRelayedWrite s) := by
  unfold execRelayedWrite
  split
  · exact outWf_next.mpr (State.receive_wf h _ fun _ ht => performRelayedWrite_wf ht _)
  · exact outWf_next.mpr h

theorem performRelayedAtomic_wf {s : State} (h : s.mem.wf = true) (p : Packet) : ServedWf (performRelayedAtomic s p) :=
  State.relayCheck_wf h _ fun t key ht => show (t.queueAtom p key false).mem.wf = true by simpa using ht

theorem execRelayedAtomic_wf {s : State} (h : s.mem.wf = true) : OutWf (execRelayedAtomic s) := by
  unfold execRelayedAtomic
  split
  · exact outWf_next.mpr (State.receive_wf h _ fun _ ht => performRelayedAtomic_wf ht _)
  · exact outWf_next.mpr h

@[simp] theorem State.takeRecord_wf {s : State} (h : s.mem.wf = true) (w : Wave) (desc : Nat) :
    (s.takeRecord w desc).1.1.mem.wf = true := by
  grind [State.takeRecord, State.acquireQuad_wf, State.unitWrite_wf]

theorem execNqwait_wf {s : State} (h : s.mem.wf = true) (d y : BitVec 6) : OutWf (execNqwait d y s) := by
  refine whenLegal_wf h fun w i u => ?_
  grind [poisonTrap_wf, finish_wf, State.takeRecord_wf, stallWord_wf, sleepWith_wf, outWf_next, outWf_fault]

@[simp] theorem State.endSleep_mem (s : State) (seq wid : Nat) (a : Arm) (f : Wave → Wave) : (s.endSleep seq wid a f).mem = s.mem := rfl

@[simp] theorem State.endSleepPair_mem (s : State) (seq wid : Nat) (a : Arm) (sd x : Nat) (q : Bool) :
    (s.endSleepPair seq wid a sd x q).mem = s.mem := rfl

@[simp] theorem State.retryNq_wf {s : State} (h : s.mem.wf = true) (w : Wave) (a : Arm) : (s.retryNq w a).mem.wf = true := by
  have hr (desc : Nat) := State.takeRecord_wf h w desc
  unfold State.retryNq
  grind [State.endSleepPair_mem, State.modWave_mem]

theorem execNqwaitWake_wf {s : State} (h : s.mem.wf = true) : OutWf (execNqwaitWake s) := by
  grind [execNqwaitWake, State.retryNq_wf, outWf_next, outWf_fault]

theorem execNqwaitTimeout_wf {s : State} (h : s.mem.wf = true) : OutWf (execNqwaitTimeout s) := by
  grind [execNqwaitTimeout, State.endSleepPair_mem, outWf_next, outWf_fault]

/-! ### Coherence -/

theorem execWriteQueueMerge_wf {s : State} (h : s.mem.wf = true) : OutWf (execWriteQueueMerge s) := by
  grind [execWriteQueueMerge, State.wqMerge_wf, outWf_next, outWf_fault]

theorem execDirectoryRequest_wf {s : State} (h : s.mem.wf = true) : OutWf (execDirectoryRequest s) := by
  grind [execDirectoryRequest, State.directory_wf, outWf_next, outWf_fault]

@[simp] theorem State.holdersAfter_mem (s : State) (line : Nat) (kind : MemKind) : (s.holdersAfter line kind).mem = s.mem := by
  unfold State.holdersAfter
  split <;> simp

@[simp] theorem State.permAfter_mem (s : State) (line : Nat) (kind : MemKind) : (s.permAfter line kind).mem = s.mem := by
  cases kind with
  | readShared =>
    unfold State.permAfter
    dsimp only
    split <;> rfl
  | _ => rfl

@[simp] theorem State.snoopKind_wf {s : State} (h : s.mem.wf = true) (line : Nat) (inv : Bool) :
    (s.snoopKind line inv).mem.wf = true := by
  unfold State.snoopKind
  split <;> simp [h]

@[simp] theorem State.snoopOn_wf : ∀ (n : Nat) {s : State}, s.mem.wf = true → ∀ (x : Snoop), (s.snoopOn n x).1.mem.wf = true
  | 0, _, h, _ => h
  | n + 1, s, h, x => by
    unfold State.snoopOn
    refine fst_wf_ite h (fst_wf_ite h ?_)
    split
    · exact h
    · exact State.snoopOn_wf n (State.snoopKind_wf h _ _) _

@[simp] theorem State.runSnoop_wf {s : State} (h : s.mem.wf = true) (x : Snoop) : (s.runSnoop x).mem.wf = true := by
  grind [State.runSnoop, State.snoopOn_wf, State.answerSnoop_mem]

@[simp] theorem State.runSnoops_wf {s : State} (h : s.mem.wf = true) (f : Snoop → Bool) (g : Snoop → Snoop) :
    (s.runSnoops f g).mem.wf = true := foldl_wf (fun _ _ ht => State.runSnoop_wf ht _) _ h

@[simp] theorem State.snoop_wf {s : State} (h : s.mem.wf = true) (m line count : Nat) (inv : Bool) :
    (s.snoop m line count inv).mem.wf = true := by
  grind [State.snoop, State.runSnoops_wf, State.runSnoop_wf, State.chargeFlits_mem]

@[simp] theorem State.snoopAfter_wf {s : State} (h : s.mem.wf = true) (m line n : Nat) : (s.snoopAfter m line n).mem.wf = true := by
  unfold State.snoopAfter
  split <;> simp [h]

theorem execMemCompletion_wf {s : State} (h : s.mem.wf = true) : OutWf (execMemCompletion s) := by
  grind [execMemCompletion, State.chargeFlits_mem, State.snoopAfter_wf, State.permAfter_mem, State.holdersAfter_mem, outWf_next,
  outWf_fault]

theorem execBisnpinv_wf {s : State} (h : s.mem.wf = true) : OutWf (execBisnpinv s) := by
  unfold execBisnpinv
  split <;> simp [h]

theorem execBisnpdata_wf {s : State} (h : s.mem.wf = true) : OutWf (execBisnpdata s) := by
  unfold execBisnpdata
  split <;> simp [h]

theorem execBisnpcur_wf {s : State} (h : s.mem.wf = true) : OutWf (execBisnpcur s) := by
  unfold execBisnpcur
  split <;> simp [h]

theorem execBiconflictack_wf {s : State} (h : s.mem.wf = true) : OutWf (execBiconflictack s) := by
  grind [execBiconflictack, State.snoopAfter_wf, outWf_next, outWf_fault]

@[simp] theorem State.atomWord_wf {s : State} (h : s.mem.wf = true) (part key size op a b : Nat) (noAlloc : Bool) :
    (s.atomWord part key size op a b noAlloc).1.1.mem.wf = true := State.l2Write_wf h _ _ _ _ _ _ _

@[simp] theorem State.remoteLine_wf {s : State} (h : s.mem.wf = true) (q : AtomReq) : (s.remoteLine q).1.mem.wf = true := by
  grind [State.remoteLine, State.directory_wf]

@[simp] theorem State.atomJob_wf {s : State} (h : s.mem.wf = true) (j : AtomJob) : (s.atomJob j).mem.wf = true := by
  unfold State.atomJob
  split
  · split
    · have hs := State.sectorOut_wf h
      exact wf_ite (hs _ _) (wf_ite (by simp [hs]) (State.atomWord_wf (hs _ _) _ _ _ _ _ _ _))
    · exact h
  next q =>
    have hr := State.remoteLine_wf h q
    have h0 (part : Nat) : (if (s.remoteLine q).1.beyondModule part q.key q.size then
        (s.remoteLine q).1.logAway part (packetRequester q.packet) q.key 2 else (s.remoteLine q).1).mem.wf = true :=
      wf_ite (State.logAway_wf hr _ _ _ _) hr
    refine wf_ite hr (wf_ite ?_ (State.atomWord_wf (h0 _) _ _ _ _ _ _ _))
    rw [State.respond_mem]
    exact State.atomWord_wf (h0 _) _ _ _ _ _ _ _

theorem execAtomicUnitOp_wf {s : State} (h : s.mem.wf = true) : OutWf (execAtomicUnitOp s) := by
  grind [execAtomicUnitOp, State.atomJob_wf, outWf_next, outWf_fault]

@[simp] theorem State.gatherReads_mem (s : State) (part : Nat) (keys : List Nat) : (s.gatherReads part keys).mem = s.mem := by
  refine (foldl_mem (fun t r => ?_) _ _).trans (State.charge_mem _ _ _ _)
  split
  · exact State.rowAccess_mem _ _
  · rfl

theorem execGatherPacket_wf {s : State} (h : s.mem.wf = true) : OutWf (execGatherPacket s) := by
  grind [execGatherPacket, State.gatherReads_mem, State.modWave_mem, outWf_next, outWf_fault]

@[simp] theorem State.modLink_mem (s : State) (d : Nat) (f : StackLink → StackLink) : (s.modLink d f).mem = s.mem := by
  unfold State.modLink
  split <;> simp

theorem execLinkCrcFailure_wf {s : State} (h : s.mem.wf = true) : OutWf (execLinkCrcFailure s) := by
  unfold execLinkCrcFailure
  split <;> simp [h]

@[simp] theorem State.releaseStack_mem (s : State) (d : Nat) : (s.releaseStack d).mem = s.mem := rfl

theorem execRetrainComplete_wf {s : State} (h : s.mem.wf = true) : OutWf (execRetrainComplete s) := by
  grind [execRetrainComplete, State.modLink_mem, State.releaseStack_mem, outWf_next, outWf_fault]

/-! ### Attachments -/

@[simp] theorem State.dropWrites_wf {s : State} (h : s.mem.wf = true) (w : Wave) (o : PendOp) (m : Nat) :
    (s.dropWrites w o m).mem.wf = true := by
  unfold State.dropWrites
  dsimp only
  split
  · exact h
  · rw [State.lateError_mem]
    exact foldl_wf (fun _ _ ht => State.logWave_wf ht _ _ _ _ _ _) _ h

@[simp] theorem State.loseAccesses_wf {s : State} (h : s.mem.wf = true) (m : Nat) : (s.loseAccesses m).mem.wf = true :=
  foldl_wf (fun _ _ ht => foldl_wf (fun _ _ hu => State.dropWrites_wf hu _ _ _) _ ht) _ h

@[simp] theorem State.loseService_wf {s : State} (h : s.mem.wf = true) (w : Wave) (o : PendOp) : (s.loseService w o).mem.wf = true := by
  simp [State.loseService, h]

@[simp] theorem State.loseServices_wf {s : State} (h : s.mem.wf = true) (att : Nat) : (s.loseServices att).mem.wf = true :=
  foldl_wf (fun _ _ ht => State.logRunner_wf (by simpa using ht) _ _) _ (foldl_wf (fun _ _ ht => State.loseService_wf ht _ _) _ h)

@[simp] theorem State.logLost_wf {s : State} (h : s.mem.wf = true) (part line : Nat) : (s.logLost part line).mem.wf = true := by
  grind [State.logLost, State.logError_wf]

@[simp] theorem State.loseLines_wf {s : State} (h : s.mem.wf = true) (m lead : Nat) : (s.loseLines m lead).mem.wf = true := by
  have hl (ls : List L2Line) : (ls.foldl (fun (t : State) (l : L2Line) => t.logLost l.tag l.key) s).mem.wf = true :=
    foldl_wf (fun _ _ ht => State.logLost_wf ht _ _) _ h
  refine (congrArg (fun m : Memory => m.wf) (foldl_mem State.wakeLine_mem _ _)).trans ?_
  exact foldl_wf (fun _ _ ht => State.restoreStale_wf ht _) _ (hl _)

@[simp] theorem State.resendPeer_mem (s : State) (peer : Nat) : (s.resendPeer peer).mem = s.mem := by
  refine foldl_mem (fun t c => ?_) _ _
  split
  · refine foldl_mem (fun x k => ?_) _ _
    split
    · exact State.resendFrom_mem _ _ _ _
    · rfl
  · rfl

@[simp] theorem State.sever_mem (s : State) (peer : Nat) : (s.sever peer).mem = s.mem := by
  unfold State.sever
  split
  · exact State.peerDead_mem _ _ _
  · refine (State.resendPeer_mem _ _).trans ((foldl_mem (fun t x => ?_) _ _).trans (State.modRunner_mem _ _))
    split
    · exact State.putPacket_mem _ _ _
    · exact State.forwardPacket_mem _ _

@[simp] theorem State.reroute_mem (s before : State) : (s.reroute before).mem = s.mem := by
  refine foldl_mem (fun t g => ?_) _ _
  split
  · rfl
  · split
    · rfl
    · exact State.sever_mem _ _

@[simp] theorem State.loseDests_wf {s : State} (h : s.mem.wf = true) (m : Nat) : (s.loseDests m).mem.wf = true :=
  foldl_wf (fun _ _ ht => State.logLost_wf ht _ _) _ h

@[simp] theorem State.loseTails_mem (s : State) (m : Nat) : (s.loseTails m).mem = s.mem :=
  foldl_mem (fun _ _ => State.modRunner_mem _ _) _ _

@[simp] theorem State.rereadTails_mem (s : State) (m : Nat) : (s.rereadTails m).mem = s.mem :=
  foldl_mem (fun _ _ => by simp) _ _

@[simp] theorem State.attachmentDown_wf {s : State} (h : s.mem.wf = true) (att : Nat) : (s.attachmentDown att).mem.wf = true := by
  grind [State.attachmentDown, State.loseAccesses_wf, State.loseServices_wf, State.loseTails_mem, State.loseLines_wf, State.loseDests_wf,
  State.reroute_mem]

theorem execPortDown_wf {s : State} (h : s.mem.wf = true) : OutWf (execPortDown s) := by
  grind [execPortDown, State.attachmentDown_wf, outWf_next, outWf_fault]

theorem execViral_wf {s : State} (h : s.mem.wf = true) : OutWf (execViral s) := by
  grind [execViral, State.attachmentDown_wf, outWf_next, outWf_fault]

theorem execModuleCompletionTimeout_wf {s : State} (h : s.mem.wf = true) : OutWf (execModuleCompletionTimeout s) := by
  grind [execModuleCompletionTimeout, State.attachmentDown_wf, outWf_next, outWf_fault]

@[simp] theorem State.breakRound_wf {s : State} (h : s.mem.wf = true) (x : Round) : (s.breakRound x).mem.wf = true := by
  grind [State.breakRound, State.mirrorCell_wf, State.setRound_mem, State.recall_wf]

theorem execHeadGroupLost_wf {s : State} (h : s.mem.wf = true) : OutWf (execHeadGroupLost s) := by
  unfold execHeadGroupLost
  split
  · refine outWf_next.mpr ?_
    rw [State.reroute_mem]
    refine foldl_wf (fun _ _ ht => State.breakRound_wf ht _) _ ?_
    exact foldl_wf (fun _ _ ht => by simpa using ht) _ h
  · exact outWf_next.mpr h

@[simp] theorem State.readCapacities_mem (s : State) (att : Nat) : (s.readCapacities att).mem = s.mem := by
  unfold State.readCapacities
  split <;> simp

@[simp] theorem State.attachmentUp_mem (s : State) (att : Nat) : (s.attachmentUp att).mem = s.mem := by
  unfold State.attachmentUp
  split <;> simp

theorem execAttachmentUp_wf {s : State} (h : s.mem.wf = true) : OutWf (execAttachmentUp s) := by
  grind [execAttachmentUp, State.attachmentUp_mem, outWf_next, outWf_fault]

/-! ### Fetch -/

@[simp] theorem State.icacheRead_mem (s : State) (quad key : Nat) (down : Bool) : (s.icacheRead quad key down).1.mem = s.mem := by
  grind [State.icacheRead, State.arrayAccess_mem]

theorem State.fetch_wf {s : State} (h : s.mem.wf = true) (w : Wave) (i : Issue) (u : UnitSt) : FetchedWf (s.fetch w i u) := by
  unfold State.fetch
  split
  · exact h
  · dsimp only
    split
    · change (s.waitForWalks w i _).mem.wf = true
      simpa using h
    · exact State.refuseWord_wf h _ _ _ _ _ _ _ _
    · split
      · exact State.refuseWord_wf h _ _ _ _ _ _ _ _
      · have hi (quad key : Nat) (down : Bool) : (s.icacheRead quad key down).1.mem.wf = true := by simpa using h
        exact fetchedWf_ite h (fetchedWf_ite (by simpa [FetchedWf] using h) (by simpa [FetchedWf] using h))

/-! ### Banks -/

@[simp] theorem State.setEngine_mem (s : State) (e : Engine) : (s.setEngine e).mem = s.mem := rfl

@[simp] theorem State.qspPart_wf {s : State} (h : s.mem.wf = true) (p : OpPart) : (s.qspPart p).1.mem.wf = true := by
  grind [State.qspPart, State.pokeNat_mem, State.pokeNat_wf, State.setPoison_mem]

@[simp] theorem State.qspServe_wf (r : BankReq) (bank : Nat) : ∀ (ps : List OpPart) {s : State}, s.mem.wf = true →
    (s.qspServe r bank ps).1.mem.wf = true
  | [], _, h => h
  | p :: ps, s, h => by
    refine State.qspServe_wf r bank ps ?_
    split
    · exact State.qspPart_wf h _
    · exact h

@[simp] theorem State.segWrite_wf {s : State} (h : s.mem.wf = true) (key : Nat) (bs : List Byte) (mask : Lanes) :
    (s.segWrite key bs mask).mem.wf = true := by
  refine foldl_wf (fun t i ht => ?_) _ h
  dsimp only
  split
  · exact ht
  · split
    · exact State.poke_wf ht _ _
    · exact Memory.wf_writeBytes _ _ ht

@[simp] theorem State.qspStore_wf {s : State} (h : s.mem.wf = true) (key : Nat) (bs : List Byte) (bad : Nat) :
    (s.qspStore key bs bad).mem.wf = true := by
  refine foldl_wf (fun t i ht => ?_) _ (State.poke_wf h _ _)
  split
  · simpa using ht
  · exact ht

@[simp] theorem State.serveEngine_wf {s : State} (h : s.mem.wf = true) (quad : Nat) (r : BankReq) :
    (s.serveEngine quad r).mem.wf = true := by
  grind [State.serveEngine, State.setEngine_mem, State.segWrite_wf]

@[simp] theorem State.serveMove_wf {s : State} (h : s.mem.wf = true) (die ch : Nat) (r : BankReq) :
    (s.serveMove die ch r).mem.wf = true := by
  grind [State.serveMove, State.setChan_mem, State.qspStore_wf]

@[simp] theorem State.serveReq_wf {s : State} (h : s.mem.wf = true) (quad bank : Nat) (r : BankReq) :
    (s.serveReq quad bank r).mem.wf = true := by
  grind [State.serveReq, State.qspServe_wf, State.modWave_mem, State.serveEngine_wf, State.serveMove_wf]

@[simp] theorem State.bankCycle_wf {s : State} (h : s.mem.wf = true) (quad bank : Nat) : (s.bankCycle quad bank).mem.wf = true := by
  have hf (l : List BankReq) := foldl_wf (f := fun (t : State) r => t.serveReq quad bank r) (fun _ _ ht => State.serveReq_wf ht _ _ _) l h
  unfold State.bankCycle
  dsimp only
  split
  · split
    · simpa using hf _
    · exact hf _
  · exact hf _

@[simp] theorem State.chargeConflict_mem (s : State) (quad since : Nat) : (s.chargeConflict quad since).mem = s.mem := by
  grind [State.chargeConflict, State.charge_mem]

theorem execQspBankService_wf {s : State} (h : s.mem.wf = true) : OutWf (execQspBankService s) := by
  unfold execQspBankService
  split
  · refine outWf_next.mpr ?_
    rw [State.chargeConflict_mem]
    exact foldl_wf (fun _ _ ht => State.bankCycle_wf ht _ _) _ h
  · exact outWf_next.mpr h

/-! ### Barriers -/

@[simp] theorem State.barrierReach_wf {s : State} (h : s.mem.wf = true) (w : Wave) (b : BarrierRef) :
    (s.barrierReach w b).1.mem.wf = true := by
  grind [State.barrierReach, State.sectorOut_wf, State.homeReach_wf]

@[simp] theorem State.barrierWrite_wf {s : State} (h : s.mem.wf = true) (quad part : Nat) (b : BarrierRef) (x : Nat) :
    (s.barrierWrite quad part b x).1.mem.wf = true := by
  grind [State.barrierWrite, State.pokeNat_mem, State.pokeNat_wf, State.unitWrite_wf]

@[simp] theorem State.returnAcquire_wf {s : State} (h : s.mem.wf = true) (w : Wave) (a : Arm) (sc : Scope) :
    (s.returnAcquire w a sc).mem.wf = true := by
  simp [State.returnAcquire, h]

@[simp] theorem State.recheckTbar_wf {s : State} (h : s.mem.wf = true) (w : Wave) (a : Arm) : (s.recheckTbar w a).mem.wf = true := by
  grind [State.recheckTbar, State.enterTrap_mem, State.returnAcquire_wf]

@[simp] theorem State.barrierChanged_wf {s : State} (h : s.mem.wf = true) (key : Nat) : (s.barrierChanged key).mem.wf = true :=
  foldl_wf (fun _ _ ht =>
    have h1 := wf_ite (State.recheckTbar_wf ht _ _) ht
    wf_ite ht (wf_ite (State.recheckTbar_wf h1 _ _) h1)) _ h

theorem barrierTurn_wf {s : State} (h : s.mem.wf = true) {w : Wave} {i : Issue} {b : BarrierRef} {since : Option Nat}
    {f : State → Wave → Out} (hf : ∀ t w, t.mem.wf = true → OutWf (f t w)) : OutWf (barrierTurn s w i b since f) := by
  unfold barrierTurn
  split
  · exact hf _ _ h
  · dsimp only
    split
    · exact hf _ _ h
    · exact outWf_next.mpr (by simpa using h)

theorem barrierAt_out_wf {s : State} (h : s.mem.wf = true) {w : Wave} {i : Issue} {u : UnitSt} {q : BitVec 1} {va : Nat}
    {kind : AccKind} {o : Out} (e : barrierAt s w i u q va kind = .out o) : OutWf o := by
  unfold barrierAt at e
  grind [takeTrap_wf, outWf_next, State.refuseWord_wf, State.waitForWalks_mem]

theorem barrierWord_wf {s : State} (h : s.mem.wf = true) {i : Instr} {k : BitVec 5} {q : BitVec 1} {r : Option (BitVec 6)}
    {kind : AccKind}
    {f : State → Wave → Issue → BarrierRef → Option Nat → Out} (hf : ∀ t w i b a, t.mem.wf = true → OutWf (f t w i b a)) :
    OutWf (barrierWord s i k q r kind f) := by
  refine baseAccess_wf h _ _ fun w is u va => ?_
  have h1 : (s.setWave (w.presents is.arm none)).mem.wf = true := by simpa using h
  dsimp only
  split
  · exact poisonTrap_wf h1 _ _
  · split
    next e => exact barrierAt_out_wf h1 e
    · split
      · exact stallWord_wf h1
      · split
        · exact hf _ _ _ _ _ (State.barrierReach_wf h1 _ _)
        · exact stallWord_wf (State.barrierReach_wf h1 _ _)

theorem checkedBarrier_wf {s : State} (h : s.mem.wf = true) {w : Wave} {i : Issue} {b : BarrierRef} {f : Nat → Out}
    (hf : ∀ x, OutWf (f x)) : OutWf (checkedBarrier s w i b f) := by
  unfold checkedBarrier
  split
  · exact takeTrap_wf h _ _ _ _ _
  · split
    · exact takeTrap_wf h _ _ _ _ _
    · exact hf _

theorem finishBarrier_wf {s : State} (h : s.mem.wf = true) (w : Wave) (i : Issue) (sc : BitVec 3) : OutWf (finishBarrier s w i sc) := by
  grind [finishBarrier, finish_wf, State.clampScope_mem, outWf_next, outWf_fault]

theorem execTbinit_wf {s : State} (h : s.mem.wf = true) (k : BitVec 5) (q : BitVec 1) (sc : BitVec 3) (r : BitVec 6) :
    OutWf (execTbinit k q sc r s) :=
  barrierWord_wf h fun _ w _ b _ ht => outWf_ite (takeTrap_wf ht _ _ _ _ _) <| barrierTurn_wf ht fun _ w ht =>
    have hb := State.barrierWrite_wf ht (coreQuad w.core) w.part b
    outWf_ite (stallWord_wf (hb _)) (finishBarrier_wf (by simpa using hb _) _ _ _)

theorem updateBarrier_wf {s : State} (h : s.mem.wf = true) (w : Wave) (i : Issue) (b : BarrierRef) (sc : BitVec 3) (x : Option Nat) :
    OutWf (updateBarrier s w i b sc x) := by
  unfold updateBarrier
  split
  · exact takeTrap_wf h _ _ _ _ _
  next x =>
    have hb := finishBarrier_wf (State.barrierWrite_wf h (coreQuad w.core) w.part b x)
    refine outWf_ite (stallWord_wf (State.barrierWrite_wf h _ _ _ _)) ?_
    split
    next e => exact outWf_next.mpr (State.barrierChanged_wf (hb _ _ _ _ e) _)
    · exact hb _ _ _

theorem execTbarrive_wf {s : State} (h : s.mem.wf = true) (k : BitVec 5) (q : BitVec 1) (sc : BitVec 3) (r : BitVec 6) :
    OutWf (execTbarrive k q sc r s) :=
  barrierWord_wf h fun _ _ _ _ _ ht => outWf_ite (stallWord_wf ht) <| outWf_ite (stallWord_wf (State.releaseAt_wf ht _ _ _)) <|
    barrierTurn_wf (State.releaseAt_wf ht _ _ _) fun _ _ ht => checkedBarrier_wf ht fun _ => updateBarrier_wf ht _ _ _ _ _

theorem execTbexpect_wf {s : State} (h : s.mem.wf = true) (k : BitVec 5) (q : BitVec 1) (sc : BitVec 3) (r : BitVec 6) :
    OutWf (execTbexpect k q sc r s) :=
  barrierWord_wf h fun _ _ _ _ _ ht => outWf_ite (stallWord_wf ht) <|
    barrierTurn_wf ht fun _ _ ht => checkedBarrier_wf ht fun _ => updateBarrier_wf ht _ _ _ _ _

@[simp] theorem State.missPromise_mem (s : State) (w : Wave) (a : Arm) (pc va promise : Nat) (second : Bool) :
    (s.missPromise w a pc va promise second).mem = s.mem := by
  simp [State.missPromise]

theorem execTbwait_wf {s : State} (h : s.mem.wf = true) (k : BitVec 5) (q : BitVec 1) (sc : BitVec 3) (r : BitVec 6) :
    OutWf (execTbwait k q sc r s) := by
  refine barrierWord_wf h fun t w i b a ht => barrierTurn_wf ht fun t w ht => checkedBarrier_wf ht fun x => ?_
  dsimp only
  split
  · split
    · exact finishBarrier_wf (State.acquireAt_wf ht _ _) _ _ _
    · exact stallWord_wf (State.acquireAt_wf ht _ _)
  · split
    · exact outWf_next.mpr (by simpa using ht)
    · exact sleepWith_wf (by simpa using ht) _ _ _

theorem execTbquery_wf {s : State} (h : s.mem.wf = true) (k : BitVec 5) (q : BitVec 1) (sc : BitVec 3) (r : BitVec 6) :
    OutWf (execTbquery k q sc r s) :=
  barrierWord_wf h fun _ _ _ _ _ ht => barrierTurn_wf ht fun _ _ ht => checkedBarrier_wf ht fun _ => finishBarrier_wf ht _ _ _

@[simp] theorem State.missAt_mem (s : State) (seq wid : Nat) (a : Arm) : (s.missAt seq wid a).mem = s.mem := by
  grind [State.missAt, State.missPromise_mem]

theorem execMissedPromise_wf {s : State} (h : s.mem.wf = true) : OutWf (execMissedPromise s) := by
  unfold execMissedPromise
  split <;> simp [h]

@[simp] theorem State.missPromises_mem (s : State) : s.missPromises.mem = s.mem :=
  foldl_mem (fun _ _ => by simp) _ _

@[simp] theorem State.setBar_mem (s : State) (b : Bar) : (s.setBar b).mem = s.mem := rfl

@[simp] theorem State.recheckBar_wf {s : State} (h : s.mem.wf = true) (w : Wave) (a : Arm) : (s.recheckBar w a).mem.wf = true := by
  grind [State.recheckBar, State.returnAcquire_wf]

@[simp] theorem State.barChanged_wf {s : State} (h : s.mem.wf = true) (k : BarKey) (id : Nat) : (s.barChanged k id).mem.wf = true :=
  foldl_wf (fun _ _ ht =>
    have h1 := wf_ite (State.recheckBar_wf ht _ _) ht
    wf_ite ht (wf_ite (State.recheckBar_wf h1 _ _) h1)) _ h

theorem barArrival_wf {s : State} (h : s.mem.wf = true) {i : Instr} {sc : BitVec 3} {id : BitVec 4} {r : BitVec 6}
    {f : State → Wave → Issue → BarKey → Bool → Nat → Out} (hf : ∀ t w i k b n, t.mem.wf = true → OutWf (f t w i k b n)) :
    OutWf (barArrival s i sc id r f) := by
  refine whenLegal_wf h fun w i u => ?_
  dsimp only
  split
  · exact poisonTrap_wf h _ _
  · split
    · exact takeTrap_wf h _ _ _ _ _
    · split
      · exact stallWord_wf (State.releaseAt_wf h _ _ _)
      · exact hf _ _ _ _ _ _ (State.releaseAt_wf h _ _ _)

@[simp] theorem State.arriveBar_wf {s : State} (h : s.mem.wf = true) (w : Wave) (k : BarKey) (id n : Nat) :
    (s.arriveBar w k id n).mem.wf = true := by
  refine State.barChanged_wf ?_ _ _
  rw [State.setBar_mem]
  exact wf_ite (by simpa using h) h

theorem execBararrive_wf {s : State} (h : s.mem.wf = true) (sc : BitVec 3) (id : BitVec 4) (r d : BitVec 6) :
    OutWf (execBararrive sc id r d s) := by
  refine barArrival_wf h fun t w i k last gen ht => ?_
  split
  next e => exact outWf_next.mpr (State.arriveBar_wf (finishBarrier_wf ht _ _ _ _ e) _ _ _ _)
  · exact finishBarrier_wf ht _ _ _

theorem execBarsync_wf {s : State} (h : s.mem.wf = true) (sc : BitVec 3) (id : BitVec 4) (r : BitVec 6) :
    OutWf (execBarsync sc id r s) := by
  refine barArrival_wf h fun t w i k last gen ht => ?_
  have hs := sleepWith_wf (s := (t.clampScope w.part (scopeOf sc)).1) (by simpa using ht) w i
    (.bar k id.toNat gen (t.clamped w sc))
  dsimp only
  split
  · split
    · exact stallWord_wf (State.acquireAt_wf ht _ _)
    · have hb := finishBarrier_wf (State.acquireAt_wf ht w (t.clamped w sc))
      split
      next e => exact outWf_next.mpr (State.arriveBar_wf (hb _ _ _ _ e) _ _ _ _)
      · exact hb _ _ _
  · split
    next e => exact outWf_next.mpr (State.arriveBar_wf (hs _ e) _ _ _ _)
    · exact hs

theorem execBarwait_wf {s : State} (h : s.mem.wf = true) (sc : BitVec 3) (id : BitVec 4) (r : BitVec 6) :
    OutWf (execBarwait sc id r s) := by
  refine whenLegal_wf h fun w i u => ?_
  grind [poisonTrap_wf, State.acquireAt_wf, finishBarrier_wf, stallWord_wf, sleepWith_wf, State.clampScope_mem, outWf_next, outWf_fault]

/-! ### Gates -/

@[simp] theorem State.setGate_mem (s : State) (g : Gate) : (s.setGate g).mem = s.mem := rfl

@[simp] theorem State.logGate_wf {s : State} (h : s.mem.wf = true) (w : Wave) (handle sub kind : Nat) :
    (s.logGate w handle sub kind).mem.wf = true := State.logError_wf h _ _

theorem gateFault_wf {s : State} (h : s.mem.wf = true) (w : Wave) (i : Issue) (handle sub kind : Nat) :
    OutWf (gateFault s w i handle sub kind) := by
  grind [gateFault, takeTrap_wf, State.logGate_wf, outWf_next, outWf_fault]

@[simp] theorem State.wakeFirst_mem (s : State) (f : Wait → Option Nat) : (s.wakeFirst f).mem = s.mem := by
  unfold State.wakeFirst
  split <;> simp

theorem gateWord_wf {s : State} (h : s.mem.wf = true) {i : Instr} {a : BitVec 6} {y : Option (BitVec 6)} {ok : Gate → Nat → Option Nat}
    {kind : Nat} {f : Wave → Issue → Gate → Out} (hf : ∀ w i g, OutWf (f w i g)) : OutWf (gateWord s i a y ok kind f) := by
  refine whenLegal_wf h fun w i u => ?_
  dsimp only
  split
  · exact poisonTrap_wf h _ _
  · split
    · exact gateFault_wf h _ _ _ _ _
    · split
      · exact gateFault_wf h _ _ _ _ _
      · exact hf _ _ _

theorem execGatepost_wf {s : State} (h : s.mem.wf = true) (d a : BitVec 6) : OutWf (execGatepost d a s) := by
  refine gateWord_wf h fun w i g => ?_
  dsimp only
  split
  · exact finish_wf h _ _
  · split
    · exact finish_wf (by simpa using h) _ _
    · have hr : ((s.releaseAt w i.arm .part).1.setGate (g.post s.now48).1).mem.wf = true := by
        simpa using State.releaseAt_wf h w i.arm .part
      split
      · exact stallWord_wf (State.releaseAt_wf h _ _ _)
      · split
        next e => exact outWf_next.mpr (by simpa using finish_wf hr _ _ _ e)
        · exact finish_wf hr _ _

theorem execGatetake_wf {s : State} (h : s.mem.wf = true) (d a y : BitVec 6) : OutWf (execGatetake d a y s) := by
  refine gateWord_wf h fun w i g => ?_
  dsimp only
  split
  · exact finish_wf h _ _
  · split
    · split
      · exact stallWord_wf (State.acquireAt_wf h _ _)
      · exact finish_wf (by simpa using State.acquireAt_wf h w .part) _ _
    · split
      · exact finish_wf h _ _
      · exact sleepWith_wf h _ _ _

theorem execGatepoll_wf {s : State} (h : s.mem.wf = true) (d a : BitVec 6) : OutWf (execGatepoll d a s) :=
  gateWord_wf h fun _ _ _ => finish_wf h _ _

@[simp] theorem State.retryTake_wf {s : State} (h : s.mem.wf = true) (w : Wave) (a : Arm) : (s.retryTake w a).mem.wf = true := by
  grind [State.retryTake, State.enterTrap_mem, State.logGate_wf, State.endSleep_mem, State.modWave_mem, State.acquireAt_wf,
  State.setGate_mem]

theorem execGatetakeWake_wf {s : State} (h : s.mem.wf = true) : OutWf (execGatetakeWake s) := by
  grind [execGatetakeWake, State.retryTake_wf, outWf_next, outWf_fault]

theorem execGatetakeTimeout_wf {s : State} (h : s.mem.wf = true) : OutWf (execGatetakeTimeout s) := by
  grind [execGatetakeTimeout, State.endSleep_mem, outWf_next, outWf_fault]

@[simp] theorem State.endTakes_mem (s : State) (handle status : Nat) : (s.endTakes handle status).mem = s.mem := by
  refine foldl_mem (fun t x => ?_) _ _
  split
  · exact State.endSleep_mem _ _ _ _ _
  · rfl

@[simp] theorem State.wakeTakes_wf {s : State} (h : s.mem.wf = true) (handle : Nat) : (s.wakeTakes handle).mem.wf = true :=
  foldl_wf (fun _ _ ht => wf_ite (by simpa using ht) (State.retryTake_wf (by simpa using ht) _ _)) _ h

/-! ### Counters -/

@[simp] theorem State.addCounters_mem (s : State) (p mask n : Nat) : (s.addCounters p mask n).mem = s.mem := by
  unfold State.addCounters
  split
  · rfl
  · exact foldl_mem (fun _ _ => State.postEvent_mem _ _ _ _ _) _ _

@[simp] theorem State.settle_mem (s : State) (f : Charge → Bool) : (s.settle f).mem = s.mem :=
  foldl_mem (fun _ _ => State.addCounters_mem _ _ _ _) _ _

@[simp] theorem State.settleOld_mem (s : State) : (s.settleOld).mem = s.mem := by
  unfold State.settleOld
  split <;> simp

theorem execCounterAdd_wf {s : State} (h : s.mem.wf = true) : OutWf (execCounterAdd s) := by
  grind [execCounterAdd, State.addCounters_mem, outWf_next, outWf_fault]

@[simp] theorem State.dropCharges_mem (s : State) (p i : Nat) : (s.dropCharges p i).mem = s.mem := rfl

theorem execCtrsel_wf {s : State} (h : s.mem.wf = true) (n : BitVec 4) (a : BitVec 6) : OutWf (execCtrsel n a s) := by
  refine whenLegal_wf h fun w i u => ?_
  grind [poisonTrap_wf, State.modPart_mem, finish_wf, State.dropCharges_mem, outWf_next, outWf_fault]

theorem execCtrrd_wf {s : State} (h : s.mem.wf = true) (d : BitVec 6) (n : BitVec 4) : OutWf (execCtrrd d n s) := by
  refine whenLegal_wf h fun w i u => ?_
  grind [finish_wf, outWf_next, outWf_fault]

theorem execCtrctl_wf {s : State} (h : s.mem.wf = true) (d a : BitVec 6) : OutWf (execCtrctl d a s) := by
  refine whenLegal_wf h fun w i u => ?_
  grind [poisonTrap_wf, State.modPart_mem, finish_wf, outWf_next, outWf_fault]

/-! ### Mailboxes -/

@[simp] theorem State.writeAnswers_wf (n : Nat) : ∀ (k : Nat) {s : State}, s.mem.wf = true → (s.writeAnswers n k).mem.wf = true
  | 0, _, h => h
  | k + 1, s, h => by
    unfold State.writeAnswers
    dsimp only
    split
    · exact h
    · exact State.writeAnswers_wf n k (State.poke_wf h _ _)

@[simp] theorem State.answerCmd_wf {s : State} (h : s.mem.wf = true) (c : Cmd) (st : CmdStatus) (results : List Byte) :
    (s.answerCmd c st results).mem.wf = true := by
  simp [State.answerCmd, h]

@[simp] theorem State.takeCmd_wf {s : State} (h : s.mem.wf = true) (n : Nat) : (s.takeCmd n).mem.wf = true := by
  grind [State.takeCmd, State.setMbox_mem, State.answerCmd_wf]

@[simp] theorem State.takeCmds_wf {s : State} (h : s.mem.wf = true) (n : Nat) : (s.takeCmds n).mem.wf = true :=
  foldl_wf (fun _ _ ht => State.takeCmd_wf ht _) _ h

@[simp] theorem State.takeAll_wf {s : State} (h : s.mem.wf = true) : s.takeAll.mem.wf = true :=
  foldl_wf (fun _ _ ht => State.takeCmds_wf ht _) _ h

@[simp] theorem State.endCmd_wf {s : State} (h : s.mem.wf = true) (c : Cmd) (st : CmdStatus) (results : List Byte) :
    (s.endCmd c st results).mem.wf = true := by
  simp [State.endCmd, h]

theorem finishCmd_wf {s : State} (h : s.mem.wf = true) (c : Cmd) {d : Done} (hd : ResWf d) : OutWf (finishCmd s c d) := by
  cases d with
  | ok x => exact outWf_next.mpr (State.endCmd_wf (resWf_ok.mp hd) _ _ _)
  | error e => exact outWf_next.mpr (State.endCmd_wf h _ _ _)

@[simp] theorem State.holdCmd_mem (s : State) : (s.holdCmd).mem = s.mem := rfl

theorem devCmd_wf {s : State} (h : s.mem.wf = true) (c : Cmd) (admin : Bool) (stage : Nat) {f : State → Done} (hf : ResWf (f s)) :
    OutWf (devCmd s c admin stage f) :=
  outWf_ite (outWf_next.mpr h) (outWf_ite (finishCmd_wf h _ resWf_error) (outWf_ite (finishCmd_wf h _ resWf_error) (finishCmd_wf h _ hf)))

theorem partCmd_wf {s : State} (h : s.mem.wf = true) (c : Cmd) (admin : Bool) {f : State → Part → Done} (hf : ∀ p, ResWf (f s p)) :
    OutWf (partCmd s c admin f) := by
  unfold partCmd
  split
  · exact devCmd_wf h _ _ _ resWf_error
  · exact outWf_ite (outWf_next.mpr (by simpa using h)) (devCmd_wf h _ _ _ (hf _))

theorem needFeature_wf {s : State} {b : Nat} {r : Done} (hr : ResWf r) : ResWf (needFeature s b r) := need_wf hr

theorem execRegisterWrite_wf {s : State} (h : s.mem.wf = true) : OutWf (execRegisterWrite s) := by
  grind [execRegisterWrite, State.pageWrite_mem, State.takeCmds_wf, State.setMbox_mem, outWf_next, outWf_fault]

theorem execMailboxDoorbell_wf {s : State} (h : s.mem.wf = true) : OutWf (execMailboxDoorbell s) := by
  grind [execMailboxDoorbell, State.takeCmds_wf, State.setMbox_mem, outWf_next, outWf_fault]

@[simp] theorem State.postFault_mem (s : State) (w : Wave) (a : Arm) : (s.postFault w a).mem = s.mem := by
  unfold State.postFault
  split <;> simp

@[simp] theorem State.postParked_mem (s : State) (p : Part) : (s.postParked p).mem = s.mem := by
  grind [State.postParked, State.postFault_mem]

theorem execHostQueuePost_wf {s : State} (h : s.mem.wf = true) : OutWf (execHostQueuePost s) := by
  unfold execHostQueuePost
  split
  next n _ =>
    have h1 : (((s.part? n).map s.postParked).getD s).mem.wf = true := by
      cases s.part? n with
      | none => exact h
      | some p => simpa using h
    dsimp only
    generalize ((s.part? n).map s.postParked).getD s = t at h1 ⊢
    split
    · exact outWf_next.mpr h1
    · split
      · refine outWf_ite (outWf_next.mpr h1) (outWf_next.mpr ?_)
        simpa using State.poke_wf h1 _ _
      · exact outWf_next.mpr h1
  · exact outWf_next.mpr h

/-! ### Startup -/

@[simp] theorem State.measure_mem (s : State) (r k : Nat) : (s.measure r k).mem = s.mem := rfl

@[simp] theorem State.released_wf {s : State} (h : s.mem.wf = true) : s.released.mem.wf = true := Memory.wf_filter _ h

theorem execResetRelease_wf {s : State} (h : s.mem.wf = true) : OutWf (execResetRelease s) := by
  unfold execResetRelease
  split <;> simp [h]

@[simp] theorem State.stageFails_mem (s : State) (n die : Nat) : (s.stageFails n die).mem = s.mem := rfl

@[simp] theorem State.retireDie_mem (s : State) (d : Nat) : (s.retireDie d).mem = s.mem := by
  unfold State.retireDie
  split <;> simp

@[simp] theorem State.readFuses_mem (s : State) : (s.readFuses).mem = s.mem := rfl

@[simp] theorem State.podUp_mem (s : State) (q self : Nat) : (s.podUp q self).mem = s.mem := rfl

@[simp] theorem State.enterStage_mem (s : State) (ok : Bool) (die : Nat) : (s.enterStage ok die).mem = s.mem := by
  grind [State.enterStage, State.stageFails_mem, State.measure_mem, State.retireDie_mem, State.readFuses_mem, State.fresh_mem,
  State.podUp_mem]

theorem execStageAdvance_wf {s : State} (h : s.mem.wf = true) : OutWf (execStageAdvance s) := by
  grind [execStageAdvance, State.enterStage_mem, outWf_next, outWf_fault]

theorem execFeatget_wf {s : State} (h : s.mem.wf = true) : OutWf (execFeatget s) := by
  unfold execFeatget
  split
  · exact devCmd_wf h _ _ _ (need_wf (need_wf (resWf_ok.mpr h)))
  · exact outWf_next.mpr h

@[simp] theorem State.commitFeatures_mem (s : State) (w0 : Nat) : (s.commitFeatures w0).mem = s.mem := rfl

theorem execFeatset_wf {s : State} (h : s.mem.wf = true) : OutWf (execFeatset s) := by
  unfold execFeatset
  split
  · exact devCmd_wf h _ _ _ (need_wf (need_wf (resWf_ok.mpr (by simpa using h))))
  · exact outWf_next.mpr h

@[simp] theorem State.fillBuffer_wf {s : State} (h : s.mem.wf = true) (buf len : Nat) (bs : List Byte) :
    (s.fillBuffer buf len bs).mem.wf = true := by
  grind [State.fillBuffer, State.poke_mem, State.poke_wf]

theorem execIdent_wf {s : State} (h : s.mem.wf = true) : OutWf (execIdent s) := by
  unfold execIdent
  split
  · exact devCmd_wf h _ _ _ (resWf_ok.mpr (State.fillBuffer_wf h _ _ _))
  · exact outWf_next.mpr h

theorem execAttest_wf {s : State} (h : s.mem.wf = true) : OutWf (execAttest s) := by
  unfold execAttest
  split
  · exact devCmd_wf h _ _ _ (resWf_ok.mpr (State.fillBuffer_wf (by exact h) _ _ _))
  · exact outWf_next.mpr h

theorem execThermalThrottle_wf {s : State} (h : s.mem.wf = true) : OutWf (execThermalThrottle s) := by
  unfold execThermalThrottle
  split <;> simp [h]

theorem execThermalShutdown_wf {s : State} (h : s.mem.wf = true) : OutWf (execThermalShutdown s) := by
  unfold execThermalShutdown
  split <;> simp [h]

@[simp] theorem State.fabric_mem (s : State) (cmd : Nat) (values : List Byte) : (s.fabric cmd values).mem = s.mem := rfl

theorem fabricCmd_wf {s : State} (h : s.mem.wf = true) {f : State → State} (hf : (f s).mem.wf = true) : OutWf (fabricCmd s f) :=
  outWf_ite (outWf_next.mpr hf) (outWf_next.mpr h)

theorem execGetLdInfo_wf {s : State} (h : s.mem.wf = true) : OutWf (execGetLdInfo s) := by
  unfold execGetLdInfo
  split
  · exact fabricCmd_wf h (by simpa using h)
  · exact outWf_next.mpr h

theorem execGetLdAllocations_wf {s : State} (h : s.mem.wf = true) : OutWf (execGetLdAllocations s) := by
  unfold execGetLdAllocations
  split
  · exact fabricCmd_wf h (by simpa using h)
  · exact outWf_next.mpr h

theorem execSetLdAllocations_wf {s : State} (h : s.mem.wf = true) : OutWf (execSetLdAllocations s) := by
  unfold execSetLdAllocations
  split
  · refine fabricCmd_wf h ?_
    split
    · simpa using h
    · split
      · simpa using h
      · exact h
  · exact outWf_next.mpr h

theorem execGetQosControl_wf {s : State} (h : s.mem.wf = true) : OutWf (execGetQosControl s) := by
  unfold execGetQosControl
  split
  · exact fabricCmd_wf h (by simpa using h)
  · exact outWf_next.mpr h

@[simp] theorem State.modLd_mem (s : State) (ld : Nat) (f : LogDev → LogDev) : (s.modLd ld f).mem = s.mem := rfl

theorem execSetQosControl_wf {s : State} (h : s.mem.wf = true) : OutWf (execSetQosControl s) := by
  unfold execSetQosControl
  split
  · exact fabricCmd_wf h (by simpa using h)
  · exact outWf_next.mpr h

theorem execGetQosStatus_wf {s : State} (h : s.mem.wf = true) : OutWf (execGetQosStatus s) := by
  unfold execGetQosStatus
  split
  · exact fabricCmd_wf h (by simpa using h)
  · exact outWf_next.mpr h

theorem execBindVppb_wf {s : State} (h : s.mem.wf = true) : OutWf (execBindVppb s) := by
  unfold execBindVppb
  split
  · exact fabricCmd_wf h (by simpa using h)
  · exact outWf_next.mpr h

theorem execUnbindVppb_wf {s : State} (h : s.mem.wf = true) : OutWf (execUnbindVppb s) := by
  unfold execUnbindVppb
  split
  · exact fabricCmd_wf h (by simpa using h)
  · exact outWf_next.mpr h

/-! ### Ladle channels -/

@[simp] theorem State.chanWalks_mem (s : State) (c : Chan) (w : Wave) (pages : List Nat) : (s.chanWalks c w pages).mem = s.mem :=
  foldl_mem (fun _ _ => State.askWalk_mem _ _ _ _ _) _ _

@[simp] theorem State.endDoor_wf {s : State} (h : s.mem.wf = true) (d : Doorbell) : (s.endDoor d).mem.wf = true := by
  unfold State.endDoor
  split <;> simp [h]

@[simp] theorem State.takeDoor_mem (s : State) (die ch : Nat) : (s.takeDoor die ch).mem = s.mem := by
  simp [State.takeDoor]

@[simp] theorem State.chanError_mem (s : State) (die ch sub : Nat) : (s.chanError die ch sub).mem = s.mem := by
  simp [State.chanError]

@[simp] theorem State.refuseDoor_wf {s : State} (h : s.mem.wf = true) (c : Chan) (d : Doorbell) (sub : Nat) :
    (s.refuseDoor c d sub).mem.wf = true := by
  simp [State.refuseDoor, h]

@[simp] theorem State.logEngine_wf {s : State} (h : s.mem.wf = true) (c : Chan) (w : Wave) (kind : AccKind) :
    ∀ x : Nat × Option (Nat × Nat), (s.logEngine c w kind x).mem.wf = true
  | (_, some _) => State.logError_wf h _ _
  | (_, none) => h

@[simp] theorem State.lineReady_mem (s : State) (die part : Nat) (x : Nat × Bool) : (s.lineReady die part x).1.mem = s.mem := by
  grind [State.lineReady, State.permitted_mem]

@[simp] theorem State.ownLine_wf {s : State} (h : s.mem.wf = true) (die part : Nat) (x : Nat × Bool) :
    (s.ownLine die part x).mem.wf = true := by
  grind [State.ownLine, State.directoryRoom_wf, State.wakeLine_mem, State.dropCopies_mem, State.filled_mem, State.dirOwn_wf]

@[simp] theorem State.chanBarrierWrite_wf {s : State} (h : s.mem.wf = true) (part : Nat) (r : Requester) (b : BarrierRef) (x : Nat) :
    (s.chanBarrierWrite part r b x).1.mem.wf = true := by
  grind [State.chanBarrierWrite, State.pokeNat_mem, State.pokeNat_wf, State.homeWrite_wf]

@[simp] theorem State.chanBarrierReady_wf {s : State} (h : s.mem.wf = true) (part : Nat) (r : Requester) (b : BarrierRef) :
    (s.chanBarrierReady part r b).1.mem.wf = true := by
  grind [State.chanBarrierReady, State.homeReach_wf, State.permitted_mem]

@[simp] theorem State.presentDoor_mem (s : State) (die ch : Nat) (x : Option (Nat × Nat)) : (s.presentDoor die ch x).mem = s.mem := by
  grind [State.presentDoor, State.setChan_mem]

@[simp] theorem State.putCopy_wf {s : State} (h : s.mem.wf = true) (c : Chan) (d : Doorbell) (w : Wave) (src dst : List SectorAt)
    (b : Option BarrierRef) : (s.putCopy c d w src dst b).mem.wf = true := by
  refine State.endDoor_wf (foldl_wf (fun _ _ ht => State.ownLine_wf ht _ _ _) _ ?_) _
  split
  · simpa using h
  · exact State.chanBarrierWrite_wf (by simpa using h) _ _ _ _

@[simp] theorem State.acceptCopy_wf {s : State} (h : s.mem.wf = true) (c : Chan) (w : Wave) (d : Doorbell) (src dst : List SectorAt)
    (b : Option BarrierRef) : (s.acceptCopy c w d src dst b).mem.wf = true := by
  have hg := gotAll_wf h (destLines dst) (f := fun t x => t.lineReady c.die w.part x) fun _ _ ht => by simpa using ht
  refine wf_ite (by simpa using h) ?_
  cases b with
  | none => exact wf_ite (by simpa using hg) (State.putCopy_wf hg _ _ _ _ _ _)
  | some x =>
    have hb := fst_wf_ite (c := (gotAll s (destLines dst) fun t x => t.lineReady c.die w.part x).2 = true)
      (State.chanBarrierReady_wf hg w.part (s.chanRequester c.die c.ch w.seq) x) hg
    exact wf_ite (by simpa using hb) (wf_ite (by simpa using hb) (State.putCopy_wf hb _ _ _ _ _ _))

@[simp] theorem State.checkDoor_wf {s : State} (h : s.mem.wf = true) (c : Chan) (w : Wave) (d : Doorbell) (count : Nat)
    (x y : List SectorGot) (z : Option (BarrierRef × SectorGot)) : (s.checkDoor c w d count x y z).mem.wf = true := by
  grind [State.checkDoor, State.refuseDoor_wf, State.logEngine_wf, State.acceptCopy_wf]

@[simp] theorem State.acceptDoor_wf {s : State} (h : s.mem.wf = true) (c : Chan) (w : Wave) (p : Part) (d : Doorbell) :
    (s.acceptDoor c w p d).mem.wf = true := by
  grind [State.acceptDoor, State.refuseDoor_wf, State.checkDoor_wf, State.presentDoor_mem, State.chanWalks_mem]

theorem execCopyAccept_wf {s : State} (h : s.mem.wf = true) : OutWf (execCopyAccept s) := by
  unfold execCopyAccept
  split
  · dsimp only
    split
    · exact outWf_next.mpr h
    · split
      · exact outWf_next.mpr (by simpa using h)
      · split
        · exact outWf_next.mpr (by simpa using h)
        · exact outWf_next.mpr (State.acceptDoor_wf h _ _ _ _)
  · exact outWf_next.mpr h

@[simp] theorem State.readSource_wf {s : State} (h : s.mem.wf = true) (die ch : Nat) (x : Copy) (key : Nat) :
    (s.readSource die ch x key).1.mem.wf = true := by
  grind [State.readSource, State.logAway_wf, State.permitted_mem, State.chargeFetch_mem]

@[simp] theorem State.writeDest_wf {s : State} (h : s.mem.wf = true) (die ch : Nat) (x : Copy) (key : Nat) (bs : List Byte) (bad : Nat) :
    (s.writeDest die ch x key bs bad).mem.wf = true := by
  refine wf_ite h (wf_ite (State.logAway_wf h _ _ _ _) ?_)
  have h1 : (if (s.l2Find die (lineKey key)).isSome then s.l2Store die key bs allLanes
      else ((({ s with mem := s.mem.writeBytes key bs }.clearPoison key).wakeLine (lineKey key)).rowAccess key).cleanLine
        (lineKey key)).mem.wf = true :=
    wf_ite (State.l2Store_wf h _ _ _ _) (by simpa using Memory.wf_writeBytes key bs h)
  exact wf_ite (by simpa using h1) h1

theorem State.landSectors_wf (die ch : Nat) (x : Copy) : ∀ (n : Nat) (l : List (Nat × Nat)) (ms : List Move) {s : State},
    s.mem.wf = true → (s.landSectors die ch x n l ms).state.mem.wf = true
  | 0, _, _, _, h => by simpa [State.landSectors] using h
  | _ + 1, [], _, _, h => by simpa [State.landSectors] using h
  | k + 1, p :: ps, m :: ms, s, h => by
    unfold State.landSectors
    dsimp only
    split
    · exact State.landSectors_wf die ch x k ps ms h
    · split
      · exact h
      · exact State.landSectors_wf die ch x k ps ms (State.writeDest_wf h _ _ _ _ _ _)
    · exact h
  | k + 1, p :: ps, [], s, h => by
    have hr := State.readSource_wf h die ch x p.1
    unfold State.landSectors
    dsimp only
    split
    · exact h
    · split
      next e => rwa [e] at hr
      next e =>
        rw [e] at hr
        exact State.landSectors_wf die ch x k ps [] (State.writeDest_wf hr _ _ _ _ _ _)

@[simp] theorem State.beginMove_wf {s : State} (h : s.mem.wf = true) (die ch : Nat) (x : Copy) (p : Nat × Nat) :
    (s.beginMove die ch x p).1.mem.wf = true := by
  grind [State.beginMove, State.readSource_wf]

@[simp] theorem State.beginMoves_wf (die ch : Nat) (x : Copy) : ∀ (n : Nat) (l : List (Nat × Nat)) {s : State}, s.mem.wf = true →
    (s.beginMoves die ch x n l).1.mem.wf = true
  | 0, _, _, h => by simpa [State.beginMoves] using h
  | _ + 1, [], _, h => by simpa [State.beginMoves] using h
  | n + 1, p :: ps, s, h => by
    have hm := State.beginMove_wf h die ch x p
    unfold State.beginMoves
    refine fst_wf_ite h ?_
    split
    next e => rwa [e] at hm
    next e =>
      rw [e] at hm
      exact State.beginMoves_wf die ch x n ps hm

@[simp] theorem State.setHead_mem (s : State) (die ch : Nat) (x : Copy) : (s.setHead die ch x).mem = s.mem := by
  simp [State.setHead]

@[simp] theorem State.nextMoves_wf {s : State} (h : s.mem.wf = true) (die ch : Nat) (x : Copy) :
    (s.nextMoves die ch x).mem.wf = true := by
  unfold State.nextMoves
  split <;> simp [h]

@[simp] theorem State.landBarrier_wf {s : State} (h : s.mem.wf = true) (die ch : Nat) (x : Copy) (b : BarrierRef) (k : Nat) :
    (s.landBarrier die ch x b k).mem.wf = true :=
  wf_ite (State.barrierChanged_wf (by simpa using h) _) (State.barrierChanged_wf (State.chanBarrierWrite_wf h _ _ _ _) _)

@[simp] theorem State.landPresented_wf {s : State} (h : s.mem.wf = true) (die ch : Nat) (x : Copy) :
    (s.landPresented die ch x).1.mem.wf = true := by
  grind [State.landPresented, State.landBarrier_wf]

@[simp] theorem State.releaseDests_mem (s : State) (die : Nat) (x : Copy) (left : List (Nat × Nat)) :
    (s.releaseDests die x left).mem = s.mem := by
  refine foldl_mem (fun t l => ?_) _ _
  split
  · simp
  · rfl

@[simp] theorem State.reportLost_mem (s : State) (die ch : Nat) (x : Copy) : (s.reportLost die ch x).mem = s.mem := by
  simp [State.reportLost]

theorem State.reportLost_ite_wf {t : State} (h : t.mem.wf = true) (c : Bool) (die ch : Nat) (x : Copy) :
    (if c then t.reportLost die ch x else t).mem.wf = true :=
  wf_ite (by simpa using h) h

@[simp] theorem State.landCopy_wf {s : State} (h : s.mem.wf = true) (die ch k : Nat) (x0 : Copy) :
    (s.landCopy die ch k x0).mem.wf = true := by
  have hp := State.landPresented_wf h die ch x0
  rw [State.landCopy, State.releaseDests_mem]
  refine State.nextMoves_wf ?_ _ _ _
  generalize s.landPresented die ch x0 = f at hp ⊢
  cases f.2.barrier with
  | none => exact State.reportLost_ite_wf (State.landSectors_wf die ch f.2 _ _ _ hp) _ _ _ _
  | some b =>
    have h1 := State.reportLost_ite_wf (State.landSectors_wf die ch f.2
      (if (f.1.chanBarrierReady f.2.part (f.1.chanRequester die ch f.2.seq) b).2 then k else 0) f.2.sectors f.2.moves
      (State.chanBarrierReady_wf hp f.2.part (f.1.chanRequester die ch f.2.seq) b)) 
    exact fst_wf_ite (h1 _ _ _ _) (fst_wf_ite (h1 _ _ _ _) (State.landBarrier_wf (h1 _ _ _ _) _ _ _ _ _))

theorem execLand_wf {s : State} (h : s.mem.wf = true) : OutWf (execLand s) := by
  grind [execLand, State.landCopy_wf, outWf_next, outWf_fault]

theorem execChstatClear_wf {s : State} (h : s.mem.wf = true) : OutWf (execChstatClear s) := by
  unfold execChstatClear
  split <;> simp [h]

/-! ### Vector words -/

theorem vGuarded_wf {s : State} (h : s.mem.wf = true) (i : Instr) (g : BitVec 3) (f : Wave → Lanes → Wave) :
    OutWf (vGuarded s i g f) := by
  refine whenLegal_wf h fun w i u => ?_
  grind [poisonTrap_wf, finish_wf, outWf_next, outWf_fault]

theorem vImm_wf {s : State} (h : s.mem.wf = true) (i : Instr) (f : Word → Word → Word) (d a : BitVec 6) (imm : BitVec 10) :
    OutWf (vImm s i f d a imm) := by
  refine whenLegal_wf h fun w i u => ?_
  grind [finish_wf, outWf_next, outWf_fault]

theorem execVadd_wf {s : State} (h : s.mem.wf = true) (u : BitVec 1) (d a b : BitVec 6) (g : BitVec 3) : OutWf (execVadd u d a b g s) :=
  vGuarded_wf h _ _ _

theorem execVsub_wf {s : State} (h : s.mem.wf = true) (u : BitVec 1) (d a b : BitVec 6) (g : BitVec 3) : OutWf (execVsub u d a b g s) :=
  vGuarded_wf h _ _ _

theorem execVmul_wf {s : State} (h : s.mem.wf = true) (u : BitVec 1) (d a b : BitVec 6) (g : BitVec 3) : OutWf (execVmul u d a b g s) :=
  vGuarded_wf h _ _ _

theorem execVmulh_wf {s : State} (h : s.mem.wf = true) (u : BitVec 1) (d a b : BitVec 6) (g : BitVec 3) : OutWf (execVmulh u d a b g s) :=
  vGuarded_wf h _ _ _

theorem execVmulhu_wf {s : State} (h : s.mem.wf = true) (u : BitVec 1) (d a b : BitVec 6) (g : BitVec 3) :
    OutWf (execVmulhu u d a b g s) :=
  vGuarded_wf h _ _ _

theorem execVmin_wf {s : State} (h : s.mem.wf = true) (u : BitVec 1) (d a b : BitVec 6) (g : BitVec 3) : OutWf (execVmin u d a b g s) :=
  vGuarded_wf h _ _ _

theorem execVmax_wf {s : State} (h : s.mem.wf = true) (u : BitVec 1) (d a b : BitVec 6) (g : BitVec 3) : OutWf (execVmax u d a b g s) :=
  vGuarded_wf h _ _ _

theorem execVminu_wf {s : State} (h : s.mem.wf = true) (u : BitVec 1) (d a b : BitVec 6) (g : BitVec 3) : OutWf (execVminu u d a b g s) :=
  vGuarded_wf h _ _ _

theorem execVand_wf {s : State} (h : s.mem.wf = true) (u : BitVec 1) (d a b : BitVec 6) (g : BitVec 3) : OutWf (execVand u d a b g s) :=
  vGuarded_wf h _ _ _

theorem execVor_wf {s : State} (h : s.mem.wf = true) (u : BitVec 1) (d a b : BitVec 6) (g : BitVec 3) : OutWf (execVor u d a b g s) :=
  vGuarded_wf h _ _ _

theorem execVxor_wf {s : State} (h : s.mem.wf = true) (u : BitVec 1) (d a b : BitVec 6) (g : BitVec 3) : OutWf (execVxor u d a b g s) :=
  vGuarded_wf h _ _ _

theorem execVshl_wf {s : State} (h : s.mem.wf = true) (u : BitVec 1) (d a b : BitVec 6) (g : BitVec 3) : OutWf (execVshl u d a b g s) :=
  vGuarded_wf h _ _ _

theorem execVshr_wf {s : State} (h : s.mem.wf = true) (u : BitVec 1) (d a b : BitVec 6) (g : BitVec 3) : OutWf (execVshr u d a b g s) :=
  vGuarded_wf h _ _ _

theorem execVsar_wf {s : State} (h : s.mem.wf = true) (u : BitVec 1) (d a b : BitVec 6) (g : BitVec 3) : OutWf (execVsar u d a b g s) :=
  vGuarded_wf h _ _ _

theorem execVmaxu_wf {s : State} (h : s.mem.wf = true) (u : BitVec 1) (d a b : BitVec 6) (g : BitVec 3) : OutWf (execVmaxu u d a b g s) :=
  vGuarded_wf h _ _ _

theorem execVabsd_wf {s : State} (h : s.mem.wf = true) (u : BitVec 1) (d a b : BitVec 6) (g : BitVec 3) : OutWf (execVabsd u d a b g s) :=
  vGuarded_wf h _ _ _

theorem execVaddi_wf {s : State} (h : s.mem.wf = true) (d a : BitVec 6) (imm : BitVec 10) : OutWf (execVaddi d a imm s) :=
  vImm_wf h _ _ _ _ _

theorem execVmuli_wf {s : State} (h : s.mem.wf = true) (d a : BitVec 6) (imm : BitVec 10) : OutWf (execVmuli d a imm s) :=
  vImm_wf h _ _ _ _ _

theorem execVandi_wf {s : State} (h : s.mem.wf = true) (d a : BitVec 6) (imm : BitVec 10) : OutWf (execVandi d a imm s) :=
  vImm_wf h _ _ _ _ _

theorem execVori_wf {s : State} (h : s.mem.wf = true) (d a : BitVec 6) (imm : BitVec 10) : OutWf (execVori d a imm s) :=
  vImm_wf h _ _ _ _ _

theorem execVxori_wf {s : State} (h : s.mem.wf = true) (d a : BitVec 6) (imm : BitVec 10) : OutWf (execVxori d a imm s) :=
  vImm_wf h _ _ _ _ _

theorem execVshli_wf {s : State} (h : s.mem.wf = true) (d a : BitVec 6) (imm : BitVec 10) : OutWf (execVshli d a imm s) :=
  vImm_wf h _ _ _ _ _

theorem execVshri_wf {s : State} (h : s.mem.wf = true) (d a : BitVec 6) (imm : BitVec 10) : OutWf (execVshri d a imm s) :=
  vImm_wf h _ _ _ _ _

theorem execVsari_wf {s : State} (h : s.mem.wf = true) (d a : BitVec 6) (imm : BitVec 10) : OutWf (execVsari d a imm s) :=
  vImm_wf h _ _ _ _ _

theorem execVicmp_wf {s : State} (h : s.mem.wf = true) (u : BitVec 1) (cc : BitVec 3) (d a b : BitVec 6) (g : BitVec 3) :
    OutWf (execVicmp u cc d a b g s) :=
  vGuarded_wf h _ _ _

theorem execVicmpi_wf {s : State} (h : s.mem.wf = true) (cc : BitVec 3) (d a : BitVec 6) (imm : BitVec 10) :
    OutWf (execVicmpi cc d a imm s) := by
  refine whenLegal_wf h fun w i u => ?_
  grind [finish_wf, outWf_next, outWf_fault]

theorem execVclz_wf {s : State} (h : s.mem.wf = true) (u : BitVec 1) (d a : BitVec 6) (g : BitVec 3) : OutWf (execVclz u d a g s) :=
  vGuarded_wf h _ _ _

theorem execVpopc_wf {s : State} (h : s.mem.wf = true) (u : BitVec 1) (d a : BitVec 6) (g : BitVec 3) : OutWf (execVpopc u d a g s) :=
  vGuarded_wf h _ _ _

theorem execVbrev_wf {s : State} (h : s.mem.wf = true) (u : BitVec 1) (d a : BitVec 6) (g : BitVec 3) : OutWf (execVbrev u d a g s) :=
  vGuarded_wf h _ _ _

theorem execVbfx_wf {s : State} (h : s.mem.wf = true) (u : BitVec 1) (d a b : BitVec 6) (g : BitVec 3) : OutWf (execVbfx u d a b g s) :=
  vGuarded_wf h _ _ _

theorem execVbfi_wf {s : State} (h : s.mem.wf = true) (u : BitVec 1) (d a b : BitVec 6) (g : BitVec 3) : OutWf (execVbfi u d a b g s) :=
  vGuarded_wf h _ _ _

theorem execVsel_wf {s : State} (h : s.mem.wf = true) (u : BitVec 1) (d a b : BitVec 6) (p : BitVec 3) :
    OutWf (execVsel u d a b p s) := by
  refine whenLegal_wf h fun w i u => ?_
  grind [finish_wf, outWf_next, outWf_fault]

theorem execVmad_wf {s : State} (h : s.mem.wf = true) (u : BitVec 1) (d a b : BitVec 6) (g : BitVec 3) : OutWf (execVmad u d a b g s) :=
  vGuarded_wf h _ _ _

theorem execVlane_wf {s : State} (h : s.mem.wf = true) (u : BitVec 1) (d : BitVec 6) (g : BitVec 3) : OutWf (execVlane u d g s) :=
  vGuarded_wf h _ _ _

theorem execVmov_wf {s : State} (h : s.mem.wf = true) (d a : BitVec 6) (g : BitVec 3) : OutWf (execVmov d a g s) :=
  vGuarded_wf h _ _ _

theorem execVmovs_wf {s : State} (h : s.mem.wf = true) (d s1 : BitVec 6) (g : BitVec 3) : OutWf (execVmovs d s1 g s) :=
  vGuarded_wf h _ _ _

theorem execVtos_wf {s : State} (h : s.mem.wf = true) (s1 a l : BitVec 6) (g : BitVec 3) : OutWf (execVtos s1 a l g s) := by
  refine whenLegal_wf h fun w i u => ?_
  grind [finish_wf, outWf_next, outWf_fault]

theorem execVfroms_wf {s : State} (h : s.mem.wf = true) (d s1 l : BitVec 6) (g : BitVec 3) : OutWf (execVfroms d s1 l g s) :=
  vGuarded_wf h _ _ _

theorem execShfl_wf {s : State} (h : s.mem.wf = true) (d a b : BitVec 6) (g : BitVec 3) : OutWf (execShfl d a b g s) :=
  vGuarded_wf h _ _ _

theorem execShflx_wf {s : State} (h : s.mem.wf = true) (d a k : BitVec 6) (g : BitVec 3) : OutWf (execShflx d a k g s) :=
  vGuarded_wf h _ _ _

theorem execShflup_wf {s : State} (h : s.mem.wf = true) (d a k : BitVec 6) (g : BitVec 3) : OutWf (execShflup d a k g s) :=
  vGuarded_wf h _ _ _

theorem execShfldn_wf {s : State} (h : s.mem.wf = true) (d a k : BitVec 6) (g : BitVec 3) : OutWf (execShfldn d a k g s) :=
  vGuarded_wf h _ _ _

theorem execLanebc_wf {s : State} (h : s.mem.wf = true) (d a k : BitVec 6) (g : BitVec 3) : OutWf (execLanebc d a k g s) :=
  vGuarded_wf h _ _ _

theorem execVredi_wf {s : State} (h : s.mem.wf = true) (d a o : BitVec 6) (g : BitVec 3) : OutWf (execVredi d a o g s) :=
  vGuarded_wf h _ _ _

theorem vIndirect_wf {s : State} (h : s.mem.wf = true) (i : Instr) (a : BitVec 6) (imm : BitVec 10) (f : Wave → UnitSt → Word → Wave) :
    OutWf (vIndirect s i a imm f) := by
  refine whenLegal_wf h fun w i u => ?_
  grind [poisonTrap_wf, finish_wf, outWf_next, outWf_fault]

theorem execVldx_wf {s : State} (h : s.mem.wf = true) (d a : BitVec 6) (imm : BitVec 10) : OutWf (execVldx d a imm s) :=
  vIndirect_wf h _ _ _ _

theorem execVstx_wf {s : State} (h : s.mem.wf = true) (d a : BitVec 6) (imm : BitVec 10) : OutWf (execVstx d a imm s) :=
  vIndirect_wf h _ _ _ _

theorem execPand_wf {s : State} (h : s.mem.wf = true) (d a b : BitVec 6) (g : BitVec 3) : OutWf (execPand d a b g s) :=
  vGuarded_wf h _ _ _

theorem execPor_wf {s : State} (h : s.mem.wf = true) (d a b : BitVec 6) (g : BitVec 3) : OutWf (execPor d a b g s) :=
  vGuarded_wf h _ _ _

theorem execPxor_wf {s : State} (h : s.mem.wf = true) (d a b : BitVec 6) (g : BitVec 3) : OutWf (execPxor d a b g s) :=
  vGuarded_wf h _ _ _

theorem execPandn_wf {s : State} (h : s.mem.wf = true) (d a b : BitVec 6) (g : BitVec 3) : OutWf (execPandn d a b g s) :=
  vGuarded_wf h _ _ _

theorem execPnot_wf {s : State} (h : s.mem.wf = true) (d a : BitVec 6) (g : BitVec 3) : OutWf (execPnot d a g s) :=
  vGuarded_wf h _ _ _

theorem execPmov_wf {s : State} (h : s.mem.wf = true) (d a : BitVec 6) (g : BitVec 3) : OutWf (execPmov d a g s) :=
  vGuarded_wf h _ _ _

theorem execPset_wf {s : State} (h : s.mem.wf = true) (d : BitVec 6) (v : BitVec 1) (g : BitVec 3) : OutWf (execPset d v g s) :=
  vGuarded_wf h _ _ _

theorem execVballot_wf {s : State} (h : s.mem.wf = true) (s1 a : BitVec 6) (g : BitVec 3) : OutWf (execVballot s1 a g s) :=
  vGuarded_wf h _ _ _

theorem execVmcnt_wf {s : State} (h : s.mem.wf = true) (d a : BitVec 6) (g : BitVec 3) : OutWf (execVmcnt d a g s) :=
  vGuarded_wf h _ _ _

/-! ### Floating point -/

theorem fBin_wf {s : State} (h : s.mem.wf = true) (i : Instr) (op : Rm → Bool → Word → Word → Word × Flags) (u : BitVec 1)
    (d a b : BitVec 6) (g : BitVec 3) : OutWf (fBin s i op u d a b g) := by
  refine whenLegal_wf h fun w i u => ?_
  grind [poisonTrap_wf, finish_wf, outWf_next, outWf_fault]

theorem fUn_wf {s : State} (h : s.mem.wf = true) (i : Instr) (op : BitVec 8 → Word → Word × Flags) (d a : BitVec 6) (g : BitVec 3) :
    OutWf (fUn s i op d a g) := by
  refine whenLegal_wf h fun w i u => ?_
  grind [poisonTrap_wf, finish_wf, outWf_next, outWf_fault]

theorem fTer_wf {s : State} (h : s.mem.wf = true) (i : Instr) (op : Rm → Bool → Word → Word → Word → Word × Flags) (u : BitVec 1)
    (d a b : BitVec 6) (g : BitVec 3) : OutWf (fTer s i op u d a b g) := by
  refine whenLegal_wf h fun w i u => ?_
  grind [poisonTrap_wf, finish_wf, outWf_next, outWf_fault]

theorem execFadd_wf {s : State} (h : s.mem.wf = true) (u : BitVec 1) (d a b : BitVec 6) (g : BitVec 3) : OutWf (execFadd u d a b g s) :=
  fBin_wf h _ _ _ _ _ _ _

theorem execFsub_wf {s : State} (h : s.mem.wf = true) (u : BitVec 1) (d a b : BitVec 6) (g : BitVec 3) : OutWf (execFsub u d a b g s) :=
  fBin_wf h _ _ _ _ _ _ _

theorem execFmul_wf {s : State} (h : s.mem.wf = true) (u : BitVec 1) (d a b : BitVec 6) (g : BitVec 3) : OutWf (execFmul u d a b g s) :=
  fBin_wf h _ _ _ _ _ _ _

theorem execFfma_wf {s : State} (h : s.mem.wf = true) (u : BitVec 1) (d a b : BitVec 6) (g : BitVec 3) : OutWf (execFfma u d a b g s) :=
  fTer_wf h _ _ _ _ _ _ _

theorem execFfnma_wf {s : State} (h : s.mem.wf = true) (u : BitVec 1) (d a b : BitVec 6) (g : BitVec 3) : OutWf (execFfnma u d a b g s) :=
  fTer_wf h _ _ _ _ _ _ _

theorem execFmin_wf {s : State} (h : s.mem.wf = true) (u : BitVec 1) (d a b : BitVec 6) (g : BitVec 3) : OutWf (execFmin u d a b g s) :=
  fBin_wf h _ _ _ _ _ _ _

theorem execFmax_wf {s : State} (h : s.mem.wf = true) (u : BitVec 1) (d a b : BitVec 6) (g : BitVec 3) : OutWf (execFmax u d a b g s) :=
  fBin_wf h _ _ _ _ _ _ _

theorem execFabs_wf {s : State} (h : s.mem.wf = true) (u : BitVec 1) (d a : BitVec 6) (g : BitVec 3) : OutWf (execFabs u d a g s) :=
  fUn_wf h _ _ _ _ _

theorem execVfcmp_wf {s : State} (h : s.mem.wf = true) (u : BitVec 1) (cc : BitVec 3) (d a b : BitVec 6) (g : BitVec 3) :
    OutWf (execVfcmp u cc d a b g s) := by
  refine whenLegal_wf h fun w i u => ?_
  grind [poisonTrap_wf, finish_wf, outWf_next, outWf_fault]

theorem execFrcp_wf {s : State} (h : s.mem.wf = true) (u : BitVec 1) (d a : BitVec 6) (g : BitVec 3) : OutWf (execFrcp u d a g s) :=
  fUn_wf h _ _ _ _ _

theorem execFrsq_wf {s : State} (h : s.mem.wf = true) (u : BitVec 1) (d a : BitVec 6) (g : BitVec 3) : OutWf (execFrsq u d a g s) :=
  fUn_wf h _ _ _ _ _

theorem execFsqrt_wf {s : State} (h : s.mem.wf = true) (u : BitVec 1) (d a : BitVec 6) (g : BitVec 3) : OutWf (execFsqrt u d a g s) :=
  fUn_wf h _ _ _ _ _

theorem execFex2_wf {s : State} (h : s.mem.wf = true) (u : BitVec 1) (d a : BitVec 6) (g : BitVec 3) : OutWf (execFex2 u d a g s) :=
  fUn_wf h _ _ _ _ _

theorem execFlg2_wf {s : State} (h : s.mem.wf = true) (u : BitVec 1) (d a : BitVec 6) (g : BitVec 3) : OutWf (execFlg2 u d a g s) :=
  fUn_wf h _ _ _ _ _

theorem execFrint_wf {s : State} (h : s.mem.wf = true) (u : BitVec 1) (d a : BitVec 6) (g : BitVec 3) : OutWf (execFrint u d a g s) :=
  fUn_wf h _ _ _ _ _

theorem execFdiv_wf {s : State} (h : s.mem.wf = true) (u : BitVec 1) (d a b : BitVec 6) (g : BitVec 3) : OutWf (execFdiv u d a b g s) :=
  fBin_wf h _ _ _ _ _ _ _

theorem execFclass_wf {s : State} (h : s.mem.wf = true) (u : BitVec 1) (d a : BitVec 6) (g : BitVec 3) : OutWf (execFclass u d a g s) :=
  fUn_wf h _ _ _ _ _

theorem execB2add_wf {s : State} (h : s.mem.wf = true) (u : BitVec 1) (d a b : BitVec 6) (g : BitVec 3) : OutWf (execB2add u d a b g s) :=
  fBin_wf h _ _ _ _ _ _ _

theorem execB2sub_wf {s : State} (h : s.mem.wf = true) (u : BitVec 1) (d a b : BitVec 6) (g : BitVec 3) : OutWf (execB2sub u d a b g s) :=
  fBin_wf h _ _ _ _ _ _ _

theorem execB2mul_wf {s : State} (h : s.mem.wf = true) (u : BitVec 1) (d a b : BitVec 6) (g : BitVec 3) : OutWf (execB2mul u d a b g s) :=
  fBin_wf h _ _ _ _ _ _ _

theorem execB2max_wf {s : State} (h : s.mem.wf = true) (u : BitVec 1) (d a b : BitVec 6) (g : BitVec 3) : OutWf (execB2max u d a b g s) :=
  fBin_wf h _ _ _ _ _ _ _

theorem execB2min_wf {s : State} (h : s.mem.wf = true) (u : BitVec 1) (d a b : BitVec 6) (g : BitVec 3) : OutWf (execB2min u d a b g s) :=
  fBin_wf h _ _ _ _ _ _ _

theorem execB2fma_wf {s : State} (h : s.mem.wf = true) (u : BitVec 1) (d a b : BitVec 6) (g : BitVec 3) : OutWf (execB2fma u d a b g s) :=
  fTer_wf h _ _ _ _ _ _ _

theorem execFcvt_wf {s : State} (h : s.mem.wf = true) (d a : BitVec 6) (dst src g : BitVec 3) : OutWf (execFcvt d a dst src g s) :=
  fUn_wf h _ _ _ _ _

theorem execIcvt_wf {s : State} (h : s.mem.wf = true) (d a : BitVec 6) (dst src g : BitVec 3) : OutWf (execIcvt d a dst src g s) :=
  fUn_wf h _ _ _ _ _

theorem execVredf_wf {s : State} (h : s.mem.wf = true) (d a o : BitVec 6) (g : BitVec 3) : OutWf (execVredf d a o g s) := by
  refine whenLegal_wf h fun w i u => ?_
  grind [poisonTrap_wf, finish_wf, outWf_next, outWf_fault]

theorem execVscanf_wf {s : State} (h : s.mem.wf = true) (d a o : BitVec 6) (g : BitVec 3) : OutWf (execVscanf d a o g s) := by
  refine whenLegal_wf h fun w i u => ?_
  grind [poisonTrap_wf, finish_wf, outWf_next, outWf_fault]

/-! ### Packing -/

theorem execQpk_wf {s : State} (h : s.mem.wf = true) (d a s1 : BitVec 6) (g : BitVec 3) : OutWf (execQpk d a s1 g s) := by
  refine whenLegal_wf h fun w i u => ?_
  grind [finish_wf, outWf_next, outWf_fault]

theorem execQunpk_wf {s : State} (h : s.mem.wf = true) (d a s1 : BitVec 6) (g : BitVec 3) : OutWf (execQunpk d a s1 g s) := by
  refine whenLegal_wf h fun w i u => ?_
  grind [finish_wf, outWf_next, outWf_fault]

/-! ### Tiles -/

theorem execTset_wf {s : State} (h : s.mem.wf = true) (t : BitVec 4) (a : BitVec 6) : OutWf (execTset t a s) := by
  refine whenLegal_wf h fun w i u => ?_
  grind [poisonTrap_wf, finish_wf, outWf_next, outWf_fault]

theorem execTget_wf {s : State} (h : s.mem.wf = true) (d : BitVec 6) (t : BitVec 4) : OutWf (execTget d t s) := by
  refine whenLegal_wf h fun w i u => ?_
  grind [finish_wf, outWf_next, outWf_fault]

theorem execTplset_wf {s : State} (h : s.mem.wf = true) (d t : BitVec 4) (a : BitVec 6) : OutWf (execTplset d t a s) := by
  refine whenLegal_wf h fun w i u => ?_
  grind [poisonTrap_wf, finish_wf, outWf_next, outWf_fault]

/-! ### Engines -/

theorem enterEngine_wf {s : State} (h : s.mem.wf = true) (w : Wave) (i : Issue) (x : EngEntry) : OutWf (enterEngine s w i x) := by
  grind [enterEngine, stallWord_wf, State.charge_mem, finish_wf, State.setEngine_mem, outWf_next, outWf_fault]

theorem enterOrdered_wf {s : State} (h : s.mem.wf = true) (w : Wave) (i : Issue) (x : EngEntry) : OutWf (enterOrdered s w i x) := by
  grind [enterOrdered, stallWord_wf, enterEngine_wf, outWf_next, outWf_fault]

theorem engineFault_wf {s : State} (h : s.mem.wf = true) (w : Wave) (i : Issue) (sub : Nat) (addr : ℤ) :
    OutWf (engineFault s w i sub addr) := by
  grind [engineFault, takeTrap_wf, outWf_next, outWf_fault]

theorem execMloop_wf {s : State} (h : s.mem.wf = true) (a : BitVec 3) (t u : BitVec 4) (o p sp : BitVec 1) (n : BitVec 11) :
    OutWf (execMloop a t u o p sp n s) := by
  refine whenLegal_wf h fun w i u => ?_
  grind [engineFault_wf, enterOrdered_wf, outWf_next, outWf_fault]

theorem execMstep_wf {s : State} (h : s.mem.wf = true) (a : BitVec 3) (v w2 : BitVec 6) (f : BitVec 2) (i j : BitVec 3) (g : BitVec 2) :
    OutWf (execMstep a v w2 f i j g s) := by
  refine whenLegal_wf h fun w i u => ?_
  grind [poisonTrap_wf, enterEngine_wf, outWf_next, outWf_fault]

theorem execMdrain_wf {s : State} (h : s.mem.wf = true) (a : BitVec 3) (d t : BitVec 4) (r z : BitVec 1) :
    OutWf (execMdrain a d t r z s) := by
  refine whenLegal_wf h fun w i u => ?_
  grind [engineFault_wf, enterOrdered_wf, outWf_next, outWf_fault]

theorem execMload_wf {s : State} (h : s.mem.wf = true) (a : BitVec 3) (t : BitVec 4) : OutWf (execMload a t s) := by
  refine whenLegal_wf h fun w i u => ?_
  grind [engineFault_wf, enterOrdered_wf, outWf_next, outWf_fault]

theorem execMzero_wf {s : State} (h : s.mem.wf = true) (a : BitVec 3) : OutWf (execMzero a s) := by
  refine whenLegal_wf h fun w i u => ?_
  grind [enterEngine_wf, outWf_next, outWf_fault]

theorem execMwait_wf {s : State} (h : s.mem.wf = true) (a : BitVec 3) : OutWf (execMwait a s) := by
  refine whenLegal_wf h fun w i u => ?_
  grind [finish_wf, stallWord_wf, outWf_next, outWf_fault]

theorem execMqry_wf {s : State} (h : s.mem.wf = true) (a : BitVec 3) (d : BitVec 6) : OutWf (execMqry a d s) := by
  refine whenLegal_wf h fun w i u => ?_
  grind [finish_wf, outWf_next, outWf_fault]

theorem execEngineGrant_wf {s : State} (h : s.mem.wf = true) : OutWf (execEngineGrant s) := by
  grind [execEngineGrant, State.setEngine_mem, outWf_next, outWf_fault]

theorem execPassComplete_wf {s : State} (h : s.mem.wf = true) : OutWf (execPassComplete s) := by
  unfold execPassComplete
  split
  · refine outWf_ite (outWf_next.mpr h) ?_
    dsimp only
    split
    · exact outWf_next.mpr h
    · split
      · exact outWf_next.mpr h
      · refine outWf_ite (outWf_next.mpr h) ?_
        split
        · exact outWf_next.mpr (by simpa using h)
        · exact outWf_next.mpr (by simpa using h)
  · exact outWf_next.mpr h

/-! ### Scheduling -/

@[simp] theorem State.fatalTrap_mem (s : State) (w : Wave) (a : Arm) (wordAt cause sub va : Nat) (second : Bool) :
    (s.fatalTrap w a wordAt cause sub va second).mem = s.mem := by
  grind [State.fatalTrap, State.enterTrap_mem, State.stopStep_mem]

@[simp] theorem State.resumeWait_wf {s : State} (h : s.mem.wf = true) (w : Wave) (a : Arm) : (s.resumeWait w a).mem.wf = true := by
  grind [State.resumeWait, State.recheckTbar_wf, State.recheckBar_wf, State.retryNq_wf, State.retryTake_wf, State.setWave_mem,
  State.fatalTrap_mem]

@[simp] theorem State.resumeOther_wf {s : State} (h : s.mem.wf = true) (w : Wave) (a : Arm) : (s.resumeOther w a).mem.wf = true := by
  unfold State.resumeOther
  split <;> simp [h]

theorem execRte_wf {s : State} (h : s.mem.wf = true) : OutWf (execRte s) := by
  refine whenLegal_wf h fun w i u => ?_
  grind [takeTrap_wf, State.returnFromTrap_mem, State.resumeWait_wf, State.resumeOther_wf, outWf_next, outWf_fault]

theorem execIllegalInstruction_wf {s : State} (h : s.mem.wf = true) : OutWf (execIllegalInstruction s) := by
  unfold execIllegalInstruction
  split
  · exact onUnit_wf fun w i u => takeTrap_wf h _ _ _ _ _
  · exact outWf_next.mpr h

theorem execLateError_wf {s : State} (h : s.mem.wf = true) : OutWf (execLateError s) := by
  grind [execLateError, State.enterTrap_mem, outWf_next, outWf_fault]

theorem execWatchdog_wf {s : State} (h : s.mem.wf = true) : OutWf (execWatchdog s) := by
  grind [execWatchdog, State.postEvent_mem, State.setWave_mem, State.enterTrap_mem, outWf_next, outWf_fault]

theorem execSleepuntilWake_wf {s : State} (h : s.mem.wf = true) : OutWf (execSleepuntilWake s) := by
  grind [execSleepuntilWake, State.endSleep_mem, outWf_next, outWf_fault]

theorem execWaitlineWake_wf {s : State} (h : s.mem.wf = true) : OutWf (execWaitlineWake s) := by
  grind [execWaitlineWake, State.endSleep_mem, outWf_next, outWf_fault]

theorem execWaitlineTimeout_wf {s : State} (h : s.mem.wf = true) : OutWf (execWaitlineTimeout s) := by
  grind [execWaitlineTimeout, State.endSleep_mem, outWf_next, outWf_fault]

@[simp] theorem State.takeContext_mem (s : State) (w : Wave) (k : Nat) : (s.takeContext w k).mem = s.mem := rfl

theorem execContextTake_wf {s : State} (h : s.mem.wf = true) : OutWf (execContextTake s) := by
  unfold execContextTake
  split
  · split
    · exact outWf_next.mpr h
    · split
      · exact outWf_next.mpr h
      · split
        · exact outWf_next.mpr (by simpa using h)
        · split
          · exact outWf_next.mpr h
          · exact outWf_next.mpr (by simpa using h)
  · exact outWf_next.mpr h

theorem execLaunchComplete_wf {s : State} (h : s.mem.wf = true) : OutWf (execLaunchComplete s) := by
  grind [execLaunchComplete, State.postEvent_mem, outWf_next, outWf_fault]

/-! ### Context switches -/

@[simp] theorem State.modSet_mem (s : State) (n : Nat) (f : SliceSet → SliceSet) : (s.modSet n f).mem = s.mem := rfl

@[simp] theorem State.withdraw_mem (s : State) (w : Wave) : (s.withdraw w).mem = s.mem := rfl

@[simp] theorem State.startSwitch_mem (s : State) (x : Switch) : (s.startSwitch x).mem = s.mem :=
  foldl_mem State.withdraw_mem _ _

@[simp] theorem State.writeSaveArea_wf {s : State} (h : s.mem.wf = true) (n : Nat) : (s.writeSaveArea n).mem.wf = true := by
  unfold State.writeSaveArea
  split
  · exact h
  · split
    · exact h
    · refine foldl_wf (fun t x ht => ?_) _ h
      split
      · exact State.poke_wf ht _ _
      · exact ht

@[simp] theorem State.writeAreas_wf {s : State} (h : s.mem.wf = true) : s.writeAreas.mem.wf = true :=
  foldl_wf (fun _ _ ht => wf_ite (by simpa using ht) (State.writeSaveArea_wf ht _)) _ h

@[simp] theorem State.endLineWaits_mem (s : State) (w : Wave) : (s.endLineWaits w).mem = s.mem := by
  grind [State.endLineWaits, State.endSleep_mem]

@[simp] theorem State.settleCounters_mem (s : State) (p : Nat) : (s.settleCounters p).mem = s.mem := by
  simp [State.settleCounters]

@[simp] theorem State.takeQsp_wf {s : State} (h : s.mem.wf = true) (quads : List Nat) : (s.takeQsp quads).1.mem.wf = true :=
  Memory.wf_filter _ h

@[simp] theorem State.savePart_wf {s : State} (h : s.mem.wf = true) (g : SliceSet) (p : Part) (area : Nat) :
    (s.savePart g p area).mem.wf = true := by
  refine State.writeSaveArea_wf ?_ _
  rw [State.modSet_mem, State.modPart_mem]
  refine State.takeQsp_wf ?_ _
  rw [State.switchRowsOut_mem, State.settleCounters_mem, foldl_mem State.endLineWaits_mem]
  exact h

@[simp] theorem State.putQsp_wf {s : State} (h : s.mem.wf = true) (cells : List (Nat × Nat × Nat)) : (s.putQsp cells).mem.wf = true := by
  refine foldl_wf (fun t c ht => ?_) _ h
  split
  · exact ht
  · exact Memory.wf_write ht _ _

@[simp] theorem State.putTmpl_mem (s : State) (cs : List Chan) : (s.putTmpl cs).mem = s.mem :=
  foldl_mem (fun _ _ => State.setChan_mem _ _) _ _

@[simp] theorem State.putEntries_mem (s : State) (es : List EngEntry) : (s.putEntries es).mem = s.mem := by
  refine foldl_mem (fun t x => ?_) _ _
  split
  · rfl
  · exact State.setEngine_mem _ _

@[simp] theorem State.present_mem (s : State) (seq wid : Nat) (x : Withdrawn) : (s.present seq wid x).mem = s.mem := by
  unfold State.present
  split <;> simp

@[simp] theorem State.takeUp_wf {s : State} (h : s.mem.wf = true) (w : Wave) : (s.takeUp w).mem.wf = true :=
  State.resumeWait_wf (State.resumeWait_wf ((State.modWave_mem _ _ _ _).symm ▸ foldl_wf (fun _ _ ht => by simpa using ht) _ h) _ _) _ _

@[simp] theorem State.restorePart_wf {s : State} (h : s.mem.wf = true) (n : Nat) : (s.restorePart n).mem.wf = true := by
  unfold State.restorePart
  split
  · refine foldl_wf (fun _ _ ht => State.takeUp_wf ht _) _ ?_
    simp [h]
  · exact h

@[simp] theorem State.nameArea_wf {s : State} (h : s.mem.wf = true) (n area : Nat) : (s.nameArea n area).mem.wf = true := by
  unfold State.nameArea
  split <;> simp [h]

@[simp] theorem State.endSwitch_wf {s : State} (h : s.mem.wf = true) (x : Switch) : (s.endSwitch x).mem.wf = true := by
  unfold State.endSwitch
  split <;> simp [h]

theorem execSwitchSave_wf {s : State} (h : s.mem.wf = true) : OutWf (execSwitchSave s) := by
  unfold execSwitchSave
  split
  · split
    next x g _ _ =>
      have hr := gotAll_wf h (s.setQuads g) (f := fun t q => t.acquireQuad q) fun _ _ ht => State.acquireQuad_wf ht _
      refine outWf_ite (outWf_next.mpr h) (outWf_ite (outWf_next.mpr hr) (outWf_next.mpr (State.endSwitch_wf ?_ _)))
      have h1 : (match (gotAll s (s.setQuads g) fun t q => t.acquireQuad q).1.part? x.out with
          | some p => if g.holder = some x.out then (gotAll s (s.setQuads g) fun t q => t.acquireQuad q).1.savePart g p x.saveOut
            else (gotAll s (s.setQuads g) fun t q => t.acquireQuad q).1
          | none => (gotAll s (s.setQuads g) fun t q => t.acquireQuad q).1).mem.wf = true := by
        split
        · exact wf_ite (State.savePart_wf hr _ _ _) hr
        · exact hr
      cases x.inn with
      | none => exact h1
      | some m => exact State.restorePart_wf (State.nameArea_wf h1 _ _) _
    · exact outWf_next.mpr h
  · exact outWf_next.mpr h

theorem execWswitch_wf {s : State} (h : s.mem.wf = true) : OutWf (execWswitch s) := by
  unfold execWswitch
  split
  · refine outWf_ite (outWf_next.mpr h) (outWf_ite (finishCmd_wf h _ resWf_error) (outWf_ite (finishCmd_wf h _ resWf_error)
      (outWf_ite (outWf_next.mpr h) ?_)))
    split
    · exact finishCmd_wf h _ resWf_error
    · split
      · exact finishCmd_wf h _ resWf_error
      · exact finishCmd_wf h _ resWf_error
      · exact outWf_next.mpr (by simpa using h)
  · exact outWf_next.mpr h

theorem execQuantumExpiry_wf {s : State} (h : s.mem.wf = true) : OutWf (execQuantumExpiry s) := by
  grind [execQuantumExpiry, State.modSet_mem, State.startSwitch_mem, State.restorePart_wf, outWf_next, outWf_fault]

/-! ### Walks and invalidations -/

theorem execPageWalk_wf {s : State} (h : s.mem.wf = true) : OutWf (execPageWalk s) := by
  grind [execPageWalk, outWf_next, outWf_fault]

@[simp] theorem State.releaseClient_mem (s : State) (k : Walk) (e : Option TlbEntry) (r : Option WalkRefusal) (c : WalkClient) :
    (s.releaseClient k e r c).mem = s.mem := by
  unfold State.releaseClient
  grind [State.modWave_mem, State.setChan_mem, State.takeInHand_mem]

@[simp] theorem State.releaseClients_mem (s : State) (k : Walk) (e : Option TlbEntry) (r : Option WalkRefusal) :
    (s.releaseClients k e r).mem = s.mem := foldl_mem (fun _ _ => State.releaseClient_mem _ _ _ _ _) _ _

@[simp] theorem State.fillClients_mem (s : State) (k : Walk) (e : TlbEntry) : (s.fillClients k e).mem = s.mem :=
  foldl_mem (fun _ _ => State.tlbFill_mem _ _) _ _

@[simp] theorem State.endWalk_wf {s : State} (h : s.mem.wf = true) (k : Walk) : (s.endWalk k).mem.wf = true := by
  grind [State.endWalk, State.releaseClients_mem, State.walkReads_wf, State.walkCacheFill_mem, State.fillClients_mem]

theorem execWalkComplete_wf {s : State} (h : s.mem.wf = true) : OutWf (execWalkComplete s) := by
  grind [execWalkComplete, State.endWalk_wf, outWf_next, outWf_fault]

@[simp] theorem State.dropEntries_mem (s : State) (t : TlbEntry → Bool) (c : WalkCacheEntry → Bool) :
    (s.dropEntries t c).mem = s.mem := rfl

theorem execXltinvcPage_wf {s : State} (h : s.mem.wf = true) : OutWf (execXltinvcPage s) := by
  grind [execXltinvcPage, State.dropEntries_mem, outWf_next, outWf_fault]

theorem execXltinvcAsid_wf {s : State} (h : s.mem.wf = true) : OutWf (execXltinvcAsid s) := by
  unfold execXltinvcAsid
  split <;> simp [h]

theorem execXltinvcPartition_wf {s : State} (h : s.mem.wf = true) : OutWf (execXltinvcPartition s) := by
  unfold execXltinvcPartition
  split <;> simp [h]

theorem execXltinvcComplete_wf {s : State} (h : s.mem.wf = true) : OutWf (execXltinvcComplete s) := by
  unfold execXltinvcComplete
  split
  · split
    · exact outWf_next.mpr h
    · have hg (l : List Nat) := gotAll_wf h l (f := fun t q => t.releaseQuad q) fun _ _ ht => State.releaseQuad_wf ht _
      exact outWf_ite (outWf_next.mpr h) (outWf_ite (outWf_next.mpr (hg _)) (outWf_next.mpr (hg _)))
  · exact outWf_next.mpr h

theorem execRlyctxsizeTakesEffect_wf {s : State} (h : s.mem.wf = true) : OutWf (execRlyctxsizeTakesEffect s) := by
  grind [execRlyctxsizeTakesEffect, State.setPart_mem, outWf_next, outWf_fault]

theorem execWayMove_wf {s : State} (h : s.mem.wf = true) : OutWf (execWayMove s) := by
  grind [execWayMove, State.fresh_mem, outWf_next, outWf_fault]

/-! ### Partitions -/

@[simp] theorem State.allotWays_mem (s : State) : (s.allotWays).mem = s.mem := rfl

@[simp] theorem State.joinSet_mem (s : State) (n slices : Nat) : (s.joinSet n slices).mem = s.mem := by
  unfold State.joinSet
  split <;> simp

@[simp] theorem State.createPart_mem (s : State) (n slices ld asids quantum : Nat) :
    (s.createPart n slices ld asids quantum).mem = s.mem := by
  simp [State.createPart]

theorem execPartcreate_wf {s : State} (h : s.mem.wf = true) : OutWf (execPartcreate s) := by
  unfold execPartcreate
  split
  · refine devCmd_wf h _ _ _ (need_wf (need_wf ?_))
    split
    · exact resWf_error
    · exact need_wf (resWf_ok.mpr (by simpa using h))
  · exact outWf_next.mpr h

@[simp] theorem State.killWaves_mem (s : State) (n : Nat) : (s.killWaves n).mem = s.mem := foldl_mem State.withdraw_mem _ _

@[simp] theorem State.erasePart_mem (s : State) (n : Nat) : (s.erasePart n).mem = s.mem := rfl

@[simp] theorem State.destroyPart_wf {s : State} (h : s.mem.wf = true) (p : Part) : (s.destroyPart p).mem.wf = true := by
  have h1 : (p.revokers.foldl (fun (t : State) c => t.endCmd c .ok []) (s.erasePart p.num)).allotWays.mem.wf = true := by
    rw [State.allotWays_mem]
    exact foldl_wf (fun _ _ ht => State.endCmd_wf ht _ _ _) _ (by simpa using h)
  unfold State.destroyPart
  dsimp only
  split
  · split
    · exact State.restorePart_wf h1 _
    · exact h1
  · exact h1

theorem execPartdestroy_wf {s : State} (h : s.mem.wf = true) : OutWf (execPartdestroy s) := by
  unfold execPartdestroy
  split
  · split
    · exact devCmd_wf h _ _ _ resWf_error
    next p _ =>
      have hk : (s.killWaves p.num).mem.wf = true := by simpa using h
      have hg (l : List Nat) := gotAll_wf hk l (f := fun (t : State) q => t.acquireQuad q) fun _ _ ht => State.acquireQuad_wf ht _
      refine outWf_ite (devCmd_wf h _ _ _ resWf_error) (outWf_ite (outWf_next.mpr (by simpa using h)) ?_)
      refine outWf_ite (outWf_next.mpr (by simpa using h)) (outWf_ite (outWf_next.mpr (by simpa using hg _)) (outWf_next.mpr ?_))
      exact State.endCmd_wf (State.destroyPart_wf (hg _) _) _ _ _
  · exact outWf_next.mpr h

theorem putPart_wf {s : State} (h : s.mem.wf = true) (p : Part) : ResWf (putPart s p) := resWf_ok.mpr h

theorem execPartsetHoldPolicy_wf {s : State} (h : s.mem.wf = true) : OutWf (execPartsetHoldPolicy s) := by
  unfold execPartsetHoldPolicy
  split
  · exact partCmd_wf h _ _ fun p => need_wf (putPart_wf h _)
  · exact outWf_next.mpr h

theorem execPartsetWatchdog_wf {s : State} (h : s.mem.wf = true) : OutWf (execPartsetWatchdog s) := by
  unfold execPartsetWatchdog
  split
  · exact partCmd_wf h _ _ fun p => need_wf (putPart_wf h _)
  · exact outWf_next.mpr h

theorem execPartsetQuantum_wf {s : State} (h : s.mem.wf = true) : OutWf (execPartsetQuantum s) := by
  unfold execPartsetQuantum
  split
  · exact partCmd_wf h _ _ fun p => need_wf (putPart_wf h _)
  · exact outWf_next.mpr h

theorem execPartsetWays_wf {s : State} (h : s.mem.wf = true) : OutWf (execPartsetWays s) := by
  unfold execPartsetWays
  split
  · exact partCmd_wf h _ _ fun p => need_wf (resWf_ok.mpr (by simpa using h))
  · exact outWf_next.mpr h

theorem execPartsetQuota_wf {s : State} (h : s.mem.wf = true) : OutWf (execPartsetQuota s) := by
  unfold execPartsetQuota
  split
  · exact partCmd_wf h _ _ fun p => need_wf (putPart_wf h _)
  · exact outWf_next.mpr h

@[simp] theorem State.setRanges_mem (s : State) (p : Part) (rs : List (Nat × Nat × Nat)) : (s.setRanges p rs).mem = s.mem := rfl

theorem execPartsetGrant_wf {s : State} (h : s.mem.wf = true) : OutWf (execPartsetGrant s) := by
  unfold execPartsetGrant
  split
  · exact partCmd_wf h _ _ fun p => need_wf (resWf_ok.mpr (by simpa using h))
  · exact outWf_next.mpr h

theorem State.placeWave_mem {s t : State} {l : Launch} {wid core : Nat} (e : s.placeWave l wid core = some t) : t.mem = s.mem := by
  unfold State.placeWave at e
  dsimp only at e
  split at e
  · cases e
  · split at e
    · cases e
    · cases e
      rfl

theorem State.placeWaves_mem (l : Launch) : ∀ (cs : List Nat) (wid : Nat) {s t : State}, s.placeWaves l wid cs = some t → t.mem = s.mem
  | [], _, _, _, e => by cases e; rfl
  | c :: cs, wid, s, t, e => by
    unfold State.placeWaves at e
    split at e
    · cases e
    next e1 => exact (State.placeWaves_mem l cs (wid + 1) e).trans (State.placeWave_mem e1)

@[simp] theorem State.zeroWindow_wf {s : State} (h : s.mem.wf = true) (p quad bank n : Nat) :
    (s.zeroWindow p quad bank n).mem.wf = true :=
  wf_ite (Memory.wf_clear h _ _) (by simpa using h)

theorem State.startLaunch_wf {s t : State} (h : s.mem.wf = true) {p : Part} {r : LaunchRec} (e : s.startLaunch p r = some t) :
    t.mem.wf = true := by
  unfold State.startLaunch at e
  dsimp only at e
  split at e
  · cases e
  · obtain ⟨u, e1, rfl⟩ := Option.map_eq_some_iff.mp e
    rw [State.touched_mem, State.placeWaves_mem _ _ _ e1]
    exact foldl_wf (fun _ _ ht => State.zeroWindow_wf ht _ _ _ _) _ h

theorem execLaunch_wf {s : State} (h : s.mem.wf = true) : OutWf (execLaunch s) := by
  unfold execLaunch
  split
  · refine partCmd_wf h _ _ fun p => ?_
    dsimp only
    split
    · exact resWf_error
    · refine need_wf ?_
      split
      next e => exact resWf_ok.mpr (State.startLaunch_wf h e)
      · exact resWf_error
  · exact outWf_next.mpr h

@[simp] theorem State.answerWave_wf {s : State} (h : s.mem.wf = true) (w : Wave) (tag ans : Nat) :
    (s.answerWave w tag ans).mem.wf = true := by
  unfold State.answerWave
  split <;> simp [h]

theorem performRemote_wf (q : Packet) {s : State} (h : s.mem.wf = true) (p : Packet) : ServedWf (performRemote q s p) := by
  unfold performRemote
  cases q.type with
  | rwri => exact performRwri_wf h _
  | rrd => exact performRrd_wf h _
  | _ => exact performRatom_wf h _

@[simp] theorem State.replayStream_wf {s : State} (h : s.mem.wf = true) (x : CtxId × Nat × Packet) : (s.replayStream x).mem.wf = true :=
  State.receive_wf (by simpa using h) _ fun _ ht => performRemote_wf _ ht _

@[simp] theorem State.fatalStream_mem (s : State) (x : CtxId × Nat × Packet) : (s.fatalStream x).mem = s.mem := by
  simp [State.fatalStream]

theorem State.answerFault_wf {s : State} (h : s.mem.wf = true) (p tag ans : Nat) : ResWf (s.answerFault p tag ans) := by
  grind [State.answerFault, State.answerWave_wf, State.replayStream_wf, State.fatalStream_mem, resWf_ok, resWf_error]

theorem execReplay_wf {s : State} (h : s.mem.wf = true) : OutWf (execReplay s) := by
  unfold execReplay
  split
  · exact partCmd_wf h _ _ fun p => State.answerFault_wf h _ _ _
  · exact outWf_next.mpr h

theorem execFatal_wf {s : State} (h : s.mem.wf = true) : OutWf (execFatal s) := by
  unfold execFatal
  split
  · exact partCmd_wf h _ _ fun p => State.answerFault_wf h _ _ _
  · exact outWf_next.mpr h

theorem execErrlogSetRing_wf {s : State} (h : s.mem.wf = true) : OutWf (execErrlogSetRing s) := by
  unfold execErrlogSetRing
  split
  · exact partCmd_wf h _ _ fun p => need_wf (resWf_ok.mpr h)
  · exact outWf_next.mpr h

theorem execErrlogReadRas_wf {s : State} (h : s.mem.wf = true) : OutWf (execErrlogReadRas s) := by
  unfold execErrlogReadRas
  split
  · refine devCmd_wf h _ _ _ ?_
    split
    · exact resWf_error
    · exact resWf_ok.mpr h
  · exact outWf_next.mpr h

theorem execErrlogClearRas_wf {s : State} (h : s.mem.wf = true) : OutWf (execErrlogClearRas s) := by
  unfold execErrlogClearRas
  split
  · exact devCmd_wf h _ _ _ (need_wf (resWf_ok.mpr (by simpa using h)))
  · exact outWf_next.mpr h

theorem execHqset_wf {s : State} (h : s.mem.wf = true) : OutWf (execHqset s) := by
  unfold execHqset
  split
  · exact partCmd_wf h _ _ fun p => putPart_wf h _
  · exact outWf_next.mpr h

theorem execRegreg_wf {s : State} (h : s.mem.wf = true) : OutWf (execRegreg s) := by
  unfold execRegreg
  split
  · refine partCmd_wf h _ _ fun p => needFeature_wf (need_wf ?_)
    split
    · exact resWf_error
    · exact resWf_ok.mpr h
  · exact outWf_next.mpr h

theorem execRegrevoke_wf {s : State} (h : s.mem.wf = true) : OutWf (execRegrevoke s) := by
  unfold execRegrevoke
  split
  · split
    · exact devCmd_wf h _ _ _ resWf_error
    · exact outWf_ite (outWf_next.mpr h) <| outWf_ite (outWf_next.mpr (by simpa using h)) <|
        outWf_ite (finishCmd_wf h _ resWf_error) <| outWf_ite (finishCmd_wf h _ resWf_error) (outWf_next.mpr h)
  · exact outWf_next.mpr h

theorem execRevokeComplete_wf {s : State} (h : s.mem.wf = true) : OutWf (execRevokeComplete s) := by
  unfold execRevokeComplete
  split
  · split
    · exact outWf_next.mpr h
    · split
      · exact outWf_next.mpr h
      · refine outWf_ite (outWf_next.mpr h) (outWf_next.mpr ?_)
        split
        · exact State.endCmd_wf (by exact h) _ _ _
        · exact h
  · exact outWf_next.mpr h

/-! ### Administration -/

theorem gateCmd_wf {s : State} (h : s.mem.wf = true) (c : Cmd) {f : State → Done} (hf : ResWf (f s)) : OutWf (gateCmd s c f) :=
  devCmd_wf h _ _ _ (needFeature_wf hf)

theorem execGatecreate_wf {s : State} (h : s.mem.wf = true) : OutWf (execGatecreate s) := by
  unfold execGatecreate
  split
  · refine gateCmd_wf h _ (need_wf ?_)
    split
    · exact resWf_error
    · exact resWf_ok.mpr (by simpa using h)
  · exact outWf_next.mpr h

theorem gateHandleCmd_wf {s : State} (h : s.mem.wf = true) (c : Cmd) (handle : Nat) {f : State → Gate → Done}
    (hf : ∀ g, ResWf (f s g)) : OutWf (gateHandleCmd s c handle f) := by
  refine gateCmd_wf h _ ?_
  split
  · exact resWf_error
  · exact hf _

theorem execGatefreeze_wf {s : State} (h : s.mem.wf = true) : OutWf (execGatefreeze s) := by
  unfold execGatefreeze
  split
  · exact gateHandleCmd_wf h _ _ fun g => need_wf (resWf_ok.mpr (by simpa using h))
  · exact outWf_next.mpr h

theorem execGateexport_wf {s : State} (h : s.mem.wf = true) : OutWf (execGateexport s) := by
  unfold execGateexport
  split
  · exact gateHandleCmd_wf h _ _ fun g => need_wf (resWf_ok.mpr (by simpa using Memory.wf_writeNat h _ _ _))
  · exact outWf_next.mpr h

theorem execGateimport_wf {s : State} (h : s.mem.wf = true) : OutWf (execGateimport s) := by
  unfold execGateimport
  split
  · exact gateCmd_wf h _ (need_wf (need_wf (resWf_ok.mpr (by simpa using h))))
  · exact outWf_next.mpr h

theorem execGatethaw_wf {s : State} (h : s.mem.wf = true) : OutWf (execGatethaw s) := by
  unfold execGatethaw
  split
  · exact gateHandleCmd_wf h _ _ fun g => need_wf (resWf_ok.mpr (by simpa using h))
  · exact outWf_next.mpr h

theorem execGatedestroy_wf {s : State} (h : s.mem.wf = true) : OutWf (execGatedestroy s) := by
  unfold execGatedestroy
  split
  · exact gateHandleCmd_wf h _ _ fun g => resWf_ok.mpr (State.wakeTakes_wf (by simpa using h) _)
  · exact outWf_next.mpr h

theorem podCmd_wf {s : State} (h : s.mem.wf = true) (c : Cmd) {f : State → Done} (hf : ResWf (f s)) : OutWf (podCmd s c f) := by
  refine devCmd_wf h _ _ _ ?_
  split
  next e => exact resWf_ok.mpr (by simpa using need_wf hf _ e)
  · exact resWf_error

@[simp] theorem State.setGroups_mem (s : State) (groups : List Nat) : (s.setGroups groups).mem = s.mem := rfl

theorem execPodconfigGroups_wf {s : State} (h : s.mem.wf = true) : OutWf (execPodconfigGroups s) := by
  unfold execPodconfigGroups
  split
  · exact podCmd_wf h _ (resWf_ok.mpr (by simpa using h))
  · exact outWf_next.mpr h

theorem execPodconfigPrivilege_wf {s : State} (h : s.mem.wf = true) : OutWf (execPodconfigPrivilege s) := by
  unfold execPodconfigPrivilege
  split
  · exact outWf_ite (outWf_next.mpr (by simpa using h)) (podCmd_wf h _ (need_wf (resWf_ok.mpr h)))
  · exact outWf_next.mpr h

theorem execPodconfigTimeouts_wf {s : State} (h : s.mem.wf = true) : OutWf (execPodconfigTimeouts s) := by
  unfold execPodconfigTimeouts
  split
  · exact podCmd_wf h _ (need_wf (resWf_ok.mpr h))
  · exact outWf_next.mpr h

@[simp] theorem State.readAllCapacities_mem (s : State) : s.readAllCapacities.mem = s.mem := foldl_mem State.readCapacities_mem _ _

theorem execPodconfigRoutes_wf {s : State} (h : s.mem.wf = true) : OutWf (execPodconfigRoutes s) := by
  unfold execPodconfigRoutes
  split
  · exact podCmd_wf h _ (resWf_ok.mpr (by simpa using h))
  · exact outWf_next.mpr h

theorem execPodconfigCapacities_wf {s : State} (h : s.mem.wf = true) : OutWf (execPodconfigCapacities s) := by
  unfold execPodconfigCapacities
  split
  · exact podCmd_wf h _ (resWf_ok.mpr (by simpa using h))
  · exact outWf_next.mpr h

theorem execPodctlClearDeadpeer_wf {s : State} (h : s.mem.wf = true) : OutWf (execPodctlClearDeadpeer s) := by
  unfold execPodctlClearDeadpeer
  split
  · exact partCmd_wf h _ _ fun p => need_wf (putPart_wf h _)
  · exact outWf_next.mpr h

theorem attCmd_wf {s : State} (h : s.mem.wf = true) (c : Cmd) (att : Nat) {f : State → Att → Done} (hf : ∀ a, ResWf (f s a)) :
    OutWf (attCmd s c att f) := by
  refine devCmd_wf h _ _ _ ?_
  split
  · exact resWf_error
  · exact hf _

theorem execPodctlDown_wf {s : State} (h : s.mem.wf = true) : OutWf (execPodctlDown s) := by
  unfold execPodctlDown
  split
  · exact attCmd_wf h _ _ fun a => need_wf (resWf_ok.mpr (State.attachmentDown_wf (by exact h) _))
  · exact outWf_next.mpr h

theorem execPodctlRetrain_wf {s : State} (h : s.mem.wf = true) : OutWf (execPodctlRetrain s) := by
  unfold execPodctlRetrain
  split
  · exact attCmd_wf h _ _ fun a => need_wf (resWf_ok.mpr h)
  · exact outWf_next.mpr h

theorem execDbgopenOpen_wf {s : State} (h : s.mem.wf = true) : OutWf (execDbgopenOpen s) := by
  unfold execDbgopenOpen
  split
  · exact partCmd_wf h _ _ fun p => need_wf (putPart_wf h _)
  · exact outWf_next.mpr h

theorem execDbgopenClose_wf {s : State} (h : s.mem.wf = true) : OutWf (execDbgopenClose s) := by
  unfold execDbgopenClose
  split
  · exact partCmd_wf h _ _ fun p => need_wf (resWf_ok.mpr h)
  · exact outWf_next.mpr h

theorem dbgWave_wf {s : State} (h : s.mem.wf = true) (c : Cmd) (seq wid : Nat) {f : State → Wave → Done} (hf : ∀ w, ResWf (f s w)) :
    OutWf (dbgWave s c seq wid f) := by
  refine partCmd_wf h _ _ fun p => need_wf ?_
  split
  · exact resWf_error
  · exact need_wf (hf _)

theorem dbgOn_wf {s : State} (h : s.mem.wf = true) (c : Cmd) (seq wid unit : Nat) {f : State → Wave → Option Arm → Done}
    (hf : ∀ w u, ResWf (f s w u)) : OutWf (dbgOn s c seq wid unit f) := by
  refine dbgWave_wf h _ _ _ fun w => ?_
  split
  · exact resWf_error
  · exact hf _ _

theorem execDbgctlStop_wf {s : State} (h : s.mem.wf = true) : OutWf (execDbgctlStop s) := by
  unfold execDbgctlStop
  split
  · exact dbgOn_wf h _ _ _ _ fun w u => resWf_ok.mpr h
  · exact outWf_next.mpr h

theorem execDbgctlStep_wf {s : State} (h : s.mem.wf = true) : OutWf (execDbgctlStep s) := by
  unfold execDbgctlStep
  split
  · exact dbgOn_wf h _ _ _ _ fun w u => need_wf (resWf_ok.mpr h)
  · exact outWf_next.mpr h

theorem execDbgctlResume_wf {s : State} (h : s.mem.wf = true) : OutWf (execDbgctlResume s) := by
  unfold execDbgctlResume
  split
  · exact dbgOn_wf h _ _ _ _ fun w u => need_wf (resWf_ok.mpr h)
  · exact outWf_next.mpr h

theorem dbgCore_wf {s : State} (h : s.mem.wf = true) (c : Cmd) (core : Nat) {f : State → Part → Nat → Done}
    (hf : ∀ p k, ResWf (f s p k)) : OutWf (dbgCore s c core f) := by
  refine partCmd_wf h _ _ fun p => need_wf ?_
  split
  · exact resWf_error
  · exact hf _ _

theorem execDbgctlCoreStop_wf {s : State} (h : s.mem.wf = true) : OutWf (execDbgctlCoreStop s) := by
  unfold execDbgctlCoreStop
  split
  · refine dbgCore_wf h _ _ fun p k => need_wf (resWf_ok.mpr ?_)
    rw [foldl_mem fun _ _ => State.debugStop_mem _ _ _]
    exact h
  · exact outWf_next.mpr h

theorem execDbgctlCoreResume_wf {s : State} (h : s.mem.wf = true) : OutWf (execDbgctlCoreResume s) := by
  unfold execDbgctlCoreResume
  split
  · exact dbgCore_wf h _ _ fun p k => need_wf (resWf_ok.mpr h)
  · exact outWf_next.mpr h

theorem execCtrwrite_wf {s : State} (h : s.mem.wf = true) : OutWf (execCtrwrite s) := by
  unfold execCtrwrite
  split
  · exact partCmd_wf h _ _ fun p => need_wf (need_wf (resWf_ok.mpr (by simpa using h)))
  · exact outWf_next.mpr h

/-! ### The host's port -/

@[simp] theorem State.logHost_wf {s : State} (h : s.mem.wf = true) (p : Part) (ld addr sub kind : Nat) :
    (s.logHost p ld addr sub kind).mem.wf = true := by
  grind [State.logHost, State.logError_wf]

@[simp] theorem State.hostReadOne_wf {s : State} (h : s.mem.wf = true) (p : Part) (ld addr n : Nat) :
    (s.hostReadOne p ld addr n).1.mem.wf = true := by
  unfold State.hostReadOne
  split
  · simp [h]
  · exact gotAll_wf h _ fun _ _ ht => State.homeReach_wf ht _ _ _ _

@[simp] theorem State.hostReadAll_wf (p : Part) (ld : Nat) : ∀ (i : Nat) (ts : List (Nat × Nat)) {s : State}, s.mem.wf = true →
    (s.hostReadAll p ld i ts).1.mem.wf = true
  | _, [], _, h => h
  | i, t :: ts, s, h => by
    have h1 := State.hostReadOne_wf h p ld t.1 t.2
    unfold State.hostReadAll
    split
    next e => rwa [e] at h1
    next e =>
      rw [e] at h1
      have h2 := State.hostReadAll_wf p ld (i + 1) ts h1
      split
      next e2 => rwa [e2] at h2
      next e2 => rwa [e2] at h2

@[simp] theorem State.linesReached_wf {s : State} (h : s.mem.wf = true) (part key n : Nat) :
    (s.linesReached part key n).1.mem.wf = true :=
  gotAll_wf h _ fun _ _ ht => fst_wf_ite ht (fst_wf_ite ht (by simpa using ht))

@[simp] theorem State.hostReach_wf {s : State} (h : s.mem.wf = true) (p : Part) (ld : Nat) (kind : AccKind) (ts : List (Nat × Nat)) :
    (s.hostReach p ld kind ts).1.mem.wf = true := by
  refine gotAll_wf h _ fun t x ht => ?_
  split
  · exact ht
  · exact gotAll_wf ht _ fun _ _ hu => State.linesReached_wf hu _ _ _

theorem execHostMemRead_wf {s : State} (h : s.mem.wf = true) : OutWf (execHostMemRead s) := by
  grind [execHostMemRead, State.hostReach_wf, State.hostReadAll_wf, outWf_next, outWf_fault]

@[simp] theorem State.hostWriteOne_wf {s : State} (h : s.mem.wf = true) (p : Part) (ld addr : Nat) (bs : List Byte) :
    (s.hostWriteOne p ld addr bs).1.mem.wf = true := by
  unfold State.hostWriteOne
  split
  · simp [h]
  · exact foldl_fst_fst_wf (fun t x ht => State.homeWrite_wf ht _ _ _ _ _) _ h

@[simp] theorem State.hostWriteAll_wf (p : Part) (ld addr : Nat) (data : List Byte) : ∀ (ts : List (Nat × Nat)) {s : State},
    s.mem.wf = true → (s.hostWriteAll p ld addr data ts).mem.wf = true
  | [], _, h => h
  | _ :: ts, _, h =>
    wf_ite (State.hostWriteAll_wf p ld addr data ts (State.hostWriteOne_wf h _ _ _ _)) (State.hostWriteOne_wf h _ _ _ _)

theorem execHostMemWrite_wf {s : State} (h : s.mem.wf = true) : OutWf (execHostMemWrite s) := by
  grind [execHostMemWrite, State.hostWriteAll_wf, outWf_next, outWf_fault]

/-! ### Special registers -/

theorem execUrds_wf {s : State} (h : s.mem.wf = true) (d : BitVec 6) (n : BitVec 10) : OutWf (execUrds d n s) := by
  refine whenLegal_wf h fun w i u => ?_
  grind [finish_wf, outWf_next, outWf_fault]

theorem execUwrs_wf {s : State} (h : s.mem.wf = true) (a : BitVec 6) (n : BitVec 10) : OutWf (execUwrs a n s) := by
  refine whenLegal_wf h fun w i u => ?_
  grind [poisonTrap_wf, finish_wf, outWf_next, outWf_fault]

theorem execSetfmt_wf {s : State} (h : s.mem.wf = true) (m v : BitVec 8) : OutWf (execSetfmt m v s) := by
  refine whenLegal_wf h fun w i u => ?_
  grind [finish_wf, outWf_next, outWf_fault]

/-! ### Dispatch -/

theorem exec_wf {s : State} (h : s.mem.wf = true) (i : Instr) : OutWf (exec i s) := by
  cases i with
  | nop => exact execNop_wf h
  | uadd d a b g => exact execUadd_wf h d a b g
  | usub d a b g => exact execUsub_wf h d a b g
  | umul d a b g => exact execUmul_wf h d a b g
  | umulh d a b g => exact execUmulh_wf h d a b g
  | umulhu d a b g => exact execUmulhu_wf h d a b g
  | uand d a b g => exact execUand_wf h d a b g
  | uor d a b g => exact execUor_wf h d a b g
  | uxor d a b g => exact execUxor_wf h d a b g
  | ushl d a b g => exact execUshl_wf h d a b g
  | ushr d a b g => exact execUshr_wf h d a b g
  | usar d a b g => exact execUsar_wf h d a b g
  | umin d a b g => exact execUmin_wf h d a b g
  | umax d a b g => exact execUmax_wf h d a b g
  | uminu d a b g => exact execUminu_wf h d a b g
  | umaxu d a b g => exact execUmaxu_wf h d a b g
  | umov d a g => exact execUmov_wf h d a g
  | uaddi d a imm => exact execUaddi_wf h d a imm
  | umuli d a imm => exact execUmuli_wf h d a imm
  | uandi d a imm => exact execUandi_wf h d a imm
  | uori d a imm => exact execUori_wf h d a imm
  | uxori d a imm => exact execUxori_wf h d a imm
  | ushli d a imm => exact execUshli_wf h d a imm
  | ushri d a imm => exact execUshri_wf h d a imm
  | usari d a imm => exact execUsari_wf h d a imm
  | ucmp cc q a b g => exact execUcmp_wf h cc q a b g
  | ucmpi cc q a imm => exact execUcmpi_wf h cc q a imm
  | uclz d a g => exact execUclz_wf h d a g
  | upopc d a g => exact execUpopc_wf h d a g
  | ubrev d a g => exact execUbrev_wf h d a g
  | ubfx d a b g => exact execUbfx_wf h d a b g
  | ubfi d a b g => exact execUbfi_wf h d a b g
  | usel d a b q => exact execUsel_wf h d a b q
  | uqop d a b o => exact execUqop_wf h d a b o
  | uqmovTos d => exact execUqmovTos_wf h d
  | uqmovFroms a => exact execUqmovFroms_wf h a
  | uld32 d a imm => exact execUld32_wf h d a imm
  | uld64 d a imm => exact execUld64_wf h d a imm
  | ust32 d a imm => exact execUst32_wf h d a imm
  | ust64 d a imm => exact execUst64_wf h d a imm
  | urds d n => exact execUrds_wf h d n
  | uwrs a n => exact execUwrs_wf h a n
  | setfmt m v => exact execSetfmt_wf h m v
  | bra q o => exact execBra_wf h q o
  | bran q o => exact execBran_wf h q o
  | call q o => exact execCall_wf h q o
  | ret q => exact execRet_wf h q
  | jmpi q a => exact execJmpi_wf h q a
  | calli q a => exact execCalli_wf h q a
  | split p e => exact execSplit_wf h p e
  | join => exact execJoin_wf h
  | brkp p => exact execBrkp_wf h p
  | pmask d => exact execPmask_wf h d
  | anyp d p => exact execAnyp_wf h d p
  | allp d p => exact execAllp_wf h d p
  | halt => exact execHalt_wf h
  | yield => exact execYield_wf h
  | sleepuntil k => exact execSleepuntil_wf h k
  | waitline k s1 y => exact execWaitline_wf h k s1 y
  | trap n => exact execTrap_wf h n
  | bkpt n => exact execBkpt_wf h n
  | rte => exact execRte_wf h
  | dispatch a => exact execDispatch_wf h a
  | phasesel => exact execPhasesel_wf h
  | phaseend g => exact execPhaseend_wf h g
  | vadd u d a b g => exact execVadd_wf h u d a b g
  | vsub u d a b g => exact execVsub_wf h u d a b g
  | vmul u d a b g => exact execVmul_wf h u d a b g
  | vmulh u d a b g => exact execVmulh_wf h u d a b g
  | vmulhu u d a b g => exact execVmulhu_wf h u d a b g
  | vmin u d a b g => exact execVmin_wf h u d a b g
  | vmax u d a b g => exact execVmax_wf h u d a b g
  | vminu u d a b g => exact execVminu_wf h u d a b g
  | vand u d a b g => exact execVand_wf h u d a b g
  | vor u d a b g => exact execVor_wf h u d a b g
  | vxor u d a b g => exact execVxor_wf h u d a b g
  | vshl u d a b g => exact execVshl_wf h u d a b g
  | vshr u d a b g => exact execVshr_wf h u d a b g
  | vsar u d a b g => exact execVsar_wf h u d a b g
  | vmaxu u d a b g => exact execVmaxu_wf h u d a b g
  | vabsd u d a b g => exact execVabsd_wf h u d a b g
  | vaddi d a imm => exact execVaddi_wf h d a imm
  | vmuli d a imm => exact execVmuli_wf h d a imm
  | vandi d a imm => exact execVandi_wf h d a imm
  | vori d a imm => exact execVori_wf h d a imm
  | vxori d a imm => exact execVxori_wf h d a imm
  | vshli d a imm => exact execVshli_wf h d a imm
  | vshri d a imm => exact execVshri_wf h d a imm
  | vsari d a imm => exact execVsari_wf h d a imm
  | vicmp u cc d a b g => exact execVicmp_wf h u cc d a b g
  | vicmpi cc d a imm => exact execVicmpi_wf h cc d a imm
  | vclz u d a g => exact execVclz_wf h u d a g
  | vpopc u d a g => exact execVpopc_wf h u d a g
  | vbrev u d a g => exact execVbrev_wf h u d a g
  | vbfx u d a b g => exact execVbfx_wf h u d a b g
  | vbfi u d a b g => exact execVbfi_wf h u d a b g
  | vsel u d a b p => exact execVsel_wf h u d a b p
  | vmad u d a b g => exact execVmad_wf h u d a b g
  | vlane u d g => exact execVlane_wf h u d g
  | vmov d a g => exact execVmov_wf h d a g
  | vmovs d s1 g => exact execVmovs_wf h d s1 g
  | vtos s1 a l g => exact execVtos_wf h s1 a l g
  | vfroms d s1 l g => exact execVfroms_wf h d s1 l g
  | fadd u d a b g => exact execFadd_wf h u d a b g
  | fsub u d a b g => exact execFsub_wf h u d a b g
  | fmul u d a b g => exact execFmul_wf h u d a b g
  | ffma u d a b g => exact execFfma_wf h u d a b g
  | ffnma u d a b g => exact execFfnma_wf h u d a b g
  | fmin u d a b g => exact execFmin_wf h u d a b g
  | fmax u d a b g => exact execFmax_wf h u d a b g
  | fabs u d a g => exact execFabs_wf h u d a g
  | vfcmp u cc d a b g => exact execVfcmp_wf h u cc d a b g
  | frcp u d a g => exact execFrcp_wf h u d a g
  | frsq u d a g => exact execFrsq_wf h u d a g
  | fsqrt u d a g => exact execFsqrt_wf h u d a g
  | fdiv u d a b g => exact execFdiv_wf h u d a b g
  | fex2 u d a g => exact execFex2_wf h u d a g
  | flg2 u d a g => exact execFlg2_wf h u d a g
  | frint u d a g => exact execFrint_wf h u d a g
  | fclass u d a g => exact execFclass_wf h u d a g
  | b2add u d a b g => exact execB2add_wf h u d a b g
  | b2sub u d a b g => exact execB2sub_wf h u d a b g
  | b2mul u d a b g => exact execB2mul_wf h u d a b g
  | b2fma u d a b g => exact execB2fma_wf h u d a b g
  | b2max u d a b g => exact execB2max_wf h u d a b g
  | b2min u d a b g => exact execB2min_wf h u d a b g
  | fcvt d a dst src g => exact execFcvt_wf h d a dst src g
  | icvt d a dst src g => exact execIcvt_wf h d a dst src g
  | qpk d a s1 g => exact execQpk_wf h d a s1 g
  | qunpk d a s1 g => exact execQunpk_wf h d a s1 g
  | shfl d a b g => exact execShfl_wf h d a b g
  | shflx d a k g => exact execShflx_wf h d a k g
  | shflup d a k g => exact execShflup_wf h d a k g
  | shfldn d a k g => exact execShfldn_wf h d a k g
  | lanebc d a k g => exact execLanebc_wf h d a k g
  | vredf d a o g => exact execVredf_wf h d a o g
  | vredi d a o g => exact execVredi_wf h d a o g
  | vscanf d a o g => exact execVscanf_wf h d a o g
  | vldx d a imm => exact execVldx_wf h d a imm
  | vstx d a imm => exact execVstx_wf h d a imm
  | pand d a b g => exact execPand_wf h d a b g
  | por d a b g => exact execPor_wf h d a b g
  | pxor d a b g => exact execPxor_wf h d a b g
  | pandn d a b g => exact execPandn_wf h d a b g
  | pnot d a g => exact execPnot_wf h d a g
  | pmov d a g => exact execPmov_wf h d a g
  | pset d v g => exact execPset_wf h d v g
  | vballot s1 a g => exact execVballot_wf h s1 a g
  | vmcnt d a g => exact execVmcnt_wf h d a g
  | ldg z s1 r d o k n => exact execLdg_wf h z s1 r d o k n
  | stg z s1 r d o k n => exact execStg_wf h z s1 r d o k n
  | ldq z s1 r d o k n => exact execLdq_wf h z s1 r d o k n
  | stq z s1 r d o k n => exact execStq_wf h z s1 r d o k n
  | gather z s1 r d o k n => exact execGather_wf h z s1 r d o k n
  | scatter z s1 r d o k n => exact execScatter_wf h z s1 r d o k n
  | atomg p w s1 r d o k => exact execAtomg_wf h p w s1 r d o k
  | atomq p n s1 r d o k => exact execAtomq_wf h p n s1 r d o k
  | fence s1 => exact execFence_wf h s1
  | fenceacq s1 => exact execFenceacq_wf h s1
  | fencerel s1 => exact execFencerel_wf h s1
  | fenceeng s1 => exact execFenceeng_wf h s1
  | pref o k n => exact execPref_wf h o k n
  | wbl o k n => exact execWbl_wf h o k n
  | invl o k n => exact execInvl_wf h o k n
  | flushl o k n => exact execFlushl_wf h o k n
  | rowpin d k => exact execRowpin_wf h d k
  | rowunpin d a => exact execRowunpin_wf h d a
  | rowqry d a => exact execRowqry_wf h d a
  | mqput k d r => exact execMqput_wf h k d r
  | mqget k d r => exact execMqget_wf h k d r
  | mred k d r => exact execMred_wf h k d r
  | mredrd k d r => exact execMredrd_wf h k d r
  | matom k d r w p => exact execMatom_wf h k d r w p
  | rwri k ctl r => exact execRwri_wf h k ctl r
  | rrd k ctl r => exact execRrd_wf h k ctl r
  | ratom k ctl r => exact execRatom_wf h k ctl r
  | nqwait d y => exact execNqwait_wf h d y
  | tbinit k q s1 r => exact execTbinit_wf h k q s1 r
  | tbarrive k q s1 r => exact execTbarrive_wf h k q s1 r
  | tbexpect k q s1 r => exact execTbexpect_wf h k q s1 r
  | tbwait k q s1 r => exact execTbwait_wf h k q s1 r
  | tbquery k q s1 r => exact execTbquery_wf h k q s1 r
  | barsync s1 imm r => exact execBarsync_wf h s1 imm r
  | bararrive s1 imm r d => exact execBararrive_wf h s1 imm r d
  | barwait s1 imm r => exact execBarwait_wf h s1 imm r
  | gatepost d a => exact execGatepost_wf h d a
  | gatetake d a y => exact execGatetake_wf h d a y
  | gatepoll d a => exact execGatepoll_wf h d a
  | mloop a t u o p s1 n => exact execMloop_wf h a t u o p s1 n
  | mstep a v w f imm j g => exact execMstep_wf h a v w f imm j g
  | mdrain a d t r z => exact execMdrain_wf h a d t r z
  | mzero a => exact execMzero_wf h a
  | mwait a => exact execMwait_wf h a
  | mload a t => exact execMload_wf h a t
  | mqry a d => exact execMqry_wf h a d
  | tset t a => exact execTset_wf h t a
  | tget d t => exact execTget_wf h d t
  | tplset d t a => exact execTplset_wf h d t a
  | ctrsel n a => exact execCtrsel_wf h n a
  | ctrrd d n => exact execCtrrd_wf h d n
  | ctrctl d a => exact execCtrctl_wf h d a
  | lateError => exact execLateError_wf h
  | contextTake => exact execContextTake_wf h
  | sleepuntilWake => exact execSleepuntilWake_wf h
  | waitlineWake => exact execWaitlineWake_wf h
  | waitlineTimeout => exact execWaitlineTimeout_wf h
  | nqwaitWake => exact execNqwaitWake_wf h
  | nqwaitTimeout => exact execNqwaitTimeout_wf h
  | gatetakeWake => exact execGatetakeWake_wf h
  | gatetakeTimeout => exact execGatetakeTimeout_wf h
  | missedPromise => exact execMissedPromise_wf h
  | watchdog => exact execWatchdog_wf h
  | launchComplete => exact execLaunchComplete_wf h
  | accessComplete => exact execAccessComplete_wf h
  | qspBankService => exact execQspBankService_wf h
  | writeQueueMerge => exact execWriteQueueMerge_wf h
  | pageWalk => exact execPageWalk_wf h
  | walkComplete => exact execWalkComplete_wf h
  | directoryRequest => exact execDirectoryRequest_wf h
  | atomicUnitOp => exact execAtomicUnitOp_wf h
  | gatherPacket => exact execGatherPacket_wf h
  | memCompletion => exact execMemCompletion_wf h
  | bisnpinv => exact execBisnpinv_wf h
  | bisnpdata => exact execBisnpdata_wf h
  | bisnpcur => exact execBisnpcur_wf h
  | biconflictack => exact execBiconflictack_wf h
  | kweutResponse => exact execKweutResponse_wf h
  | moduleCompletionTimeout => exact execModuleCompletionTimeout_wf h
  | relayTimeout => exact execRelayTimeout_wf h
  | qput => exact execQput_wf h
  | qget => exact execQget_wf h
  | atom => exact execAtom_wf h
  | red => exact execRed_wf h
  | redrd => exact execRedrd_wf h
  | headGroupLost => exact execHeadGroupLost_wf h
  | rwriPacket => exact execRwriPacket_wf h
  | rrdPacket => exact execRrdPacket_wf h
  | ratomPacket => exact execRatomPacket_wf h
  | relayedRead => exact execRelayedRead_wf h
  | relayedWrite => exact execRelayedWrite_wf h
  | relayedAtomic => exact execRelayedAtomic_wf h
  | ack => exact execAck_wf h
  | nak => exact execNak_wf h
  | fault => exact execFault_wf h
  | resume => exact execResume_wf h
  | resp => exact execResp_wf h
  | busyNakResend => exact execBusyNakResend_wf h
  | ackInterval => exact execAckInterval_wf h
  | qputRetry => exact execQputRetry_wf h
  | relayContextFetch => exact execRelayContextFetch_wf h
  | portDown => exact execPortDown_wf h
  | viral => exact execViral_wf h
  | attachmentUp => exact execAttachmentUp_wf h
  | linkCrcFailure => exact execLinkCrcFailure_wf h
  | retrainComplete => exact execRetrainComplete_wf h
  | refresh => exact execRefresh_wf h
  | copyAccept => exact execCopyAccept_wf h
  | land => exact execLand_wf h
  | chstatClear => exact execChstatClear_wf h
  | engineGrant => exact execEngineGrant_wf h
  | passComplete => exact execPassComplete_wf h
  | counterAdd => exact execCounterAdd_wf h
  | wayMove => exact execWayMove_wf h
  | quantumExpiry => exact execQuantumExpiry_wf h
  | switchSave => exact execSwitchSave_wf h
  | hostQueuePost => exact execHostQueuePost_wf h
  | hostMemRead => exact execHostMemRead_wf h
  | hostMemWrite => exact execHostMemWrite_wf h
  | registerWrite => exact execRegisterWrite_wf h
  | rlyctxsizeTakesEffect => exact execRlyctxsizeTakesEffect_wf h
  | xltinvcPage => exact execXltinvcPage_wf h
  | xltinvcAsid => exact execXltinvcAsid_wf h
  | xltinvcPartition => exact execXltinvcPartition_wf h
  | xltinvcComplete => exact execXltinvcComplete_wf h
  | mailboxDoorbell => exact execMailboxDoorbell_wf h
  | revokeComplete => exact execRevokeComplete_wf h
  | resetRelease => exact execResetRelease_wf h
  | stageAdvance => exact execStageAdvance_wf h
  | thermalThrottle => exact execThermalThrottle_wf h
  | thermalShutdown => exact execThermalShutdown_wf h
  | getLdInfo => exact execGetLdInfo_wf h
  | getLdAllocations => exact execGetLdAllocations_wf h
  | setLdAllocations => exact execSetLdAllocations_wf h
  | getQosControl => exact execGetQosControl_wf h
  | setQosControl => exact execSetQosControl_wf h
  | getQosStatus => exact execGetQosStatus_wf h
  | ident => exact execIdent_wf h
  | attest => exact execAttest_wf h
  | featget => exact execFeatget_wf h
  | featset => exact execFeatset_wf h
  | partcreate => exact execPartcreate_wf h
  | partdestroy => exact execPartdestroy_wf h
  | partsetHoldPolicy => exact execPartsetHoldPolicy_wf h
  | partsetWatchdog => exact execPartsetWatchdog_wf h
  | partsetQuantum => exact execPartsetQuantum_wf h
  | partsetWays => exact execPartsetWays_wf h
  | partsetQuota => exact execPartsetQuota_wf h
  | partsetGrant => exact execPartsetGrant_wf h
  | launch => exact execLaunch_wf h
  | wswitch => exact execWswitch_wf h
  | replay => exact execReplay_wf h
  | fatal => exact execFatal_wf h
  | errlogSetRing => exact execErrlogSetRing_wf h
  | errlogReadRas => exact execErrlogReadRas_wf h
  | errlogClearRas => exact execErrlogClearRas_wf h
  | hqset => exact execHqset_wf h
  | regreg => exact execRegreg_wf h
  | regrevoke => exact execRegrevoke_wf h
  | gatecreate => exact execGatecreate_wf h
  | gatefreeze => exact execGatefreeze_wf h
  | gateexport => exact execGateexport_wf h
  | gateimport => exact execGateimport_wf h
  | gatethaw => exact execGatethaw_wf h
  | gatedestroy => exact execGatedestroy_wf h
  | podconfigGroups => exact execPodconfigGroups_wf h
  | podconfigPrivilege => exact execPodconfigPrivilege_wf h
  | podconfigTimeouts => exact execPodconfigTimeouts_wf h
  | podconfigRoutes => exact execPodconfigRoutes_wf h
  | podconfigCapacities => exact execPodconfigCapacities_wf h
  | podctlClearDeadpeer => exact execPodctlClearDeadpeer_wf h
  | podctlDown => exact execPodctlDown_wf h
  | podctlRetrain => exact execPodctlRetrain_wf h
  | dbgopenOpen => exact execDbgopenOpen_wf h
  | dbgopenClose => exact execDbgopenClose_wf h
  | dbgctlStop => exact execDbgctlStop_wf h
  | dbgctlStep => exact execDbgctlStep_wf h
  | dbgctlResume => exact execDbgctlResume_wf h
  | dbgctlCoreStop => exact execDbgctlCoreStop_wf h
  | dbgctlCoreResume => exact execDbgctlCoreResume_wf h
  | ctrwrite => exact execCtrwrite_wf h
  | illegalInstruction => exact execIllegalInstruction_wf h
  | packetForward => exact execPacketForward_wf h
  | bindVppb => exact execBindVppb_wf h
  | unbindVppb => exact execUnbindVppb_wf h
  | spillComplete => exact execSpillComplete_wf h

/-! ### Issue -/

theorem runCall_wf {s : State} (h : s.mem.wf = true) (c : Call) : OutWf (runCall s c) :=
  outWf_ite (outWf_next.mpr h) (exec_wf (by exact h) _)

@[simp] theorem State.chargeWord_mem (s : State) (part major : Nat) : (s.chargeWord part major).mem = s.mem := by
  unfold State.chargeWord
  split <;> simp

@[simp] theorem State.hide_mem (s : State) (i : Issue) (fmt : BitVec 8) (j : Instr) : (s.hide i fmt j).mem = s.mem := by
  grind [State.hide, State.modWave_mem]

@[simp] theorem State.chargeExpansion_mem (s : State) (w : Wave) (u : UnitSt) (lit : Word) (i : Instr) :
    (s.chargeExpansion w u lit i).mem = s.mem := by
  grind [State.chargeExpansion, State.fresh_mem, State.charge_mem]

@[simp] theorem State.wordDone_mem (s : State) (w : Wave) (u : UnitSt) (i : Issue) (x : Nat) (a : Instr) :
    (s.wordDone w u i x a).mem = s.mem := by
  simp [State.wordDone]

@[simp] theorem State.waiting_mem (s : State) (i : Issue) : (s.waiting i).mem = s.mem := rfl

@[simp] theorem State.latch_mem (s : State) (i : Issue) : (s.latch i).mem = s.mem := by
  unfold State.latch
  split <;> simp

@[simp] theorem State.unlatch_mem (s : State) (i : Issue) (t : State) : (s.unlatch i t).mem = t.mem := by
  grind [State.unlatch, State.modWave_mem]

theorem illegalWord_wf {s : State} (h : s.mem.wf = true) (i : Issue) (e : DecodeErr) : OutWf (illegalWord s i e) :=
  exec_wf (by exact h) _

/-- A chained pair's two words, issued after one another or the second one by itself (log 10). -/
theorem issuePair_wf {s : State} (h : s.mem.wf = true) (i1 i2 : Issue) (both : Bool) (w1 w2 : Nat) :
    OutWf (issuePair s i1 i2 both w1 w2) := by
  have hl (i : Issue) : (s.latch i).mem.wf = true := by simpa using h
  have hl2 : ({ s.latch i1 with issue := some i2 } : State).mem.wf = true := hl i1
  unfold issuePair
  split
  · exact illegalWord_wf (hl _) _ _
  · refine onUnit_wf fun w is u => ?_
    split
    · exact takeTrap_wf (hl _) _ _ _ _ _
    · exact illegalWord_wf (hl _) _ _
  next a b _ _ =>
    refine onUnit_wf fun w is u => ?_
    split
    · exact takeTrap_wf (hl _) _ _ _ _ _
    · exact takeTrap_wf hl2 _ _ _ _ _
    · split
      · exact takeTrap_wf (hl _) _ _ _ _ _
      · refine outWf_ite (outWf_next.mpr (by simpa using h)) ?_
        have ha := exec_wf (hl i1) a
        generalize exec a (s.latch i1) = r1 at ha ⊢
        cases r1 with
        | fault f => exact ha
        | refused f => exact ha
        | next s1 =>
          have h1 := outWf_next.mp ha
          refine outWf_ite ha ?_
          have hb := exec_wf hl2 b
          generalize exec b { s.latch i1 with issue := some i2 } = r2 at hb ⊢
          cases r2 with
          | fault f => exact hb
          | refused f => exact hb
          | next t =>
            refine outWf_ite hb (outWf_ite (outWf_next.mpr (by simpa using hb)) (outWf_ite (outWf_next.mpr (by simpa using h1)) ?_))
            have hc := exec_wf (s := { s1 with issue := some i2 }) h1 b
            generalize exec b { s1 with issue := some i2 } = r3 at hc ⊢
            cases r3 with
            | fault f => exact hc
            | refused f => exact hc
            | next s2 => exact outWf_next.mpr (by simpa using hc)

theorem issueOne_wf {s : State} (h : s.mem.wf = true) (w : Wave) (i : Issue) (x : Nat) : OutWf (issueOne s w i x) := by
  have hl : (s.latch i).mem.wf = true := by simpa using h
  unfold issueOne
  split
  · exact illegalWord_wf hl _ _
  next a _ =>
    refine outWf_ite (outWf_next.mpr (by simpa using h)) ?_
    have ha := exec_wf hl a
    generalize exec a (s.latch i) = r at ha ⊢
    cases r with
    | next t => exact outWf_next.mpr (wf_ite (by simpa using ha) (outWf_next.mp ha))
    | fault f => exact ha
    | refused f => exact ha

@[simp] theorem State.endSingleStep_mem (s : State) (seq wid : Nat) : (s.endSingleStep seq wid).mem = s.mem := by
  unfold State.endSingleStep
  split <;> simp

@[simp] theorem State.passPair_mem (s : State) (i : Issue) : (s.passPair i).mem = s.mem := by
  unfold State.passPair
  split <;> simp

theorem mapNext_wf {r : Out} (h : OutWf r) {f : State → State} (hf : ∀ t, t.mem.wf = true → (f t).mem.wf = true) :
    OutWf (mapNext r f) := by
  cases r with
  | next t => simpa [mapNext] using hf t (outWf_next.mp h)
  | fault r => simp [mapNext]
  | refused r => simp [mapNext]

theorem issueFrom_wf {s : State} (h : s.mem.wf = true) (w : Wave) (a : Arm) (p : FetchedPacket) : OutWf (issueFrom s w a p) := by
  refine outWf_ite (outWf_next.mpr (by simpa using h)) (mapNext_wf (outWf_ite ?_ (outWf_ite ?_ ?_)) fun t ht => by simpa using ht)
  · exact mapNext_wf (issueOne_wf h _ _ _) fun t ht => by simpa using ht
  · exact issuePair_wf h _ _ _ _ _
  · exact issueOne_wf h _ _ _

theorem issueTurn_wf {s : State} (h : s.mem.wf = true) (w : Wave) (a : Arm) : OutWf (issueTurn s w a) := by
  refine outWf_ite (runCall_wf h _) (outWf_ite (runCall_wf h _) ?_)
  have hf := State.fetch_wf (s := { s with issue := some (w.fetching a) }) h w (w.fetching a) (w.unit a)
  dsimp only
  generalize State.fetch _ _ _ _ = f at hf ⊢
  cases f with
  | stop s1 =>
    change s1.mem.wf = true at hf
    exact outWf_next.mpr (by simpa using hf)
  | packet s1 p =>
    change s1.mem.wf = true at hf
    dsimp only
    split
    · exact outWf_next.mpr hf
    · exact mapNext_wf (issueFrom_wf hf _ _ _) fun t ht => by simpa using ht

theorem issueUnit_wf {s : State} (h : s.mem.wf = true) (seq wid : Nat) (a : Arm) : OutWf (issueUnit s seq wid a) := by
  unfold issueUnit
  split
  · exact outWf_next.mpr h
  · exact outWf_ite (issueTurn_wf h _ _) (outWf_next.mpr h)

@[simp] theorem State.countCycle_mem (s : State) : s.countCycle.mem = s.mem := by
  refine foldl_mem (fun t p => ?_) _ _
  dsimp only
  split
  · rfl
  · exact State.addCounters_mem _ _ _ _

/-! ### What comes from outside -/

@[simp] theorem State.arrayError_mem (s : State) (key : Nat) (corrected : Bool) : (s.arrayError key corrected).mem = s.mem := by
  grind [State.arrayError, State.modLink_mem, State.setPoison_mem]

@[simp] theorem State.countSoft_mem (s : State) (cls : Nat) (poisoned : Bool) : (s.countSoft cls poisoned).mem = s.mem := by
  unfold State.countSoft
  split <;> simp

@[simp] theorem State.qspError_mem (s : State) (key : Nat) (fatal : Bool) : (s.qspError key fatal).mem = s.mem := by
  unfold State.qspError
  split <;> simp

@[simp] theorem State.l1Error_mem (s : State) (quad key : Nat) (fatal : Bool) : (s.l1Error quad key fatal).mem = s.mem := by
  grind [State.l1Error, State.countSoft_mem, State.l1DropSector_mem, State.l1Set_mem]

@[simp] theorem State.l2Error_mem (s : State) (die key : Nat) (fatal : Bool) : (s.l2Error die key fatal).mem = s.mem := by
  grind [State.l2Error, State.countSoft_mem, State.setPoison_mem]

@[simp] theorem State.tagError_wf {s : State} (h : s.mem.wf = true) (die line : Nat) (fatal : Bool) :
    (s.tagError die line fatal).mem.wf = true := by
  grind [State.tagError, State.countSoft_mem, State.setPoison_mem, State.recallAll_wf]

@[simp] theorem State.vregError_mem (s : State) (seq wid reg lane : Nat) (fatal : Bool) :
    (s.vregError seq wid reg lane fatal).mem = s.mem := by
  grind [State.vregError, State.countSoft_mem, State.setWave_mem]

/-- The lines that other hosts hold are no part of memory. -/
theorem State.withHolders_wf {t : State} (h : t.mem.wf = true) (hs : List ModHolder) :
    ({ t with holders := hs } : State).mem.wf = true := h

@[simp] theorem State.foreignStore_wf {s : State} (h : s.mem.wf = true) (m addr lead : Nat) (data : List Byte) :
    (s.foreignStore m addr lead data).mem.wf = true :=
  wf_ite h (State.poke_wf (State.withHolders_wf (State.recall_wf (s := { s with snoopAnswers := [] }) h _ _ true) _) _ _)

@[simp] theorem State.foreignArrival_wf {s : State} (h : s.mem.wf = true) (k : BarKey) (id n : Nat) :
    (s.foreignArrival k id n).mem.wf = true := by
  simp [State.foreignArrival, h]

@[simp] theorem State.foreignHeadBack_mem (s : State) (m lead : Nat) : (s.foreignHeadBack m lead).mem = s.mem := by
  unfold State.foreignHeadBack
  split <;> simp

@[simp] theorem State.hostDigest_mem (s : State) (reg digest : Nat) : (s.hostDigest reg digest).mem = s.mem := by
  unfold State.hostDigest
  split <;> simp

@[simp] theorem State.hostCache_mem (s : State) (ld : Nat) (enable : Bool) (cacheId : Nat) :
    (s.hostCache ld enable cacheId).mem = s.mem := rfl

@[simp] theorem State.outside_wf {s : State} (h : s.mem.wf = true) (x1 : Outside) : (s.outside x1).mem.wf = true := by
  unfold State.outside
  split <;> simp [h]

/-! ### Default turns -/

theorem deliver_wf {s : State} (h : s.mem.wf = true) (k : Nat) : OutWf (deliver s k) := by
  refine outWf_ite (outWf_next.mpr h) ?_
  split
  · exact outWf_next.mpr h
  · exact runCall_wf (by exact h) _

theorem performTurn_wf {s : State} (h : s.mem.wf = true) (x : Turn) : OutWf (performTurn s x) := by
  cases x with
  | unit seq wid a => exact issueUnit_wf h _ _ _
  | event c => exact outWf_ite (runCall_wf h _) (outWf_refused _)
  | message k => exact deliver_wf h _
  | outside x => exact outWf_ite (outWf_next.mpr (State.outside_wf h _)) (outWf_refused _)

theorem performDefault_wf {s : State} (h : s.mem.wf = true) : OutWf (performDefault s) := by
  unfold performDefault
  split
  · exact runCall_wf h _
  · exact performTurn_wf h _
  · exact outWf_next.mpr h

@[simp] theorem State.endStep_wf {s : State} (h : s.mem.wf = true) : (s.endStep).mem.wf = true := by
  simp [State.endStep, h]

theorem performNext_wf {s : State} (h : s.mem.wf = true) : OutWf (performNext s) := by
  unfold performNext
  split
  · exact performTurn_wf (by exact h) _
  · exact performDefault_wf h

/-! ### The step -/

theorem step_wf {s : State} (h : s.mem.wf = true) : OutWf (step s) :=
  mapNext_wf (performNext_wf (by exact h)) fun _ ht => State.endStep_wf ht

/-- Settles O7: each turn's arm keeps the canonical form, and so does what ends the step. -/
theorem stepKeepsInvariant : Obligations.StepKeepsInvariant := by
  unfold Obligations.StepKeepsInvariant
  intro s t h hs
  exact step_wf h t hs

end Sys2Proof.Machine
end

section
/-!
PROOFS. O48: the start and end of a page walk, the invalidations, RLYCTXSIZE and the movement of a way.
-/
namespace Sys2Proof.Machine

/-! ### Walks (01 R27, R30) -/

theorem modFirst_append {α : Type} {p : α → Bool} (f : α → α) {k : α} (hk : p k = true) (post : List α) :
    ∀ {pre : List α}, (∀ x ∈ pre, p x = false) → modFirst p f (pre ++ [k] ++ post) = pre ++ [f k] ++ post
  | [], _ => by simp [modFirst, hk]
  | x :: pre, h => by
    have ih := modFirst_append f hk post fun y hy => h y (List.mem_cons_of_mem _ hy)
    simpa [modFirst, h x List.mem_cons_self] using ih

theorem execPageWalk_oldest {s : State} {die : Nat} {pre post : List Walk} {k : Walk} (hc : s.call = .pageWalk die)
    (hroom : (s.walks.filter fun x => x.die = die && x.started).length < (if die = 8 then 16 else 64))
    (hw : s.walks = pre ++ [k] ++ post) (hpre : ∀ x ∈ pre, x.die = die → x.started = true) (hd : k.die = die)
    (hq : k.started = false) :
    exec .pageWalk s = .next { s with walks :=
      pre ++ [{ k with started := true, root := ((s.part? k.part).map Part.xltBase).getD 0 }] ++ post } := by
  have hsize : (walkerSize die).1 = if die = 8 then 16 else 64 := by unfold walkerSize; split <;> rfl
  have hfirst := modFirst_append (p := fun x : Walk => x.die = die && !x.started)
    (fun x => { x with started := true, root := ((s.part? x.part).map Part.xltBase).getD 0 }) (k := k) (by simp [hd, hq]) post
    (pre := pre) fun x hx => by
      by_cases h : x.die = die
      · simp [hpre x hx h]
      · simp [h]
  change execPageWalk s = _
  rw [execPageWalk, hc]
  dsimp only
  rw [hsize, if_neg (Nat.not_le.mpr hroom), hw, hfirst]

/-- The end of a walk whose partition still stands: what it read is charged and cached before its clients hear of it. -/
theorem State.endWalk_of_part {s : State} {k : Walk} {p : Part} (hp : s.part? k.part = some p) :
    let r := s.walk k.cacheDie p k.asid k.root k.page
    let s2 := s.walkReads k.die p.num k.asid k.root k.page r.2
    let s3 := if k.die = 8 then s2 else s2.walkCacheFill k.die p.num k.asid r.2
    (∀ sub level, r.1 = .refused sub level →
      s.endWalk k = s3.releaseClients k none (some { page := k.page, sub := sub, level := level, ras := false }))
    ∧ (∀ level, r.1 = .ras level →
      s.endWalk k = s3.releaseClients k none (some { page := k.page, sub := 7, level := level, ras := true }))
    ∧ ∀ pages frame w x na tier, r.1 = .leaf pages frame w x na tier →
      let e : TlbEntry :=
        { place := .runner, part := p.num, asid := k.asid, page := k.page / pages * pages, pages := pages, frame := frame,
          w := w, x := x, na := na, tier := tier }
      s.endWalk k = (s3.fillClients k e).releaseClients k (some e) none := by
  intro r s2 s3
  have hs3 : (if k.cacheDie.isSome then s2.walkCacheFill k.die p.num k.asid r.2 else s2) = s3 := by
    unfold Walk.cacheDie
    by_cases h8 : k.die = 8
    · simp [s3, h8]
    · simp [s3, h8]
  refine ⟨fun sub level h => ?_, fun level h => ?_, fun pages frame w x na tier h => ?_⟩
  · simp only [State.endWalk, hp, h, r, ← hs3, s2]
  · simp only [State.endWalk, hp, h, r, ← hs3, s2]
  · simp only [State.endWalk, hp, h, r, ← hs3, s2]

theorem execWalkComplete_eq {s : State} {die n : Nat} {k : Walk} (hc : s.call = .walkComplete die n)
    (hk : (s.walks.filter fun x => x.die = die && x.started)[n]? = some k) :
    exec .walkComplete s = if s.walkHeld k then .next s else .next (State.endWalk { s with walks := s.walks.erase k } k) := by
  change execWalkComplete s = _
  simp only [execWalkComplete, hc, hk]

/-! ### Invalidations (01 R27) -/

/-- A state from which the entries that two tests pick are gone, and nothing else. -/
theorem State.dropEntries_spec (s : State) (gone : TlbEntry → Bool) (table : WalkCacheEntry → Bool) :
    let t := s.dropEntries gone table
    t = { s with tlb := t.tlb, walkCache := t.walkCache, chans := t.chans }
      ∧ (∀ e, e ∈ t.tlb ↔ e ∈ s.tlb ∧ ¬ gone e = true) ∧ (∀ e, e ∈ t.walkCache ↔ e ∈ s.walkCache ∧ ¬ table e = true)
      ∧ ∀ c ∈ t.chans, ∀ b ∈ c.doors, ∀ e ∈ b.pages, ¬ gone e = true := by
  refine ⟨rfl, fun e => by simp [State.dropEntries], fun e => by simp [State.dropEntries], fun c hc b hb e he => ?_⟩
  obtain ⟨c0, -, rfl⟩ := List.mem_map.mp hc
  obtain ⟨b0, -, rfl⟩ := List.mem_map.mp hb
  simpa using (List.mem_filter.mp he).2

theorem execXltinvcPage_eq {s : State} {part asid size : Nat} {p : Part} (hc : s.call = .xltinvcPage part asid size)
    (hp : s.part? part = some p) :
    exec .xltinvcPage s = .next (s.dropEntries
      (fun e => e.part = part && e.asid = asid && e.meetsPage (p.xltInvaVa / 4096) (sizePages size))
      (fun e => e.part = part && e.asid = asid)) := by
  change execXltinvcPage s = _
  simp only [execXltinvcPage, hc, hp]

theorem execXltinvcAsid_eq {s : State} {part asid : Nat} (hc : s.call = .xltinvcAsid part asid) :
    exec .xltinvcAsid s =
      .next (s.dropEntries (fun e => e.part = part && e.asid = asid) (fun e => e.part = part && e.asid = asid)) := by
  change execXltinvcAsid s = _
  simp only [execXltinvcAsid, hc]

theorem execXltinvcPartition_eq {s : State} {part : Nat} (hc : s.call = .xltinvcPartition part) :
    exec .xltinvcPartition s = .next (s.dropEntries (fun e => e.part = part) (fun e => e.part = part)) := by
  change execXltinvcPartition s = _
  simp only [execXltinvcPartition, hc]

theorem execXltinvcComplete_done {s t : State} {part : Nat} {p : Part} (hc : s.call = .xltinvcComplete part)
    (hp : s.part? part = some p) (hgo : p.xltGo = true) (hquiet : s.partQuiet part = true)
    (hnone : ∀ c ∈ s.agenda, invalidates part c = false)
    (hl1 : gotAll s (s.quadsOf part) (fun (u : State) q => u.releaseQuad q) = (t, true)) :
    exec .xltinvcComplete s = .next (t.modPart part fun x => { x with xltGo := false }) := by
  have hany : s.agenda.any (invalidates part) = false := by simpa using hnone
  change execXltinvcComplete s = _
  simp [execXltinvcComplete, hc, hp, hgo, hquiet, hany, hl1]

theorem execRlyctxsizeTakesEffect_done {s : State} {part : Nat} {p : Part} {v : Nat} (hc : s.call = .rlyctxsizeTakesEffect part)
    (hp : s.part? part = some p) (hv : p.ctxSizeNext = some v) (hidle : s.runnerBusy part = false) :
    exec .rlyctxsizeTakesEffect s = .next (s.setPart { p with ctxSize := v, ctxSizeNext := none }) := by
  change execRlyctxsizeTakesEffect s = _
  simp [execRlyctxsizeTakesEffect, hc, hp, hv, hidle]

/-! ### Ways (15 R348) -/

theorem execWayMove_moved {s : State} {die slice : Nat} (hc : s.call = .wayMove die slice) (hm : s.wayMoved die slice = true) :
    exec .wayMove s = .next s := by
  change execWayMove s = _
  simp [execWayMove, hc, hm]

theorem execWayMove_none {s : State} {die slice : Nat} (hc : s.call = .wayMove die slice) (hm : s.wayMoved die slice = false)
    (hn : State.wayMove { s with free := s.free + 1 } die slice s.free = none) :
    exec .wayMove s = .next { s with free := s.free + 1 } := by
  change execWayMove s = _
  rw [execWayMove, hc]
  simp only [hm, State.fresh, hn, Bool.false_eq_true, if_false, ← hc]

theorem execWayMove_some {s : State} {die slice way g : Nat} (hc : s.call = .wayMove die slice)
    (hm : s.wayMoved die slice = false)
    (hn : State.wayMove { s with free := s.free + 1 } die slice s.free = some (way, g)) :
    exec .wayMove s = .next { s with
      free := s.free + 1
      ways := (s.ways.filter fun r => !(r.die = die && r.slice = some slice)) ++
        [{ die := die, slice := some slice, owners := (s.wayOwners die slice).set way g, moved := some (s.now / 2 ^ 20) }] } := by
  change execWayMove s = _
  rw [execWayMove, hc]
  simp only [hm, State.fresh, hn, Bool.false_eq_true, if_false, ← hc]
  rfl

/-- Settles O48: each arm is said by its own lemma above; what is left is to read an invalidation's tests as propositions. -/
theorem walksAndInvalidation : Obligations.WalksAndInvalidation := by
  unfold Obligations.WalksAndInvalidation
  intro s
  refine ⟨fun die pre k post hc hroom hw hpre hd hq => execPageWalk_oldest hc hroom hw hpre hd hq, fun die n k p hc hk hp => ?_, ?_,
    fun part p t hc hp hgo hquiet hnone hl1 => execXltinvcComplete_done hc hp hgo hquiet hnone hl1,
    fun part p v hc hp hv hidle => execRlyctxsizeTakesEffect_done hc hp hv hidle, fun die slice hc => ?_⟩
  · have hx := execWalkComplete_eq hc hk
    obtain ⟨hrefused, hras, hleaf⟩ := State.endWalk_of_part (s := { s with walks := s.walks.erase k }) hp
    refine ⟨fun h => by simp [hx, h], fun sub level h hr => ?_, fun level h hr => ?_, fun pages frame w x na tier h hr => ?_⟩
    · rw [hx, h, if_neg Bool.false_ne_true, hrefused sub level hr]
      rfl
    · rw [hx, h, if_neg Bool.false_ne_true, hras level hr]
      rfl
    · rw [hx, h, if_neg Bool.false_ne_true, hleaf pages frame w x na tier hr]
      rfl
  · refine ⟨fun part asid size p hc hp => ⟨_, execXltinvcPage_eq hc hp, ?_⟩, fun part asid hc => ⟨_, execXltinvcAsid_eq hc, ?_⟩,
      fun part hc => ⟨_, execXltinvcPartition_eq hc, ?_⟩⟩
    · simpa [TlbEntry.meetsPage, and_assoc] using State.dropEntries_spec s
        (fun e => e.part = part && e.asid = asid && e.meetsPage (p.xltInvaVa / 4096) (sizePages size))
        (fun e => e.part = part && e.asid = asid)
    · simpa using State.dropEntries_spec s (fun e => e.part = part && e.asid = asid) (fun e => e.part = part && e.asid = asid)
    · simpa using State.dropEntries_spec s (fun e => e.part = part) (fun e => e.part = part)
  · refine ⟨execWayMove_moved hc, fun hm => ?_⟩
    cases hn : State.wayMove { s with free := s.free + 1 } die slice s.free with
    | none => exact ⟨_, execWayMove_none hc hm hn, rfl, rfl⟩
    | some m => exact ⟨_, execWayMove_some hc hm hn, rfl, List.mem_append_right _ List.mem_cons_self⟩

end Sys2Proof.Machine
end

section
/-!
PROOFS. O50: an attachment goes down and comes up. Three layers: what the operations that end a lost module's work leave of the pod, the
lost head groups and the Runner (`f_links`); what sending packets leaves (`Sends`), and severing a peer (`Rerouted`, `KeepsPeer`); and
what stands when the attachment has gone down, before the routes follow (`Detached`).
-/
namespace Sys2Proof.Machine

/-! ### The pod, the lost head groups and the Runner -/

/-- A fold whose steps leave the pod, the lost head groups and the Runner leaves them. -/
theorem foldl_links {α : Type} {f : State → α → State}
    (hf : ∀ t x, (f t x).pod = t.pod ∧ (f t x).lostHeads = t.lostHeads ∧ (f t x).runner = t.runner) (l : List α) (s : State) :
    (l.foldl f s).pod = s.pod ∧ (l.foldl f s).lostHeads = s.lostHeads ∧ (l.foldl f s).runner = s.runner := by
  have h := foldl_proj (fun t : State => (t.pod, t.lostHeads, t.runner)) (f := f) (fun t x => by simp only [hf]) l s
  simp only [Prod.mk.injEq] at h
  exact h

theorem foldl_fst_proj {α β γ : Type} (p : State → β) {f : State × γ → α → State × γ} (hf : ∀ g x, p (f g x).1 = p g.1) :
    ∀ (l : List α) (g : State × γ), p (l.foldl f g).1 = p g.1
  | [], _ => rfl
  | x :: xs, g => (foldl_fst_proj p hf xs (f g x)).trans (hf g x)

/-- Operations in turn, each of which leaves them. -/
theorem gotAll_links {α : Type} (s : State) (l : List α) {f : State → α → Got}
    (hf : ∀ t x, (f t x).1.pod = t.pod ∧ (f t x).1.lostHeads = t.lostHeads ∧ (f t x).1.runner = t.runner) :
    (gotAll s l f).1.pod = s.pod ∧ (gotAll s l f).1.lostHeads = s.lostHeads ∧ (gotAll s l f).1.runner = s.runner := by
  have h := foldl_fst_proj (fun t : State => (t.pod, t.lostHeads, t.runner))
    (f := fun (g : Got) x => ((f g.1 x).1, g.2 && (f g.1 x).2)) (fun g x => by simp only [hf]) l (s, true)
  simp only [Prod.mk.injEq] at h
  exact h

@[simp] theorem State.clearCovered_links (s : State) (k n : Nat) :
    (s.clearCovered k n).pod = s.pod ∧ (s.clearCovered k n).lostHeads = s.lostHeads ∧ (s.clearCovered k n).runner = s.runner :=
  foldl_links (fun _ _ => by dsimp only; split <;> exact ⟨rfl, rfl, rfl⟩) _ _

@[simp] theorem State.poke_links (s : State) (k : Nat) (bs : List Byte) :
    (s.poke k bs).pod = s.pod ∧ (s.poke k bs).lostHeads = s.lostHeads ∧ (s.poke k bs).runner = s.runner := by
  simp [State.poke]

@[simp] theorem State.pokeNat_links (s : State) (k n x : Nat) :
    (s.pokeNat k n x).pod = s.pod ∧ (s.pokeNat k n x).lostHeads = s.lostHeads ∧ (s.pokeNat k n x).runner = s.runner := by
  simp [State.pokeNat]

@[simp] theorem State.fresh_links (s : State) :
    (s.fresh).2.pod = s.pod ∧ (s.fresh).2.lostHeads = s.lostHeads ∧ (s.fresh).2.runner = s.runner := ⟨rfl, rfl, rfl⟩

@[simp] theorem State.postEvent_links (s : State) (p type seq : Nat) (body : List Byte) :
    (s.postEvent p type seq body).pod = s.pod ∧ (s.postEvent p type seq body).lostHeads = s.lostHeads
      ∧ (s.postEvent p type seq body).runner = s.runner := ⟨rfl, rfl, rfl⟩

@[simp] theorem State.logError_links (s : State) (p : Nat) (r : LogRec) :
    (s.logError p r).pod = s.pod ∧ (s.logError p r).lostHeads = s.lostHeads ∧ (s.logError p r).runner = s.runner := by
  unfold State.logError
  split
  · exact ⟨rfl, rfl, rfl⟩
  · dsimp only
    split
    · exact ⟨rfl, rfl, rfl⟩
    · split
      · simp
      · exact ⟨rfl, rfl, rfl⟩

@[simp] theorem State.charge_links (s : State) (p code n : Nat) :
    (s.charge p code n).pod = s.pod ∧ (s.charge p code n).lostHeads = s.lostHeads ∧ (s.charge p code n).runner = s.runner := by
  grind [State.charge]

@[simp] theorem State.chargePod_links (s : State) (code n : Nat) :
    (s.chargePod code n).pod = s.pod ∧ (s.chargePod code n).lostHeads = s.lostHeads ∧ (s.chargePod code n).runner = s.runner := by
  unfold State.chargePod
  split <;> simp

@[simp] theorem State.resave_links (s : State) (p : Nat) :
    (s.resave p).pod = s.pod ∧ (s.resave p).lostHeads = s.lostHeads ∧ (s.resave p).runner = s.runner := ⟨rfl, rfl, rfl⟩

@[simp] theorem State.lateError_links (s : State) (seq wid cause sub addr : Nat) :
    (s.lateError seq wid cause sub addr).pod = s.pod ∧ (s.lateError seq wid cause sub addr).lostHeads = s.lostHeads
      ∧ (s.lateError seq wid cause sub addr).runner = s.runner := by
  unfold State.lateError
  split
  · exact ⟨rfl, rfl, rfl⟩
  · split
    · dsimp only
      split
      · exact ⟨rfl, rfl, rfl⟩
      · exact ⟨rfl, rfl, rfl⟩
    · exact ⟨rfl, rfl, rfl⟩

@[simp] theorem State.logAway_links (s : State) (part : Nat) (r : Requester) (key kind : Nat) :
    (s.logAway part r key kind).pod = s.pod ∧ (s.logAway part r key kind).lostHeads = s.lostHeads
      ∧ (s.logAway part r key kind).runner = s.runner := by
  simp [State.logAway]

@[simp] theorem State.transferred_links (s : State) (stack : Nat) :
    (s.transferred stack).pod = s.pod ∧ (s.transferred stack).lostHeads = s.lostHeads ∧ (s.transferred stack).runner = s.runner := by
  grind [State.transferred]

@[simp] theorem State.rowAccess_links (s : State) (key : Nat) :
    (s.rowAccess key).pod = s.pod ∧ (s.rowAccess key).lostHeads = s.lostHeads ∧ (s.rowAccess key).runner = s.runner := by
  grind [State.rowAccess, State.transferred_links, State.charge_links]

@[simp] theorem State.logWave_links (s : State) (w : Wave) (addr sub level : Nat) (kind : AccKind) (phys : Bool) :
    (s.logWave w addr sub level kind phys).pod = s.pod ∧ (s.logWave w addr sub level kind phys).lostHeads = s.lostHeads
      ∧ (s.logWave w addr sub level kind phys).runner = s.runner := by
  simp [State.logWave]

@[simp] theorem State.wakeLine_links (s : State) (line : Nat) :
    (s.wakeLine line).pod = s.pod ∧ (s.wakeLine line).lostHeads = s.lostHeads ∧ (s.wakeLine line).runner = s.runner := ⟨rfl, rfl, rfl⟩

@[simp] theorem State.modL2_links (s : State) (die line : Nat) (f : L2Line → L2Line) :
    (s.modL2 die line f).pod = s.pod ∧ (s.modL2 die line f).lostHeads = s.lostHeads
      ∧ (s.modL2 die line f).runner = s.runner := ⟨rfl, rfl, rfl⟩

@[simp] theorem State.setPerm_links (s : State) (line : Nat) (p : Option Perm) :
    (s.setPerm line p).pod = s.pod ∧ (s.setPerm line p).lostHeads = s.lostHeads ∧ (s.setPerm line p).runner = s.runner := ⟨rfl, rfl, rfl⟩

@[simp] theorem State.chargeFlits_links (s : State) (sent : Bool) (bytes : Nat) :
    (s.chargeFlits sent bytes).pod = s.pod ∧ (s.chargeFlits sent bytes).lostHeads = s.lostHeads
      ∧ (s.chargeFlits sent bytes).runner = s.runner := by
  unfold State.chargeFlits
  split <;> simp

@[simp] theorem State.askModule_links (s : State) (die part line : Nat) (kind : MemKind) :
    (s.askModule die part line kind).pod = s.pod ∧ (s.askModule die part line kind).lostHeads = s.lostHeads
      ∧ (s.askModule die part line kind).runner = s.runner := by
  unfold State.askModule
  split <;> simp

@[simp] theorem State.permitted_links (s : State) (die part line : Nat) (own : Bool) :
    (s.permitted die part line own).1.pod = s.pod ∧ (s.permitted die part line own).1.lostHeads = s.lostHeads
      ∧ (s.permitted die part line own).1.runner = s.runner := by
  unfold State.permitted
  split
  · exact ⟨rfl, rfl, rfl⟩
  · split
    · exact ⟨rfl, rfl, rfl⟩
    · exact ⟨rfl, rfl, rfl⟩
    · exact State.askModule_links _ _ _ _ _
    · exact State.askModule_links _ _ _ _ _

@[simp] theorem State.dirtyLine_links (s : State) (line : Nat) :
    (s.dirtyLine line).pod = s.pod ∧ (s.dirtyLine line).lostHeads = s.lostHeads ∧ (s.dirtyLine line).runner = s.runner := by
  unfold State.dirtyLine
  split <;> simp

@[simp] theorem State.cleanLine_links (s : State) (line : Nat) :
    (s.cleanLine line).pod = s.pod ∧ (s.cleanLine line).lostHeads = s.lostHeads ∧ (s.cleanLine line).runner = s.runner := ⟨rfl, rfl, rfl⟩

@[simp] theorem State.chargeFetch_links (s : State) (part key : Nat) :
    (s.chargeFetch part key).pod = s.pod ∧ (s.chargeFetch part key).lostHeads = s.lostHeads
      ∧ (s.chargeFetch part key).runner = s.runner := by
  unfold State.chargeFetch
  split <;> simp

@[simp] theorem State.restoreStale_links (s : State) (line : Nat) :
    (s.restoreStale line).pod = s.pod ∧ (s.restoreStale line).lostHeads = s.lostHeads ∧ (s.restoreStale line).runner = s.runner := by
  have hmark (c : Bool) (t : State) : (if c then (t.setPoison line).setPoison (line + 64) else t).pod = t.pod
      ∧ (if c then (t.setPoison line).setPoison (line + 64) else t).lostHeads = t.lostHeads
      ∧ (if c then (t.setPoison line).setPoison (line + 64) else t).runner = t.runner := by
    cases c <;> exact ⟨rfl, rfl, rfl⟩
  unfold State.restoreStale
  split
  · exact ⟨rfl, rfl, rfl⟩
  next x _ => exact hmark x.poison ((s.clearPoison line).clearPoison (line + 64))

@[simp] theorem State.returnLine_links (s : State) (l : L2Line) :
    (s.returnLine l).pod = s.pod ∧ (s.returnLine l).lostHeads = s.lostHeads ∧ (s.returnLine l).runner = s.runner := by
  unfold State.returnLine
  split <;> simp

@[simp] theorem State.l2Evict_links (s : State) (l : L2Line) :
    (s.l2Evict l).pod = s.pod ∧ (s.l2Evict l).lostHeads = s.lostHeads ∧ (s.l2Evict l).runner = s.runner := by
  grind [State.l2Evict, State.rowAccess_links, State.charge_links, State.wakeLine_links, State.restoreStale_links, State.returnLine_links,
  State.askModule_links, State.setPerm_links]

@[simp] theorem State.l2Place_links (s : State) (die key asked : Nat) (st : LineState) :
    (s.l2Place die key asked st).pod = s.pod ∧ (s.l2Place die key asked st).lostHeads = s.lostHeads
      ∧ (s.l2Place die key asked st).runner = s.runner := by
  grind [State.l2Place, State.fresh_links, State.l2Evict_links]

@[simp] theorem State.recallAll_links (s : State) (line : Nat) :
    (s.recallAll line).pod = s.pod ∧ (s.recallAll line).lostHeads = s.lostHeads ∧ (s.recallAll line).runner = s.runner :=
  foldl_links State.l2Evict_links _ _

@[simp] theorem State.directoryRoom_links (s : State) (line : Nat) :
    (s.directoryRoom line).1.pod = s.pod ∧ (s.directoryRoom line).1.lostHeads = s.lostHeads
      ∧ (s.directoryRoom line).1.runner = s.runner := by
  grind [State.directoryRoom, State.fresh_links, State.recallAll_links]

@[simp] theorem State.filled_links (s : State) (die key : Nat) :
    (s.filled die key).pod = s.pod ∧ (s.filled die key).lostHeads = s.lostHeads ∧ (s.filled die key).runner = s.runner := ⟨rfl, rfl, rfl⟩

@[simp] theorem State.dirRead_links (s : State) (die key part : Nat) :
    (s.dirRead die key part).pod = s.pod ∧ (s.dirRead die key part).lostHeads = s.lostHeads
      ∧ (s.dirRead die key part).runner = s.runner := by
  grind [State.dirRead, State.modL2_links, State.chargeFetch_links, State.l2Place_links]

@[simp] theorem State.dirOwn_links (s : State) (die key part : Nat) :
    (s.dirOwn die key part).pod = s.pod ∧ (s.dirOwn die key part).lostHeads = s.lostHeads
      ∧ (s.dirOwn die key part).runner = s.runner := by
  grind [State.dirOwn, State.chargeFetch_links, State.wakeLine_links, State.modL2_links, State.l2Place_links]

@[simp] theorem State.dropCopies_links (s : State) (line : Nat) :
    (s.dropCopies line).pod = s.pod ∧ (s.dropCopies line).lostHeads = s.lostHeads
      ∧ (s.dropCopies line).runner = s.runner := ⟨rfl, rfl, rfl⟩

@[simp] theorem State.directory_links (s : State) (die key part : Nat) (own : Bool) :
    (s.directory die key part own).1.pod = s.pod ∧ (s.directory die key part own).1.lostHeads = s.lostHeads
      ∧ (s.directory die key part own).1.runner = s.runner := by
  grind [State.directory, State.permitted_links, State.filled_links, State.directoryRoom_links, State.dirOwn_links, State.dirRead_links]

@[simp] theorem State.l2Store_links (s : State) (die key : Nat) (bs : List Byte) (mask : Lanes) :
    (s.l2Store die key bs mask).pod = s.pod ∧ (s.l2Store die key bs mask).lostHeads = s.lostHeads
      ∧ (s.l2Store die key bs mask).runner = s.runner := by
  unfold State.l2Store
  split <;> simp

@[simp] theorem State.writePast_links (s : State) (die part line : Nat) (ws : List (Nat × List Byte × Lanes)) (poison : Bool) :
    (s.writePast die part line ws poison).1.pod = s.pod ∧ (s.writePast die part line ws poison).1.lostHeads = s.lostHeads
      ∧ (s.writePast die part line ws poison).1.runner = s.runner := by
  have hput (away : Nat → Bool) (t : State) (x : Nat × List Byte × Lanes) :
      let u := if away x.1 then t.logAway part .none x.1 1
        else
          let t1 := if x.2.2 = allLanes then t.clearPoison x.1 else t
          let t2 : State := { t1 with mem := t1.mem.writeMasked x.1 x.2.1 x.2.2 }
          if poison then t2.setPoison x.1 else t2
      u.pod = t.pod ∧ u.lostHeads = t.lostHeads ∧ u.runner = t.runner := by
    dsimp only
    split
    · exact State.logAway_links _ _ _ _ _
    · split <;> split <;> exact ⟨rfl, rfl, rfl⟩
  obtain ⟨hp1, hl1, hr1⟩ := State.permitted_links s die part line true
  unfold State.writePast
  split
  · exact ⟨rfl, rfl, rfl⟩
  · dsimp only
    split
    · exact ⟨hp1, hl1, hr1⟩
    · generalize s.permitted die part line true = g at hp1 hl1 hr1 ⊢
      generalize hs1 : ((g.1.dropCopies line).wakeLine line).rowAccess line = s1
      have hp : s1.pod = s.pod := by simp [← hs1, hp1]
      have hl : s1.lostHeads = s.lostHeads := by simp [← hs1, hl1]
      have hr : s1.runner = s.runner := by simp [← hs1, hr1]
      have hs2 (c d : Bool) : let t := if c then (s1.setPerm line none).askModule die part line .writeInvalid else s1
          let u := if d then t.restoreStale line else t.cleanLine line
          u.pod = s.pod ∧ u.lostHeads = s.lostHeads ∧ u.runner = s.runner := by
        cases c <;> cases d <;> simp [hp, hl, hr]
      obtain ⟨hp2, hl2, hr2⟩ := hs2 (isModuleKey line) (s1.beyondModule part line 128)
      obtain ⟨hp3, hl3, hr3⟩ := foldl_links (hput fun k => s1.beyondModule part k 64) ws
        (let t := if isModuleKey line then (s1.setPerm line none).askModule die part line .writeInvalid else s1
          if s1.beyondModule part line 128 then t.restoreStale line else t.cleanLine line)
      exact ⟨hp3.trans hp2, hl3.trans hl2, hr3.trans hr2⟩

@[simp] theorem State.l2Write_links (s : State) (die part key : Nat) (bs : List Byte) (mask : Lanes) (poison noAlloc : Bool) :
    (s.l2Write die part key bs mask poison noAlloc).1.pod = s.pod
      ∧ (s.l2Write die part key bs mask poison noAlloc).1.lostHeads = s.lostHeads
      ∧ (s.l2Write die part key bs mask poison noAlloc).1.runner = s.runner := by
  have hmark (t : State) (sec : Nat) : (if poison then t.setPoison sec else t).pod = t.pod
      ∧ (if poison then t.setPoison sec else t).lostHeads = t.lostHeads ∧ (if poison then t.setPoison sec else t).runner = t.runner := by
    split <;> exact ⟨rfl, rfl, rfl⟩
  grind [State.l2Write, State.logAway_links, State.l2Store_links, State.writePast_links, State.directory_links]

@[simp] theorem State.l1Set_links (s : State) (l : L1Line) :
    (s.l1Set l).pod = s.pod ∧ (s.l1Set l).lostHeads = s.lostHeads ∧ (s.l1Set l).runner = s.runner := ⟨rfl, rfl, rfl⟩

@[simp] theorem State.l1Touch_links (s : State) (l : L1Line) (nt : Bool) :
    (s.l1Touch l nt).pod = s.pod ∧ (s.l1Touch l nt).lostHeads = s.lostHeads ∧ (s.l1Touch l nt).runner = s.runner := ⟨rfl, rfl, rfl⟩

@[simp] theorem State.writeBackSector_links (s : State) (quad line : Nat) (upper : Bool) :
    (s.writeBackSector quad line upper).1.pod = s.pod ∧ (s.writeBackSector quad line upper).1.lostHeads = s.lostHeads
      ∧ (s.writeBackSector quad line upper).1.runner = s.runner := by
  grind [State.writeBackSector, State.l2Write_links, State.l1Set_links]

@[simp] theorem State.writeBackLine_links (s : State) (quad line : Nat) :
    (s.writeBackLine quad line).1.pod = s.pod ∧ (s.writeBackLine quad line).1.lostHeads = s.lostHeads
      ∧ (s.writeBackLine quad line).1.runner = s.runner := by
  grind [State.writeBackLine, gotAll_links, State.writeBackSector_links]

@[simp] theorem State.l1Drop_links (s : State) (quad line : Nat) :
    (s.l1Drop quad line).pod = s.pod ∧ (s.l1Drop quad line).lostHeads = s.lostHeads
      ∧ (s.l1Drop quad line).runner = s.runner := ⟨rfl, rfl, rfl⟩

@[simp] theorem State.l1Room_links (s : State) (quad line : Nat) :
    (s.l1Room quad line).1.pod = s.pod ∧ (s.l1Room quad line).1.lostHeads = s.lostHeads ∧ (s.l1Room quad line).1.runner = s.runner := by
  grind [State.l1Room, State.writeBackLine_links, State.l1Drop_links]

@[simp] theorem State.l1Alloc_links (s : State) (quad line part : Nat) :
    (s.l1Alloc quad line part).1.pod = s.pod ∧ (s.l1Alloc quad line part).1.lostHeads = s.lostHeads
      ∧ (s.l1Alloc quad line part).1.runner = s.runner := by
  grind [State.l1Alloc, State.l1Room_links]

@[simp] theorem State.l1Store_links (s : State) (quad sec part : Nat) (bs : List Byte) (mask : Lanes) (nt : Bool) :
    (s.l1Store quad sec part bs mask nt).1.pod = s.pod ∧ (s.l1Store quad sec part bs mask nt).1.lostHeads = s.lostHeads
      ∧ (s.l1Store quad sec part bs mask nt).1.runner = s.runner := by
  grind [State.l1Store, State.l1Alloc_links, State.l1Touch_links]

@[simp] theorem State.wqMerge_links (s : State) (e : WqEntry) :
    (s.wqMerge e).1.pod = s.pod ∧ (s.wqMerge e).1.lostHeads = s.lostHeads ∧ (s.wqMerge e).1.runner = s.runner := by
  grind [State.wqMerge, State.l1Store_links]

@[simp] theorem State.wqDrain_links (s : State) (quad : Nat) :
    (s.wqDrain quad).1.pod = s.pod ∧ (s.wqDrain quad).1.lostHeads = s.lostHeads ∧ (s.wqDrain quad).1.runner = s.runner := by
  grind [State.wqDrain, gotAll_links, State.wqMerge_links]

@[simp] theorem State.writeBackAll_links (s : State) (quad : Nat) :
    (s.writeBackAll quad).1.pod = s.pod ∧ (s.writeBackAll quad).1.lostHeads = s.lostHeads
      ∧ (s.writeBackAll quad).1.runner = s.runner := by
  grind [State.writeBackAll, gotAll_links, State.writeBackLine_links]

@[simp] theorem State.releaseQuad_links (s : State) (quad : Nat) :
    (s.releaseQuad quad).1.pod = s.pod ∧ (s.releaseQuad quad).1.lostHeads = s.lostHeads ∧ (s.releaseQuad quad).1.runner = s.runner := by
  grind [State.releaseQuad, State.wqDrain_links, State.writeBackAll_links]

@[simp] theorem State.acquireQuad_links (s : State) (quad : Nat) :
    (s.acquireQuad quad).1.pod = s.pod ∧ (s.acquireQuad quad).1.lostHeads = s.lostHeads ∧ (s.acquireQuad quad).1.runner = s.runner := by
  grind [State.acquireQuad, State.releaseQuad_links]

@[simp] theorem State.modWave_links (s : State) (seq wid : Nat) (f : Wave → Wave) :
    (s.modWave seq wid f).pod = s.pod ∧ (s.modWave seq wid f).lostHeads = s.lostHeads
      ∧ (s.modWave seq wid f).runner = s.runner := ⟨rfl, rfl, rfl⟩

@[simp] theorem State.acquireAt_links (s : State) (w : Wave) (sc : Scope) :
    (s.acquireAt w sc).1.pod = s.pod ∧ (s.acquireAt w sc).1.lostHeads = s.lostHeads ∧ (s.acquireAt w sc).1.runner = s.runner := by
  unfold State.acquireAt
  split <;> simp

@[simp] theorem State.completeOp_links (s : State) (seq wid : Nat) (o : PendOp) :
    (s.completeOp seq wid o).pod = s.pod ∧ (s.completeOp seq wid o).lostHeads = s.lostHeads
      ∧ (s.completeOp seq wid o).runner = s.runner := by
  grind [State.completeOp, State.modWave_links, State.acquireAt_links]

@[simp] theorem State.endService_links (s : State) (w : Wave) (o : PendOp) (status value : Nat) (data : List Byte) :
    (s.endService w o status value data).pod = s.pod ∧ (s.endService w o status value data).lostHeads = s.lostHeads
      ∧ (s.endService w o status value data).runner = s.runner := by
  unfold State.endService
  split <;> simp

@[simp] theorem State.logRunner_links (s : State) (x : RTag) (status : Nat) :
    (s.logRunner x status).pod = s.pod ∧ (s.logRunner x status).lostHeads = s.lostHeads ∧ (s.logRunner x status).runner = s.runner := by
  grind [State.logRunner, State.logError_links]

@[simp] theorem State.dropWrites_links (s : State) (w : Wave) (o : PendOp) (m : Nat) :
    (s.dropWrites w o m).pod = s.pod ∧ (s.dropWrites w o m).lostHeads = s.lostHeads ∧ (s.dropWrites w o m).runner = s.runner := by
  have hl (ps : List OpPart) := foldl_links (f := fun (t : State) (q : OpPart) => t.logWave w q.va 9 15 q.act.kind false)
    (fun _ _ => State.logWave_links _ _ _ _ _ _ _) ps s
  unfold State.dropWrites
  dsimp only
  split
  · exact ⟨rfl, rfl, rfl⟩
  · simp [hl]

@[simp] theorem State.loseAccesses_links (s : State) (m : Nat) :
    (s.loseAccesses m).pod = s.pod ∧ (s.loseAccesses m).lostHeads = s.lostHeads ∧ (s.loseAccesses m).runner = s.runner :=
  foldl_links (f := fun (t : State) (w : Wave) => w.pend.foldl (fun (x : State) o => x.dropWrites w o m) t)
    (fun _ _ => foldl_links (fun _ _ => State.dropWrites_links _ _ _ _) _ _) _ _

@[simp] theorem State.loseService_links (s : State) (w : Wave) (o : PendOp) :
    (s.loseService w o).pod = s.pod ∧ (s.loseService w o).lostHeads = s.lostHeads ∧ (s.loseService w o).runner = s.runner := by
  simp [State.loseService]

@[simp] theorem State.logLost_links (s : State) (part line : Nat) :
    (s.logLost part line).pod = s.pod ∧ (s.logLost part line).lostHeads = s.lostHeads ∧ (s.logLost part line).runner = s.runner := by
  simp [State.logLost]

@[simp] theorem State.loseLines_links (s : State) (m lead : Nat) :
    (s.loseLines m lead).pod = s.pod ∧ (s.loseLines m lead).lostHeads = s.lostHeads ∧ (s.loseLines m lead).runner = s.runner := by
  have h1 (ls : List L2Line) := foldl_links (f := fun (t : State) (l : L2Line) => t.logLost l.tag l.key)
    (fun _ _ => State.logLost_links _ _ _) ls s
  have h2 (xs : List StaleLine) (t : State) := foldl_links (f := fun (t : State) (x : StaleLine) => t.restoreStale x.key)
    (fun _ _ => State.restoreStale_links _ _) xs t
  have h3 (ls : List Nat) (t : State) := foldl_links (f := State.wakeLine) (fun _ _ => ⟨rfl, rfl, rfl⟩) ls t
  simp [State.loseLines, h1, h2, h3]

@[simp] theorem State.loseDests_links (s : State) (m : Nat) :
    (s.loseDests m).pod = s.pod ∧ (s.loseDests m).lostHeads = s.lostHeads ∧ (s.loseDests m).runner = s.runner :=
  foldl_links (f := fun (t : State) (x : Nat × Nat) => t.logLost x.2 x.1) (fun _ _ => State.logLost_links _ _ _) _ _

/-! ### What sending packets leaves -/

/-- What everything that follows a change of routes leaves of a state: the pod, the lost head groups, the incoming queues, the L2s
with their permissions and requests; no message goes, and a peer that is dead to every partition stays so. -/
structure Rerouted (s t : State) : Prop where
  pod : t.pod = s.pod
  lostHeads : t.lostHeads = s.lostHeads
  queues : t.runner.queues = s.runner.queues
  l2 : t.l2 = s.l2
  perms : t.perms = s.perms
  memReqs : t.memReqs = s.memReqs
  agenda : ∀ c ∈ s.agenda, c ∈ t.agenda
  dead : ∀ g, (∀ x ∈ s.parts, x.isDead g = true) → ∀ x ∈ t.parts, x.isDead g = true

/-- What sending packets leaves beside that: the contexts; and nothing leaves the send buffer. -/
structure Sends (s t : State) : Prop extends Rerouted s t where
  ctxs : t.runner.ctxs = s.runner.ctxs
  sending : ∀ z ∈ s.runner.sending, z ∈ t.runner.sending

theorem Rerouted.refl (s : State) : Rerouted s s := ⟨rfl, rfl, rfl, rfl, rfl, rfl, fun _ h => h, fun _ h => h⟩

theorem Rerouted.trans {s t u : State} (h : Rerouted s t) (h' : Rerouted t u) : Rerouted s u where
  pod := h'.pod.trans h.pod
  lostHeads := h'.lostHeads.trans h.lostHeads
  queues := h'.queues.trans h.queues
  l2 := h'.l2.trans h.l2
  perms := h'.perms.trans h.perms
  memReqs := h'.memReqs.trans h.memReqs
  agenda := fun c hc => h'.agenda c (h.agenda c hc)
  dead := fun g hg => h'.dead g (h.dead g hg)

theorem Sends.refl (s : State) : Sends s s := ⟨Rerouted.refl s, rfl, fun _ h => h⟩

theorem Sends.trans {s t u : State} (h : Sends s t) (h' : Sends t u) : Sends s u :=
  ⟨h.toRerouted.trans h'.toRerouted, h'.ctxs.trans h.ctxs, fun z hz => h'.sending z (h.sending z hz)⟩

theorem foldl_sends {α : Type} {f : State → α → State} (hf : ∀ t x, Sends t (f t x)) :
    ∀ (l : List α) (s : State), Sends s (l.foldl f s)
  | [], s => Sends.refl s
  | x :: xs, s => (hf s x).trans (foldl_sends hf xs (f s x))

theorem sends_ite {c : Prop} [Decidable c] {s a b : State} (ha : Sends s a) (hb : Sends s b) : Sends s (if c then a else b) := by
  split
  · exact ha
  · exact hb

theorem State.modWave_sends (s : State) (seq wid : Nat) (f : Wave → Wave) : Sends s (s.modWave seq wid f) :=
  ⟨⟨rfl, rfl, rfl, rfl, rfl, rfl, fun _ h => h, fun _ h => h⟩, rfl, fun _ h => h⟩

theorem State.setWave_sends (s : State) (w : Wave) : Sends s (s.setWave w) :=
  ⟨⟨rfl, rfl, rfl, rfl, rfl, rfl, fun _ h => h, fun _ h => h⟩, rfl, fun _ h => h⟩

theorem State.modPart_sends (s : State) (p : Nat) {f : Part → Part} (hf : ∀ x, (f x).dead = x.dead) : Sends s (s.modPart p f) := by
  refine ⟨⟨rfl, rfl, rfl, rfl, rfl, rfl, fun _ h => h, fun g h x hx => ?_⟩, rfl, fun _ h => h⟩
  obtain ⟨y, hy, rfl⟩ := List.mem_map.mp hx
  have hy' := h y hy
  split
  · simpa [Part.isDead, hf] using hy'
  · exact hy'

theorem State.resave_sends (s : State) (p : Nat) : Sends s (s.resave p) := s.modPart_sends p fun _ => rfl

theorem State.postEvent_sends (s : State) (p type seq : Nat) (body : List Byte) : Sends s (s.postEvent p type seq body) := by
  refine s.modPart_sends p fun x => ?_
  dsimp only
  split
  · rfl
  · rfl

theorem State.lateError_sends (s : State) (seq wid cause sub addr : Nat) : Sends s (s.lateError seq wid cause sub addr) := by
  unfold State.lateError
  split
  · exact Sends.refl s
  · exact sends_ite (sends_ite ((State.setWave_sends _ _).trans (State.resave_sends _ _)) (State.setWave_sends _ _))
      (State.postEvent_sends _ _ _ _ _)

theorem State.failRequest_sends (s : State) (u : Unacked) (cause sub : Nat) : Sends s (s.failRequest u cause sub) :=
  ((State.modWave_sends _ _ _ _).trans (State.modWave_sends _ _ _ _)).trans (State.lateError_sends _ _ _ _ _ _)

theorem State.charge_sends (s : State) (p code n : Nat) : Sends s (s.charge p code n) := by
  unfold State.charge
  split
  · exact Sends.refl s
  · exact sends_ite (Sends.refl s) ⟨⟨rfl, rfl, rfl, rfl, rfl, rfl, fun _ h => h, fun _ h => h⟩, rfl, fun _ h => h⟩

theorem State.chargePod_sends (s : State) (code n : Nat) : Sends s (s.chargePod code n) := by
  unfold State.chargePod
  split
  · exact Sends.refl s
  · exact State.charge_sends _ _ _ _

theorem State.chargeFlits_sends (s : State) (sent : Bool) (bytes : Nat) : Sends s (s.chargeFlits sent bytes) :=
  sends_ite (State.chargePod_sends _ _ _) (Sends.refl s)

theorem State.runnerAsk_sends (s : State) (peer : Nat) (get : Bool) (payload : List Byte) :
    Sends s (s.runnerAsk peer get payload) := by
  unfold State.runnerAsk
  dsimp only
  split
  · exact Sends.refl s
  · refine Sends.trans ?_ ((State.chargePod_sends _ _ _).trans (State.chargeFlits_sends _ _ _))
    exact ⟨⟨rfl, rfl, rfl, rfl, rfl, rfl, fun _ h => List.mem_append_left _ h, fun _ h => h⟩, rfl, fun _ h => h⟩

theorem State.pump_sends (s : State) (via : Nat) : Sends s (s.pump via) := by
  refine sends_ite (Sends.refl s) ?_
  split
  · exact Sends.refl s
  · exact sends_ite (Sends.refl s) (State.runnerAsk_sends _ _ _ _)

theorem State.enqueue_sends (s : State) (via : Nat) (p : Packet) : Sends s (s.enqueue via p) := by
  unfold State.enqueue
  refine Sends.trans ?_ (State.pump_sends _ via)
  exact ⟨⟨rfl, rfl, rfl, rfl, rfl, rfl, fun _ h => h, fun _ h => h⟩, rfl, fun _ h => List.mem_append_left _ h⟩

/-- A packet put into the send buffer stands there. -/
theorem State.enqueue_stands (s : State) (via : Nat) (p : Packet) :
    ∃ z ∈ (s.enqueue via p).runner.sending, z.via = via ∧ z.packet = p :=
  ⟨_, (State.pump_sends _ via).sending _ (List.mem_append_right _ List.mem_cons_self), rfl, rfl⟩

theorem State.putPacket_sends (s : State) (peer : Nat) (p : Packet) : Sends s (s.putPacket peer p) := by
  unfold State.putPacket
  split
  · exact Sends.refl s
  · exact State.enqueue_sends _ _ _

theorem State.forwardPacket_sends (s : State) (p : Packet) : Sends s (s.forwardPacket p) := by
  unfold State.forwardPacket
  split
  · exact Sends.refl s
  · exact State.enqueue_sends _ _ _

theorem State.resendFrom_sends (s : State) (id : CtxId) (k n : Nat) : Sends s (s.resendFrom id k n) := by
  unfold State.resendFrom
  split
  · exact Sends.refl s
  · exact foldl_sends (fun t u => State.putPacket_sends t _ _) _ _

/-- One stream of a context sent again from its oldest unacknowledged packet. -/
def State.resendStream (c : Rctx) (s : State) (k : Nat) : State :=
  match (c.stream k).unacked.head? with
  | some u => s.resendFrom c.id k u.packet.seq
  | none => s

theorem State.resendStream_sends (c : Rctx) (s : State) (k : Nat) : Sends s (s.resendStream c k) := by
  unfold State.resendStream
  split
  · exact State.resendFrom_sends _ _ _ _
  · exact Sends.refl s

theorem State.resendPeer_eq (s : State) (peer : Nat) :
    s.resendPeer peer = s.runner.ctxs.foldl (fun (t : State) c =>
      if c.id.peer = peer then (List.range 4).foldl (State.resendStream c) t else t) s := rfl

theorem State.resendPeer_sends (s : State) (peer : Nat) : Sends s (s.resendPeer peer) :=
  foldl_sends (fun t c => sends_ite (foldl_sends (State.resendStream_sends c) _ t) (Sends.refl t)) _ _

/-! ### Routes -/

theorem State.routeTo_congr {s t : State} (hpod : t.pod = s.pod) (hlost : t.lostHeads = s.lostHeads) (g : Nat) :
    t.routeTo g = s.routeTo g := by
  have hhead (m x : Nat) : t.headUp m x = s.headUp m x := by simp [State.headUp, hpod, hlost]
  have hleg (x : Nat) : t.legUp x = s.legUp x := by simp [State.legUp, hpod, hhead]
  have hfar (x y : Nat) : t.farLegUp x y = s.farLegUp x y := by simp [State.farLegUp, hpod, hhead]
  simp [State.routeTo, hpod, hleg, hfar]

theorem Rerouted.routeTo {s t : State} (h : Rerouted s t) (g : Nat) : t.routeTo g = s.routeTo g :=
  State.routeTo_congr h.pod h.lostHeads g

/-- A leg over a module is up while its attachment and the peer's head group there are. -/
theorem State.legUp_of_shared {s : State} {m att g : Nat} (hs : s.pod.shared g = some m) (ha : s.pod.attOf m = some att) :
    s.legUp g = (s.pod.attUp att && s.headUp m g) := by
  simp [State.legUp, hs, ha]

theorem State.routeTo_of_legUp {s : State} {g : Nat} (h : s.legUp g = true) : s.routeTo g = some (g, false) := by
  simp [State.routeTo, h]

theorem State.routeTo_ne_direct {s : State} {g : Nat} (h : s.legUp g = false) : s.routeTo g ≠ some (g, false) := by
  simp [State.routeTo, h]

/-! ### A severed peer (03 R95) -/

/-- What is left of a peer when another one is severed: its contexts, and every packet in the send buffer that goes to it. -/
structure KeepsPeer (g : Nat) (s t : State) : Prop where
  ctxs : (t.runner.ctxs.filter fun c => c.id.peer = g) = s.runner.ctxs.filter fun c => c.id.peer = g
  sending : ∀ z ∈ s.runner.sending, z.packet.dst = g → z ∈ t.runner.sending

theorem KeepsPeer.refl (g : Nat) (s : State) : KeepsPeer g s s := ⟨rfl, fun _ h _ => h⟩

theorem KeepsPeer.trans {g : Nat} {s t u : State} (h : KeepsPeer g s t) (h' : KeepsPeer g t u) : KeepsPeer g s u :=
  ⟨h'.ctxs.trans h.ctxs, fun z hz hd => h'.sending z (h.sending z hz hd) hd⟩

theorem Sends.keepsPeer {s t : State} (h : Sends s t) (g : Nat) : KeepsPeer g s t :=
  ⟨by rw [h.ctxs], fun z hz _ => h.sending z hz⟩

theorem ctx?_eq_find_filter (s : State) (id : CtxId) :
    s.ctx? id = (s.runner.ctxs.filter fun c => c.id.peer = id.peer).find? fun c => c.id = id := by
  rw [List.find?_filter]
  refine List.find?_congr fun c _ => ?_
  by_cases h : c.id = id <;> simp [h]

theorem KeepsPeer.ctx? {s t : State} {id : CtxId} (h : KeepsPeer id.peer s t) : t.ctx? id = s.ctx? id := by
  rw [ctx?_eq_find_filter, ctx?_eq_find_filter, h.ctxs]

theorem KeepsPeer.mem_ctxs {g : Nat} {s t : State} (h : KeepsPeer g s t) {c : Rctx} (hc : c.id.peer = g) :
    c ∈ t.runner.ctxs ↔ c ∈ s.runner.ctxs := by
  have := congrArg (c ∈ ·) h.ctxs
  simpa [hc] using this

theorem mem_dropSending {f : Sending → Bool} {z : Sending} (hz : f z = false) :
    ∀ (busy : List Nat) {l : List Sending}, z ∈ l → z ∈ dropSending f busy l
  | busy, x :: xs, h => by
    unfold dropSending
    obtain rfl | h := List.mem_cons.mp h
    · split
      · exact List.mem_cons_self
      · rw [hz]
        exact List.mem_cons_self
    · split
      · exact List.mem_cons_of_mem _ (mem_dropSending hz _ h)
      · split
        · exact mem_dropSending hz _ h
        · exact List.mem_cons_of_mem _ (mem_dropSending hz _ h)

/-- A peer that is dead to every partition and whose streams are empty. -/
def Severed (g : Nat) (s : State) : Prop :=
  (∀ x ∈ s.parts, x.isDead g = true) ∧ ∀ c ∈ s.runner.ctxs, c.id.peer = g → ∀ y ∈ c.streams, y.unacked = [] ∧ y.waiting = []

theorem Severed.of_keeps {g : Nat} {s t : State} (h : Severed g s) (hr : Rerouted s t) (hk : KeepsPeer g s t) : Severed g t :=
  ⟨hr.dead g h.1, fun c hc hg => h.2 c ((hk.mem_ctxs hg).mp hc) hg⟩

/-- A context without the requests of a peer that is dead. -/
def Rctx.struck (c : Rctx) (peer : Nat) : Rctx :=
  if c.id.peer = peer then { c with streams := c.streams.map fun t => { t with unacked := [], waiting := [], held := false } } else c

/-- A peer struck dead, before its requests fail. -/
def State.strike (s : State) (peer : Nat) : State :=
  State.modRunner { s with parts := s.parts.map fun p => { p with dead := p.dead ||| 2 ^ peer } } fun r =>
    { r with
      ctxs := r.ctxs.map fun c => c.struck peer,
      sending := dropSending (fun x => x.packet.dst = peer) r.putting r.sending }

theorem State.strike_rerouted (s : State) (peer : Nat) : Rerouted s (s.strike peer) := by
  refine ⟨rfl, rfl, rfl, rfl, rfl, rfl, fun _ h => h, fun g h x hx => ?_⟩
  obtain ⟨y, hy, rfl⟩ := List.mem_map.mp hx
  simp [Part.isDead, Nat.testBit_or, show y.dead.testBit g = true from h y hy]

theorem State.strike_keepsPeer (s : State) {g peer : Nat} (h : g ≠ peer) : KeepsPeer g s (s.strike peer) := by
  refine ⟨?_, fun z hz hd => mem_dropSending (by simpa [hd] using h) _ hz⟩
  have hid (c : Rctx) : (c.struck peer).id = c.id := by
    unfold Rctx.struck
    split <;> rfl
  change (s.runner.ctxs.map fun c => c.struck peer).filter _ = _
  rw [List.filter_map,
    show ((fun c : Rctx => decide (c.id.peer = g)) ∘ fun c : Rctx => c.struck peer) = fun c => decide (c.id.peer = g) from
      funext fun c => by simp [hid]]
  refine (List.map_congr_left fun c hc => ?_).trans (List.map_id _)
  have hp : c.id.peer = g := by simpa using (List.mem_filter.mp hc).2
  simp [Rctx.struck, hp, h]

theorem State.strike_severed (s : State) (peer : Nat) : Severed peer (s.strike peer) := by
  refine ⟨fun x hx => ?_, fun c hc hp y hy => ?_⟩
  · obtain ⟨p, -, rfl⟩ := List.mem_map.mp hx
    simp [Part.isDead, Nat.testBit_or, Nat.testBit_two_pow_self]
  · obtain ⟨d, -, rfl⟩ := List.mem_map.mp hc
    by_cases hd : d.id.peer = peer
    · rw [Rctx.struck, if_pos hd] at hy
      obtain ⟨t, -, rfl⟩ := List.mem_map.mp hy
      exact ⟨rfl, rfl⟩
    · rw [Rctx.struck, if_neg hd] at hp
      exact absurd hp hd

theorem State.peerDead_sends (s : State) (peer sub : Nat) : Sends (s.strike peer) (s.peerDead peer sub) :=
  foldl_sends (fun t u => State.failRequest_sends t u 11 sub) _ _

/-- The send buffer without what waits for a peer. -/
def State.unstick (s : State) (peer : Nat) : State :=
  s.modRunner fun r => { r with sending := dropSending (fun x => x.packet.dst = peer) s.runner.putting s.runner.sending }

theorem State.unstick_rerouted (s : State) (peer : Nat) : Rerouted s (s.unstick peer) :=
  ⟨rfl, rfl, rfl, rfl, rfl, rfl, fun _ h => h, fun _ h => h⟩

theorem State.unstick_keepsPeer (s : State) {g peer : Nat} (h : g ≠ peer) : KeepsPeer g s (s.unstick peer) :=
  ⟨rfl, fun _ hz hd => mem_dropSending (by simpa [hd] using h) _ hz⟩

/-- What waited for a severed peer, along the new route. -/
def State.requeue (s : State) (peer : Nat) : State :=
  let kept := dropSending (fun x => x.packet.dst = peer) s.runner.putting s.runner.sending
  let stuck := s.runner.sending.filter fun x => decide (x.packet.dst = peer) && !kept.contains x
  (stuck.filter fun x => !s.resent x.packet).foldl (fun (t : State) x =>
    if x.packet.src = t.pod.self then t.putPacket peer x.packet else t.forwardPacket x.packet) (s.unstick peer)

theorem State.requeue_sends (s : State) (peer : Nat) : Sends (s.unstick peer) (s.requeue peer) :=
  foldl_sends (fun t _ => sends_ite (State.putPacket_sends t _ _) (State.forwardPacket_sends t _)) _ _

theorem State.sever_of_none {s : State} {g : Nat} (h : s.routeTo g = none) : s.sever g = s.peerDead g 0 := by
  simp [State.sever, h]

theorem State.sever_of_some {s : State} {g : Nat} {r : Nat × Bool} (h : s.routeTo g = some r) :
    s.sever g = (s.requeue g).resendPeer g := by
  rw [State.sever, h]
  rfl

theorem State.sever_rerouted (s : State) (g : Nat) : Rerouted s (s.sever g) := by
  cases h : s.routeTo g with
  | none => rw [State.sever_of_none h]; exact (s.strike_rerouted g).trans (s.peerDead_sends g 0).toRerouted
  | some r =>
    rw [State.sever_of_some h]
    exact ((s.unstick_rerouted g).trans (s.requeue_sends g).toRerouted).trans (State.resendPeer_sends _ g).toRerouted

theorem State.sever_keepsPeer (s : State) {g peer : Nat} (h : g ≠ peer) : KeepsPeer g s (s.sever peer) := by
  cases hr : s.routeTo peer with
  | none => rw [State.sever_of_none hr]; exact (s.strike_keepsPeer h).trans ((s.peerDead_sends peer 0).keepsPeer g)
  | some r =>
    rw [State.sever_of_some hr]
    exact ((s.unstick_keepsPeer h).trans ((s.requeue_sends peer).keepsPeer g)).trans ((State.resendPeer_sends _ peer).keepsPeer g)

theorem State.sever_severed {s : State} {g : Nat} (h : s.routeTo g = none) : Severed g (s.sever g) := by
  rw [State.sever_of_none h]
  have hs := s.peerDead_sends g 0
  exact (s.strike_severed g).of_keeps hs.toRerouted (hs.keepsPeer g)

theorem State.sever_ctxs {s : State} {g : Nat} {r : Nat × Bool} (h : s.routeTo g = some r) : (s.sever g).runner.ctxs = s.runner.ctxs := by
  rw [State.sever_of_some h, (State.resendPeer_sends _ g).ctxs, (s.requeue_sends g).ctxs]
  rfl

/-! ### Folds that reach something -/

theorem foldl_keeps {α : Type} {f : State → α → State} {I P : State → Prop} (hI : ∀ t x, I t → I (f t x))
    (hP : ∀ t x, I t → P t → P (f t x)) (l : List α) : ∀ {s : State}, I s → P s → P (l.foldl f s) := by
  induction l with
  | nil => exact fun _ h => h
  | cons x xs ih => exact fun hi hp => ih (hI _ x hi) (hP _ x hi hp)

/-- A fold that keeps an invariant and, from where it holds, reaches at one element what every element keeps, ends with it. -/
theorem foldl_reaches {α : Type} {f : State → α → State} {I P : State → Prop} {a : α} (hI : ∀ t x, I t → I (f t x))
    (hP : ∀ t x, I t → P t → P (f t x)) (ha : ∀ t, I t → P (f t a)) {l : List α} (hmem : a ∈ l) :
    ∀ {s : State}, I s → P (l.foldl f s) := by
  induction l with
  | nil => exact absurd hmem List.not_mem_nil
  | cons x xs ih =>
    intro s hs
    obtain rfl | h := List.mem_cons.mp hmem
    · exact foldl_keeps hI hP xs (hI s a hs) (ha s hs)
    · exact ih h (hI s x hs)

/-- A packet with this header stands in the send buffer for a route. -/
def Stands (via : Nat) (p : Packet) (s : State) : Prop := ∃ z ∈ s.runner.sending, z.via = via ∧ z.packet = p

theorem Stands.of_sends {via : Nat} {p : Packet} {s t : State} (h : Stands via p s) (hs : Sends s t) : Stands via p t := by
  obtain ⟨z, hz, hv⟩ := h
  exact ⟨z, hs.sending z hz, hv⟩

theorem Stands.of_keeps {via g : Nat} {p : Packet} {s t : State} (h : Stands via p s) (hd : p.dst = g) (hk : KeepsPeer g s t) :
    Stands via p t := by
  obtain ⟨z, hz, hv, hp⟩ := h
  exact ⟨z, hk.sending z hz (by rw [hp, hd]), hv, hp⟩

theorem State.putPacket_stands {s : State} {peer via : Nat} {fwd : Bool} (h : s.routeTo peer = some (via, fwd)) (p : Packet) :
    Stands via { p with forwarded := fwd } (s.putPacket peer p) := by
  rw [State.putPacket, h]
  exact s.enqueue_stands via _

theorem seqBefore_self (n : Nat) : seqBefore n n = false := by
  have h : (n + 2 ^ 16 - n) % 2 ^ 16 = 0 := by rw [Nat.add_sub_cancel_left, Nat.mod_self]
  simp only [seqBefore, h]
  rfl

/-- A stream's oldest unacknowledged packet is among those sent again. -/
theorem State.resendStream_stands {s : State} {c : Rctx} {k via : Nat} {fwd : Bool} {y : Unacked} (hc : s.ctx? c.id = some c)
    (hr : s.routeTo c.id.peer = some (via, fwd)) (hy : (c.stream k).unacked.head? = some y) :
    Stands via { y.packet with forwarded := fwd } (s.resendStream c k) := by
  rw [State.resendStream, hy]
  dsimp only
  rw [State.resendFrom, hc]
  have hmem : y ∈ (c.stream k).unacked.filter fun u => !seqBefore u.packet.seq y.packet.seq :=
    List.mem_filter.mpr ⟨List.mem_of_mem_head? hy, by simp [seqBefore_self]⟩
  exact foldl_reaches (I := Rerouted s) (fun t u h => h.trans (State.putPacket_sends t _ _).toRerouted)
    (fun t u _ h => h.of_sends (State.putPacket_sends t _ _)) (fun t h => State.putPacket_stands ((h.routeTo _).trans hr) _) hmem
    (Rerouted.refl s)

theorem State.resendPeer_stands {s : State} {c : Rctx} {k via : Nat} {fwd : Bool} {y : Unacked} (hc : s.ctx? c.id = some c)
    (hk : k < 4) (hr : s.routeTo c.id.peer = some (via, fwd))
    (hy : (c.stream k).unacked.head? = some y) : Stands via { y.packet with forwarded := fwd } (s.resendPeer c.id.peer) := by
  rw [State.resendPeer_eq]
  have hone (t : State) (ht : Sends s t) :
      Stands via { y.packet with forwarded := fwd } ((List.range 4).foldl (State.resendStream c) t) :=
    foldl_reaches (I := Sends s) (fun u j h => h.trans (State.resendStream_sends c u j))
      (fun u j _ h => h.of_sends (State.resendStream_sends c u j))
      (fun u h => State.resendStream_stands (by rw [State.ctx?, h.ctxs]; exact hc) ((h.routeTo _).trans hr) hy)
      (List.mem_range.mpr hk) ht
  have hstep (t : State) (d : Rctx) :
      Sends t (if d.id.peer = c.id.peer then (List.range 4).foldl (State.resendStream d) t else t) :=
    sends_ite (foldl_sends (State.resendStream_sends d) _ t) (Sends.refl t)
  exact foldl_reaches (I := Sends s) (fun t d h => h.trans (hstep t d)) (fun t d _ h => h.of_sends (hstep t d))
    (fun t h => by rw [if_pos rfl]; exact hone t h) (List.mem_of_find?_eq_some hc) (Sends.refl s)

theorem State.sever_stands {s : State} {c : Rctx} {k via : Nat} {fwd : Bool} {y : Unacked} (hc : s.ctx? c.id = some c)
    (hk : k < 4) (hr : s.routeTo c.id.peer = some (via, fwd))
    (hy : (c.stream k).unacked.head? = some y) : Stands via { y.packet with forwarded := fwd } (s.sever c.id.peer) := by
  have hq := s.requeue_sends c.id.peer
  have hctxs : (s.requeue c.id.peer).runner.ctxs = s.runner.ctxs := hq.ctxs
  rw [State.sever_of_some hr]
  refine State.resendPeer_stands (by rw [State.ctx?, hctxs]; exact hc) hk ?_ hy
  rw [hq.routeTo, (s.unstick_rerouted _).routeTo, hr]

/-! ### A change of routes (03 R95, R96) -/

/-- One peer's turn after a change of routes. -/
def State.rerouteTurn (s before t : State) (g : Nat) : State :=
  if g = t.pod.self || s.routeTo g = before.routeTo g then t
  else match s.routeTo g with
    | some (_, false) => t
    | _ => t.sever g

theorem State.reroute_eq (s before : State) : s.reroute before = (List.range s.pod.size).foldl (s.rerouteTurn before) s := rfl

theorem State.rerouteTurn_or (s before t : State) (g : Nat) :
    s.rerouteTurn before t g = t ∨ s.rerouteTurn before t g = t.sever g := by
  unfold State.rerouteTurn
  split
  · exact .inl rfl
  · split
    · exact .inl rfl
    · exact .inr rfl

theorem State.rerouteTurn_sever {s before t : State} {g : Nat} (hself : g ≠ t.pod.self) (hne : s.routeTo g ≠ before.routeTo g)
    (hd : ∀ via, s.routeTo g ≠ some (via, false)) : s.rerouteTurn before t g = t.sever g := by
  unfold State.rerouteTurn
  rw [if_neg (by simp [hself, hne])]
  split
  next via h => exact absurd h (hd via)
  · rfl

theorem State.rerouteTurn_rerouted (s before t : State) (g : Nat) : Rerouted t (s.rerouteTurn before t g) := by
  obtain h | h := s.rerouteTurn_or before t g
  · rw [h]; exact Rerouted.refl t
  · rw [h]; exact t.sever_rerouted g

theorem State.rerouteTurn_keepsPeer (s before t : State) {g peer : Nat} (hne : g ≠ peer) :
    KeepsPeer g t (s.rerouteTurn before t peer) := by
  obtain h | h := s.rerouteTurn_or before t peer
  · rw [h]; exact KeepsPeer.refl g t
  · rw [h]; exact t.sever_keepsPeer hne

theorem foldl_rerouteTurn (s before : State) : ∀ (l : List Nat) (t : State), Rerouted t (l.foldl (s.rerouteTurn before) t)
  | [], t => Rerouted.refl t
  | g :: l, t => (s.rerouteTurn_rerouted before t g).trans (foldl_rerouteTurn s before l _)

theorem State.reroute_rerouted (s before : State) : Rerouted s (s.reroute before) := foldl_rerouteTurn s before _ s

/-- A peer whose route is gone is severed. -/
theorem State.reroute_severed {s before : State} {g : Nat} (hg : g < s.pod.size) (hself : g ≠ s.pod.self)
    (hnone : s.routeTo g = none) (hne : s.routeTo g ≠ before.routeTo g) : Severed g (s.reroute before) := by
  have hturn (t : State) (ht : Rerouted s t) : Severed g (s.rerouteTurn before t g) := by
    rw [State.rerouteTurn_sever (ht.pod ▸ hself) hne (by simp [hnone])]
    exact State.sever_severed ((ht.routeTo g).trans hnone)
  refine foldl_reaches (I := Rerouted s) (a := g) (fun t x h => h.trans (s.rerouteTurn_rerouted before t x)) (fun t x ht h => ?_) hturn
    (List.mem_range.mpr hg) (Rerouted.refl s)
  by_cases hx : g = x
  · exact hx ▸ hturn t ht
  · exact h.of_keeps (s.rerouteTurn_rerouted before t x) (s.rerouteTurn_keepsPeer before t hx)

/-- A turn leaves what a context's identity finds, where the context's peer keeps a route. -/
theorem State.rerouteTurn_ctx? {s before t : State} {id : CtxId} {r : Nat × Bool} (hr : t.routeTo id.peer = some r) (g : Nat) :
    (s.rerouteTurn before t g).ctx? id = t.ctx? id := by
  by_cases hg : id.peer = g
  · obtain h | h := s.rerouteTurn_or before t g
    · rw [h]
    · rw [h, State.ctx?, State.sever_ctxs (hg ▸ hr), State.ctx?]
  · exact (s.rerouteTurn_keepsPeer before t hg).ctx?

/-- A peer now reached through a third package gets each stream's oldest unacknowledged packet on that route. -/
theorem State.reroute_stands {s before : State} {c : Rctx} {k via : Nat} {y : Unacked} (hg : c.id.peer < s.pod.size)
    (hself : c.id.peer ≠ s.pod.self) (hr : s.routeTo c.id.peer = some (via, true))
    (hne : s.routeTo c.id.peer ≠ before.routeTo c.id.peer) (hc : s.ctx? c.id = some c) (hk : k < 4)
    (hy : (c.stream k).unacked.head? = some y) (hdst : y.packet.dst = c.id.peer) :
    Stands via { y.packet with forwarded := true } (s.reroute before) := by
  have hturn (t : State) (ht : Rerouted s t ∧ t.ctx? c.id = some c) :
      Stands via { y.packet with forwarded := true } (s.rerouteTurn before t c.id.peer) := by
    obtain ⟨ht, hct⟩ := ht
    rw [State.rerouteTurn_sever (ht.pod ▸ hself) hne (by simp [hr])]
    exact State.sever_stands hct hk ((ht.routeTo _).trans hr) hy
  refine foldl_reaches (I := fun t => Rerouted s t ∧ t.ctx? c.id = some c) (a := c.id.peer) (fun t x ⟨ht, hct⟩ => ⟨?_, ?_⟩)
    (fun t x ht h => ?_) hturn (List.mem_range.mpr hg) ⟨Rerouted.refl s, hc⟩
  · exact ht.trans (s.rerouteTurn_rerouted before t x)
  · rw [State.rerouteTurn_ctx? ((ht.routeTo _).trans hr), hct]
  · by_cases hx : c.id.peer = x
    · exact hx ▸ hturn t ht
    · exact h.of_keeps hdst (s.rerouteTurn_keepsPeer before t hx)

/-! ### An attachment's tail lines (03 R86) -/

/-- Queues set in turn to one way of holding their tail lines: every queue of those peers is held so. -/
theorem foldl_setQueue {b : Bool} {f : State → RQueue → State} (hf : ∀ t q, ∃ q' : RQueue, q'.peer = q.peer ∧ q'.tailShared = b
      ∧ (f t q).runner.queues = (t.runner.setQueue q').queues) :
    ∀ (l : List RQueue) (s : State), ∀ q ∈ (l.foldl f s).runner.queues,
      (q ∈ s.runner.queues ∧ ∀ y ∈ l, y.peer ≠ q.peer) ∨ q.tailShared = b
  | [], s, q, hq => .inl ⟨hq, fun _ h => absurd h List.not_mem_nil⟩
  | x :: xs, s, q, hq => by
    obtain ⟨hmem, hne⟩ | h := foldl_setQueue hf xs (f s x) q hq
    · obtain ⟨q', hpeer, hb, hset⟩ := hf s x
      rw [hset, Runner.setQueue] at hmem
      obtain h | h := List.mem_append.mp hmem
      · obtain ⟨hs, hp⟩ := List.mem_filter.mp h
        refine .inl ⟨hs, fun y hy => ?_⟩
        obtain rfl | hy := List.mem_cons.mp hy
        · rw [← hpeer]
          exact fun e => by simp [e] at hp
        · exact hne y hy
      · exact .inr (List.mem_singleton.mp h ▸ hb)
    · exact .inr h

/-- When the queues at a module have been set so, every queue whose pair shares the module is held so. -/
theorem State.queuesAt_set {b : Bool} {f : State → RQueue → State} (hf : ∀ t q, ∃ q' : RQueue, q'.peer = q.peer ∧ q'.tailShared = b
      ∧ (f t q).runner.queues = (t.runner.setQueue q').queues) (s : State) {m : Nat} {q : RQueue}
    (hq : q ∈ ((s.queuesAt m).foldl f s).runner.queues) (hm : s.pod.shared q.peer = some m) : q.tailShared = b := by
  obtain ⟨hmem, hne⟩ | h := foldl_setQueue hf _ s q hq
  · exact absurd rfl (hne q (List.mem_filter.mpr ⟨hmem, by simpa using hm⟩))
  · exact h

theorem State.loseTails_shared (s : State) {m : Nat} {q : RQueue} (hq : q ∈ (s.loseTails m).runner.queues)
    (hm : s.pod.shared q.peer = some m) : q.tailShared = false :=
  s.queuesAt_set (fun _ q => ⟨{ q with tailShared := false }, rfl, rfl, rfl⟩) hq hm

theorem State.pull_sends (s : State) (peer : Nat) : Sends s (s.pull peer) :=
  sends_ite (State.runnerAsk_sends _ _ _ _) (Sends.refl s)

theorem State.tailRead_pull_sends (t : State) (q : RQueue) (peer : Nat) :
    Sends (t.modRunner fun r => r.setQueue { q with tailShared := true, bell := q.bell || decide (q.entries ≠ []) })
      ((t.tailRead q).pull peer) :=
  ((State.chargeFlits_sends _ _ _).trans (State.chargeFlits_sends _ _ _)).trans (State.pull_sends _ peer)

theorem State.rereadTails_shared (s : State) {m : Nat} {q : RQueue} (hq : q ∈ (s.rereadTails m).runner.queues)
    (hm : s.pod.shared q.peer = some m) : q.tailShared = true :=
  s.queuesAt_set (fun t q => ⟨{ q with tailShared := true, bell := q.bell || decide (q.entries ≠ []) }, rfl, rfl,
    (t.tailRead_pull_sends q q.peer).queues⟩) hq hm

theorem State.rereadTails_pod (s : State) (m : Nat) : (s.rereadTails m).pod = s.pod :=
  foldl_proj State.pod (fun t q => (t.tailRead_pull_sends q q.peer).pod) _ _

theorem State.rereadTails_lostHeads (s : State) (m : Nat) : (s.rereadTails m).lostHeads = s.lostHeads :=
  foldl_proj State.lostHeads (fun t q => (t.tailRead_pull_sends q q.peer).lostHeads) _ _

/-! ### An attachment's state -/

theorem Pod.attUp_of_getElem? {p : Pod} {att : Nat} {b : Att} (h : p.atts[att]? = some b) :
    p.attUp att = (b.verified && b.portsUp.any id) := by
  simp [Pod.attUp, h]

theorem getElem?_set_of_some {α : Type} {l : List α} {i : Nat} {a : α} (h : l[i]? = some a) (b : α) : (l.set i b)[i]? = some b := by
  rw [List.getElem?_set_self (List.getElem?_eq_some_iff.mp h).1]

/-- An access to a window whose attachment is down (01 R19). -/
theorem State.physRefusal_of_down {s : State} {att : Nat} (h : s.pod.attUp att = false) {p : Part} {pa size x : Nat} (kind : AccKind)
    (hp : physPlace pa = .attach att x) (hw : x + size ≤ p.limit att) : s.physRefusal p pa size kind = some 9 := by
  simp [State.physRefusal, hp, h, Nat.not_lt.mpr hw]

/-! ### An attachment goes down (03 R94) -/

/-- The contexts and the incoming queues, with the pod and the lost head groups. -/
def State.peers (s : State) : Pod × List (Nat × Nat) × List Rctx × List RQueue :=
  (s.pod, s.lostHeads, s.runner.ctxs, s.runner.queues)

theorem State.peers_of_links {s t : State} (h : t.pod = s.pod ∧ t.lostHeads = s.lostHeads ∧ t.runner = s.runner) : t.peers = s.peers := by
  obtain ⟨hp, hl, hr⟩ := h
  simp [State.peers, hp, hl, hr]

theorem State.loseServices_peers (s : State) (att : Nat) : (s.loseServices att).peers = s.peers := by
  unfold State.loseServices
  refine (foldl_proj State.peers (fun t x => ?_) _ _).trans (foldl_proj State.peers (fun t x => ?_) _ _)
  · exact (State.peers_of_links (State.logRunner_links _ _ _)).trans rfl
  · exact State.peers_of_links (State.loseService_links _ _ _)

/-- The state when an attachment has gone down and the routes have yet to follow. -/
def State.detached (s : State) (att m : Nat) (a : Att) : State :=
  let s1 := s.loseAccesses m
  let s2 : State := { s1 with pod := { s1.pod with atts := s1.pod.atts.set att { a with verified := false } } }
  let s3 := s2.loseServices att
  let s4 : State := { s3 with agenda := s3.agenda.filter fun c => !lostMessage m att (s.pod.leadOn m) c }
  let s5 := ((s4.loseDests m).loseLines m (s.pod.leadOn m)).loseTails m
  { s5 with agenda := s5.agenda ++ [Call.headGroupLost m (s.pod.leadOn m)] }

theorem State.attachmentDown_eq {s : State} {att m : Nat} {a : Att} (hm : s.pod.moduleOf att = some m) (ha : s.pod.atts[att]? = some a) :
    s.attachmentDown att = (s.detached att m a).reroute s := by
  rw [State.attachmentDown, hm, ha]
  rfl

/-- The state in which the lines of the module go. -/
def State.detaching (s : State) (att m : Nat) (a : Att) : State :=
  let s1 := s.loseAccesses m
  let s2 : State := { s1 with pod := { s1.pod with atts := s1.pod.atts.set att { a with verified := false } } }
  let s3 := s2.loseServices att
  ({ s3 with agenda := s3.agenda.filter fun c => !lostMessage m att (s.pod.leadOn m) c } : State).loseDests m

theorem State.detached_eq (s : State) (att m : Nat) (a : Att) :
    let u := ((s.detaching att m a).loseLines m (s.pod.leadOn m)).loseTails m
    s.detached att m a = { u with agenda := u.agenda ++ [Call.headGroupLost m (s.pod.leadOn m)] } := rfl

theorem State.detaching_peers (s : State) (att m : Nat) (a : Att) :
    (s.detaching att m a).peers =
      ({ s.pod with atts := s.pod.atts.set att { a with verified := false } }, s.lostHeads, s.runner.ctxs, s.runner.queues) := by
  obtain ⟨hp, hl, hr⟩ := State.loseAccesses_links s m
  refine (State.peers_of_links (State.loseDests_links _ _)).trans ((State.loseServices_peers _ att).trans ?_)
  rw [State.peers, hp, hl, hr]

theorem State.loseLines_gone (s : State) (m lead : Nat) :
    (∀ l ∈ (s.loseLines m lead).l2, ¬ (isModuleKey l.key = true ∧ keyModule l.key = m))
      ∧ (∀ p ∈ (s.loseLines m lead).perms, ¬ (isModuleKey p.key = true ∧ keyModule p.key = m))
      ∧ ∀ x ∈ (s.loseLines m lead).memReqs, ¬ (isModuleKey x.key = true ∧ keyModule x.key = m) := by
  refine ⟨fun l hl => ?_, fun p hp => ?_, fun x hx => ?_⟩
  · rintro ⟨hk, hm⟩
    simpa [hk, hm] using (List.mem_filter.mp hl).2
  · rintro ⟨hk, hm⟩
    simpa [hk, hm] using (List.mem_filter.mp hp).2
  · rintro ⟨hk, hm⟩
    simpa [hk, hm] using (List.mem_filter.mp hx).2

/-- The loss of the tail lines changes nothing but how the Runner holds its queues. -/
theorem State.loseTails_keeps (s : State) (m : Nat) :
    (s.loseTails m).pod = s.pod ∧ (s.loseTails m).lostHeads = s.lostHeads ∧ (s.loseTails m).runner.ctxs = s.runner.ctxs
      ∧ (s.loseTails m).l2 = s.l2 ∧ (s.loseTails m).perms = s.perms ∧ (s.loseTails m).memReqs = s.memReqs := by
  have h := foldl_proj (fun t : State => (t.pod, t.lostHeads, t.runner.ctxs, t.l2, t.perms, t.memReqs))
    (f := fun (t : State) (q : RQueue) => t.modRunner fun r => r.setQueue { q with tailShared := false }) (fun _ _ => rfl)
    (s.queuesAt m) s
  simp only [Prod.mk.injEq] at h
  exact h

/-- What stands when an attachment has gone down, before the routes follow (R94). -/
structure Detached (s : State) (att m : Nat) (a : Att) (u : State) : Prop where
  pod : u.pod = { s.pod with atts := s.pod.atts.set att { a with verified := false } }
  lostHeads : u.lostHeads = s.lostHeads
  ctxs : u.runner.ctxs = s.runner.ctxs
  tails : ∀ q ∈ u.runner.queues, s.pod.shared q.peer = some m → q.tailShared = false
  l2 : ∀ l ∈ u.l2, ¬ (isModuleKey l.key = true ∧ keyModule l.key = m)
  perms : ∀ p ∈ u.perms, ¬ (isModuleKey p.key = true ∧ keyModule p.key = m)
  memReqs : ∀ x ∈ u.memReqs, ¬ (isModuleKey x.key = true ∧ keyModule x.key = m)
  told : Call.headGroupLost m (s.pod.leadOn m) ∈ u.agenda

theorem State.detached_spec (s : State) (att m : Nat) (a : Att) : Detached s att m a (s.detached att m a) := by
  have hpeers := s.detaching_peers att m a
  rw [State.detached_eq]
  generalize s.detaching att m a = v at hpeers ⊢
  obtain ⟨hvp, hvl, hvc, -⟩ : v.pod = _ ∧ v.lostHeads = _ ∧ v.runner.ctxs = _ ∧ v.runner.queues = _ := by
    simpa [State.peers] using hpeers
  obtain ⟨hl2, hperms, hreqs⟩ := v.loseLines_gone m (s.pod.leadOn m)
  obtain ⟨hp, hl, hr⟩ := v.loseLines_links m (s.pod.leadOn m)
  generalize v.loseLines m (s.pod.leadOn m) = w at hl2 hperms hreqs hp hl hr ⊢
  obtain ⟨htp, htl, htc, ht2, htperms, htreqs⟩ := w.loseTails_keeps m
  have hwp := hp.trans hvp
  exact
    { pod := htp.trans hwp
      lostHeads := htl.trans (hl.trans hvl)
      ctxs := htc.trans ((congrArg Runner.ctxs hr).trans hvc)
      tails := fun q hq hs => w.loseTails_shared hq (by rw [hwp]; exact hs)
      l2 := fun l h => hl2 l (ht2 ▸ h)
      perms := fun p h => hperms p (htperms ▸ h)
      memReqs := fun x h => hreqs x (htreqs ▸ h)
      told := List.mem_append_right _ List.mem_cons_self }

theorem Detached.attUp {s u : State} {att m : Nat} {a : Att} (h : Detached s att m a u) (ha : s.pod.atts[att]? = some a) :
    u.pod.attUp att = false := by
  rw [Pod.attUp_of_getElem? (b := { a with verified := false })]
  · rfl
  · rw [h.pod]
    exact getElem?_set_of_some ha _

theorem Detached.shared {s u : State} {att m : Nat} {a : Att} (h : Detached s att m a u) (g : Nat) : u.pod.shared g = s.pod.shared g := by
  rw [h.pod]
  rfl

/-- No route uses the module of an attachment that has gone down. -/
theorem Detached.no_route {s u : State} {att m g : Nat} {a : Att} (h : Detached s att m a u) (ha : s.pod.atts[att]? = some a)
    (hatt : s.pod.attOf m = some att) (hg : s.pod.shared g = some m) : u.routeTo g ≠ some (g, false) := by
  refine State.routeTo_ne_direct ?_
  rw [State.legUp_of_shared (m := m) (att := att) ((h.shared g).trans hg) (by rw [h.pod]; exact hatt), h.attUp ha, Bool.false_and]

/-! ### An attachment comes up (03 R96) -/

/-- An attachment that serves again: its ports are up if none was, and its capacities have been read. -/
def Att.restored (a : Att) : Att :=
  { a with verified := true, portsUp := if a.portsUp.any id then a.portsUp else a.portsUp.map fun _ => true, readCap := a.fabricCap }

theorem Att.restored_portsUp {a : Att} (h : a.portsUp ≠ []) : a.restored.portsUp.any id = true := by
  unfold Att.restored
  by_cases hp : a.portsUp.any id = true
  · simp [hp]
  · simpa [hp] using h

/-- The state when an attachment has come up and the routes have yet to follow. -/
def State.restored (s : State) (att m : Nat) (a : Att) : State :=
  let ports := if a.portsUp.any id then a.portsUp else a.portsUp.map fun _ => true
  State.readCapacities
    { s with
      pod := { s.pod with atts := s.pod.atts.set att { a with verified := true, portsUp := ports } },
      lostHeads := s.lostHeads.filter fun x => x ≠ (m, s.pod.leadOn m) } att

theorem State.attachmentUp_eq {s : State} {att m : Nat} {a : Att} (hm : s.pod.moduleOf att = some m) (ha : s.pod.atts[att]? = some a) :
    s.attachmentUp att = ((s.restored att m a).reroute s).rereadTails m := by
  rw [State.attachmentUp, hm, ha]
  rfl

theorem State.restored_eq {s : State} {att : Nat} {a : Att} (m : Nat) (ha : s.pod.atts[att]? = some a) :
    (s.restored att m a).pod = { s.pod with atts := s.pod.atts.set att a.restored }
      ∧ (s.restored att m a).lostHeads = s.lostHeads.filter fun x => x ≠ (m, s.pod.leadOn m) := by
  simp only [State.restored, State.readCapacities, getElem?_set_of_some ha, List.set_set]
  exact ⟨rfl, trivial⟩

theorem State.attachmentUp_spec {s : State} {att m : Nat} {a : Att} (hm : s.pod.moduleOf att = some m)
    (ha : s.pod.atts[att]? = some a) :
    (s.attachmentUp att).pod = { s.pod with atts := s.pod.atts.set att a.restored }
      ∧ (s.attachmentUp att).lostHeads = (s.lostHeads.filter fun x => x ≠ (m, s.pod.leadOn m))
      ∧ ∀ q ∈ (s.attachmentUp att).runner.queues, s.pod.shared q.peer = some m → q.tailShared = true := by
  obtain ⟨hp, hl⟩ := State.restored_eq m ha
  have hr := (s.restored att m a).reroute_rerouted s
  rw [State.attachmentUp_eq hm ha]
  refine ⟨?_, ?_, fun q hq hs => State.rereadTails_shared _ hq ?_⟩
  · rw [State.rereadTails_pod, hr.pod, hp]
  · rw [State.rereadTails_lostHeads, hr.lostHeads, hl]
  · rw [hr.pod, hp]
    exact hs

/-! ### The arms -/

theorem execPortDown_eq {s : State} {port att : Nat} {up : Bool} {a : Att} (hc : s.call = .portDown port up)
    (hn : portsPerAttachment s.pod.q ≠ 0) (hatt : port / portsPerAttachment s.pod.q = att) (ha : s.pod.atts[att]? = some a) :
    let s1 : State :=
      { s with pod := { s.pod with
          atts := s.pod.atts.set att { a with portsUp := a.portsUp.set (port % portsPerAttachment s.pod.q) up } } }
    exec .portDown s = .next (if s.pod.attUp att && !s1.pod.attUp att then s1.attachmentDown att else s1) := by
  subst hatt
  change execPortDown s = _
  rw [execPortDown, hc]
  simp only [hn, if_false, ha, ← hc]

theorem State.attached_eq {s : State} {att : Nat} {a : Att} (ha : s.pod.atts[att]? = some a) : s.attached att = a.verified := by
  simp [State.attached, ha]

theorem execViral_eq {s : State} {att : Nat} (hc : s.call = .viral att) :
    exec .viral s = .next (if s.attached att then s.attachmentDown att else s) := by
  change execViral s = _
  rw [execViral, hc]

theorem execModuleCompletionTimeout_eq {s : State} {att : Nat} (hc : s.call = .moduleCompletionTimeout att) :
    exec .moduleCompletionTimeout s =
      .next (if s.attached att && s.moduleTimedOut att then s.attachmentDown att else s) := by
  change execModuleCompletionTimeout s = _
  rw [execModuleCompletionTimeout, hc]

theorem execAttachmentUp_eq {s : State} {att : Nat} (hc : s.call = .attachmentUp att) :
    exec .attachmentUp s = .next (if s.pod.attUp att then s else s.attachmentUp att) := by
  change execAttachmentUp s = _
  rw [execAttachmentUp, hc]

/-- Settles O50: what an attachment's loss leaves before the routes follow (`Detached`) is kept while the peers on its module are
severed one after another (`Rerouted`), and each peer's own turn leaves it dead or with its packets on the new route. -/
theorem attachmentsComeAndGo : Obligations.AttachmentsComeAndGo := by
  unfold Obligations.AttachmentsComeAndGo
  intro s att a ha
  refine ⟨fun port up hc hn hatt => ?_, fun hc hv => ?_, fun hc hv ht => ?_, fun m hm => ?_, fun m hm hc hdown => ?_⟩
  · have hx := execPortDown_eq hc hn hatt ha
    refine ⟨fun h => ?_, fun hwas hgone => ?_⟩
    · rw [hx, if_neg]
      obtain h | h := h <;> simp [h]
    · rw [hx, if_pos]
      simp [hwas, hgone]
  · rw [execViral_eq hc, State.attached_eq ha, if_pos hv]
  · rw [execModuleCompletionTimeout_eq hc, State.attached_eq ha, hv, ht, Bool.and_self, if_pos rfl]
  · rw [State.attachmentDown_eq hm ha]
    have hd := s.detached_spec att m a
    generalize s.detached att m a = u at hd ⊢
    have hr := u.reroute_rerouted s
    have hup : (u.reroute s).pod.attUp att = false := by rw [hr.pod]; exact hd.attUp ha
    refine ⟨hup, fun p pa size kind x hpa hw => State.physRefusal_of_down hup kind hpa hw, fun q hq hs => ?_, fun hatt g hg => ?_,
      fun g hg hself hne => ⟨fun hnone => ?_, fun via c k y hvia hctx _ hpeer hk hy hdst => ?_⟩, ?_, ?_, ?_, ?_⟩
    · exact hd.tails q (hr.queues ▸ hq) (by rwa [hr.pod, hd.shared] at hs)
    · rw [hr.routeTo]
      exact hd.no_route ha hatt hg
    · rw [hr.routeTo] at hne hnone
      exact State.reroute_severed (by rw [hd.pod]; exact hg) (by rw [hd.pod]; exact hself) hnone hne
    · subst hpeer
      rw [hr.routeTo] at hne hvia
      exact State.reroute_stands (by rw [hd.pod]; exact hg) (by rw [hd.pod]; exact hself) hvia hne
        (by rw [State.ctx?, hd.ctxs]; exact hctx) hk hy hdst
    · rw [hr.l2]; exact hd.l2
    · rw [hr.perms]; exact hd.perms
    · rw [hr.memReqs]; exact hd.memReqs
    · exact hr.agenda _ hd.told
  · obtain ⟨hp, hl, hq⟩ := State.attachmentUp_spec hm ha
    have hb : (s.attachmentUp att).pod.atts[att]? = some a.restored := by rw [hp]; exact getElem?_set_of_some ha _
    have hserves (h : a.portsUp ≠ []) : (s.attachmentUp att).pod.attUp att = true := by
      rw [Pod.attUp_of_getElem? hb, Att.restored_portsUp h]
      rfl
    refine ⟨s.attachmentUp att, a.restored, by rw [execAttachmentUp_eq hc, hdown]; rfl, hb, rfl, rfl, by simp [hl],
      State.attachmentUp_mem _ _, hserves, fun q hqm hs => hq q hqm (by rwa [hp] at hs), fun hports hatt g hg hhead => ?_⟩
    refine State.routeTo_of_legUp ?_
    rw [State.legUp_of_shared (m := m) (att := att) (by rw [hp]; exact hg) (by rw [hp]; exact hatt), hserves hports, hhead]
    rfl

end Sys2Proof.Machine
end

section
/-!
PROOFS. O37: LDQ, STQ and ATOMQ. Their lanes go to scratchpad banks and nowhere else (`OpPart.AtBank`), so that each step of issuing an
operation that looks for lanes of another kind leaves the state and the lanes; `issueAccess_atBank` puts them together.
-/
namespace Sys2Proof.Machine

/-! ### Lanes at the banks of a scratchpad (02 R45) -/

/-- The lane is served by a bank of the scratchpad, and by no other unit. -/
def OpPart.AtBank (p : OpPart) : Prop := ∃ bank, p.route = .qsp bank

theorem OpPart.AtBank.route_ne {p : OpPart} (h : p.AtBank) :
    p.route ≠ .cache ∧ p.route ≠ .atomicUnit ∧ p.route ≠ .runner := by
  obtain ⟨bank, h⟩ := h
  simp [h]

theorem OpPart.AtBank.tier3 {p : OpPart} (h : p.AtBank) : p.tier3 = false := by
  simp [OpPart.tier3, h.route_ne.1]

theorem OpPart.AtBank.door {p : OpPart} (h : p.AtBank) : p.door = none := by
  unfold OpPart.door
  split
  · simp [h.tier3]
  · rfl

theorem doorbells_atBank (w : Wave) (id size lowest : Nat) {ps : List OpPart} (h : ∀ p ∈ ps, p.AtBank) :
    doorbells w id size lowest ps = [] := by
  have hnone : (ps.filterMap fun p => p.door.map fun d => (p, d)) = [] :=
    List.filterMap_eq_nil_iff.mpr fun p hp => by simp [(h p hp).door]
  simp [doorbells, hnone, dedup]

theorem State.tier3Parts_atBank (s : State) (w : Wave) : ∀ {ps : List OpPart}, (∀ p ∈ ps, p.AtBank) → s.tier3Parts w ps = (s, ps)
  | [], _ => rfl
  | p :: ps, h => by
    have hp := (h p List.mem_cons_self).tier3
    have hps := State.tier3Parts_atBank s w (ps := ps) fun q hq => h q (List.mem_cons_of_mem _ hq)
    simp [State.tier3Parts, hp, hps]

theorem State.countLookups_atBank (s : State) (w : Wave) (sc : Scope) {ps : List OpPart} (h : ∀ p ∈ ps, p.AtBank) :
    s.countLookups w sc ps = s := by
  unfold State.countLookups
  dsimp only
  rw [List.filter_eq_nil_iff.mpr fun p hp => ?_]
  · rfl
  · obtain ⟨bank, hroute⟩ := h p hp
    simp [hroute]

theorem State.beyondAllocation_atBank (s : State) (w : Wave) {p : OpPart} (h : p.AtBank) : s.beyondAllocation w p = false := by
  simp [State.beyondAllocation, h.route_ne]

theorem State.turnAway_atBank (s : State) (w : Wave) {o : PendOp} (h : ∀ p ∈ o.parts, p.AtBank) : s.turnAway w o = (s, o) := by
  have hnone : o.parts.filter (s.beyondAllocation w) = [] :=
    List.filter_eq_nil_iff.mpr fun p hp => by simp [s.beyondAllocation_atBank w (h p hp)]
  have hsame : mapWhere o.parts (s.beyondAllocation w) (fun p => { p with done := true, poison := true }) = o.parts := by
    unfold mapWhere
    exact List.map_congr_left (fun p hp => by simp [s.beyondAllocation_atBank w (h p hp)]) |>.trans (List.map_id _)
  simp [State.turnAway, hnone, hsame, dedup]

theorem State.advanceParts_atBank (s : State) (w : Wave) (sc : Scope) (all : List OpPart) :
    ∀ {ps : List OpPart}, (∀ p ∈ ps, p.AtBank) → s.advanceParts w sc all ps = (s, ps)
  | [], _ => rfl
  | p :: ps, h => by
    have hp := (h p List.mem_cons_self).route_ne.1
    have hps := State.advanceParts_atBank s w sc all (ps := ps) fun q hq => h q (List.mem_cons_of_mem _ hq)
    simp [State.advanceParts, hp, hps]

theorem State.clearCovers_atBank (s : State) (w : Wave) (through : OpPart → Bool) {before : List OpPart} (after : List OpPart)
    (h : ∀ p ∈ before, p.AtBank) : s.clearCovers w through before after = s := by
  unfold State.clearCovers
  dsimp only
  rw [List.filterMap_eq_nil_iff.mpr fun x hx => ?_]
  · rfl
  · have hroute := (h x.1 (List.of_mem_zip hx).1).route_ne.1
    split
    · simp [hroute]
    · rfl

/-- An operation at the banks goes no further by itself. -/
theorem State.advance_atBank (s : State) (w : Wave) {o : PendOp} (h : ∀ p ∈ o.parts, p.AtBank) : s.advance w o = (s, o) := by
  simp only [State.advance, s.turnAway_atBank w h, s.advanceParts_atBank w o.scope o.parts h, s.clearCovers_atBank w _ _ h]

theorem State.relayParts_atBank (s : State) (w : Wave) (a : Arm) (id : Nat) {ps : List OpPart} (h : ∀ p ∈ ps, p.AtBank) :
    s.relayParts w a id ps = s := by
  have hfold : ps.foldl (fun (t : State) p => if p.route = .runner then t.sendRelayed w id p else t) s = s := by
    induction ps with
    | nil => rfl
    | cons p ps ih =>
      rw [List.foldl_cons, if_neg (h p List.mem_cons_self).route_ne.2.2]
      exact ih fun q hq => h q (List.mem_cons_of_mem _ hq)
  have hwaits (f : OpPart → Bool) : ps.any (fun p => p.route = .runner && f p) = false :=
    List.any_eq_false.mpr fun p hp => by simp [(h p hp).route_ne.2.2]
  unfold State.relayParts
  dsimp only
  rw [hfold, hwaits]
  rfl

/-- The wave that has issued a word as the operation `o`: its unit goes on, or waits for an acquire (04 R107). -/
def Wave.issuedOp (w : Wave) (i : Issue) (acquire : Bool) (o : PendOp) : Wave :=
  (w.addOp o).setUnit i.arm
    { w.unit i.arm with pc := nextWord i.pc, refusals := [], looked := false, table := [], atBank := none,
                        wait := if acquire then .op o.id else .none }

theorem Wave.unit_addOp (w : Wave) (o : PendOp) (a : Arm) : (w.addOp o).unit a = w.unit a := by cases a <;> rfl

/-- An operation whose lanes are all at banks issues: the wave has it, and the state keeps all else but a clamped scope's count. -/
theorem issueAccess_atBank {s : State} {w : Wave} {i : Issue} {x : Access} {sc : Scope} {ps : List OpPart} (lowest : Nat)
    (h : ∀ p ∈ ps, p.AtBank) (hw : s.wave? w.seq w.wid = some w) :
    issueAccess s w i x sc ps lowest = .next (((s.setWave (w.issuedOp i (isAcquire x.order)
      { newOp w i x.kind sc (isAcquire x.order) ps x.dest with answered := true })).clampScope w.part x.scope).1) := by
  have hagain : s.again w = w := by rw [State.again, hw]; rfl
  have hadvance := s.advance_atBank w
    (o := { newOp w i x.kind sc (isAcquire x.order) ps x.dest with att := 0, answered := true }) h
  simp only [issueAccess, State.issued, doorbells_atBank w _ _ _ h, s.tier3Parts_atBank w h, s.countLookups_atBank w sc h,
    List.length_nil, decide_true, if_true, hadvance, hagain, Wave.unit_addOp]
  rw [State.relayParts_atBank _ _ _ _ (ps := (newOp w i x.kind sc (isAcquire x.order) ps x.dest).parts) h]
  rfl

/-! ### The access (12 R277, R279) -/

theorem State.qspParts_atBank (s : State) (w : Wave) (x : Access) (col : Bool) (ls : List LaneReq) :
    ∀ p ∈ s.qspParts w x col ls, p.AtBank := by
  intro p hp
  obtain ⟨l, -, rfl⟩ := List.mem_map.mp hp
  exact ⟨_, rfl⟩

/-- A scratchpad access whose release has performed, whose lanes lie in the window and meet no earlier operation, issues. -/
theorem qspAccess_issues {s s1 : State} {w : Wave} {i : Issue} {x : Access} {col : Bool} {ls : List LaneReq} (hroom : w.outst < 63)
    (hrel : (if isRelease x.order then s.releaseAt w i.arm (s.clampScope w.part x.scope).2 else (s, true)) = (s1, true))
    (hw : s1.wave? (s1.again w).seq (s1.again w).wid = some (s1.again w)) (hls : x.lanes = .ok ls)
    (hin : ∀ l ∈ ls, (s1.qspKeyOf (s1.again w) l.addr).isSome = true)
    (hclear : ∀ q ∈ s1.qspParts (s1.again w) x col ls, (s1.again w).overlaps q.key q.size x.acc.writes = false) :
    qspAccess s w i x col = .next (((s1.setWave ((s1.again w).issuedOp i (isAcquire x.order)
      { newOp (s1.again w) i x.kind (s.clampScope w.part x.scope).2 (isAcquire x.order) (s1.qspParts (s1.again w) x col ls) x.dest with
        answered := true })).clampScope (s1.again w).part x.scope).1) := by
  have hnone : ls.find? (fun l => (s1.qspKeyOf (s1.again w) l.addr).isNone) = none :=
    List.find?_eq_none.mpr fun l hl => by simpa using Option.isSome_iff_ne_none.mp (hin l hl)
  have hmeets : (s1.qspParts (s1.again w) x col ls).any
      (fun p => (s1.again w).overlaps p.key p.size x.acc.writes) = false :=
    List.any_eq_false.mpr fun q hq => by simp [hclear q hq]
  rw [qspAccess, if_neg (Nat.not_le.mpr hroom)]
  simp only [hrel, hls, hnone, hmeets, Bool.not_true, Bool.false_eq_true, if_false]
  exact issueAccess_atBank 0 (s1.qspParts_atBank _ x col ls) hw

/-! ### Legal words (09 R217) -/

theorem badScope_of_ne {sc : BitVec 3} (h : sc ≠ 7) : badScope sc = false := decide_eq_false h

/-- The fields of an LDQ or STQ are legal: its scope, its pair of registers, and no column of 8-byte elements (12 R279). -/
theorem qspFields_legal {z : BitVec 2} {sc : BitVec 3} {d : BitVec 6} {n : BitVec 1} (hsc : sc ≠ 7) (hz : z ≠ 3 ∨ (d ≠ 63 ∧ n ≠ 1)) :
    illegalIf (badScope sc || (z = 3 && d = 63) || (z = 3 && n = 1)) = none := by
  rw [badScope_of_ne hsc]
  obtain hz | ⟨hd, hn⟩ := hz
  · rw [decide_eq_false hz]
    rfl
  · rw [decide_eq_false hd, decide_eq_false hn, Bool.and_false]
    rfl

theorem State.legal_ldq {s : State} {w : Wave} {i : Issue} {z : BitVec 2} {sc : BitVec 3} {d : BitVec 6} {n : BitVec 1}
    (h : s.Latched w i) (hsc : sc ≠ 7) (hz : z ≠ 3 ∨ (d ≠ 63 ∧ n ≠ 1)) (r : BitVec 2) (o : BitVec 6) (k : BitVec 5) :
    s.Legal w i (.ldq z sc r d o k n) := ⟨h, qspFields_legal hsc hz⟩

theorem State.legal_stq {s : State} {w : Wave} {i : Issue} {z : BitVec 2} {sc : BitVec 3} {d : BitVec 6} {n : BitVec 1}
    (h : s.Latched w i) (hsc : sc ≠ 7) (hz : z ≠ 3 ∨ (d ≠ 63 ∧ n ≠ 1)) (r : BitVec 2) (o : BitVec 6) (k : BitVec 5) :
    s.Legal w i (.stq z sc r d o k n) := ⟨h, qspFields_legal hsc hz⟩

theorem State.legal_atomq {s : State} {w : Wave} {i : Issue} {p : BitVec 3} {sc : BitVec 3} {d : BitVec 6}
    (h : s.Latched w i) (hsc : sc ≠ 7) (hd : d.toNat + (if p = 7 then 2 else 1) ≤ 64) (n : BitVec 1) (r : BitVec 2) (o : BitVec 6)
    (k : BitVec 4) : s.Legal w i (.atomq p n sc r d o k) := by
  refine ⟨h, ?_⟩
  change illegalIf (badScope sc || 64 < d.toNat + (if p = 7 then 2 else 1)) = none
  rw [badScope_of_ne hsc, decide_eq_false (Nat.not_lt.mpr hd)]
  rfl

/-- Settles O37: each word is the scratchpad access of its lanes, which then issues (`qspAccess_issues`). -/
theorem scratchpadAccesses : Obligations.ScratchpadAccesses := by
  unfold Obligations.ScratchpadAccesses
  intro s w i z sc r d o k k4 n p s1 ls h hsc hroom hrel w1 inWindow parts issues hw hin
  refine ⟨fun hz hp => ⟨fun hls hclear => ?_, fun hls hclear => ?_⟩, fun hd hp hls hclear => ?_⟩
  · change execLdq z sc r d o k n s = _
    rw [execLdq, baseAccess_of (State.legal_ldq h hsc hz r o k) hp]
    exact qspAccess_issues hroom hrel hw hls hin hclear
  · change execStq z sc r d o k n s = _
    rw [execStq, baseAccess_of (State.legal_stq h hsc hz r o k) hp]
    exact qspAccess_issues hroom hrel hw hls hin hclear
  · change execAtomq p n sc r d o k4 s = _
    rw [execAtomq, baseAccess_of (State.legal_atomq h hsc hd n r o k4) hp]
    exact qspAccess_issues hroom hrel hw hls hin hclear

end Sys2Proof.Machine
end

section
/-!
PROOFS. O47: the completions and the back-invalidations of a module. A snoop reads the channels, the requests outstanding to modules and
the waiting snoops (`State.snooping`); applying it to a line leaves all three (`f_snooping`), so that a block of lines free at its start
is free to its end.
-/
namespace Sys2Proof.Machine

/-! ### What a snoop reads and leaves -/

/-- What decides how far a snoop goes, and which snoops wait (02 R57, R59). -/
def State.snooping (s : State) : List Chan × List MemReq × List Snoop := (s.chans, s.memReqs, s.snoops)

theorem State.snooping_eq {s t : State} (h : t.snooping = s.snooping) :
    t.chans = s.chans ∧ t.memReqs = s.memReqs ∧ t.snoops = s.snoops := by
  simpa only [State.snooping, Prod.mk.injEq] using h

@[simp] theorem State.charge_snooping (s : State) (p code n : Nat) : (s.charge p code n).snooping = s.snooping := by
  unfold State.charge
  split
  · rfl
  · dsimp only
    split <;> rfl

@[simp] theorem State.chargeFlits_snooping (s : State) (sent : Bool) (bytes : Nat) :
    (s.chargeFlits sent bytes).snooping = s.snooping := by
  unfold State.chargeFlits State.chargePod
  split
  · split
    · rfl
    · exact State.charge_snooping _ _ _ _
  · rfl

theorem State.clearCovered_snooping (s : State) (k n : Nat) : (s.clearCovered k n).snooping = s.snooping :=
  foldl_proj State.snooping (fun _ _ => by dsimp only; split <;> rfl) _ _

@[simp] theorem State.pokeNat_snooping (s : State) (k n x : Nat) : (s.pokeNat k n x).snooping = s.snooping :=
  State.clearCovered_snooping s k (natToBytes n x).length

@[simp] theorem State.setMbox_snooping (s : State) (m : Mbox) : (s.setMbox m).snooping = s.snooping := rfl

@[simp] theorem State.logError_snooping (s : State) (p : Nat) (r : LogRec) : (s.logError p r).snooping = s.snooping := by
  unfold State.logError
  split
  · rfl
  · dsimp only
    split
    · rfl
    · split
      · rw [State.setMbox_snooping, State.pokeNat_snooping]
      · rfl

@[simp] theorem State.returnLine_snooping (s : State) (l : L2Line) : (s.returnLine l).snooping = s.snooping := by
  unfold State.returnLine
  split
  · exact State.logError_snooping _ _ _
  · rfl

@[simp] theorem State.restoreStale_snooping (s : State) (line : Nat) : (s.restoreStale line).snooping = s.snooping := by
  have hmark (c : Bool) (t : State) : (if c then (t.setPoison line).setPoison (line + 64) else t).snooping = t.snooping := by
    cases c <;> rfl
  unfold State.restoreStale
  split
  · rfl
  next x _ => exact hmark x.poison ((s.clearPoison line).clearPoison (line + 64))

@[simp] theorem State.chargeSnoop_snooping (s : State) (line : Nat) : (s.chargeSnoop line).snooping = s.snooping :=
  foldl_proj State.snooping (fun _ _ => State.charge_snooping _ _ _ _) _ _

@[simp] theorem State.snoopClean_snooping (s : State) (line : Nat) : (s.snoopClean line).snooping = s.snooping :=
  foldl_proj State.snooping (fun _ _ => by rw [State.returnLine_snooping, State.charge_snooping]) _ _

theorem State.snoopInv_snooping (s : State) (line : Nat) : (s.snoopInv line).snooping = s.snooping := by
  change ((((s.chargeSnoop line).snoopClean line).dropCopies line).restoreStale line).snooping = _
  rw [State.restoreStale_snooping]
  change ((s.chargeSnoop line).snoopClean line).snooping = _
  rw [State.snoopClean_snooping, State.chargeSnoop_snooping]

theorem State.snoopData_snooping (s : State) (line : Nat) : (s.snoopData line).snooping = s.snooping := by
  have h : ((s.chargeSnoop line).snoopClean line).snooping = s.snooping := by
    rw [State.snoopClean_snooping, State.chargeSnoop_snooping]
  unfold State.snoopData
  dsimp only
  split
  · exact h
  · exact h

@[simp] theorem State.snoopKind_snooping (s : State) (line : Nat) (inv : Bool) : (s.snoopKind line inv).snooping = s.snooping := by
  cases inv with
  | true => exact State.snoopInv_snooping s line
  | false => exact State.snoopData_snooping s line

/-! ### How far a snoop goes -/

/-- Nothing of the package stands in a snoop's way at a line: no Ladle channel owns it (02 R59), no request for it is outstanding
(02 R57). -/
def State.snoopFree (s : State) (line : Nat) : Prop := s.ladleOwns line = false ∧ s.memReqs.find? (fun r => r.key = line) = none

theorem State.snoopFree_congr {s t : State} (h : t.snooping = s.snooping) (line : Nat) : t.snoopFree line ↔ s.snoopFree line := by
  obtain ⟨hchans, hreqs, -⟩ := State.snooping_eq h
  simp [State.snoopFree, State.ladleOwns, hchans, hreqs]

/-- A snoop whose lines are all free is applied to each in order. -/
theorem State.snoopOn_free {x : Snoop} (hx : x.held = false) :
    ∀ (s : State), (∀ i, i < x.left → s.snoopFree (moduleLine x.module (x.next + i))) →
      s.snoopOn (x.left + 1) x
        = ((List.range x.left).foldl (fun (t : State) i => t.snoopKind (moduleLine x.module (x.next + i)) x.inv) s,
           { x with next := x.next + x.left, left := 0 }) := by
  obtain ⟨m, first, next, left, block, inv, held⟩ := x
  dsimp only at hx ⊢
  subst hx
  induction left generalizing next with
  | zero => intro s _; simp [State.snoopOn]
  | succ n ih =>
    intro s hfree
    obtain ⟨howns, hreq⟩ := hfree 0 (Nat.succ_pos n)
    rw [Nat.add_zero] at howns hreq
    have hrest : ∀ i, i < n → (s.snoopKind (moduleLine m next) inv).snoopFree (moduleLine m (next + 1 + i)) := fun i hi => by
      rw [State.snoopFree_congr (State.snoopKind_snooping _ _ _), Nat.add_assoc, Nat.add_comm 1 i]
      exact hfree (i + 1) (Nat.succ_lt_succ hi)
    have hstep := ih (next + 1) (s.snoopKind (moduleLine m next) inv) hrest
    rw [State.snoopOn]
    simp only [Nat.succ_ne_zero, decide_false, Bool.or_self, Bool.false_eq_true, if_false, howns, hreq, Snoop.step,
      Nat.add_sub_cancel]
    rw [hstep, List.range_succ_eq_map, List.foldl_cons, List.foldl_map]
    simp only [Nat.add_zero, Nat.succ_eq_add_one, Nat.add_assoc, Nat.add_comm 1]

/-- A back-invalidation as it arrives. -/
def Snoop.arrived (m line count : Nat) (inv : Bool) : Snoop :=
  { module := m, first := line, next := line, left := count, block := decide (1 < count), inv := inv, held := false }

theorem State.runSnoop_free {s : State} {x : Snoop} (hx : x.held = false)
    (hfree : ∀ i, i < x.left → s.snoopFree (moduleLine x.module (x.next + i))) :
    s.runSnoop x =
      ((List.range x.left).foldl (fun (t : State) i => t.snoopKind (moduleLine x.module (x.next + i)) x.inv) s).answerSnoop
        { module := x.module, line := x.first, block := x.block, inv := x.inv } := by
  unfold State.runSnoop
  rw [State.snoopOn_free hx s hfree]
  rfl

theorem State.runSnoop_owned {s : State} {x : Snoop} (hx : x.held = false) (hleft : 0 < x.left)
    (howns : s.ladleOwns (moduleLine x.module x.next) = true) : s.runSnoop x = { s with snoops := s.snoops ++ [x] } := by
  have hon : s.snoopOn (x.left + 1) x = (s, x) := by
    simp [State.snoopOn, hx, howns]
  rw [State.runSnoop, hon]
  exact if_neg (Nat.ne_of_gt hleft)

theorem State.runSnoop_met {s : State} {x : Snoop} {r : MemReq} (hx : x.held = false) (hleft : 0 < x.left)
    (howns : s.ladleOwns (moduleLine x.module x.next) = false)
    (hreq : s.memReqs.find? (fun r => r.key = moduleLine x.module x.next) = some r) :
    s.runSnoop x = { s with
      snoops := s.snoops ++ [{ x with held := true }],
      memReqs := mapWhere s.memReqs (fun y => y = r) fun y => { y with snoop := if x.inv then 1 else 2 } } := by
  have hon : s.snoopOn (x.left + 1) x =
      ({ s with memReqs := mapWhere s.memReqs (fun y => y = r) fun y => { y with snoop := if x.inv then 1 else 2 } },
       { x with held := true }) := by
    simp [State.snoopOn, hx, howns, hreq, Nat.ne_of_gt hleft]
  rw [State.runSnoop, hon]
  exact if_neg (Nat.ne_of_gt hleft)

/-- A snoop with no line left is answered. -/
theorem State.runSnoop_over {s : State} {x : Snoop} (hleft : x.left = 0) :
    s.runSnoop x = s.answerSnoop { module := x.module, line := x.first, block := x.block, inv := x.inv } := by
  have hon : s.snoopOn (x.left + 1) x = (s, x) := by simp [State.snoopOn, hleft]
  rw [State.runSnoop, hon]
  exact if_pos hleft

/-! ### The arms -/

/-- A back-invalidation that is none of those that wait starts at its first line. -/
theorem State.snoop_arrived {s : State} {m line count : Nat} {inv : Bool}
    (hnew : ∀ x ∈ s.snoops, ¬ (x.module = m ∧ x.next = line ∧ x.left = count ∧ x.inv = inv)) :
    s.snoop m line count inv
      = (State.chargeFlits { s with snoopAnswers := [] } false 0).runSnoop (Snoop.arrived m line count inv) := by
  have hsame : s.snoops.any (fun x => x.module = m && x.next = line && x.left = count && x.inv = inv) = false := by
    simpa [and_assoc] using hnew
  unfold State.snoop
  dsimp only
  rw [hsame]
  rfl

theorem exec_snoop {s : State} {m line count : Nat} {p : Instr × Call × Bool}
    (hp : p ∈ ([(.bisnpinv, .bisnpinv m line count, true), (.bisnpdata, .bisnpdata m line count, false),
      (.bisnpcur, .bisnpcur m line count, false)] : List (Instr × Call × Bool))) (hc : s.call = p.2.1) :
    exec p.1 s = .next (s.snoop m line count p.2.2) := by
  simp only [List.mem_cons, List.not_mem_nil, or_false] at hp
  obtain rfl | rfl | rfl := hp
  · change execBisnpinv s = _
    rw [execBisnpinv, hc]
  · change execBisnpdata s = _
    rw [execBisnpdata, hc]
  · change execBisnpcur s = _
    rw [execBisnpcur, hc]

@[simp] theorem State.snoopAfter_zero (s : State) (m line : Nat) : s.snoopAfter m line 0 = s := if_pos rfl

/-- The state in which a completion's request has ended, before its permission is given. -/
def State.completed (s : State) (r : MemReq) : State :=
  State.chargeFlits { s with memReqs := s.memReqs.erase r, snoopAnswers := [] } false 128

theorem execMemCompletion_eq {s : State} {m line : Nat} {kind : MemKind} {r : MemReq} (hc : s.call = .memCompletion m line kind)
    (hr : s.memReqs.find? (fun x => x.key = moduleLine m line && memKindBase x.kind = memKindBase kind) = some r)
    (hs : r.snoop = 0) :
    exec .memCompletion s
      = .next (((s.completed r).holdersAfter (moduleLine m line) kind).permAfter (moduleLine m line) kind) := by
  change execMemCompletion s = _
  rw [execMemCompletion, hc]
  simp only [hr, hs, State.snoopAfter_zero, ← hc]
  rfl

/-- The state in which the request that a snoop met is acknowledged as a conflict (02 R57). -/
def State.acknowledged (s : State) (r : MemReq) : State :=
  { s with memReqs := mapWhere s.memReqs (fun x => x = r) fun x => { x with snoop := 0 }, snoopAnswers := [] }

theorem execBiconflictack_eq {s : State} {m line : Nat} {r : MemReq} (hc : s.call = .biconflictack m line)
    (hr : s.memReqs.find? (fun x => x.key = moduleLine m line && x.snoop ≠ 0) = some r) :
    exec .biconflictack s = .next ((s.acknowledged r).snoopAfter m line r.snoop) := by
  change execBiconflictack s = _
  rw [execBiconflictack, hc]
  simp only [hr, ← hc]
  rfl

theorem State.runSnoops_singleton {s : State} {x : Snoop} {f : Snoop → Bool} (hs : s.snoops = [x]) (hf : f x = true)
    (g : Snoop → Snoop) : s.runSnoops f g = State.runSnoop { s with snoops := [] } (g x) := by
  simp [State.runSnoops, hs, hf]

/-- A held snoop that waits alone for the request of its last line is applied to that line and answered. -/
theorem State.snoopAfter_last {s : State} {m line n : Nat} {x : Snoop} (hn : n ≠ 0) (hs : s.snoops = [x]) (hm : x.module = m)
    (hnext : x.next = line) (hheld : x.held = true) (hleft : x.left = 1) (hinv : x.inv = decide (n = 1)) :
    s.snoopAfter m line n = State.answerSnoop { s.snoopKind (moduleLine m line) x.inv with snoops := [] }
      { module := m, line := x.first, block := x.block, inv := x.inv } := by
  obtain ⟨-, -, hsnoops⟩ := State.snooping_eq (State.snoopKind_snooping s (moduleLine m line) x.inv)
  rw [hs] at hsnoops
  rw [State.snoopAfter, if_neg hn, ← hinv, State.runSnoops_singleton hsnoops (by simp [hm, hnext, hheld]),
    State.runSnoop_over (by simp [Snoop.step, hleft]), ← hm]
  rfl

/-! ### Permissions -/

@[simp] theorem State.permOf_setPerm (s : State) (line : Nat) (p : Option Perm) : (s.setPerm line p).permOf line = p := by
  have hnone : (s.perms.filter fun x => x.key ≠ line).find? (fun x => x.key = line) = none := by simp
  cases p with
  | none => simp [State.permOf, State.setPerm]
  | some q =>
    simp only [State.permOf, State.setPerm, List.find?_append, hnone]
    simp

theorem State.charge_perms (s : State) (p code n : Nat) : (s.charge p code n).perms = s.perms := by
  unfold State.charge
  split
  · rfl
  · dsimp only
    split <;> rfl

@[simp] theorem State.chargeFlits_perms (s : State) (sent : Bool) (bytes : Nat) : (s.chargeFlits sent bytes).perms = s.perms := by
  unfold State.chargeFlits State.chargePod
  split
  · split
    · rfl
    · exact State.charge_perms _ _ _ _
  · rfl

@[simp] theorem State.completed_mem (s : State) (r : MemReq) : (s.completed r).mem = s.mem := by
  simp [State.completed]

@[simp] theorem State.completed_memReqs (s : State) (r : MemReq) : (s.completed r).memReqs = s.memReqs.erase r :=
  (State.snooping_eq (State.chargeFlits_snooping _ _ _)).2.1

theorem State.completed_permOf (s : State) (r : MemReq) (line : Nat) : (s.completed r).permOf line = s.permOf line := by
  simp [State.completed, State.permOf]

@[simp] theorem State.holdersAfter_memReqs (s : State) (line : Nat) (kind : MemKind) :
    (s.holdersAfter line kind).memReqs = s.memReqs := by cases kind <;> rfl

@[simp] theorem State.holdersAfter_permOf (s : State) (line : Nat) (kind : MemKind) (k : Nat) :
    (s.holdersAfter line kind).permOf k = s.permOf k := by cases kind <;> rfl

@[simp] theorem State.permAfter_memReqs (s : State) (line : Nat) (kind : MemKind) : (s.permAfter line kind).memReqs = s.memReqs := by
  unfold State.permAfter
  split
  · rfl
  · rfl
  · split <;> rfl
  · rfl

theorem State.permAfter_own (s : State) {line : Nat} {kind : MemKind} (h : kind = .own ∨ kind = .ownHeld) :
    (s.permAfter line kind).permOf line = some .exclusive := by
  obtain rfl | rfl := h
  · exact State.permOf_setPerm _ _ _
  · exact State.permOf_setPerm _ _ _

theorem State.permAfter_readShared {s : State} {line : Nat} (h : s.permOf line = none) :
    (s.permAfter line .readShared).permOf line = some .shared := by
  simp [State.permAfter, h]

/-- Settles O47: a completion by what becomes of its request and of the permission, a back-invalidation by how far it goes from its
first line (`runSnoop_free`, `runSnoop_owned`, `runSnoop_met`), and the one that a BIConflictAck lets go on by `snoopAfter_last`. -/
theorem moduleSnoops : Obligations.ModuleSnoops := by
  unfold Obligations.ModuleSnoops
  intro s m line count key came act
  have hcame : came.snooping = s.snooping := State.chargeFlits_snooping _ _ _
  obtain ⟨hchans, hreqs, hsnoops⟩ := State.snooping_eq hcame
  refine ⟨fun kind r hc hr hs => ⟨_, execMemCompletion_eq hc hr hs, by simp, by simp, fun hk => State.permAfter_own _ hk, ?_⟩,
    fun p hp hc hnew => ?_, fun r x hc hr hs hm hnext hheld hleft hinv => ?_⟩
  · rintro rfl hnone
    exact State.permAfter_readShared (by rw [State.holdersAfter_permOf, State.completed_permOf, hnone])
  · have howned (k : Nat) : came.ladleOwns k = s.ladleOwns k := by simp [State.ladleOwns, hchans]
    rw [exec_snoop hp hc, State.snoop_arrived hnew]
    refine ⟨fun hfree => ?_, fun hcount howns => ?_, fun r hcount howns hr => ?_⟩
    · rw [State.runSnoop_free (x := Snoop.arrived m line count p.2.2) rfl fun i hi => (State.snoopFree_congr hcame _).2 (hfree i hi)]
      rfl
    · rw [State.runSnoop_owned (x := Snoop.arrived m line count p.2.2) rfl hcount ((howned _).trans howns), ← hsnoops]
      rfl
    · rw [State.runSnoop_met (x := Snoop.arrived m line count p.2.2) rfl hcount ((howned _).trans howns)
        (by rw [← hreqs] at hr; exact hr), ← hsnoops, ← hreqs]
      rfl
  · have hn : r.snoop ≠ 0 := by
      have := List.find?_some hr
      simp_all
    rw [execBiconflictack_eq hc hr, State.snoopAfter_last (s := s.acknowledged r) hn hs hm hnext hheld hleft hinv]
    rfl

end Sys2Proof.Machine
end

section
/-!
PROOFS. O46 fails. While a stack's link retrains, its requests are held (02 R68): the directory answers no request for a line of that
stack that no die holds (`directory_of_stackHeld`), whatever is listed as the package's permission for the line, which only a module's
line needs (R56). `Claims.CacheTraffic` promises an answer wherever an exclusive permission is listed, and does not ask that the line is
a module's.
-/
namespace Sys2Proof.Machine

theorem State.permitted_of_stackHeld {s : State} {line : Nat} (hm : isModuleKey line = false) (hheld : s.stackHeld line = true)
    (hnone : s.l2Holders line = []) (die part : Nat) (own : Bool) : s.permitted die part line own = (s, false) := by
  simp [State.permitted, hm, hheld, hnone]

theorem State.directory_of_stackHeld {s : State} {key : Nat} (hm : isModuleKey (lineKey key) = false)
    (hheld : s.stackHeld (lineKey key) = true) (hnone : s.l2Holders (lineKey key) = []) (die part : Nat) (own : Bool) :
    s.directory die key part own = (s, false) := by
  unfold State.directory
  dsimp only
  split
  · rfl
  · rw [State.permitted_of_stackHeld hm hheld hnone, if_pos Bool.not_false]

theorem execDirectoryRequest_of_stackHeld {s : State} {die sector part key : Nat} {own : Bool}
    (hc : s.call = .directoryRequest die sector own part) (hk : keyOfPa s.pod (64 * sector) = some key)
    (hm : isModuleKey (lineKey key) = false) (hheld : s.stackHeld (lineKey key) = true) (hnone : s.l2Holders (lineKey key) = []) :
    exec .directoryRequest s = .next s := by
  change execDirectoryRequest s = _
  rw [execDirectoryRequest, hc]
  simp only [hk, State.directory_of_stackHeld hm hheld hnone]

theorem State.l2Find_of_holders_nil {s : State} {line : Nat} (hnone : s.l2Holders line = []) (die : Nat) :
    s.l2Find die line = none := by
  rw [State.l2Holders, List.filter_eq_nil_iff] at hnone
  exact List.find?_eq_none.mpr fun l hl hmatch => hnone l hl (Bool.and_eq_true_iff.mp hmatch).2

/-- Die 0 reads sector 0 of stack 0 while the links retrain; partition 0 owns the ways, and an exclusive permission is listed for the
line. -/
def heldRequest : State :=
  { State.reset with
    call := .directoryRequest 0 0 false 0
    links := List.replicate 8 { StackLink.reset with retraining := true }
    ways := [{ die := 0, slice := none, owners := List.replicate 16 0, moved := none }]
    perms := [{ key := 0, perm := .exclusive }] }

theorem heldRequest_unheld : heldRequest.l2Holders 0 = [] := rfl

theorem heldRequest_key : keyOfPa heldRequest.pod (64 * 0) = some 0 := by decide +kernel

/-- A way of die 0 is free for the line. -/
theorem heldRequest_way : ∃ i ∈ heldRequest.ownWays 0 0 (heldRequest.fillTag 0 0 0), ∀ l ∈ heldRequest.setPeers 0 0, l.way ≠ i :=
  ⟨0, by decide +kernel, fun _ hl => nomatch hl⟩

theorem heldRequest_waits : exec .directoryRequest heldRequest = .next heldRequest :=
  execDirectoryRequest_of_stackHeld rfl heldRequest_key (by decide) (by decide +kernel) heldRequest_unheld

/-- Refutes O46: `heldRequest` meets every premise of the directory's answer and waits (`heldRequest_waits`), so that die 0 does not
come to hold the line. -/
theorem not_memoryAgentsAndLinks : ¬ Obligations.MemoryAgentsAndLinks := by
  unfold Obligations.MemoryAgentsAndLinks
  rintro ⟨-, hcaches, -⟩
  obtain ⟨-, -, hdirectory⟩ := hcaches heldRequest
  obtain ⟨-, hanswered⟩ := hdirectory 0 0 false 0 0 rfl heldRequest_key rfl
  obtain ⟨t, x, hexec, -, -, -, hfound, -⟩ :=
    hanswered (.inr (.inl rfl)) (.inr (by decide +kernel)) (.inr heldRequest_way)
  obtain rfl : heldRequest = t := by simpa [heldRequest_waits] using hexec
  have hnone := State.l2Find_of_holders_nil heldRequest_unheld 0
  rw [show lineKey 0 = 0 from rfl, hnone] at hfound
  exact absurd hfound (Option.some_ne_none x).symm

end Sys2Proof.Machine
end

section
/-!
PROOFS. O14: how a lane access goes wrong. Each of the five words is `memAccess` of its lanes behind the check of its base pair
(`State.Accesses`), so that what goes wrong is said once, of `memAccess`.
-/
namespace Sys2Proof.Machine

/-! ### Traps that a handler takes (14 R331) -/

theorem takeTrap_of_canTrap {w : Wave} (h : w.canTrap) (s : State) (i : Issue) (cause sub addr : Nat) :
    takeTrap s w i cause sub addr = s.tookTrap w i cause sub addr := by
  obtain ⟨hbase, hhandler⟩ := h
  have hnone : ¬ w.handler.isSome = true := by simp [hhandler]
  simp only [takeTrap, State.enterTrap, if_neg hnone, if_neg hbase]
  rfl

/-! ### What stops a memory word (12 R277; 04 R107; 01 R34, R37) -/

theorem memAccess_of_full {w : Wave} (h : 63 ≤ w.outst) (s : State) (i : Issue) (x : Access) : memAccess s w i x = .next s.stall :=
  if_pos h

section
variable {s s1 : State} {w : Wave} {i : Issue} {x : Access} (hroom : w.outst < 63)
include hroom

/-- A release that what it orders still holds back. -/
theorem memAccess_of_waiting
    (hrel : (if isRelease x.order then s.releaseAt w i.arm (s.clampScope w.part x.scope).2 else (s, true)) = (s1, false)) :
    memAccess s w i x = .next s1.stall := by
  rw [memAccess, if_neg (Nat.not_le.mpr hroom)]
  simp only [hrel, Bool.not_false, if_true]
  rfl

variable (hrel : (if isRelease x.order then s.releaseAt w i.arm (s.clampScope w.part x.scope).2 else (s, true)) = (s1, true))
include hrel

theorem memAccess_of_poison (hlanes : x.lanes = .poison) : memAccess s w i x = poisonTrap s1 (s1.again w) i := by
  rw [memAccess, if_neg (Nat.not_le.mpr hroom)]
  simp only [hrel, hlanes, Bool.not_true, Bool.false_eq_true, if_false]

theorem memAccess_of_misaligned {a : Nat} (hlanes : x.lanes = .misaligned a) :
    memAccess s w i x = takeTrap s1 (s1.again w) i 3 0 a := by
  rw [memAccess, if_neg (Nat.not_le.mpr hroom)]
  simp only [hrel, hlanes, Bool.not_true, Bool.false_eq_true, if_false]

variable {ls : List LaneReq} (hlanes : x.lanes = .ok ls)
include hlanes

theorem memAccess_of_walk {pages : List Nat}
    (hplace : s1.placeLanes (s1.again w) ((s1.again w).issuing i) x.tierOk x.acc x.size ls = .walk pages) :
    memAccess s w i x = .next (s1.waitForWalks (s1.again w) i pages) := by
  rw [Wave.issuing] at hplace
  rw [memAccess, if_neg (Nat.not_le.mpr hroom)]
  simp only [hrel, hlanes, hplace, Bool.not_true, Bool.false_eq_true, if_false]

theorem memAccess_of_deny {a sub level : Nat}
    (hplace : s1.placeLanes (s1.again w) ((s1.again w).issuing i) x.tierOk x.acc x.size ls = .deny a sub level) :
    memAccess s w i x = .next (s1.refuseWord (s1.again w) i i.trapPc a sub level x.acc false) := by
  rw [Wave.issuing] at hplace
  rw [memAccess, if_neg (Nat.not_le.mpr hroom)]
  simp only [hrel, hlanes, hplace, Bool.not_true, Bool.false_eq_true, if_false]

end

/-! ### Legal words (09 R217, R218) -/

/-- The fields that lane loads and stores share are legal: the scope, and the pair of registers (12 R275). -/
theorem laneFields_legal {z : BitVec 2} {sc : BitVec 3} {d : BitVec 6} (hsc : sc ≠ 7) (hz : z ≠ 3 ∨ d ≠ 63) :
    illegalIf (badScope sc || (z = 3 && d = 63)) = none := by
  rw [badScope_of_ne hsc]
  obtain hz | hd := hz
  · rw [decide_eq_false hz]
    rfl
  · rw [decide_eq_false hd, Bool.and_false]
    rfl

/-- So are those of GATHER and SCATTER, once their feature has been accepted (09 R218). -/
theorem gatherFields_legal {s : State} {z : BitVec 2} {sc : BitVec 3} {d : BitVec 6} (hfeat : s.feature 6 = true) (hsc : sc ≠ 7)
    (hz : z ≠ 3 ∨ d ≠ 63) : firstOf (needs s .gather) (illegalIf (badScope sc || (z = 3 && d = 63))) = none := by
  have hneeds : needs s .gather = none := if_pos hfeat
  rw [hneeds, laneFields_legal hsc hz]
  rfl

/-- The fields of an ATOMG are legal: the scope, and the registers of its operands (12 R281). -/
theorem atomicFields_legal {p : BitVec 3} {w64 : BitVec 1} {sc : BitVec 3} {d : BitVec 6} (hsc : sc ≠ 7)
    (hd : d.toNat + (if w64 = 1 then 2 else 1) * (if p = 7 then 2 else 1) ≤ 64) :
    illegalIf (badScope sc || 64 < d.toNat + (if w64 = 1 then 2 else 1) * (if p = 7 then 2 else 1)) = none := by
  rw [badScope_of_ne hsc, decide_eq_false (Nat.not_lt.mpr hd)]
  rfl

/-! ### The words (12 R276, R280, R281) -/

/-- A latched word whose base is the pair at `pair` is Poison Consumed with a poisoned base, and otherwise makes the access. -/
def State.Accesses (s : State) (w : Wave) (i : Issue) (ev : Instr) (pair : Nat) (x : Access) : Prop :=
  (w.sPairPoison pair = true → exec ev s = poisonTrap s w i) ∧ (w.sPairPoison pair = false → exec ev s = memAccess s w i x)

/-- A legal word that `baseAccess` takes to a memory access makes that access, of the wave's base pair. -/
theorem State.Accesses.of_base {s : State} {w : Wave} {i : Issue} {ev : Instr} {k : Nat} {x : Wave → Issue → UnitSt → Nat → Access}
    (hexec : exec ev s = baseAccess s ev k fun w i u base => memAccess s w i (x w i u base)) (hlegal : s.Legal w i ev) :
    s.Accesses w i ev (2 * k) (x w i (w.issuing i) (w.sPair (2 * k))) :=
  ⟨fun hp => hexec.trans (baseAccess_poison hlegal hp _), fun hp => hexec.trans (baseAccess_of hlegal hp _)⟩

/-- Settles O14: each word makes its access (`State.Accesses.of_base`), and what stops that is said by the lemmas of `memAccess`. -/
theorem laneAccessTraps : Obligations.LaneAccessTraps := by
  unfold Obligations.LaneAccessTraps
  intro s w i z sc r d o k n p w64 ka ev pair size lanes tierOk acc h hsc
  dsimp only
  intro hword
  have haccess : ∃ x : Access, s.Accesses w i ev pair x ∧ x.lanes = lanes ∧ x.size = size ∧ x.tierOk = tierOk ∧ x.acc = acc
      ∧ x.order = r ∧ x.scope = scopeOf sc := by
    obtain ⟨rfl, hz, rfl, rfl, rfl, rfl, rfl⟩ | ⟨rfl, hz, rfl, rfl, rfl, rfl, rfl⟩ | ⟨rfl, hfeat, hz, rfl, rfl, rfl, rfl, rfl⟩
      | ⟨rfl, hfeat, hz, rfl, rfl, rfl, rfl, rfl⟩ | ⟨rfl, hd, rfl, rfl, rfl, rfl, rfl⟩ := hword
    · have hexec : exec (.ldg z sc r d o k n) s = execLdg z sc r d o k n s := rfl
      exact ⟨_, .of_base hexec ⟨h, laneFields_legal hsc hz⟩, rfl, rfl, rfl, rfl, rfl, rfl⟩
    · have hexec : exec (.stg z sc r d o k n) s = execStg z sc r d o k n s := rfl
      exact ⟨_, .of_base hexec ⟨h, laneFields_legal hsc hz⟩, rfl, rfl, rfl, rfl, rfl, rfl⟩
    · have hexec : exec (.gather z sc r d o k n) s = execGather z sc r d o k n s := rfl
      exact ⟨_, .of_base hexec ⟨h, gatherFields_legal hfeat hsc hz⟩, rfl, rfl, rfl, rfl, rfl, rfl⟩
    · have hexec : exec (.scatter z sc r d o k n) s = execScatter z sc r d o k n s := rfl
      exact ⟨_, .of_base hexec ⟨h, gatherFields_legal hfeat hsc hz⟩, rfl, rfl, rfl, rfl, rfl, rfl⟩
    · have hexec : exec (.atomg p w64 sc r d o ka) s = execAtomg p w64 sc r d o ka s := rfl
      exact ⟨_, .of_base hexec ⟨h, atomicFields_legal hsc hd⟩, rfl, rfl, rfl, rfl, rfl, rfl⟩
  obtain ⟨x, ⟨hpoison, haccess⟩, rfl, rfl, rfl, rfl, rfl, hscope⟩ := haccess
  rw [← hscope]
  refine ⟨fun hp htrap => ?_, fun hp hfull => ?_, fun hp hroom s1 done hrel => ⟨?_, ?_⟩⟩
  · exact (hpoison hp).trans (takeTrap_of_canTrap htrap s i 6 0 _)
  · exact (haccess hp).trans (memAccess_of_full hfull s i x)
  · rintro rfl
    exact (haccess hp).trans (memAccess_of_waiting hroom hrel)
  · rintro rfl
    refine ⟨fun htrap => ⟨fun hl => ?_, fun a hl => ?_⟩, fun ls pages hl hplace => ?_, fun ls a sub level hl hplace => ?_⟩
    · exact ((haccess hp).trans (memAccess_of_poison hroom hrel hl)).trans (takeTrap_of_canTrap htrap s1 i 6 0 _)
    · exact ((haccess hp).trans (memAccess_of_misaligned hroom hrel hl)).trans (takeTrap_of_canTrap htrap s1 i 3 0 a)
    · exact (haccess hp).trans (memAccess_of_walk hroom hrel hl hplace)
    · exact (haccess hp).trans (memAccess_of_deny hroom hrel hl hplace)

end Sys2Proof.Machine
end

section
/-!
PROOFS. O49 fails. `Claims.ReductionCells` says what the header of a broken round's cell reads, and does not ask that memory stands in its
canonical form (`State.Inv`), on which every read after a write rests (`Memory.read_write`): where two cells of memory have one address,
a byte of 0 written there takes the first away and uncovers the second. The counterexample is such a state, which no run reaches (O7).
-/
namespace Sys2Proof.Machine

/-- An open round of cell 0 of module 0, which waits for lead head 0. -/
def waitingRound : Round :=
  { module := 0, ld := 0, cell := 0, gen := 0, broken := false, op := 0, fmt := 0, nelem := 1, mask := 1, arrived := [] }

/-- Module 0 loses lead head 0 while the round is open; memory has two cells for the low byte of its cell's ARRIVED. -/
def doubledCell : State :=
  { State.reset with
    call := .headGroupLost 0 0, rounds := [waitingRound], mem := [(moduleKey 0 12, 1), (moduleKey 0 12, 7)] }

/-- That state once the round is broken, before the routes follow. -/
def doubledCellBroken : State := State.breakRound { doubledCell with lostHeads := [(0, 0)] } waitingRound

theorem exec_doubledCell : exec .headGroupLost doubledCell = .next (doubledCellBroken.reroute doubledCell) := rfl

theorem arrived_doubledCellBroken : bitsAt (doubledCellBroken.mem.readNat (moduleKey 0 0) 16) 96 16 = 7 := by decide +kernel

/-- Refutes O49: in `doubledCell` the loss of the head group breaks one round, whose cell's ARRIVED then reads 7 and not 0
(`arrived_doubledCellBroken`). -/
theorem not_moduleServices : ¬ Obligations.ModuleServices := by
  unfold Obligations.ModuleServices
  rintro ⟨-, hcells⟩
  obtain ⟨-, -, -, hlost⟩ := hcells doubledCell
    { module := 0, ld := 0, lead := 0, port := 0, subop := 0, tag := 0, addr := 0, a := 0, b := 0, payload := [] }
  obtain ⟨u, -, -, -, -, -, -, -, -, -, -, hone, -⟩ := hlost 0 0 rfl
  obtain ⟨t, hexec, -, -, -, -, -, -, harrived, -⟩ := hone waitingRound rfl
  have hsame : doubledCellBroken.reroute doubledCell = t.reroute doubledCell :=
    Host.Outcome.next.inj (exec_doubledCell.symm.trans hexec)
  have hmem : doubledCellBroken.mem = t.mem := by simpa only [State.reroute_mem] using congrArg State.mem hsame
  have hseven := arrived_doubledCellBroken
  rw [hmem] at hseven
  exact absurd (hseven.symm.trans harrived) (by decide)

end Sys2Proof.Machine
end

section
/-!
PROOFS. O51: what a request packet does at its receiver, by its stream and its sequence number (`State.receive_ready` and the cases after
it), and what the requests perform: the checks that they share (`f_of_<outcome>` for `State.remoteCheck` and `State.relayCheck`), then
each one's effect.
-/
namespace Sys2Proof.Machine

/-! ### A request by its sequence number (03 R89) -/

theorem State.receive_elsewhere {s : State} {p : Packet} (h : p.dst ≠ s.pod.self) (perform : State → Packet → Served) :
    s.receive p perform = s := if_pos h

/-- A request for which no context can be opened is turned away as busy. -/
theorem State.receive_unopened {s : State} {p : Packet} (h : p.dst = s.pod.self)
    (hctx : (s.heard p.src).openCtx ((s.heard p.src).rxCtx p) = .stall ∨ (s.heard p.src).openCtx ((s.heard p.src).rxCtx p) = .refused)
    (perform : State → Packet → Served) : s.receive p perform = (s.heard p.src).reply p .nak 0 1 0 [] 0 := by
  obtain hctx | hctx := hctx <;> simp [State.receive, h, hctx]

/-- A request with its context open, in the state `s1`, goes by its stream. -/
theorem State.receive_ready {s s1 : State} {p : Packet} (h : p.dst = s.pod.self)
    (hctx : (s.heard p.src).openCtx ((s.heard p.src).rxCtx p) = .ready s1) (perform : State → Packet → Served) :
    s.receive p perform =
      if (s1.rxStream p).frozen then s1
      else if (s1.rxStream p).inHand = some p then s1.afterServing p true (perform s1 p)
      else if p.seq = (s1.rxStream p).expected then
        if ((s1.ctx? (s1.rxCtx p)).map Rctx.spilled).getD false || s1.unperformed p then s1.sendNak p (s1.rxStream p).expected 1
        else s1.afterServing p false (perform s1 p)
      else if seqBefore (s1.rxStream p).expected p.seq then
        if (s1.rxStream p).lastNak = some (s1.rxStream p).expected && s1.now < (s1.rxStream p).nakAt + 4096 then s1
        else s1.sendNak p (s1.rxStream p).expected 0
      else s1.answerOld p := by
  rw [State.receive, if_neg (not_not_intro h)]
  simp only [hctx]

/-- An older request whose response is kept is answered with it again. -/
theorem State.answerOld_of_find {s : State} {p r : Packet} (h : (s.rxStream p).responses.find? (fun x => x.seq = p.seq) = some r) :
    s.answerOld p = s.putPacket p.src r := by
  simp only [State.answerOld, h]

/-- No context of the identity stands in a backing table. -/
theorem State.spilled_eq_false {s : State} {id : CtxId} :
    ((s.ctx? id).map Rctx.spilled).getD false = false ↔ ∀ c, s.ctx? id = some c → c.spilled = false := by
  cases s.ctx? id <;> simp

section
variable {s s1 : State} {p : Packet} (hdst : p.dst = s.pod.self)
  (hctx : (s.heard p.src).openCtx ((s.heard p.src).rxCtx p) = .ready s1) (perform : State → Packet → Served)
include hdst hctx

theorem State.receive_frozen (hfrozen : (s1.rxStream p).frozen = true) : s.receive p perform = s1 := by
  rw [State.receive_ready hdst hctx, if_pos hfrozen]

variable (hfrozen : (s1.rxStream p).frozen = false)
include hfrozen

theorem State.receive_inHand (hhand : (s1.rxStream p).inHand = some p) :
    s.receive p perform = s1.afterServing p true (perform s1 p) := by
  rw [State.receive_ready hdst hctx, if_neg (ne_true_of_eq_false hfrozen), if_pos hhand]

variable (hhand : (s1.rxStream p).inHand ≠ some p)
include hhand

/-- The expected request is performed when its context is cached and nothing before it waits. -/
theorem State.receive_expected (hseq : p.seq = (s1.rxStream p).expected)
    (hcached : ∀ c, s1.ctx? (s1.rxCtx p) = some c → c.spilled = false) (hdone : s1.unperformed p = false) :
    s.receive p perform = s1.afterServing p false (perform s1 p) := by
  rw [State.receive_ready hdst hctx, if_neg (ne_true_of_eq_false hfrozen), if_neg hhand, if_pos hseq,
    State.spilled_eq_false.mpr hcached, hdone]
  rfl

/-- Otherwise it is turned away as busy. -/
theorem State.receive_busy (hseq : p.seq = (s1.rxStream p).expected)
    (hwait : s1.unperformed p = true ∨ ¬ ∀ c, s1.ctx? (s1.rxCtx p) = some c → c.spilled = false) :
    s.receive p perform = s1.sendNak p (s1.rxStream p).expected 1 := by
  have hwaits : (((s1.ctx? (s1.rxCtx p)).map Rctx.spilled).getD false || s1.unperformed p) = true := by
    obtain hlate | hspilled := hwait
    · rw [hlate, Bool.or_true]
    · rw [Bool.eq_true_of_not_eq_false (mt State.spilled_eq_false.mp hspilled), Bool.true_or]
  rw [State.receive_ready hdst hctx, if_neg (ne_true_of_eq_false hfrozen), if_neg hhand, if_pos hseq, if_pos hwaits]

/-- A request ahead of the expected one gets one NAK of it. -/
theorem State.receive_ahead (hseq : p.seq ≠ (s1.rxStream p).expected) (hahead : seqBefore (s1.rxStream p).expected p.seq = true) :
    s.receive p perform =
      if (s1.rxStream p).lastNak = some (s1.rxStream p).expected ∧ s1.now < (s1.rxStream p).nakAt + 4096 then s1
      else s1.sendNak p (s1.rxStream p).expected 0 := by
  rw [State.receive_ready hdst hctx, if_neg (ne_true_of_eq_false hfrozen), if_neg hhand, if_neg hseq, if_pos hahead]
  simp only [Bool.and_eq_true, decide_eq_true_eq]

/-- A request behind it is answered again. -/
theorem State.receive_behind (hseq : p.seq ≠ (s1.rxStream p).expected) (hbehind : seqBefore (s1.rxStream p).expected p.seq = false) :
    s.receive p perform = s1.answerOld p := by
  rw [State.receive_ready hdst hctx, if_neg (ne_true_of_eq_false hfrozen), if_neg hhand, if_neg hseq,
    if_neg (ne_true_of_eq_false hbehind)]

end

theorem requestPackets : Claims.RequestPackets := by
  intro s p serves
  have hserves (perform : State → Packet → Served) : serves perform (.next (s.receive p perform)) := by
    refine ⟨fun hdst => ?_, fun hdst hctx => ?_, fun s1 hdst hctx => ?_⟩
    · rw [State.receive_elsewhere hdst]
    · rw [State.receive_unopened hdst hctx]
    intro t here performed
    have hperformed {held : Bool} (h : s.receive p perform = s1.afterServing p held (perform s1 p)) : performed (perform s1 p) :=
      ⟨fun s2 hx => by rw [h, hx, State.afterServing], fun s2 d q hx => by rw [h, hx, State.afterServing],
        fun s2 hx => by rw [h, hx, State.afterServing], fun s2 hx => by rw [h, hx, State.afterServing]; rfl,
        fun sub level hx => by rw [h, hx, State.afterServing]⟩
    refine ⟨fun hfrozen => ?_, fun hfrozen hhand => ?_, fun hfrozen hhand => ⟨fun hseq hhere hdone => ?_, fun hseq hwait => ?_,
      fun hseq hahead => ?_, fun hseq hbehind r hr => ?_⟩⟩
    · rw [State.receive_frozen hdst hctx perform hfrozen]
    · have hreceive := State.receive_inHand hdst hctx perform hfrozen hhand
      exact ⟨hperformed hreceive, fun s2 hx => by rw [hreceive, hx, State.afterServing, if_pos rfl]⟩
    · have hreceive := State.receive_expected hdst hctx perform hfrozen hhand hseq hhere hdone
      exact ⟨hperformed hreceive, fun s2 hx => by rw [hreceive, hx]; rfl⟩
    · rw [State.receive_busy hdst hctx perform hfrozen hhand hseq hwait]
    · rw [State.receive_ahead hdst hctx perform hfrozen hhand hseq hahead]
    · rw [State.receive_behind hdst hctx perform hfrozen hhand hseq hbehind, State.answerOld_of_find hr]
  refine ⟨fun hc => ?_, fun hc => ?_, fun hc => ?_, fun hc => ?_, fun hc => ?_, fun hc => ?_⟩
  · change serves _ (execRwriPacket s)
    rw [execRwriPacket, hc]
    exact hserves performRwri
  · change serves _ (execRrdPacket s)
    rw [execRrdPacket, hc]
    exact hserves performRrd
  · change serves _ (execRatomPacket s)
    rw [execRatomPacket, hc]
    exact hserves performRatom
  · change serves _ (execRelayedRead s)
    rw [execRelayedRead, hc]
    exact hserves performRelayedRead
  · change serves _ (execRelayedWrite s)
    rw [execRelayedWrite, hc]
    exact hserves performRelayedWrite
  · change serves _ (execRelayedAtomic s)
    rw [execRelayedAtomic, hc]
    exact hserves performRelayedAtomic

/-! ### The checks of a remote request (01 R24, R31 to R33) -/

section
variable {s : State} {p : Packet} {q : Part} {n : Nat} {pre : Part → Option Nat} {room : Part → Bool}
  {f : State → Part → Nat → Bool → Served}

theorem State.remoteCheck_of_badAsid (hq : s.part? p.keyPart = some q) (h : q.asidCount ≤ p.keyAsid) :
    s.remoteCheck p n pre room f = .refused 0x0D 15 := by
  simp only [State.remoteCheck, hq, if_pos h]

theorem State.remoteCheck_of_pre (hq : s.part? p.keyPart = some q) (hasid : p.keyAsid < q.asidCount) {sub : Nat} (h : pre q = some sub) :
    s.remoteCheck p n pre room f = .refused sub 15 := by
  simp only [State.remoteCheck, hq, if_neg (Nat.not_le.mpr hasid), h]

theorem State.remoteCheck_of_ungranted (hq : s.part? p.keyPart = some q) (hasid : p.keyAsid < q.asidCount) (hpre : pre q = none)
    (h : q.grants? p n (s.wasAccepted p) = false) :
    s.remoteCheck p n pre room f = .refused (if q.grants? p n true then 0x0C else 0x0B) 15 := by
  simp only [State.remoteCheck, hq, if_neg (Nat.not_le.mpr hasid), hpre, h, Bool.not_false, if_true]

/-- A request that waits for a walk is accepted with it, where there is room for it. -/
theorem State.remoteCheck_of_miss (hq : s.part? p.keyPart = some q) (hasid : p.keyAsid < q.asidCount) (hpre : pre q = none)
    (hgrant : q.grants? p n (s.wasAccepted p) = true) {s1 : State} (h : s.remoteXlate q p n = (s1, .miss true)) :
    s.remoteCheck p n pre room f = if room q then .walk s1 else .busy s := by
  simp only [State.remoteCheck, hq, if_neg (Nat.not_le.mpr hasid), hpre, hgrant, h, Bool.not_true, Bool.false_eq_true, if_false]

/-- A request that passes its checks has its effect. -/
theorem State.remoteCheck_of_ok (hq : s.part? p.keyPart = some q) (hasid : p.keyAsid < q.asidCount) (hpre : pre q = none)
    (hgrant : q.grants? p n (s.wasAccepted p) = true) {s1 : State} {pa key : Nat} {na : Bool} (h : s.remoteXlate q p n = (s1, .ok pa na))
    (hkey : keyOfPa s1.pod pa = some key) : s.remoteCheck p n pre room f = f s1 q key na := by
  simp only [State.remoteCheck, hq, if_neg (Nat.not_le.mpr hasid), hpre, hgrant, h, hkey, Bool.not_true, Bool.false_eq_true, if_false]

end

/-- A relayed access passes its checks where its module's attachment is up. -/
theorem State.relayCheck_of_up {s : State} {p : Packet} {a : Nat} (ha : s.pod.attOf p.module = some a) (hup : s.pod.attUp a = true)
    (f : State → Nat → Served) : s.relayCheck p f = f s (moduleKey p.module p.addr) := by
  simp only [State.relayCheck, ha, hup, if_true]

theorem State.relayCheck_of_down {s : State} {p : Packet} {a : Nat} (ha : s.pod.attOf p.module = some a) (hdown : s.pod.attUp a = false)
    (f : State → Nat → Served) : s.relayCheck p f = .refused 9 15 := by
  simp only [State.relayCheck, ha, hdown, Bool.false_eq_true, if_false]

/-! ### Notifications (03 R93) -/

theorem State.nqRoom_iff {s : State} {desc : Nat} :
    s.nqRoom desc = true ↔ (s.nqTail desc + 2 ^ 32 - s.nqHead desc) % 2 ^ 32 < s.nqSize desc := decide_eq_true_iff

/-- A notification whose record and TAIL can be written wakes the oldest sleeper of its descriptor. -/
theorem State.notify_of {s s1 s2 : State} {q : Part} {r : Requester} {p : Packet}
    (hrec : s.homeWrite q.num r (s.nqRing (q.nqDesc p.keyAsid) + 8 * (s.nqTail (q.nqDesc p.keyAsid) % s.nqSize (q.nqDesc p.keyAsid)))
      (natToBytes 8 (p.src * 2 ^ 58 + p.stream * 2 ^ 56 + p.imm % 2 ^ 32)) false = (s1, true))
    (htail : s1.homeWrite q.num r (q.nqDesc p.keyAsid + 12) (natToBytes 4 (s.nqTail (q.nqDesc p.keyAsid) + 1)) false = (s2, true)) :
    s.notify q r p = (s2.wakeOldest (nqSleep (q.nqDesc p.keyAsid)), true) := by
  simp only [State.notify, hrec, htail, Bool.not_true, Bool.false_eq_true, if_false, if_true]

/-! ### What the requests perform -/

theorem remoteRequestsPerform : Claims.RemoteRequestsPerform := by
  intro s p q n hq
  dsimp only
  refine ⟨fun hasid => ⟨?_, ?_, ?_⟩, fun hasid hn hgrant => ⟨?_, fun hen => ?_⟩, ?_, ?_, ?_,
    fun s1 hn hasid hgrant hmiss => ⟨?_, fun hen => ?_⟩, fun a ha => ⟨fun hdown => ⟨?_, ?_, ?_⟩, fun hup => ⟨fun t hreach => ?_, fun t u hlines hdata => ?_, ?_⟩⟩⟩
  · exact State.remoteCheck_of_badAsid hq hasid
  · exact State.remoteCheck_of_badAsid hq hasid
  · exact State.remoteCheck_of_badAsid hq hasid
  · subst hn
    exact State.remoteCheck_of_ungranted hq hasid rfl hgrant
  · exact State.remoteCheck_of_pre hq hasid (by simp only [hen, Bool.false_eq_true, if_false])
  · rintro s1 pa key na s2 rfl ⟨hasid, hgrant, hxlate, hkey⟩ hreach
    rw [performRrd, State.remoteCheck_of_ok hq hasid rfl hgrant hxlate hkey]
    simp only [hreach, if_true]
  · rintro s1 pa key na rfl ⟨hasid, hgrant, hxlate, hkey⟩
    exact State.remoteCheck_of_ok hq hasid rfl hgrant hxlate hkey
  · rintro s1 pa key na s2 s4 s5 rfl ⟨hasid, hgrant, hxlate, hkey⟩ hen hroom hlines s3 hdata hrec htail
    rw [performRwri, State.remoteCheck_of_ok hq hasid (if_pos hen) hgrant hxlate hkey]
    simp only [State.nqRoom_iff.mpr hroom, hlines, hdata, State.notify_of hrec htail, Bool.not_true, Bool.false_eq_true, if_false, if_true]
  · subst hn
    exact State.remoteCheck_of_miss hq hasid rfl hgrant hmiss |>.trans (if_pos rfl)
  · subst hn
    rw [performRwri, State.remoteCheck_of_miss hq hasid (if_pos hen) hgrant hmiss]
    simp only [State.nqRoom_iff]
  · exact State.relayCheck_of_down ha hdown _
  · exact State.relayCheck_of_down ha hdown _
  · exact State.relayCheck_of_down ha hdown _
  · rw [performRelayedRead, State.relayCheck_of_up ha hup]
    simp only [hreach, if_true]
  · rw [performRelayedWrite, State.relayCheck_of_up ha hup]
    simp only [hlines, hdata, Bool.not_true, Bool.false_eq_true, if_false, if_true]
  · exact State.relayCheck_of_up ha hup _

/-- Settles O51: a packet by its sequence number (`requestPackets`), and what it performs (`remoteRequestsPerform`). -/
theorem requestsAtTheReceiver : Obligations.RequestsAtTheReceiver := ⟨requestPackets, remoteRequestsPerform⟩

end Sys2Proof.Machine
end

section
/-!
PROOFS. O52: what an answer does at its source (`onAnswer_of`), and the Runner's own clocks. A peer that has been silent is struck dead
(`State.strike`); failing its requests then leaves the Runner as it is (`State.peerDead_runner`), so that its contexts and the send buffer
are those of the strike.
-/
namespace Sys2Proof.Machine

/-! ### Answers (03 R89, R90) -/

/-- An answer for a stream of this package does what it asks, once its peer has been heard. -/
theorem onAnswer_of {s : State} {p : Packet} {c : Rctx} (hdst : p.dst = s.pod.self) (hctx : (s.heard p.src).senderCtx p = some c)
    (f : State → Rctx → State) : onAnswer s p f = .next (f (s.heard p.src) c) := by
  simp only [onAnswer, hdst, hctx, ne_eq, not_true_eq_false, if_false]

theorem ackCompletes_eq (t : PacketType) : ackCompletes t = (decide (t = .rwri) || decide (t = .relayedWrite)) := by
  cases t <;> rfl

theorem answersAtTheSource : Claims.AnswersAtTheSource := by
  intro s p c hdst hctx
  have answered := fun f => onAnswer_of hdst hctx f
  refine ⟨fun hc => ?_, fun hc => ?_, fun hc hfirst => ?_, fun u hc hfinal hu => ?_, fun hc => ?_, fun u hc hu => ?_⟩
  · change execAck s = _
    rw [execAck, hc]
    exact answered _
  · change execNak s = _
    rw [execNak, hc]
    exact answered _
  · change execFault s = _
    rw [execFault, hc]
    exact (answered _).trans (by rw [if_pos hfirst])
  · change execFault s = _
    rw [execFault, hc]
    exact (answered _).trans (by rw [if_neg hfinal, hu])
  · change execResume s = _
    rw [execResume, hc]
    exact answered _
  · have hdata : (c.stream p.stream).unacked.find? (fun u => u.packet.seq = p.seq && !ackCompletes u.packet.type) = some u := by
      simpa only [ackCompletes_eq] using hu
    change execResp s = _
    rw [execResp, hc]
    exact (answered _).trans (by rw [hdata])

/-! ### Acknowledgements that are due (03 R89) -/

/-- With no atomic waiting and no stream's hand full, every accepted request has been performed. -/
theorem State.unperformed_of_idle {s : State} (hatoms : s.atomQ = [])
    (hhands : ∀ x ∈ s.runner.ctxs, ∀ y ∈ x.streams, y.inHand = none) (p : Packet) : s.unperformed p = false := by
  have hstream : (s.rxStream p).inHand = none := by
    unfold State.rxStream
    cases hctx : s.ctx? (s.rxCtx p) with
    | none => rfl
    | some c =>
      change (c.streams.getD p.stream Stream.zero).inHand = none
      rw [List.getD_eq_getElem?_getD]
      cases hget : c.streams[p.stream]? with
      | none => rfl
      | some t => exact hhands c (List.mem_of_find?_eq_some hctx) t (List.mem_of_getElem? hget)
  simp [State.unperformed, State.atomPending, hatoms, hstream]

/-- The request whose answer an acknowledgement of a stream is (03 R87). -/
def State.ackOf (s : State) (id : CtxId) (k : Nat) : Packet :=
  { s.packetTo id.peer .ack with
    src := id.peer, dst := s.pod.self, stream := k, system := id.system, module := id.module,
    keyPart := if id.system then 0 else id.part, keyAsid := if id.system then 0 else id.asid,
    sndAsid := if id.system then 0 else id.keyAsid }

/-- A due acknowledgement of a stream all of whose requests have been performed covers the one before the next expected. -/
theorem execAckInterval_of {s : State} {id : CtxId} {k : Nat} {c : Rctx} (hc : s.call = .ackInterval id k) (hctx : s.ctx? id = some c)
    (hdue : (c.stream k).ackDue ≠ 0) (hdone : s.unperformed (s.ackOf id k) = false) :
    execAckInterval s = .next ((s.modStream id k fun x => { x with ackDue := 0 }).reply (s.ackOf id k) .ack
      (prevSeqNo (c.stream k).expected) 0 0 [] 0) := by
  rw [State.ackOf] at hdone ⊢
  rw [execAckInterval, hc]
  simp only [hctx, if_neg hdue, hdone, Bool.false_eq_true, if_false]

theorem State.modStream_pod (s : State) (id : CtxId) (k : Nat) (f : Stream → Stream) : (s.modStream id k f).pod = s.pod := by
  unfold State.modStream
  split <;> rfl

/-! ### Peers that are dead (03 R92) -/

theorem State.failRequest_runner (s : State) (u : Unacked) (cause sub : Nat) : (s.failRequest u cause sub).runner = s.runner := by
  simp [State.failRequest]

/-- Once a peer has been struck dead, failing its requests leaves the Runner. -/
theorem State.peerDead_runner (s : State) (peer sub : Nat) : (s.peerDead peer sub).runner = (s.strike peer).runner :=
  foldl_proj State.runner (fun t u => State.failRequest_runner t u 11 sub) _ _

/-- What stays in a send buffer from which a test has picked is not picked, unless a put to its queue is outstanding. -/
theorem not_picked_of_mem_dropSending {f : Sending → Bool} {z : Sending} :
    ∀ {l : List Sending} {busy : List Nat}, z.via ∉ busy → z ∈ dropSending f busy l → f z = false
  | x :: xs, busy, hz, h => by
    unfold dropSending at h
    split at h
    next hx =>
      obtain rfl | h := List.mem_cons.mp h
      · exact absurd (List.contains_iff_mem.mp hx) hz
      · exact not_picked_of_mem_dropSending (fun hb => hz (List.mem_filter.mp hb).1) h
    next =>
      split at h
      next => exact not_picked_of_mem_dropSending hz h
      next hx =>
        obtain rfl | h := List.mem_cons.mp h
        · exact Bool.eq_false_iff.mpr hx
        · exact not_picked_of_mem_dropSending hz h

theorem Runner.not_mem_putting {r : Runner} {via : Nat} (h : r.asking via false = false) : via ∉ r.putting := by
  intro hv
  obtain ⟨x, hx, rfl⟩ := List.mem_map.mp hv
  obtain ⟨hmem, hput⟩ := List.mem_filter.mp hx
  exact List.any_eq_false.mp h x hmem (by simpa using hput)

/-- Nothing waits in the send buffer for a dead peer, but what is being put. -/
theorem State.peerDead_sending {s : State} {peer sub : Nat} {x : Sending} (hx : x ∈ (s.peerDead peer sub).runner.sending)
    (hidle : s.runner.asking x.via false = false) : x.packet.dst ≠ peer := by
  rw [State.peerDead_runner] at hx
  exact of_decide_eq_false (not_picked_of_mem_dropSending (Runner.not_mem_putting hidle) hx)

theorem State.peerDead_severed (s : State) (peer sub : Nat) : Severed peer (s.peerDead peer sub) := by
  have hs := s.peerDead_sends peer sub
  exact (s.strike_severed peer).of_keeps hs.toRerouted (hs.keepsPeer peer)

/-! ### The Runner's clocks -/

theorem Runner.full_eq_false {r : Runner} (h : (r.ctxs.filter fun x => !x.spilled).length < ctxCacheSize) : r.full = false :=
  decide_eq_false (Nat.not_le.mpr h)

theorem runnerTimers : Claims.RunnerTimers := by
  intro s
  refine ⟨fun id k c hctx => ⟨fun n hc hbusy hn => ?_, fun hc hdue hatoms hhands => ?_, fun hc hspilled hroom => ?_⟩,
    fun peer hc => ?_, fun peer hc htimed => ⟨?_, ?_, ?_, ?_⟩, fun p hc hfwd hdst => ⟨fun via fwd hroute => ?_, fun hroute => ?_⟩⟩
  · have hbusydue : s.busyDue (c.stream k) = true := by simp [State.busyDue, hbusy, hn]
    change execBusyNakResend s = _
    rw [execBusyNakResend, hc]
    simp only [hctx, hbusydue, if_true]
  · refine ⟨_, _, execAckInterval_of hc hctx hdue (State.unperformed_of_idle hatoms hhands _), rfl, rfl, rfl, ?_, rfl, rfl, rfl, rfl,
      fun hid => ?_⟩
    · exact congrArg Pod.self (s.modStream_pod id k _)
    · simp [State.ackOf, hid]
  · change execRelayContextFetch s = _
    rw [execRelayContextFetch, hc]
    simp only [hctx, hspilled, Runner.full_eq_false hroom, Bool.not_true, Bool.not_false, Bool.false_eq_true, if_false, if_true]
  · change execQputRetry s = _
    rw [execQputRetry, hc]
  · change execRelayTimeout s = _
    rw [execRelayTimeout, hc]
    exact congrArg Host.Outcome.next (if_pos htimed)
  · exact (s.peerDead_severed peer 0).1
  · exact fun x hx hidle => State.peerDead_sending hx hidle
  · exact (s.peerDead_severed peer 0).2
  · change execPacketForward s = _
    rw [execPacketForward, hc]
    simp only [hfwd, hdst, hroute, State.forwardPacket, ne_eq, not_false_eq_true, decide_true, Bool.and_self, if_true]
  · change execPacketForward s = _
    rw [execPacketForward, hc]
    simp only [hfwd, hdst, hroute, State.forwardPacket, ne_eq, not_false_eq_true, decide_true, Bool.and_self, if_true]

/-- Settles O52: the answers (`answersAtTheSource`) and the Runner's clocks (`runnerTimers`). -/
theorem answersAndTimersAtTheSource : Obligations.AnswersAndTimersAtTheSource := ⟨answersAtTheSource, runnerTimers⟩

end Sys2Proof.Machine
end

section
/-!
PROOFS. O11: what a store changes. The bytes of a number (`getD_natToBytes`) and the bytes of a mask (`Memory.read_writeMasked`), over the
read after a write.
-/
namespace Sys2Proof.Machine

/-! ### Numbers as bytes (00_scope R13) -/

@[simp] theorem length_natToBytes : ∀ n x : Nat, (natToBytes n x).length = n
  | 0, _ => rfl
  | n + 1, x => congrArg (· + 1) (length_natToBytes n (x / 256))

/-- Byte j of a number. -/
theorem getD_natToBytes : ∀ {n j : Nat} (x : Nat), j < n → (natToBytes n x).getD j 0 = BitVec.ofNat 8 (x / 2 ^ (8 * j))
  | n + 1, 0, x, _ => by simp [natToBytes]
  | n + 1, j + 1, x, h => by
    rw [natToBytes, List.getD_cons_succ, getD_natToBytes (x / 256) (Nat.lt_of_succ_lt_succ h), Nat.div_div_eq_div_mul]
    congr 2
    rw [Nat.mul_succ, Nat.pow_add, Nat.mul_comm]

/-! ### Bytes of a mask (02 R52) -/

/-- A read after bytes are written at some offsets. -/
theorem Memory.read_foldl_write (a k : Nat) (f : Nat → Byte) : ∀ (is : List Nat) {m : Memory}, m.wf = true →
    (is.foldl (fun (x : Memory) i => x.write (a + i) (f i)) m).read k = if a ≤ k ∧ k - a ∈ is then f (k - a) else m.read k
  | [], m, _ => by simp
  | i :: is, m, h => by
    rw [List.foldl_cons, Memory.read_foldl_write a k f is (Memory.wf_write h _ _), Memory.read_write h]
    by_cases hk : k = a + i
    · subst hk
      simp
    · have hne : a ≤ k → k - a ≠ i := fun hle he => hk (by omega)
      by_cases hin : a ≤ k ∧ k - a ∈ is
      · rw [if_pos hin, if_pos ⟨hin.1, List.mem_cons_of_mem _ hin.2⟩]
      · rw [if_neg hin, if_neg hk, if_neg fun hc => hin ⟨hc.1, (List.mem_cons.mp hc.2).resolve_left (hne hc.1)⟩]

/-- A read after the bytes of a mask are written. -/
theorem Memory.read_writeMasked {m : Memory} (h : m.wf = true) (a k : Nat) (bs : List Byte) (mask : Lanes) :
    (m.writeMasked a bs mask).read k
      = if a ≤ k ∧ k < a + 64 ∧ mask.getLsbD (k - a) = true then bs.getD (k - a) 0 else m.read k := by
  rw [Memory.writeMasked, Memory.read_foldl_write a k (fun i => bs.getD i 0) _ h]
  refine if_congr ?_ rfl rfl
  rw [mem_lanesOf]
  exact and_congr_right fun hle => and_congr_left fun _ => by omega

/-! ### The stores (02 R45, R52; 12 R283) -/

theorem State.byteAt_poke {s : State} (h : s.Inv) (key : Nat) (bs : List Byte) (k : Nat) :
    (s.poke key bs).byteAt k = if key ≤ k ∧ k < key + bs.length then bs.getD (k - key) 0 else s.byteAt k :=
  Memory.read_writeBytes key bs k h

theorem State.byteAt_pokeNat {s : State} (h : s.Inv) (key n x k : Nat) :
    (s.pokeNat key n x).byteAt k
      = if key ≤ k ∧ k < key + n then BitVec.ofNat 8 (x / 2 ^ (8 * (k - key))) else s.byteAt k := by
  rw [State.pokeNat, State.byteAt_poke h, length_natToBytes]
  by_cases hk : key ≤ k ∧ k < key + n
  · rw [if_pos hk, if_pos hk, getD_natToBytes x (by omega)]
  · rw [if_neg hk, if_neg hk]

theorem State.qspPart_write {p : OpPart} {v : Nat} (h : p.act = .write v) (s : State) :
    s.qspPart p = (s.pokeNat p.key p.size v, { p with done := true }) := by
  simp only [State.qspPart, h]

theorem State.qspPart_read {p : OpPart} (h : p.act = .read) (s : State) : (s.qspPart p).1 = s := by
  simp only [State.qspPart, h]

/-- Memory after a store at an L2: only the bytes of the mask are written. -/
theorem State.l2Store_mem (s : State) (die key : Nat) (bs : List Byte) (mask : Lanes) :
    (s.l2Store die key bs mask).mem = s.mem.writeMasked key bs mask := by
  unfold State.l2Store
  simp only [State.filled_mem, State.wakeLine_mem]
  split <;> simp

theorem State.byteAt_l2Store {s : State} (h : s.Inv) (die key : Nat) (bs : List Byte) (mask : Lanes) (k : Nat) :
    (s.l2Store die key bs mask).byteAt k
      = if key ≤ k ∧ k < key + 64 ∧ mask.getLsbD (k - key) = true then bs.getD (k - key) 0 else s.byteAt k := by
  rw [State.byteAt, State.l2Store_mem, Memory.read_writeMasked h]
  rfl

/-- Settles O11: the bytes poked, the bytes of a lane's number, and the bytes of a mask. -/
theorem storedBytes : Obligations.StoredBytes := by
  unfold Obligations.StoredBytes
  intro s key bs hinv
  refine ⟨s.byteAt_poke hinv key bs, fun p v k hact hkey => ?_, fun p k hact => ?_, fun die mask => s.byteAt_l2Store hinv die key bs mask⟩
  · rw [State.qspPart_write hact, State.byteAt_pokeNat hinv, hkey]
  · rw [State.qspPart_read hact]

end Sys2Proof.Machine
end

section
/-!
PROOFS. O38: fences, the words on cache lines, and held rows. A fence is `fenceDone` behind its release; a word on lines is one
`gotAll` over them once its lanes translate; a row word is `rowWord` of what `State.pinRow` and `State.currentHold` answer.
-/
namespace Sys2Proof.Machine

/-! ### Fences (04 R108, 05 R145) -/

/-- A fence with an acquire part goes on once it has acted at the clamped scope. -/
theorem fenceDone_acquire {s1 s2 : State} {w : Wave} {sc : Scope}
    (hacq : s1.acquireAt (s1.again w) (s1.clampScope w.part sc).2 = (s2, true)) (i : Issue) :
    fenceDone (s1, true) w i sc true = .next ((s2.clampScope w.part sc).1.after (s2.again w) i) := by
  simp only [fenceDone, hacq, finish_eq, Bool.not_true, Bool.false_eq_true, if_false, if_true]

theorem fenceDone_release (s1 : State) (w : Wave) (i : Issue) (sc : Scope) :
    fenceDone (s1, true) w i sc false = .next ((s1.clampScope w.part sc).1.after (s1.again w) i) := by
  simp only [fenceDone, finish_eq, Bool.not_true, Bool.false_eq_true, if_false]

section
variable {s : State} {w : Wave} {i : Issue} {sc : BitVec 3} (h : s.Latched w i) (hsc : sc ≠ 7)
include h hsc

/-- A word whose scope is its one field that could be illegal. -/
theorem State.legal_of_scope {x : Instr} (hx : illegalSub s w ((w.issuing i).at i) i.lit x = illegalIf (badScope sc)) :
    s.Legal w i x := ⟨h, by rw [hx, badScope_of_ne hsc, illegalIf_false]⟩

theorem execFence_of : execFence sc s
    = fenceDone (s.releaseAt w i.arm (s.clampScope w.part (scopeOf sc)).2) w i (scopeOf sc) true :=
  whenLegal_of (State.legal_of_scope h hsc (illegal_fence s w _ _ sc)) _

theorem execFenceacq_of : execFenceacq sc s
    = fenceDone (s, w.readsDone i.arm (s.clampScope w.part (scopeOf sc)).2) w i (scopeOf sc) true :=
  whenLegal_of (State.legal_of_scope h hsc (illegal_fenceacq s w _ _ sc)) _

theorem execFencerel_of : execFencerel sc s
    = fenceDone (s.releaseAt w i.arm (s.clampScope w.part (scopeOf sc)).2) w i (scopeOf sc) false :=
  whenLegal_of (State.legal_of_scope h hsc (illegal_fencerel s w _ _ sc)) _

theorem execFenceeng_of (hidle : s.engineIdle w = true) : execFenceeng sc s
    = fenceDone (s.releaseAt w i.arm (s.clampScope w.part (scopeOf sc)).2) w i (scopeOf sc) true := by
  refine (whenLegal_of (State.legal_of_scope h hsc (illegal_fenceeng s w _ _ sc)) _).trans ?_
  simp only [hidle, Bool.not_true, Bool.false_eq_true, if_false]

end

/-- The wave of the latched word, read again from the same state. -/
theorem State.Latched.again {s : State} {w : Wave} {i : Issue} (h : s.Latched w i) : s.again w = w := by
  obtain ⟨hseq, hwid⟩ := State.wave?_names h.2
  rw [State.again, hseq, hwid, h.2]
  rfl

theorem scopeOf_narrow {sc : BitVec 3} (h : sc.toNat ≤ 2) : (scopeOf sc).dieOrWider = false ∧ scopeOf sc ≠ .pod := by
  have hcases : sc.toNat = 0 ∨ sc.toNat = 1 ∨ sc.toNat = 2 := by omega
  obtain h0 | h1 | h2 := hcases
  · simp [scopeOf, Scope.ofBits, h0, Scope.dieOrWider, Scope.rank]
  · simp [scopeOf, Scope.ofBits, h1, Scope.dieOrWider, Scope.rank]
  · simp [scopeOf, Scope.ofBits, h2, Scope.dieOrWider, Scope.rank]

theorem State.clampScope_of_ne {sc : Scope} (h : sc ≠ .pod) (s : State) (p : Nat) : s.clampScope p sc = (s, sc) := by
  simp [State.clampScope, h]

theorem State.releaseAt_idle {w : Wave} {sc : Scope} (hpend : w.pend = []) (hsc : sc.dieOrWider = false) (s : State) (a : Arm) :
    s.releaseAt w a sc = (s, true) := by
  simp [State.releaseAt, hpend, hsc]

theorem State.acquireAt_narrow {sc : Scope} (hsc : sc.dieOrWider = false) (s : State) (w : Wave) : s.acquireAt w sc = (s, true) := by
  simp [State.acquireAt, hsc]

theorem fences : Claims.Fences := by
  intro s w i sc h hsc sc1
  refine ⟨fun s1 s2 hrel hacq => ⟨?_, fun hidle => ?_⟩, fun s1 hrel => ?_, fun s2 hreads hacq => ?_, fun hpend hle => ?_⟩
  · change execFence sc s = _
    rw [execFence_of h hsc, hrel]
    exact fenceDone_acquire hacq i
  · change execFenceeng sc s = _
    rw [execFenceeng_of h hsc hidle, hrel]
    exact fenceDone_acquire hacq i
  · change execFencerel sc s = _
    rw [execFencerel_of h hsc, hrel]
    exact fenceDone_release s1 w i _
  · change execFenceacq sc s = _
    rw [execFenceacq_of h hsc, hreads]
    exact fenceDone_acquire (by rw [h.again]; exact hacq) i
  · obtain ⟨hnarrow, hpod⟩ := scopeOf_narrow hle
    have hclamp := State.clampScope_of_ne hpod s w.part
    have hrel := State.releaseAt_idle hpend hnarrow s i.arm
    have hacq : s.acquireAt (s.again w) (s.clampScope w.part (scopeOf sc)).2 = (s, true) := by
      rw [hclamp]
      exact State.acquireAt_narrow hnarrow s _
    have hreads : w.readsDone i.arm (s.clampScope w.part (scopeOf sc)).2 = true := by simp [Wave.readsDone, hpend]
    have hdone : (s.clampScope w.part (scopeOf sc)).1.after (s.again w) i = s.after w i := by rw [hclamp, h.again]
    refine ⟨?_, ?_, ?_⟩
    · change execFence sc s = _
      rw [execFence_of h hsc, hclamp, hrel, fenceDone_acquire hacq, hdone]
    · change execFenceacq sc s = _
      rw [execFenceacq_of h hsc, hreads, fenceDone_acquire hacq, hdone]
    · change execFencerel sc s = _
      rw [execFencerel_of h hsc, hclamp, hrel, fenceDone_release, hdone]

/-! ### Words on cache lines (12 R285) -/

/-- A word on lines whose lanes all translate acts on each line that they name, once, and goes on. -/
theorem lineWord_of {s s1 : State} {w : Wave} {i : Issue} {x : Instr} {o : BitVec 6} {k : BitVec 5} {op : LineOp} {pa : Nat → Nat}
    {e : Nat → TlbEntry} {lines : List Nat} (hlegal : s.Legal w i x) (hbase : w.sPairPoison (2 * k.toNat) = false)
    (hoffs : (w.issuing i).mask &&& (w.v o.toNat).poison = 0)
    (hlanes : ∀ l ∈ lanesOf (w.issuing i).mask,
      s.lineXlate w (w.issuing i) (w.laneAddr o (w.sPair (2 * k.toNat)) l) (op = .invl) = .ok (pa l) (e l))
    (hlines : lines = dedup ((lanesOf (w.issuing i).mask).filterMap fun l => (keyOfPa s.pod (pa l)).map lineKey))
    (hclear : ∀ y ∈ lines, w.overlaps y 128 true = false)
    (hgot : gotAll s lines (fun t y => t.lineOp (coreQuad w.core) y op) = (s1, true)) :
    lineWord s x o k op = .next (s1.after (s1.again w) i) := by
  have hmeets : (lines.any fun y => w.overlaps y 128 true) = false := List.any_eq_false.mpr fun y hy => by simp [hclear y hy]
  have hplaced : ((lanesOf (w.issuing i).mask).map fun l => (w.laneAddr o (w.sPair (2 * k.toNat)) l,
        s.lineXlate w (w.issuing i) (w.laneAddr o (w.sPair (2 * k.toNat)) l) (op = .invl)))
      = (lanesOf (w.issuing i).mask).map fun l => (w.laneAddr o (w.sPair (2 * k.toNat)) l, Xlat.ok (pa l) (e l)) :=
    List.map_congr_left fun l hl => by rw [hlanes l hl]
  have hgranted : (lanesOf (w.issuing i).mask).findSome? (fun _ => (none : Option (Nat × Nat × Nat))) = none :=
    List.findSome?_eq_none_iff.mpr fun _ _ => rfl
  rw [lineWord, baseAccess_of hlegal hbase, if_neg (not_not.mpr hoffs)]
  simp only [hplaced, List.filterMap_map, List.findSome?_map, Function.comp_def, List.filterMap_none, hgranted, ← hlines, hmeets, hgot,
    finish_eq, ne_eq, not_true_eq_false, Bool.false_eq_true, if_false, if_true]

/-- A PREF whose lanes all translate fetches for each, and stays outstanding where a module must answer. -/
theorem execPref_of {s : State} {w : Wave} {i : Issue} {o : BitVec 6} {k : BitVec 5} {n : BitVec 1} {pa : Nat → Nat}
    {e : Nat → TlbEntry} {ps : List OpPart} (hlegal : s.Legal w i (.pref o k n)) (hbase : w.sPairPoison (2 * k.toNat) = false)
    (hoffs : (w.issuing i).mask &&& (w.v o.toNat).poison = 0) (hroom : w.outst < 63)
    (hlanes : ∀ l ∈ lanesOf (w.issuing i).mask,
      s.waveXlate w (w.issuing i) (w.laneAddr o (w.sPair (2 * k.toNat)) l) 1 .read = .ok (pa l) (e l))
    (hparts : ps = (lanesOf (w.issuing i).mask).filterMap fun l => (keyOfPa s.pod (pa l)).map fun key =>
      ({ lane := l, key := key, va := w.laneAddr o (w.sPair (2 * k.toNat)) l, size := 1, act := .prefetch (n = 1), route := .cache,
         age := s.now, noAlloc := (e l).na, na := (e l).na, nt := n = 1, col := false, done := false, val := 0,
         poison := false } : OpPart)) :
    execPref o k n s =
      let x := s.advance w (newOp w i .cache .wave false ps .none)
      .next (x.1.after (if x.2.parts.all fun p => p.done then x.1.again w else (x.1.again w).addOp x.2) i) := by
  have hplaced : ((lanesOf (w.issuing i).mask).map fun l => (l, w.laneAddr o (w.sPair (2 * k.toNat)) l,
        s.waveXlate w (w.issuing i) (w.laneAddr o (w.sPair (2 * k.toNat)) l) 1 .read))
      = (lanesOf (w.issuing i).mask).map fun l => (l, w.laneAddr o (w.sPair (2 * k.toNat)) l, Xlat.ok (pa l) (e l)) :=
    List.map_congr_left fun l hl => by rw [hlanes l hl]
  have hnone : s.charge w.part 0x042 0 = s := by
    unfold State.charge
    split <;> simp
  rw [execPref, baseAccess_of hlegal hbase, if_neg (not_not.mpr hoffs), if_neg (Nat.not_le.mpr hroom)]
  simp only [hplaced, List.filterMap_map, List.filter_map, Function.comp_def, List.filterMap_none, ← hparts, List.filter_false,
    List.map_nil, List.length_nil, hnone, finish_eq, ne_eq, not_true_eq_false, if_false]
  split <;> rfl

theorem cacheWords : Claims.CacheWords := by
  intro s w i o k n h hbase hoffs u va
  refine ⟨fun p hp pa e s1 hlanes => ?_, fun pa e hroom hlanes => ?_⟩
  · simp only [List.mem_cons, List.not_mem_nil, or_false] at hp
    obtain rfl | rfl | rfl := hp
    · change _ → _ → execWbl o k n s = _
      exact lineWord_of ⟨h, illegal_wbl _ _ _ _ _ _ _⟩ hbase hoffs hlanes rfl
    · change _ → _ → execInvl o k n s = _
      exact lineWord_of ⟨h, illegal_invl _ _ _ _ _ _ _⟩ hbase hoffs hlanes rfl
    · change _ → _ → execFlushl o k n s = _
      exact lineWord_of ⟨h, illegal_flushl _ _ _ _ _ _ _⟩ hbase hoffs hlanes rfl
  · change execPref o k n s = _
    exact execPref_of ⟨h, illegal_pref _ _ _ _ _ _ _⟩ hbase hoffs hroom hlanes rfl

/-! ### Held rows (02 R62, R63; 12 R286 to R288) -/

/-- The hold slot of the bank that holds a tier 0 address. -/
def State.slotAt (s : State) (pa : Nat) : RowSlot := s.rowSlot (pa / Config.hbmWindow) (hbmBank (pa % Config.hbmWindow))

/-- The rows of a stack that a partition may hold. -/
def State.rowQuota (s : State) (stack part : Nat) : Nat := ((s.part? part).map fun p => p.quotas.getD stack 0).getD 0

section
variable {s : State} {part pa : Nat}

theorem State.pinRow_other (hheld : (s.slotAt pa).held = true)
    (hother : (s.slotAt pa).part ≠ part ∨ (s.slotAt pa).row ≠ hbmRow (pa % Config.hbmWindow)) : s.pinRow part pa = (s, 0, 2) := by
  rw [State.slotAt] at hheld hother
  have hmine : ¬ ((s.rowSlot (pa / Config.hbmWindow) (hbmBank (pa % Config.hbmWindow))).part = part
      ∧ (s.rowSlot (pa / Config.hbmWindow) (hbmBank (pa % Config.hbmWindow))).row = hbmRow (pa % Config.hbmWindow)) :=
    not_and_or.mpr hother
  simp [State.pinRow, hheld, hmine]

theorem State.pinRow_again (hheld : (s.slotAt pa).held = true) (hpart : (s.slotAt pa).part = part)
    (hrow : (s.slotAt pa).row = hbmRow (pa % Config.hbmWindow)) :
    s.pinRow part pa = (s, rowHandle (s.slotAt pa).gen (pa / Config.hbmWindow) (hbmBank (pa % Config.hbmWindow)), 1) := by
  rw [State.slotAt] at *
  simp [State.pinRow, hheld, hpart, hrow]

variable (hfree : (s.slotAt pa).held = false)
include hfree

theorem State.pinRow_overQuota (hquota : s.rowQuota (pa / Config.hbmWindow) part ≤ s.rowsOf (pa / Config.hbmWindow) part) :
    s.pinRow part pa = (s, 0, 3) := by
  rw [State.slotAt] at hfree
  rw [State.rowQuota] at hquota
  simp only [State.pinRow, hfree, hquota, Bool.false_eq_true, if_false, if_true]

variable (hquota : s.rowsOf (pa / Config.hbmWindow) part < s.rowQuota (pa / Config.hbmWindow) part)
include hquota

theorem State.pinRow_full (hfull : 256 ≤ s.rowsHeld (pa / Config.hbmWindow)) : s.pinRow part pa = (s, 0, 4) := by
  rw [State.slotAt] at hfree
  rw [State.rowQuota] at hquota
  simp only [State.pinRow, hfree, if_neg (Nat.not_le.mpr hquota), if_pos hfull, Bool.false_eq_true, if_false]

theorem State.pinRow_granted (hroom : s.rowsHeld (pa / Config.hbmWindow) < 256) :
    s.pinRow part pa
      = (s.setSlot { s.slotAt pa with
            gen := nextGen (s.slotAt pa).gen, held := true, part := part, row := hbmRow (pa % Config.hbmWindow), dropped := false },
         rowHandle (nextGen (s.slotAt pa).gen) (pa / Config.hbmWindow) (hbmBank (pa % Config.hbmWindow)), 0) := by
  rw [State.slotAt] at *
  rw [State.rowQuota] at hquota
  simp only [State.pinRow, hfree, if_neg (Nat.not_le.mpr hquota), if_neg (Nat.not_le.mpr hroom), Bool.false_eq_true, if_false]

end

/-- The handle names a hold that the partition has now (R62). -/
def State.HoldCurrent (s : State) (part handle : Nat) : Prop :=
  handle / 4096 % 16 = 0 ∧ (s.rowSlot (handle / 512 % 8) (handle % 512)).held = true
    ∧ (s.rowSlot (handle / 512 % 8) (handle % 512)).part = part ∧ (s.rowSlot (handle / 512 % 8) (handle % 512)).gen = handle / 65536

section
variable {s : State} {part : Nat} (x : Word)

/-- The fields of a handle (R62). -/
theorem handle_fields : bitsAt x.toNat 9 3 = x.toNat / 512 % 8 ∧ bitsAt x.toNat 0 9 = x.toNat % 512
    ∧ bitsAt x.toNat 12 4 = x.toNat / 4096 % 16 ∧ bitsAt x.toNat 16 16 = x.toNat / 65536 := by
  have := x.isLt
  refine ⟨rfl, by simp [bitsAt], rfl, ?_⟩
  rw [bitsAt]
  omega

theorem State.currentHold_of_current (h : s.HoldCurrent part x.toNat) :
    s.currentHold part x.toNat = some (s.rowSlot (x.toNat / 512 % 8) (x.toNat % 512)) := by
  obtain ⟨hstack, hbank, hzero, hgen⟩ := handle_fields x
  obtain ⟨h0, hheld, hpart, hcur⟩ := h
  simp [State.currentHold, hstack, hbank, hzero, hgen, h0, hheld, hpart, hcur]

theorem State.currentHold_of_stale (h : ¬ s.HoldCurrent part x.toNat) : s.currentHold part x.toNat = none := by
  obtain ⟨hstack, hbank, hzero, hgen⟩ := handle_fields x
  rw [State.currentHold]
  refine if_neg fun hc => h ?_
  rw [State.HoldCurrent]
  simpa [hstack, hbank, hzero, hgen, and_assoc] using hc

theorem State.queryRow_of_current (h : s.HoldCurrent part x.toNat) : s.queryRow part x.toNat = 0 := by
  simp [State.queryRow, State.currentHold_of_current x h]

theorem State.queryRow_of_stale (h : ¬ s.HoldCurrent part x.toNat) :
    s.queryRow part x.toNat
      = if x.toNat / 4096 % 16 = 0 ∧ (s.rowSlot (x.toNat / 512 % 8) (x.toNat % 512)).held = false
          ∧ (s.rowSlot (x.toNat / 512 % 8) (x.toNat % 512)).dropped = true
          ∧ (s.rowSlot (x.toNat / 512 % 8) (x.toNat % 512)).part = part
          ∧ (s.rowSlot (x.toNat / 512 % 8) (x.toNat % 512)).gen = x.toNat / 65536 then 2 else 1 := by
  obtain ⟨hstack, hbank, hzero, hgen⟩ := handle_fields x
  simp [State.queryRow, State.currentHold_of_stale x h, hstack, hbank, hzero, hgen, and_assoc]

end

section
variable {s : State} {w : Wave} {i : Issue} (h : s.Latched w i) (hfeat : s.feature 5 = true) (hroom : w.outst < 63)
include h hfeat

theorem State.legal_rowpin {d : BitVec 6} (hd : d.toNat % 2 = 0) (k : BitVec 5) : s.Legal w i (.rowpin d k) := by
  have hneeds : needs s .rowpin = none := if_pos hfeat
  refine ⟨h, ?_⟩
  rw [illegal_rowpin, hneeds]
  simp [firstOf, odd, hd]

theorem State.legal_rowunpin (d a : BitVec 6) : s.Legal w i (.rowunpin d a) := ⟨h, if_pos hfeat⟩

theorem State.legal_rowqry (d a : BitVec 6) : s.Legal w i (.rowqry d a) := ⟨h, if_pos hfeat⟩

include hroom

section
variable {d : BitVec 6} {k : BitVec 5} {pa : Nat} {e : TlbEntry} (hd : d.toNat % 2 = 0)
  (hbase : w.sPairPoison (2 * k.toNat) = false) (hx : s.waveXlate w (w.issuing i) (w.sPair (2 * k.toNat)) 1 .read = .ok pa e)
include hd hbase hx

theorem execRowpin_notHbm (htier : e.tier ≠ .hbm) : execRowpin d k s = rowWord s w i d true (0 + 5 * 2 ^ 32) := by
  rw [execRowpin, baseAccess_of (State.legal_rowpin h hfeat hd k) hbase]
  simp only [hx, if_neg (Nat.not_le.mpr hroom), if_neg htier]

theorem execRowpin_hbm (htier : e.tier = .hbm) : execRowpin d k s
    = rowWord (s.pinRow w.part pa).1 w i d true ((s.pinRow w.part pa).2.1 + (s.pinRow w.part pa).2.2 * 2 ^ 32) := by
  rw [execRowpin, baseAccess_of (State.legal_rowpin h hfeat hd k) hbase]
  simp only [hx, if_neg (Nat.not_le.mpr hroom), if_pos htier]

end

variable {a : BitVec 6} (hclean : w.sPoison a.toNat = false) (d : BitVec 6)
include hclean

theorem execRowunpin_of_current (hcur : s.HoldCurrent w.part (w.s a.toNat).toNat) : execRowunpin d a s
    = rowWord (s.setSlot { s.rowSlot ((w.s a.toNat).toNat / 512 % 8) ((w.s a.toNat).toNat % 512) with held := false, dropped := false })
        w i d false 0 := by
  refine (whenLegal_of (State.legal_rowunpin h hfeat d a) _).trans ?_
  simp only [hclean, if_neg (Nat.not_le.mpr hroom), State.currentHold_of_current _ hcur, Bool.false_eq_true, if_false]

theorem execRowunpin_of_stale (hstale : ¬ s.HoldCurrent w.part (w.s a.toNat).toNat) :
    execRowunpin d a s = rowWord s w i d false 1 := by
  refine (whenLegal_of (State.legal_rowunpin h hfeat d a) _).trans ?_
  simp only [hclean, if_neg (Nat.not_le.mpr hroom), State.currentHold_of_stale _ hstale, Bool.false_eq_true, if_false]

theorem execRowqry_of : execRowqry d a s = rowWord s w i d false (s.queryRow w.part (w.s a.toNat).toNat) := by
  refine (whenLegal_of (State.legal_rowqry h hfeat d a) _).trans ?_
  simp only [hclean, if_neg (Nat.not_le.mpr hroom), Bool.false_eq_true, if_false]

end

theorem rowWords : Claims.RowWords := by
  intro s w i d a k h hfeat hroom answers
  refine ⟨fun pa e hd hbase hx => ?_, fun hclean => ?_⟩
  · intro out stack bank r quota
    change (_ → execRowpin d k s = _) ∧ (_ → _ → _ → execRowpin d k s = _)
      ∧ (_ → _ → _ → _ → execRowpin d k s = _) ∧ (_ → _ → _ → execRowpin d k s = _)
      ∧ (_ → _ → _ → _ → execRowpin d k s = _) ∧ (_ → _ → _ → _ → execRowpin d k s = _)
    have hpin := execRowpin_hbm h hfeat hroom hd hbase hx
    refine ⟨fun ht => execRowpin_notHbm h hfeat hroom hd hbase hx ht, fun ht hheld hother => ?_, fun ht hheld hpart hrow => ?_,
      fun ht hfree hquota => ?_, fun ht hfree hquota hfull => ?_, fun ht hfree hquota hfits => ?_⟩
    · rw [hpin ht, State.pinRow_other hheld hother]
      rfl
    · rw [hpin ht, State.pinRow_again hheld hpart hrow]
      rfl
    · rw [hpin ht, State.pinRow_overQuota hfree hquota]
      rfl
    · rw [hpin ht, State.pinRow_full hfree hquota hfull]
      rfl
    · rw [hpin ht, State.pinRow_granted hfree hquota hfits]
      rfl
  · intro x r current
    change (_ → execRowunpin d a s = _ ∧ execRowqry d a s = _) ∧ (_ → execRowunpin d a s = _ ∧ execRowqry d a s = _)
    refine ⟨fun hcur => ⟨execRowunpin_of_current h hfeat hroom hclean d hcur, ?_⟩,
      fun hstale => ⟨execRowunpin_of_stale h hfeat hroom hclean d hstale, ?_⟩⟩
    · rw [execRowqry_of h hfeat hroom hclean d, State.queryRow_of_current _ hcur]
      rfl
    · rw [execRowqry_of h hfeat hroom hclean d, State.queryRow_of_stale _ hstale]
      rfl

/-- Settles O38: fences, cache operations and row words. -/
theorem fenceCacheAndRowWords : Obligations.FenceCacheAndRowWords := ⟨fences, cacheWords, rowWords⟩

end Sys2Proof.Machine
end

section
/-!
PROOFS. O55: what the host does to the machine. Each event of the host has one lemma for each branch that the statement speaks of.
-/
namespace Sys2Proof.Machine

/-! ### CXL.mem (04 R124, 15 R346) -/

theorem execHostMemRead_unbound {s : State} {ld addr len : Nat} (hc : s.call = .hostMemRead ld addr len) (hp : s.ldPart ld = none) :
    execHostMemRead s = .next s := by
  rw [execHostMemRead, hc]
  simp only [hp]

theorem execHostMemRead_reached {s s1 s2 : State} {ld addr len m : Nat} {p : Part} {bs : List Byte}
    (hc : s.call = .hostMemRead ld addr len) (hp : s.ldPart ld = some p)
    (hreach : s.hostReach p ld .read (transfers addr len) = (s1, true))
    (hread : s1.hostReadAll p ld 0 (transfers addr len) = (s2, some (bs, m))) :
    execHostMemRead s = .next { s2 with hostAnswer := bs, hostPoison := m } := by
  rw [execHostMemRead, hc]
  simp only [hp, hreach, hread, Bool.not_true, Bool.false_eq_true, if_false]

theorem execHostMemWrite_unbound {s : State} {ld addr : Nat} {data : List Byte} (hc : s.call = .hostMemWrite ld addr data)
    (hp : s.ldPart ld = none) : execHostMemWrite s = .next s := by
  rw [execHostMemWrite, hc]
  simp only [hp]

theorem execHostMemWrite_bound {s : State} {ld addr : Nat} {data : List Byte} {p : Part}
    (hc : s.call = .hostMemWrite ld addr data) (hp : s.ldPart ld = some p) :
    execHostMemWrite s = .next (s.hostWriteAll p ld addr data (transfers addr data.length)) := by
  rw [execHostMemWrite, hc]
  simp only [hp]

/-- A transfer that has performed is followed by the next. -/
theorem State.hostWriteAll_cons {s s1 : State} {p : Part} {ld addr : Nat} {t : Nat × Nat} {data : List Byte}
    (h : s.hostWriteOne p ld t.1 ((data.drop (t.1 - addr)).take t.2) = (s1, true)) (ts : List (Nat × Nat)) :
    s.hostWriteAll p ld addr data (t :: ts) = s1.hostWriteAll p ld addr data ts := by
  rw [State.hostWriteAll]
  simp only [h, if_true]

/-! ### Registers and doorbells (15 R346, R356) -/

section
variable {s : State} {space : RegSpace} {off size val : Nat} (hc : s.call = .registerWrite space off size val)
include hc

theorem execRegisterWrite_misaligned (hoff : off % size ≠ 0) : execRegisterWrite s = .next s := by
  rw [execRegisterWrite, hc]
  exact if_pos hoff

variable (hoff : off % size = 0)
include hoff

theorem execRegisterWrite_page {p ld : Nat} {x : Part} (hspace : space = .page p) (hp : s.part? p = some x)
    (hup : s.skolisUp = true) (hld : x.ld = some ld) (hbound : s.ldBound ld = true) :
    execRegisterWrite s = .next (s.pageWrite x off size val) := by
  subst hspace
  rw [execRegisterWrite, hc]
  simp only [hoff, hp, hup, hld, hbound, ne_eq, not_true_eq_false, if_false, Option.map_some, Option.getD_some, Bool.and_self,
    if_true]

theorem execRegisterWrite_mailbox {m : Nat} (hspace : space = .mailbox m) :
    execRegisterWrite s = .next (if s.mailboxOpen m then (s.setMbox ((s.mbox m).write off size val)).takeCmds m else s) := by
  subst hspace
  rw [execRegisterWrite, hc]
  simp only [hoff, ne_eq, not_true_eq_false, if_false]
  split <;> rfl

end

theorem execMailboxDoorbell_open {s : State} {m tail : Nat} (hc : s.call = .mailboxDoorbell m tail) (hopen : s.mailboxOpen m = true) :
    execMailboxDoorbell s = .next ((s.setMbox { s.mbox m with tail := tail }).takeCmds m) := by
  rw [execMailboxDoorbell, hc]
  exact if_pos hopen

/-! ### The host queue (15 R357) -/

/-- The state after the oldest event `e` of a partition has been written to its queue at `base`. -/
def State.eventPosted (s : State) (n : Nat) (p : Part) (e : Event) (rest : List Event) (base : Nat) : State :=
  let m := s.mbox p.mbx
  let t := ((s.poke (hostKey (base + 64 * (m.hqTail % 256))) (e.bytes n)).setPart { p with events := rest }).setMbox
    { m with hqTail := (m.hqTail + 1) % 2 ^ 32 }
  { t with msix := t.msix ++ [(p.mbx, 1)] }

theorem execHostQueuePost_event {s : State} {n base : Nat} {p : Part} {e : Event} {rest : List Event}
    (hc : s.call = .hostQueuePost n) (hp : s.part? n = some p) (hpost : s.postParked p = s) (hevents : p.events = e :: rest)
    (hbase : p.hqBase = some base) (hroom : ringUsed (s.mbox p.mbx).hqTail (s.mbox p.mbx).hqHead < 256) :
    execHostQueuePost s = .next (s.eventPosted n p e rest base) := by
  have hparked : (Option.map s.postParked (some p)).getD s = s := hpost
  have hopen : s.hqOpen p = true := by simp [State.hqOpen, hbase, hroom]
  rw [execHostQueuePost, hc]
  simp only [hp, hparked, hevents, hbase, hopen, Bool.not_true, Bool.false_eq_true, if_false, State.eventPosted]

/-- Settles O55: each event of the host by the lemma of its branch. -/
theorem hostAccesses : Obligations.HostAccesses := by
  unfold Obligations.HostAccesses
  intro s
  refine ⟨fun ld addr len hc => ⟨execHostMemRead_unbound hc, fun p s1 s2 bs m => execHostMemRead_reached hc⟩,
    fun ld addr data hc => ⟨execHostMemWrite_unbound hc, fun p => execHostMemWrite_bound hc⟩,
    fun p ld addr t ts data s1 h => State.hostWriteAll_cons h ts, fun space off size val hc => ⟨execRegisterWrite_misaligned hc, fun hoff =>
      ⟨fun p x ld => execRegisterWrite_page hc hoff, fun m hspace hopen => ?_, fun m hspace hshut => ?_⟩⟩,
    fun m tail => execMailboxDoorbell_open, fun n p e rest base => execHostQueuePost_event⟩
  · exact (execRegisterWrite_mailbox hc hoff hspace).trans (by rw [if_pos hopen])
  · exact (execRegisterWrite_mailbox hc hoff hspace).trans (by rw [hshut]; rfl)

end Sys2Proof.Machine
end

section
/-!
PROOFS. What issuing an operation leaves of the waves. The caches and the directory change nothing of a wave but the sleeps in WAITLINE
that they wake (10 R246), in its units and its handler. `State.still` is the waves without these, and each function of the model on the
way from a word to its lanes' places keeps it (`f_still`).
-/
namespace Sys2Proof.Machine

/-- A wave but for its units and for the sleep that its handler interrupts. -/
def Wave.still (w : Wave) : Wave × Option (Arm × Nat) :=
  ({ w with unitT := UnitSt.empty, unitE := UnitSt.empty, handler := none }, w.handler.map fun h => (h.arm, h.depth))

/-- The waves but for their units and the sleeps that their handlers interrupt. -/
def State.still (s : State) : List (Wave × Option (Arm × Nat)) := s.waves.map Wave.still

/-- Two waves that agree but for their units and interrupted sleeps. -/
theorem Wave.eq_of_still {w v : Wave} (h : v.still = w.still) : ∃ ut ue hd,
    v = { w with unitT := ut, unitE := ue, handler := hd }
      ∧ (hd.map fun x => (x.arm, x.depth)) = w.handler.map fun x => (x.arm, x.depth) := by
  obtain ⟨-, hhandler⟩ := Prod.mk.inj h
  refine ⟨v.unitT, v.unitE, v.handler, ?_, hhandler⟩
  calc v = { v.still.1 with unitT := v.unitT, unitE := v.unitE, handler := v.handler } := rfl
    _ = { w.still.1 with unitT := v.unitT, unitE := v.unitE, handler := v.handler } := by rw [h]

theorem State.wave?_still (s : State) (seq wid : Nat) :
    (s.wave? seq wid).map Wave.still = s.still.find? fun x => x.1.seq = seq && x.1.wid = wid := by
  rw [State.still, List.find?_map]
  rfl

/-- A wave has a record in every state with the same still waves, which agrees with its own. -/
theorem State.wave?_of_still {s t : State} (h : t.still = s.still) {seq wid : Nat} {w : Wave} (hw : s.wave? seq wid = some w) :
    ∃ v, t.wave? seq wid = some v ∧ v.still = w.still := by
  have hv : (t.wave? seq wid).map Wave.still = some w.still := by
    rw [State.wave?_still, h, ← State.wave?_still, hw]
    rfl
  exact Option.map_eq_some_iff.mp hv

/-- A fold whose steps keep the still waves keeps them. -/
theorem foldl_still {α : Type} {f : State → α → State} (hf : ∀ t x, (f t x).still = t.still) (l : List α) (s : State) :
    (l.foldl f s).still = s.still := foldl_proj State.still hf l s

theorem gotAll_still {α : Type} {f : State → α → Got} (hf : ∀ t x, (f t x).1.still = t.still) (s : State) (l : List α) :
    (gotAll s l f).1.still = s.still := by
  have hfold : ∀ g : Got, (l.foldl (fun (g : Got) x => let r := f g.1 x; (r.1, g.2 && r.2)) g).1.still = g.1.still := by
    induction l with
    | nil => exact fun _ => rfl
    | cons x xs ih => exact fun g => (ih _).trans (hf g.1 x)
  exact hfold (s, true)

/-! ### Records, counters and poison -/

@[simp] theorem State.charge_still (s : State) (p code n : Nat) : (s.charge p code n).still = s.still := by
  unfold State.charge
  split
  · rfl
  · dsimp only
    split <;> rfl

@[simp] theorem State.chargePod_still (s : State) (code n : Nat) : (s.chargePod code n).still = s.still := by
  unfold State.chargePod
  split <;> simp

@[simp] theorem State.chargeFlits_still (s : State) (sent : Bool) (bytes : Nat) : (s.chargeFlits sent bytes).still = s.still := by
  unfold State.chargeFlits
  split <;> simp

@[simp] theorem State.clampScope_still (s : State) (p : Nat) (sc : Scope) : (s.clampScope p sc).1.still = s.still := by
  unfold State.clampScope
  split <;> simp

@[simp] theorem State.setPoison_still (s : State) (k : Nat) : (s.setPoison k).still = s.still := rfl

@[simp] theorem State.clearPoison_still (s : State) (k : Nat) : (s.clearPoison k).still = s.still := rfl

@[simp] theorem State.clearCovered_still (s : State) (k n : Nat) : (s.clearCovered k n).still = s.still :=
  foldl_still (fun t i => by dsimp only; split <;> simp) _ _

@[simp] theorem State.pokeNat_still (s : State) (k n x : Nat) : (s.pokeNat k n x).still = s.still := State.clearCovered_still s k _

@[simp] theorem State.setPart_still (s : State) (p : Part) : (s.setPart p).still = s.still := rfl

@[simp] theorem State.setMbox_still (s : State) (m : Mbox) : (s.setMbox m).still = s.still := rfl

@[simp] theorem State.logError_still (s : State) (p : Nat) (r : LogRec) : (s.logError p r).still = s.still := by
  unfold State.logError
  split
  · rfl
  · dsimp only
    split
    · exact State.setPart_still _ _
    · split
      · rw [State.setMbox_still, State.pokeNat_still]
      · exact State.setPart_still _ _

@[simp] theorem State.logAway_still (s : State) (part : Nat) (r : Requester) (key kind : Nat) :
    (s.logAway part r key kind).still = s.still := State.logError_still _ _ _

@[simp] theorem State.fresh_still (s : State) : s.fresh.2.still = s.still := rfl

@[simp] theorem State.transferred_still (s : State) (stack : Nat) : (s.transferred stack).still = s.still := by
  grind [State.transferred, State.still]

@[simp] theorem State.rowAccess_still (s : State) (key : Nat) : (s.rowAccess key).still = s.still := by
  grind [State.rowAccess, State.transferred_still, State.charge_still]

/-! ### The L2s, the directory and the modules (02 R51 to R57) -/

/-- What wakes a wave's sleeps on a line leaves it still. -/
@[simp] theorem State.wakeLine_still (s : State) (line : Nat) : (s.wakeLine line).still = s.still := by
  simp only [State.still, State.wakeLine, List.map_map]
  refine List.map_congr_left fun w _ => ?_
  simp only [Function.comp, Wave.still, Option.map_map]
  rfl

@[simp] theorem State.modL2_still (s : State) (die line : Nat) (f : L2Line → L2Line) : (s.modL2 die line f).still = s.still := rfl

@[simp] theorem State.setPerm_still (s : State) (line : Nat) (p : Option Perm) : (s.setPerm line p).still = s.still := rfl

@[simp] theorem State.askModule_still (s : State) (die part line : Nat) (kind : MemKind) :
    (s.askModule die part line kind).still = s.still := by
  unfold State.askModule
  split
  · rfl
  · exact State.chargeFlits_still _ _ _

@[simp] theorem State.permitted_still (s : State) (die part line : Nat) (own : Bool) :
    (s.permitted die part line own).1.still = s.still := by
  unfold State.permitted
  split
  · rfl
  · split <;> simp

@[simp] theorem State.dirtyLine_still (s : State) (line : Nat) : (s.dirtyLine line).still = s.still := by
  unfold State.dirtyLine
  split <;> rfl

@[simp] theorem State.cleanLine_still (s : State) (line : Nat) : (s.cleanLine line).still = s.still := rfl

@[simp] theorem State.chargeFetch_still (s : State) (part key : Nat) : (s.chargeFetch part key).still = s.still := by
  unfold State.chargeFetch
  split <;> simp

@[simp] theorem State.restoreStale_still (s : State) (line : Nat) : (s.restoreStale line).still = s.still := by
  unfold State.restoreStale
  split
  · rfl
  · dsimp only
    split <;> rfl

@[simp] theorem State.returnLine_still (s : State) (l : L2Line) : (s.returnLine l).still = s.still := by
  unfold State.returnLine
  split <;> simp

@[simp] theorem State.l2Evict_still (s : State) (l : L2Line) : (s.l2Evict l).still = s.still := by
  grind [State.l2Evict, State.still, State.rowAccess_still, State.charge_still, State.wakeLine_still, State.restoreStale_still,
    State.returnLine_still, State.askModule_still, State.setPerm_still]

@[simp] theorem State.l2Place_still (s : State) (die key asked : Nat) (st : LineState) :
    (s.l2Place die key asked st).still = s.still := by
  grind [State.l2Place, State.still, State.fresh_still, State.l2Evict_still]

@[simp] theorem State.recallAll_still (s : State) (line : Nat) : (s.recallAll line).still = s.still :=
  foldl_still State.l2Evict_still _ _

@[simp] theorem State.directoryRoom_still (s : State) (line : Nat) : (s.directoryRoom line).1.still = s.still := by
  grind [State.directoryRoom, State.fresh_still, State.recallAll_still]

@[simp] theorem State.filled_still (s : State) (die key : Nat) : (s.filled die key).still = s.still := rfl

@[simp] theorem State.fillBegins_still (s : State) (die key part : Nat) : (s.fillBegins die key part).still = s.still := by
  unfold State.fillBegins
  split <;> rfl

@[simp] theorem State.dirRead_still (s : State) (die key part : Nat) : (s.dirRead die key part).still = s.still := by
  grind [State.dirRead, State.still, State.modL2_still, State.chargeFetch_still, State.l2Place_still]

@[simp] theorem State.dirOwn_still (s : State) (die key part : Nat) : (s.dirOwn die key part).still = s.still := by
  grind [State.dirOwn, State.still, State.chargeFetch_still, State.wakeLine_still, State.modL2_still, State.l2Place_still]

@[simp] theorem State.dropCopies_still (s : State) (line : Nat) : (s.dropCopies line).still = s.still := rfl

@[simp] theorem State.directory_still (s : State) (die key part : Nat) (own : Bool) :
    (s.directory die key part own).1.still = s.still := by
  grind [State.directory, State.permitted_still, State.filled_still, State.directoryRoom_still, State.dirOwn_still, State.dirRead_still]

@[simp] theorem State.l2Store_still (s : State) (die key : Nat) (bs : List Byte) (mask : Lanes) :
    (s.l2Store die key bs mask).still = s.still := by
  let dirtied := (s.dirtyLine (lineKey key)).modL2 die (lineKey key) fun x => { (x.fill key).soil key with state := .m }
  change (((if mask = allLanes then dirtied.clearPoison key else dirtied).wakeLine (lineKey key)).filled die key).still = s.still
  rw [State.filled_still, State.wakeLine_still]
  split <;> simp [dirtied]

@[simp] theorem State.writePast_still (s : State) (die part line : Nat) (ws : List (Nat × List Byte × Lanes)) (poison : Bool) :
    (s.writePast die part line ws poison).1.still = s.still := by
  unfold State.writePast
  split
  · rfl
  · dsimp only
    split
    · simp
    · refine (foldl_still (fun t x => ?_) _ _).trans ?_
      · grind [State.still, State.logAway_still, State.clearPoison_still, State.setPoison_still]
      · grind [State.restoreStale_still, State.cleanLine_still, State.askModule_still, State.setPerm_still, State.rowAccess_still,
          State.wakeLine_still, State.dropCopies_still, State.permitted_still]

@[simp] theorem State.l2Write_still (s : State) (die part key : Nat) (bs : List Byte) (mask : Lanes) (poison noAlloc : Bool) :
    (s.l2Write die part key bs mask poison noAlloc).1.still = s.still := by
  grind [State.l2Write, State.logAway_still, State.setPoison_still, State.l2Store_still, State.writePast_still, State.directory_still]

@[simp] theorem State.l2Read_still (s : State) (die part key n : Nat) (noAlloc first : Bool) :
    (s.l2Read die part key n noAlloc first).1.still = s.still := by
  grind [State.l2Read, State.logAway_still, State.permitted_still, State.chargeFetch_still]

/-! ### A quad's L1 and write queue (02 R47 to R49) -/

@[simp] theorem State.l1Set_still (s : State) (l : L1Line) : (s.l1Set l).still = s.still := rfl

@[simp] theorem State.l1Touch_still (s : State) (l : L1Line) (nt : Bool) : (s.l1Touch l nt).still = s.still := rfl

@[simp] theorem State.writeBackSector_still (s : State) (quad line : Nat) (upper : Bool) :
    (s.writeBackSector quad line upper).1.still = s.still := by
  grind [State.writeBackSector, State.l2Write_still, State.l1Set_still]

@[simp] theorem State.writeBackLine_still (s : State) (quad line : Nat) : (s.writeBackLine quad line).1.still = s.still :=
  gotAll_still (fun t b => t.writeBackSector_still quad line b) s _

@[simp] theorem State.l1Drop_still (s : State) (quad line : Nat) : (s.l1Drop quad line).still = s.still := rfl

@[simp] theorem State.l1Room_still (s : State) (quad line : Nat) : (s.l1Room quad line).1.still = s.still := by
  grind [State.l1Room, State.writeBackLine_still, State.l1Drop_still]

@[simp] theorem State.l1Alloc_still (s : State) (quad line part : Nat) : (s.l1Alloc quad line part).1.still = s.still := by
  grind [State.l1Alloc, State.still, State.l1Room_still]

@[simp] theorem State.l1Fill_still (s : State) (quad key part : Nat) (nt : Bool) : (s.l1Fill quad key part nt).1.still = s.still := by
  grind [State.l1Fill, State.l1Alloc_still, State.l1Touch_still]

@[simp] theorem State.l1Store_still (s : State) (quad sec part : Nat) (bs : List Byte) (mask : Lanes) (nt : Bool) :
    (s.l1Store quad sec part bs mask nt).1.still = s.still := by
  grind [State.l1Store, State.l1Alloc_still, State.l1Touch_still]

@[simp] theorem State.wqMerge_still (s : State) (e : WqEntry) : (s.wqMerge e).1.still = s.still := by
  grind [State.wqMerge, State.still, State.l1Store_still]

@[simp] theorem State.wqFlush_still (s : State) (quad sec : Nat) : (s.wqFlush quad sec).1.still = s.still := by
  unfold State.wqFlush
  split <;> simp

@[simp] theorem State.wqPush_still (s : State) (quad part key : Nat) (bs : List Byte) (nt : Bool) :
    (s.wqPush quad part key bs nt).1.still = s.still := by
  grind [State.wqPush, State.still]

@[simp] theorem State.sectorOut_still (s : State) (quad key : Nat) : (s.sectorOut quad key).1.still = s.still := by
  grind [State.sectorOut, State.wqFlush_still, State.writeBackSector_still]

@[simp] theorem State.readPast_still (s : State) (w : Wave) (quad die : Nat) (p : OpPart) (first : Bool) :
    (s.readPast w quad die p first).1.still = s.still := by
  grind [State.readPast, State.sectorOut_still, State.l2Read_still]

@[simp] theorem State.missRead_still (s : State) (w : Wave) (quad die : Nat) (p : OpPart) (first : Bool) :
    (s.missRead w quad die p first).1.still = s.still := by
  grind [State.missRead, State.charge_still, State.readPast_still, State.l2Read_still, State.l1Fill_still]

@[simp] theorem State.cacheRead_still (s : State) (w : Wave) (scope : Scope) (p : OpPart) (need : Lanes) (first lead : Bool) :
    (s.cacheRead w scope p need first lead).1.still = s.still := by
  grind [State.cacheRead, State.l1Touch_still, State.missRead_still, State.readPast_still]

@[simp] theorem State.prefetch_still (s : State) (w : Wave) (p : OpPart) (l1 : Bool) : (s.prefetch w p l1).1.still = s.still := by
  grind [State.prefetch, State.directory_still, State.fillBegins_still, State.l1Fill_still]

@[simp] theorem State.scatterWrite_still (s : State) (quad : Nat) (p : OpPart) (bs : List Byte) :
    (s.scatterWrite quad p bs).1.still = s.still := by
  unfold State.scatterWrite
  split <;> simp

@[simp] theorem State.cacheWrite_still (s : State) (w : Wave) (scope : Scope) (p : OpPart) (val : Nat) :
    (s.cacheWrite w scope p val).1.still = s.still := by
  grind [State.cacheWrite, State.scatterWrite_still, State.wqPush_still, State.wqFlush_still, State.l2Write_still, State.l1Touch_still,
    State.l1Set_still]

/-! ### Registers of tier 3 (01 R26, 05 R128) -/

@[simp] theorem State.writeXltinvc_still (s : State) (p : Part) (off size val : Nat) : (s.writeXltinvc p off size val).still = s.still := by
  grind [State.writeXltinvc, State.still, State.setPart_still]

@[simp] theorem State.pageWrite_still (s : State) (p : Part) (off size val : Nat) : (s.pageWrite p off size val).still = s.still := by
  grind [State.pageWrite, State.setPart_still, State.writeXltinvc_still]

@[simp] theorem State.setChan_still (s : State) (c : Chan) : (s.setChan c).still = s.still := by
  unfold State.setChan
  split <;> rfl

@[simp] theorem State.apertureWrite_still (s : State) (die ch off size val : Nat) :
    (s.apertureWrite die ch off size val).still = s.still := by
  grind [State.apertureWrite, State.setChan_still]

@[simp] theorem State.tier3Part_still (s : State) (w : Wave) (p : OpPart) : (s.tier3Part w p).1.still = s.still := by
  unfold State.tier3Part
  split
  case h_2 => cases s.part? w.part <;> simp
  all_goals simp

@[simp] theorem State.ringDoor_still (s : State) (d : Nat × Nat × Doorbell) : (s.ringDoor d).still = s.still := State.setChan_still _ _

/-! ### The parts of an operation (12 R277, 20 R385) -/

@[simp] theorem State.tier3Parts_still (w : Wave) : ∀ (ps : List OpPart) (s : State), (s.tier3Parts w ps).1.still = s.still
  | [], _ => rfl
  | p :: ps, s => by
    simp only [State.tier3Parts, State.tier3Parts_still w ps]
    split <;> simp

@[simp] theorem State.countLookup_still (s : State) (w : Wave) (sec : Nat) (noAlloc : Bool) :
    (s.countLookup w sec noAlloc).still = s.still := by
  grind [State.countLookup, State.charge_still, State.fillBegins_still]

@[simp] theorem State.countLookups_still (s : State) (w : Wave) (sc : Scope) (ps : List OpPart) :
    (s.countLookups w sc ps).still = s.still :=
  foldl_still (fun _ _ => State.countLookup_still _ _ _ _) _ _

@[simp] theorem State.turnAway_still (s : State) (w : Wave) (o : PendOp) : (s.turnAway w o).1.still = s.still :=
  foldl_still (fun _ _ => State.logAway_still _ _ _ _ _) _ _

@[simp] theorem State.advanceParts_still (w : Wave) (sc : Scope) (all : List OpPart) :
    ∀ (ps : List OpPart) (s : State), (s.advanceParts w sc all ps).1.still = s.still
  | [], _ => rfl
  | p :: ps, s => by
    have ih := State.advanceParts_still w sc all ps
    have hread := s.cacheRead_still w sc p (coverMask all (sectorKey p.key)) (leadsSector all p) (leadsLine all p)
    unfold State.advanceParts
    grind [State.cacheWrite_still, State.prefetch_still]

@[simp] theorem State.clearSector_still (s : State) (quad sec : Nat) : (s.clearSector quad sec).still = s.still := by
  unfold State.clearSector
  dsimp only
  split <;> rfl

@[simp] theorem State.clearCovers_still (s : State) (w : Wave) (through : OpPart → Bool) (before after : List OpPart) :
    (s.clearCovers w through before after).still = s.still :=
  foldl_still (fun _ _ => by split <;> simp) _ _

@[simp] theorem State.advance_still (s : State) (w : Wave) (o : PendOp) : (s.advance w o).1.still = s.still := by
  simp [State.advance]

end Sys2Proof.Machine
end

section
/-!
PROOFS. O36: what issuing an operation does to its wave, and what its completion does. The issue goes through caches and registers
(`State.still`) and then puts the operation into the wave (`State.issued_eq`); the completion of a finished operation changes nothing but
the wave (`execAccessComplete_of`), as `Wave.completed` says.
-/
namespace Sys2Proof.Machine

/-! ### Who serves the parts -/

theorem State.tier3Part_route (s : State) (w : Wave) (p : OpPart) : (s.tier3Part w p).2.route = p.route := by
  unfold State.tier3Part
  split <;> rfl

theorem State.tier3Parts_route (w : Wave) :
    ∀ (ps : List OpPart) (s : State), (s.tier3Parts w ps).2.map OpPart.route = ps.map OpPart.route
  | [], _ => rfl
  | p :: ps, s => by
    simp only [State.tier3Parts, List.map_cons, State.tier3Parts_route w ps]
    split
    · rw [State.tier3Part_route]
    · rfl

theorem State.turnAway_route (s : State) (w : Wave) (o : PendOp) :
    (s.turnAway w o).2.parts.map OpPart.route = o.parts.map OpPart.route := by
  simp only [State.turnAway, mapWhere, List.map_map]
  refine List.map_congr_left fun p _ => ?_
  simp only [Function.comp]
  split <;> rfl

theorem State.advanceParts_route (w : Wave) (sc : Scope) (all : List OpPart) :
    ∀ (ps : List OpPart) (s : State), (s.advanceParts w sc all ps).2.map OpPart.route = ps.map OpPart.route
  | [], _ => rfl
  | p :: ps, s => by
    have ih := State.advanceParts_route w sc all ps
    unfold State.advanceParts
    split
    · simp [ih]
    · split
      · dsimp only
        split <;> simp [ih]
      · dsimp only
        split <;> simp [ih]
      · split <;> simp [ih]

theorem State.advance_route (s : State) (w : Wave) (o : PendOp) :
    (s.advance w o).2.parts.map OpPart.route = o.parts.map OpPart.route :=
  (State.advanceParts_route w o.scope _ _ _).trans (s.turnAway_route w o)

/-- Parts with the routes of others that a unit does not serve are not served by it either. -/
theorem route_ne_of_map_eq {ps qs : List OpPart} {r : Route} (h : qs.map OpPart.route = ps.map OpPart.route)
    (hps : ∀ p ∈ ps, p.route ≠ r) : ∀ q ∈ qs, q.route ≠ r := by
  intro q hq hr
  have hmem : r ∈ ps.map OpPart.route := h ▸ hr ▸ List.mem_map_of_mem hq
  obtain ⟨p, hp, rfl⟩ := List.mem_map.mp hmem
  exact hps p hp rfl

theorem State.relayParts_unrelayed {ps : List OpPart} (h : ∀ p ∈ ps, p.route ≠ .runner) (s : State) (w : Wave) (a : Arm) (id : Nat) :
    s.relayParts w a id ps = s := by
  have hfold : ps.foldl (fun (t : State) p => if p.route = .runner then t.sendRelayed w id p else t) s = s := by
    induction ps with
    | nil => rfl
    | cons p ps ih =>
      rw [List.foldl_cons, if_neg (h p List.mem_cons_self)]
      exact ih fun q hq => h q (List.mem_cons_of_mem _ hq)
  have hwaits (f : OpPart → Bool) : ps.any (fun p => p.route = .runner && f p) = false :=
    List.any_eq_false.mpr fun p hp => by simp [h p hp]
  unfold State.relayParts
  dsimp only
  rw [hfold, hwaits]
  rfl

/-! ### The issue (04 R107, 07 R165) -/

/-- The operation that a word issues, with its parts as they leave the registers of tier 3. -/
def issuedPend (w : Wave) (i : Issue) (x : Access) (sc : Scope) (ps parts : List OpPart) (low : Nat) : PendOp :=
  let bells := doorbells w w.nextOp x.size low ps
  { newOp w i (if bells = [] then x.kind else .aperture) sc (isAcquire x.order) parts x.dest with
    att := bells.length, answered := bells = [] }

/-- The operation and the state once its parts have gone as far as they can. -/
def State.issuedParts (s : State) (w : Wave) (i : Issue) (x : Access) (sc : Scope) (ps : List OpPart) (low : Nat) : State × PendOp :=
  let r := s.tier3Parts w ps
  (r.1.countLookups w sc r.2).advance w (issuedPend w i x sc ps r.2 low)

theorem State.issuedParts_still (s : State) (w : Wave) (i : Issue) (x : Access) (sc : Scope) (ps : List OpPart) (low : Nat) :
    (s.issuedParts w i x sc ps low).1.still = s.still := by
  simp [State.issuedParts]

/-- An operation without a relayed part issues: its parts go as far as they can, the wave has it, and its doorbells ring. -/
theorem State.issued_eq {ps : List OpPart} (hps : ∀ p ∈ ps, p.route ≠ .runner) (s : State) (w : Wave) (i : Issue) (x : Access)
    (sc : Scope) (low : Nat) :
    s.issued w i x sc ps low =
      let r := s.issuedParts w i x sc ps low
      (((doorbells w w.nextOp x.size low ps).foldl State.ringDoor
        (r.1.setWave ((r.1.again w).issuedOp i (isAcquire x.order) r.2))).clampScope w.part x.scope).1 := by
  have hroutes : (s.issuedParts w i x sc ps low).2.parts.map OpPart.route = ps.map OpPart.route :=
    (State.advance_route _ w _).trans (State.tier3Parts_route w ps s)
  let r := s.issuedParts w i x sc ps low
  change (((doorbells w w.nextOp x.size low ps).foldl State.ringDoor
    ((r.1.setWave ((r.1.again w).issuedOp i (isAcquire x.order) r.2)).relayParts w i.arm w.nextOp r.2.parts)).clampScope
      w.part x.scope).1 = _
  rw [State.relayParts_unrelayed (route_ne_of_map_eq hroutes hps)]

theorem State.setChan_waves (s : State) (c : Chan) : (s.setChan c).waves = s.waves := by
  unfold State.setChan
  split <;> rfl

theorem State.clampScope_waves (s : State) (p : Nat) (sc : Scope) : (s.clampScope p sc).1.waves = s.waves := by
  unfold State.clampScope State.charge
  split
  · split
    · rfl
    · dsimp only
      split <;> rfl
  · rfl

/-- What follows the issue leaves the waves. -/
theorem State.ringDoors_waves (s : State) (bells : List (Nat × Nat × Doorbell)) (p : Nat) (sc : Scope) :
    ((bells.foldl State.ringDoor s).clampScope p sc).1.waves = s.waves :=
  (State.clampScope_waves _ p sc).trans (foldl_proj State.waves (fun t _ => State.setChan_waves t _) bells s)

theorem State.wave?_of_waves {s t : State} (h : t.waves = s.waves) (seq wid : Nat) : t.wave? seq wid = s.wave? seq wid := by
  rw [State.wave?, State.wave?, h]

/-- The record of the wave that has issued: the operation is in it, and its unit goes on. -/
theorem State.issued_wave {s : State} {w : Wave} (hw : s.wave? w.seq w.wid = some w) {ps : List OpPart}
    (hps : ∀ p ∈ ps, p.route ≠ .runner) (i : Issue) (x : Access) (sc : Scope) (low : Nat) :
    ∃ v : Wave, v.still = w.still ∧ (s.issued w i x sc ps low).wave? w.seq w.wid
      = some (v.issuedOp i (isAcquire x.order) (s.issuedParts w i x sc ps low).2) := by
  obtain ⟨v, hv, hstill⟩ := State.wave?_of_still (s.issuedParts_still w i x sc ps low) hw
  have hagain : (s.issuedParts w i x sc ps low).1.again w = v := by rw [State.again, hv]; rfl
  obtain ⟨hseq, hwid⟩ := State.wave?_names hv
  have hnames : (v.issuedOp i (isAcquire x.order) (s.issuedParts w i x sc ps low).2).seq = w.seq
      ∧ (v.issuedOp i (isAcquire x.order) (s.issuedParts w i x sc ps low).2).wid = w.wid := by
    rw [← hseq, ← hwid, Wave.issuedOp]
    cases i.arm <;> exact ⟨rfl, rfl⟩
  refine ⟨v, hstill, ?_⟩
  rw [State.issued_eq hps]
  dsimp only
  rw [State.wave?_of_waves (State.ringDoors_waves _ _ _ _), hagain, State.wave?_setWave, hnames.1, hnames.2, if_pos ⟨rfl, rfl⟩, hv]
  rfl

theorem Wave.issuedOp_eq (w : Wave) (i : Issue) (acquire : Bool) (o : PendOp) : w.issuedOp i acquire o =
    { w with
      pend := w.pend ++ [o], nextOp := w.nextOp + 1, unitT := (w.issuedOp i acquire o).unitT,
      unitE := (w.issuedOp i acquire o).unitE } := by
  unfold Wave.issuedOp
  cases i.arm <;> rfl

theorem issuedOperation : Claims.IssuedOperation := by
  intro s w i x sc ps low hw hps
  obtain ⟨v, hstill, hissued⟩ := State.issued_wave hw hps i x sc low
  obtain ⟨ut, ue, hd, rfl, hhandler⟩ := Wave.eq_of_still hstill
  let v : Wave := { w with unitT := ut, unitE := ue, handler := hd }
  let o := (s.issuedParts w i x sc ps low).2
  let v' := v.issuedOp i (isAcquire x.order) o
  have hrecord := v.issuedOp_eq i (isAcquire x.order) o
  have hunit : v'.unit i.arm = _ := Wave.unit_setUnit _ _ _
  have hpend : v'.pend = w.pend ++ [o] := congrArg Wave.pend hrecord
  have hhd : v'.handler = hd := congrArg Wave.handler hrecord
  refine ⟨v', o, hissued, hpend, rfl, rfl, rfl, rfl, congrArg UnitSt.pc hunit, congrArg UnitSt.wait hunit, ?_, by rw [hhd, hhandler]⟩
  rw [hpend, hhd]
  exact hrecord

/-! ### An operation whose parts have performed -/

theorem State.turnAway_done {o : PendOp} (h : ∀ p ∈ o.parts, p.done = true) (s : State) (w : Wave) : s.turnAway w o = (s, o) := by
  have hallocated : ∀ p ∈ o.parts, s.beyondAllocation w p = false := fun p hp => by simp [State.beyondAllocation, h p hp]
  have hnone : o.parts.filter (s.beyondAllocation w) = [] := List.filter_eq_nil_iff.mpr fun p hp => by simp [hallocated p hp]
  have hsame : mapWhere o.parts (s.beyondAllocation w) (fun p => { p with done := true, poison := true }) = o.parts :=
    (List.map_congr_left fun p hp => by simp [hallocated p hp]).trans (List.map_id _)
  simp [State.turnAway, hnone, hsame, dedup]

theorem State.advanceParts_done (s : State) (w : Wave) (sc : Scope) (all : List OpPart) :
    ∀ {ps : List OpPart}, (∀ p ∈ ps, p.done = true) → s.advanceParts w sc all ps = (s, ps)
  | [], _ => rfl
  | p :: ps, h => by
    have hp := h p List.mem_cons_self
    have hps := State.advanceParts_done s w sc all (ps := ps) fun q hq => h q (List.mem_cons_of_mem _ hq)
    simp [State.advanceParts, hp, hps]

theorem State.clearCovers_done {before : List OpPart} (h : ∀ p ∈ before, p.done = true) (s : State) (w : Wave)
    (through : OpPart → Bool) (after : List OpPart) : s.clearCovers w through before after = s := by
  unfold State.clearCovers
  dsimp only
  rw [List.filterMap_eq_nil_iff.mpr fun x hx => ?_]
  · rfl
  · have hdone := h x.1 (List.of_mem_zip hx).1
    split
    · simp [hdone]
    · rfl

/-- An operation whose parts have all performed goes no further. -/
theorem State.advance_done {o : PendOp} (h : ∀ p ∈ o.parts, p.done = true) (s : State) (w : Wave) : s.advance w o = (s, o) := by
  simp only [State.advance, State.turnAway_done h, State.advanceParts_done s w o.scope o.parts h, State.clearCovers_done h]

/-! ### What a completion writes (12 R277, 07 R180) -/

/-- What a completion does not write: a wave's name, its outstanding operations and its units. -/
def Wave.frame (w : Wave) : Nat × Nat × List PendOp × UnitSt × UnitSt := (w.seq, w.wid, w.pend, w.unitT, w.unitE)

@[simp] theorem Wave.setS_frame (w : Wave) (n : Nat) (x : Word) (p : Bool) : (w.setS n x p).frame = w.frame := by
  unfold Wave.setS
  split <;> rfl

@[simp] theorem Wave.setSUnless_frame (w : Wave) (hidden : List Nat) (n : Nat) (x : Word) (p : Bool) :
    (w.setSUnless hidden n x p).frame = w.frame := by
  unfold Wave.setSUnless
  split
  · rfl
  · exact w.setS_frame n x p

@[simp] theorem Wave.writeLogV_frame (w : Wave) (l : Nat) (m : Lanes) (es : List Elem) : (w.writeLogV l m es).frame = w.frame := rfl

@[simp] theorem Wave.setGroupElems_frame : ∀ (k : Nat) (w : Wave) (l : Nat) (es : List Elem), (w.setGroupElems l k es).frame = w.frame
  | 0, _, _, _ => rfl
  | k + 1, w, l, _ => (Wave.setGroupElems_frame k _ (l + 1) _).trans (w.writeLogV_frame l _ _)

@[simp] theorem Wave.deliver_frame (w : Wave) (o : PendOp) : (w.deliver o).frame = w.frame := by
  unfold Wave.deliver
  cases o.dest with
  | none => rfl
  | table => rfl
  | vec base wide => cases wide <;> simp
  | uni sd wide =>
    cases o.parts.head? with
    | none => rfl
    | some p => cases wide <;> simp
  | bytes base len => simp
  | ratom base wide => simp
  | kweut kind sd base wide =>
    dsimp only
    split
    · split <;> simp
    · simp
    · split <;> simp
    · split <;> simp
    · simp

/-- The wave once an operation of it has completed: its results are in their registers, it is out of OUTST, and a unit that waited for
it goes on. -/
def Wave.completed (w : Wave) (o : PendOp) : Wave := ((w.deliver o).modOp o.id fun _ => none).releaseOp o.id

theorem Wave.completed_names (w : Wave) (o : PendOp) : (w.completed o).seq = w.seq ∧ (w.completed o).wid = w.wid := by
  have hframe := w.deliver_frame o
  simp only [Wave.frame, Prod.mk.injEq] at hframe
  exact ⟨hframe.1, hframe.2.1⟩

theorem Wave.completed_pend (w : Wave) (o : PendOp) : (w.completed o).pend = w.pend.filter fun x => x.id ≠ o.id := by
  have hframe := w.deliver_frame o
  simp only [Wave.frame, Prod.mk.injEq] at hframe
  obtain ⟨-, -, hpend, -⟩ := hframe
  change (w.deliver o).pend.filterMap (fun x => if x.id = o.id then none else some x) = _
  rw [hpend, ← List.filterMap_eq_filter]
  refine List.filterMap_congr fun x _ => ?_
  by_cases hx : x.id = o.id <;> simp [Option.guard, hx]

theorem Wave.completed_wait (w : Wave) (o : PendOp) (a : Arm) :
    ((w.completed o).unit a).wait = if (w.unit a).wait = .op o.id then .none else (w.unit a).wait := by
  have hframe := w.deliver_frame o
  simp only [Wave.frame, Prod.mk.injEq] at hframe
  obtain ⟨-, -, -, ht, he⟩ := hframe
  have hgo (u : UnitSt) :
      (if u.wait = .op o.id then { u with wait := .none } else u : UnitSt).wait = if u.wait = .op o.id then .none else u.wait := by
    split <;> rfl
  cases a with
  | t => exact (hgo (w.deliver o).unitT).trans (by rw [ht]; rfl)
  | e => exact (hgo (w.deliver o).unitE).trans (by rw [he]; rfl)

/-! ### What a completion brings to vector registers -/

/-- Logical register k after the lanes of a mask of logical register l are written. -/
theorem Wave.logV_writeLogV (w : Wave) (l k : Nat) (m : Lanes) (es : List Elem) :
    (w.writeLogV l m es).logV k
      = if w.vregs ≠ [] ∧ k % w.vregs.length = l % w.vregs.length then (w.logV l).merge m es else w.logV k := by
  have hwindow := Wave.v_writeV { w with winBase := 0 } l k m es
  simp only [Wave.v, Wave.writeV, Wave.writeLogV, Wave.setLogV, Nat.zero_add] at hwindow
  exact hwindow

/-- Lane l of a register in which the lanes of an operation's parts have been written. -/
theorem VReg.elem_merge_parts (r : VReg) (ps : List OpPart) (hi : Bool) {l : Nat} (hl : l < 64) :
    (r.merge (maskOf (laneNumbers.map fun l => ps.any fun p => p.lane = l)) (laneNumbers.map (partElem ps hi))).elem l
      = match ps.find? fun p => p.lane = l with
        | some p => (BitVec.ofNat 32 (if hi then p.val / 2 ^ 32 else p.val), p.poison)
        | none => r.elem l := by
  rw [VReg.elem_merge r _ _ l hl, getLsbD_maskOf_lanes, getD_lanes, if_pos hl, partElem]
  cases hfind : ps.find? fun p => p.lane = l with
  | none =>
    have hany : (ps.any fun p => p.lane = l) = false := List.any_eq_false.mpr (List.find?_eq_none.mp hfind)
    simp [hany]
  | some p =>
    have hany : (ps.any fun p => p.lane = l) = true :=
      List.any_eq_true.mpr ⟨p, List.mem_of_find?_eq_some hfind, by simpa using List.find?_some hfind⟩
    rw [hany, decide_eq_true hl]
    rfl

/-- Two neighbouring logical registers lie in different places. -/
theorem succ_mod_ne {n : Nat} (hn : 2 ≤ n) (l : Nat) : (l + 1) % n ≠ l % n := by
  intro h
  have h01 : 1 % n = 0 % n := Nat.ModEq.add_left_cancel' l h
  rw [Nat.mod_eq_of_lt hn, Nat.zero_mod] at h01
  exact absurd h01 Nat.one_ne_zero

section
variable {w : Wave} {o : PendOp} {base l : Nat}

theorem Wave.completed_vec (hdest : o.dest = .vec base false) (hregs : w.vregs ≠ []) (hl : l < 64) :
    ((w.completed o).logV base).elem l
      = match o.parts.find? fun p => p.lane = l with
        | some p => (BitVec.ofNat 32 p.val, p.poison)
        | none => (w.logV base).elem l := by
  change ((w.deliver o).logV base).elem l = _
  simp only [Wave.deliver, hdest, Bool.false_eq_true, if_false]
  rw [Wave.logV_writeLogV, if_pos ⟨hregs, rfl⟩, VReg.elem_merge_parts _ _ _ hl]
  rfl

theorem Wave.completed_vec_wide (hdest : o.dest = .vec base true) (hregs : 64 ≤ w.vregs.length) (hl : l < 64) {k : Nat} (hk : k < 2) :
    ((w.completed o).logV (base + k)).elem l
      = match o.parts.find? fun p => p.lane = l with
        | some p => (BitVec.ofNat 32 (p.val / 2 ^ (32 * k)), p.poison)
        | none => (w.logV (base + k)).elem l := by
  have hsome : w.vregs ≠ [] := List.ne_nil_of_length_pos (by omega)
  have happart := succ_mod_ne (n := w.vregs.length) (by omega) base
  change ((w.deliver o).logV (base + k)).elem l = _
  simp only [Wave.deliver, hdest, if_true]
  rw [Wave.logV_writeLogV]
  obtain rfl | rfl : k = 0 ∨ k = 1 := by omega
  · rw [if_neg fun hc => happart (by simpa [Wave.writeLogV, Wave.setLogV] using hc.2.symm), Wave.logV_writeLogV,
      if_pos ⟨hsome, rfl⟩, VReg.elem_merge_parts _ _ _ hl]
    simp
  · rw [if_pos ⟨by simpa [Wave.writeLogV, Wave.setLogV] using hsome, rfl⟩, Wave.logV_writeLogV,
      if_neg fun hc => happart hc.2, VReg.elem_merge_parts _ _ _ hl]
    simp

end

/-! ### The completion (07 R165, R180) -/

/-- A wave's record after it has been changed. -/
theorem State.wave?_modWave {f : Wave → Wave} (hf : ∀ w, (f w).seq = w.seq ∧ (f w).wid = w.wid) (s : State) (seq wid : Nat) :
    (s.modWave seq wid f).wave? seq wid = (s.wave? seq wid).map f := by
  unfold State.wave? State.modWave mapWhere
  induction s.waves with
  | nil => rfl
  | cons x xs ih =>
    simp only [List.map_cons, List.find?_cons]
    by_cases hx : (decide (x.seq = seq) && decide (x.wid = wid)) = true
    · simp only [hx, if_true, (hf x).1, (hf x).2, Option.map_some]
    · simp only [hx, Bool.false_eq_true, if_false, ih]

/-- A finished operation that is no acquire completes: nothing but its wave changes. -/
theorem execAccessComplete_of {s : State} {seq wid : Nat} {w : Wave} {o : PendOp} (hcall : s.call = .accessComplete seq wid o.id)
    (hw : s.wave? seq wid = some w) (hfind : (w.pend.find? fun x => x.id = o.id) = some o) (hfin : o.finished = true)
    (hacq : o.acquire = false) :
    execAccessComplete s = .next (s.modWave seq wid fun y => y.completed o) := by
  have hdone : ∀ p ∈ o.parts, p.done = true := by
    rw [PendOp.finished, Bool.and_eq_true] at hfin
    exact List.all_eq_true.mp hfin.1
  rw [execAccessComplete, hcall]
  simp only [hw, hfind, State.advance_done hdone, State.completeOp, hfin, hacq, Bool.not_true, Bool.false_eq_true, if_false]
  rfl

theorem loadCompletes : Claims.LoadCompletes := by
  intro s seq wid w o hw hmem hfind hfin hacq
  let t : State := { s with call := .accessComplete seq wid o.id }
  have hexec := execAccessComplete_of (s := t) rfl hw hfind hfin hacq
  have hrecord : (t.modWave seq wid fun y => y.completed o).wave? seq wid = some (w.completed o) := by
    rw [State.wave?_modWave fun y => y.completed_names o]
    exact congrArg (Option.map fun y => y.completed o) hw
  refine ⟨_, w.completed o, hexec, rfl, hrecord, w.completed_pend o, w.completed_wait o,
    fun hdest => ?_, fun sd p hdest hhead => ?_, fun sd p hdest hhead => ?_, fun base hdest hregs l hl => Wave.completed_vec hdest hregs hl,
    fun base hdest hregs l k hl hk => Wave.completed_vec_wide hdest hregs hl hk⟩
  · change (w.deliver o).vregs = w.vregs ∧ (w.deliver o).sregs = w.sregs
    simp only [Wave.deliver, hdest, and_self]
  · change (w.deliver o).sregs = _
    simp only [Wave.deliver, hdest, hhead, Bool.false_eq_true, if_false]
    rfl
  · change (w.deliver o).sregs = _
    simp only [Wave.deliver, hdest, hhead, if_true]
    rfl

/-- Settles O36: the issue of an operation, and its completion. -/
theorem operationsIssueAndComplete : Obligations.OperationsIssueAndComplete := ⟨issuedOperation, loadCompletes⟩

end Sys2Proof.Machine
end


section
/-!
PROOFS. O41: barriers. A field of a barrier's word after another field is written (`bitsAt_setBits_same`, `_below`, `_above`) gives its
arithmetic. A transaction-barrier word that reaches its barrier (`State.Reaches`) is its operation at the barrier's turn; a scoped-barrier
word that arrives is what it does with its generation (`barArrival_of`).
-/
namespace Sys2Proof.Machine

/-! ### Fields of a number -/

section
variable (x lo n v : Nat)

/-- A number with a field written is what stood above the field, the field, and what stood below. -/
theorem setBits_eq : setBits x lo n v = x / 2 ^ (lo + n) * 2 ^ (lo + n) + v % 2 ^ n * 2 ^ lo + x % 2 ^ lo := by
  have hlow := Nat.div_add_mod x (2 ^ lo)
  have hmid := Nat.div_add_mod (x / 2 ^ lo) (2 ^ n)
  have hx : x = x / 2 ^ (lo + n) * 2 ^ (lo + n) + bitsAt x lo n * 2 ^ lo + x % 2 ^ lo := by
    calc x = 2 ^ lo * (2 ^ n * (x / 2 ^ lo / 2 ^ n) + x / 2 ^ lo % 2 ^ n) + x % 2 ^ lo := by rw [hmid, hlow]
      _ = _ := by rw [bitsAt, Nat.div_div_eq_div_mul, ← pow_add, pow_add 2 lo n]; ring
  rw [setBits]
  omega

theorem setBits_mod : setBits x lo n v % 2 ^ lo = x % 2 ^ lo := by
  have hsum : setBits x lo n v = x % 2 ^ lo + 2 ^ lo * (x / 2 ^ (lo + n) * 2 ^ n + v % 2 ^ n) := by
    rw [setBits_eq, pow_add 2 lo n]
    ring
  rw [hsum, Nat.add_mul_mod_self_left, Nat.mod_mod]

theorem setBits_div : setBits x lo n v / 2 ^ lo = v % 2 ^ n + 2 ^ n * (x / 2 ^ (lo + n)) := by
  have hsum : setBits x lo n v = x % 2 ^ lo + 2 ^ lo * (v % 2 ^ n + 2 ^ n * (x / 2 ^ (lo + n))) := by
    rw [setBits_eq, pow_add 2 lo n]
    ring
  rw [hsum, Nat.add_mul_div_left _ _ (Nat.two_pow_pos lo), Nat.div_eq_of_lt (Nat.mod_lt _ (Nat.two_pow_pos lo)), Nat.zero_add]

theorem bitsAt_setBits_same : bitsAt (setBits x lo n v) lo n = v % 2 ^ n := by
  rw [bitsAt, setBits_div, Nat.add_mul_mod_self_left, Nat.mod_mod]

variable {lo n}

theorem setBits_div_above {a : Nat} (h : lo + n ≤ a) : setBits x lo n v / 2 ^ a = x / 2 ^ a := by
  obtain ⟨d, rfl⟩ := Nat.exists_eq_add_of_le h
  have htop : setBits x lo n v / 2 ^ (lo + n) = x / 2 ^ (lo + n) := by
    rw [pow_add, ← Nat.div_div_eq_div_mul, setBits_div, Nat.add_mul_div_left _ _ (Nat.two_pow_pos n),
      Nat.div_eq_of_lt (Nat.mod_lt _ (Nat.two_pow_pos n)), Nat.zero_add, pow_add]
  rw [pow_add 2 (lo + n) d, ← Nat.div_div_eq_div_mul, htop, Nat.div_div_eq_div_mul]

theorem bitsAt_setBits_above {a : Nat} (h : lo + n ≤ a) (m : Nat) : bitsAt (setBits x lo n v) a m = bitsAt x a m := by
  rw [bitsAt, setBits_div_above x v h, bitsAt]

theorem bitsAt_setBits_below {a m : Nat} (h : a + m ≤ lo) : bitsAt (setBits x lo n v) a m = bitsAt x a m := by
  have hread (y : Nat) : bitsAt y a m = y % 2 ^ lo / 2 ^ a % 2 ^ m := by
    obtain ⟨d, rfl⟩ := Nat.exists_eq_add_of_le h
    rw [bitsAt, add_assoc, pow_add 2 a (m + d), Nat.mod_mul_right_div_self, pow_add 2 m d, Nat.mod_mul_right_mod]
  rw [hread, setBits_mod, ← hread]

end

/-! ### The barrier word (05 R139, R140) -/

theorem tbPhase_eq (x : Nat) : tbPhase x = x % 16 := by simp [tbPhase, bitsAt]

theorem tbArrivals_lt (x : Nat) : tbArrivals x < 2 ^ 20 := Nat.mod_lt _ (by decide)

theorem tbSectors_lt (x : Nat) : tbSectors x < 2 ^ 24 := Nat.mod_lt _ (by decide)

section
variable (x v : Nat)

/-- ARRIVALS written: every other field stays. -/
theorem tb_setArrivals (hv : v < 2 ^ 20) : tbArrivals (setBits x 4 20 v) = v ∧ tbPhase (setBits x 4 20 v) = tbPhase x
    ∧ tbSectors (setBits x 4 20 v) = tbSectors x ∧ setBits x 4 20 v / 2 ^ 48 = x / 2 ^ 48 :=
  ⟨(bitsAt_setBits_same x 4 20 v).trans (Nat.mod_eq_of_lt hv), bitsAt_setBits_below x v (by decide),
    bitsAt_setBits_above x v (by decide) 24, setBits_div_above x v (by decide)⟩

/-- SECTORS written: every other field stays. -/
theorem tb_setSectors (hv : v < 2 ^ 24) : tbSectors (setBits x 24 24 v) = v ∧ tbPhase (setBits x 24 24 v) = tbPhase x
    ∧ tbArrivals (setBits x 24 24 v) = tbArrivals x ∧ setBits x 24 24 v / 2 ^ 48 = x / 2 ^ 48 :=
  ⟨(bitsAt_setBits_same x 24 24 v).trans (Nat.mod_eq_of_lt hv), bitsAt_setBits_below x v (by decide),
    bitsAt_setBits_below x v (by decide), setBits_div_above x v (by decide)⟩

/-- PROMISE written: the fields below it and those above stay. -/
theorem tb_setPromise : tbSectors (setBits x 48 48 v) = tbSectors x ∧ tbPhase (setBits x 48 48 v) = tbPhase x
    ∧ tbArrivals (setBits x 48 48 v) = tbArrivals x ∧ setBits x 48 48 v / 2 ^ 96 = x / 2 ^ 96 :=
  ⟨bitsAt_setBits_below x v (by decide), bitsAt_setBits_below x v (by decide),
    bitsAt_setBits_below x v (by decide), setBits_div_above x v (by decide)⟩

/-- A completed phase: PHASE goes on by one, and every other field stays. -/
theorem tb_complete : tbPhase (tbComplete x) = (tbPhase x + 1) % 16 ∧ tbArrivals (tbComplete x) = tbArrivals x
    ∧ tbSectors (tbComplete x) = tbSectors x ∧ tbComplete x / 2 ^ 48 = x / 2 ^ 48 :=
  ⟨bitsAt_setBits_same x 0 4 _, bitsAt_setBits_above x _ (by decide) 20, bitsAt_setBits_above x _ (by decide) 24,
    setBits_div_above x _ (by decide)⟩

end

/-- A barrier whose phase completes on a condition: only PHASE depends on it. -/
theorem tb_completeIf (y : Nat) (c : Prop) [Decidable c] :
    tbArrivals (if c then tbComplete y else y) = tbArrivals y ∧ tbSectors (if c then tbComplete y else y) = tbSectors y
      ∧ (if c then tbComplete y else y) / 2 ^ 48 = y / 2 ^ 48
      ∧ tbPhase (if c then tbComplete y else y) = if c then (tbPhase y + 1) % 16 else tbPhase y := by
  obtain ⟨hphase, harr, hsec, hrest⟩ := tb_complete y
  split
  · exact ⟨harr, hsec, hrest, hphase⟩
  · exact ⟨rfl, rfl, rfl, rfl⟩

section
variable (x a : Nat)

theorem tbExpect_fits (h : tbArrivals x + a < 2 ^ 20) : tbExpect x a = some (setBits x 4 20 (tbArrivals x + a)) :=
  if_neg (by omega)

theorem tbExpect_overflow (h : 2 ^ 20 ≤ tbArrivals x + a) : tbExpect x a = none := if_pos (by omega)

theorem tbArrive_overflow (h : tbArrivals x < a) : tbArrive x a = none := if_pos h

/-- An arrival takes from ARRIVALS; at none left and no sector pending the phase completes. -/
theorem tbArrive_fits (h : a ≤ tbArrivals x) : ∃ b, tbArrive x a = some b ∧ tbArrivals b = tbArrivals x - a
    ∧ tbSectors b = tbSectors x ∧ b / 2 ^ 48 = x / 2 ^ 48
    ∧ tbPhase b = if tbArrivals x = a ∧ tbSectors x = 0 then (tbPhase x + 1) % 16 else tbPhase x := by
  obtain ⟨harr, hphase, hsec, hrest⟩ := tb_setArrivals x (tbArrivals x - a) (by have := tbArrivals_lt x; omega)
  obtain ⟨harr', hsec', hrest', hphase'⟩ := tb_completeIf (setBits x 4 20 (tbArrivals x - a))
    ((decide (tbArrivals (setBits x 4 20 (tbArrivals x - a)) = 0) && decide (tbSectors (setBits x 4 20 (tbArrivals x - a)) = 0)) = true)
  have hdone : tbArrivals x - a = 0 ↔ tbArrivals x = a := by omega
  refine ⟨_, if_neg (Nat.not_lt.mpr h), harr'.trans harr, hsec'.trans hsec, hrest'.trans hrest, hphase'.trans ?_⟩
  simp only [harr, hsec, hphase, hdone, Bool.and_eq_true, decide_eq_true_eq]

/-- A land takes from SECTORS what is there; at no arrival due and none left the phase completes. -/
theorem tbLand_fields : tbArrivals (tbLand x a) = tbArrivals x ∧ tbSectors (tbLand x a) = tbSectors x - min a (tbSectors x)
    ∧ tbLand x a / 2 ^ 48 = x / 2 ^ 48
    ∧ tbPhase (tbLand x a) = if 0 < min a (tbSectors x) ∧ tbArrivals x = 0 ∧ tbSectors x ≤ a then (tbPhase x + 1) % 16 else tbPhase x := by
  obtain ⟨hsec, hphase, harr, hrest⟩ := tb_setSectors x (tbSectors x - min a (tbSectors x)) (by have := tbSectors_lt x; omega)
  obtain ⟨harr', hsec', hrest', hphase'⟩ := tb_completeIf (setBits x 24 24 (tbSectors x - min a (tbSectors x)))
    ((decide (0 < min a (tbSectors x)) && decide (tbArrivals (setBits x 24 24 (tbSectors x - min a (tbSectors x))) = 0)
      && decide (tbSectors (setBits x 24 24 (tbSectors x - min a (tbSectors x))) = 0)) = true)
  have hdone : tbSectors x - min a (tbSectors x) = 0 ↔ tbSectors x ≤ a := by omega
  refine ⟨harr'.trans harr, hsec'.trans hsec, hrest'.trans hrest, hphase'.trans ?_⟩
  simp only [harr, hsec, hphase, hdone, Bool.and_eq_true, decide_eq_true_eq, and_assoc]

/-- An acceptance adds to SECTORS, and leaves all but PROMISE. -/
theorem tbAccept_fields (h : tbSectors x + a < 2 ^ 24) (p : Nat) : tbArrivals (tbAccept x a p) = tbArrivals x
    ∧ tbPhase (tbAccept x a p) = tbPhase x ∧ tbSectors (tbAccept x a p) = tbSectors x + a
    ∧ tbAccept x a p / 2 ^ 96 = x / 2 ^ 96 := by
  obtain ⟨hsec, hphase, harr, -⟩ := tb_setSectors x (tbSectors x + a) h
  obtain ⟨hsec', hphase', harr', hrest'⟩ :=
    tb_setPromise (setBits x 24 24 (tbSectors x + a)) (later48 (tbPromise x) (p % 2 ^ 48))
  exact ⟨harr'.trans harr, hphase'.trans hphase, hsec'.trans hsec, hrest'.trans (setBits_div_above x _ (by decide))⟩

end

theorem barrierArithmetic : Claims.BarrierArithmetic := by
  intro x a _ phase arrivals sectors rest
  have hphase (b : Nat) : phase b = tbPhase b := (tbPhase_eq b).symm
  simp only [hphase]
  refine ⟨fun h => ?_, tbExpect_overflow x a, tbArrive_fits x a, tbArrive_overflow x a, ⟨_, rfl, tbLand_fields x a⟩,
    fun h p => ⟨_, rfl, tbAccept_fields x a h p⟩⟩
  obtain ⟨harr, hph, hsec, hrest⟩ := tb_setArrivals x (tbArrivals x + a) h
  exact ⟨_, tbExpect_fits x a h, harr, hph, hsec, hrest⟩

/-! ### A transaction-barrier word and its barrier (05 R138, R139; 12 R298) -/

theorem finishBarrier_eq (s : State) (w : Wave) (i : Issue) (sc : BitVec 3) :
    finishBarrier s w i sc = .next (s.barrierDone w i sc) := rfl

theorem sleepWith_eq (s : State) (w : Wave) (i : Issue) (x : Wait) : sleepWith s w i x = s.slept w i x := by
  obtain ⟨_, _, arm, _, _, _, _, _, _⟩ := i
  cases arm <;> rfl

theorem State.again_of {s : State} {w : Wave} (h : s.wave? w.seq w.wid = some w) : s.again w = w := by
  rw [State.again, h]
  rfl

/-- The latched barrier word of wave `w0` names the barrier `b`, meets no operation of its wave there, and finds it in the state `s1`. Its
unit presents nothing while the word is looked at, as `w` says. -/
structure State.Reaches (s : State) (w0 w : Wave) (i : Issue) (k : BitVec 5) (q : BitVec 1) (kind : AccKind) (b : BarrierRef)
    (s1 : State) : Prop where
  base : w0.sPairPoison (2 * k.toNat) = false
  idle : w = w0.presents i.arm none
  names : barrierAt (s.setWave w) w i (w0.issuing i) q (w.sPair (2 * k.toNat)) kind = .ok b
  clear : w.overlaps b.key 16 true = false
  reach : (s.setWave w).barrierReach w b = (s1, true)
  wave : s1.wave? w.seq w.wid = some w

/-- Since when the wave's unit has presented the barrier, if it has. -/
def Wave.presentedSince (w : Wave) (i : Issue) (b : BarrierRef) : Option Nat :=
  (((w.issuing i).atBank.filter fun x => x.1 = b.key).map Prod.snd)

/-- The request of a barrier word to its barrier's bank (02 R44). -/
def State.barrierReq (s : State) (w : Wave) (i : Issue) (b : BarrierRef) (age : Nat) : BankReq :=
  { who := .unit w.seq w.wid i.arm, cls := 4, place := s.slotPlace w.core w.slot, age := age, seg := (sectorKey b.key, false),
    reads := false }

/-- The barrier's turn has come: at an atomic unit at once, at a bank when it comes to the word's request (05 R138). -/
def State.BarrierTurn (s : State) (w : Wave) (i : Issue) (b : BarrierRef) (since : Option Nat) : Prop :=
  b.qsp = true → s.bankTurn (s.barrierReq w i b (since.getD s.now)) b.key = true

theorem barrierTurn_of {s : State} {w : Wave} {i : Issue} {b : BarrierRef} {since : Option Nat} (h : s.BarrierTurn w i b since)
    (f : State → Wave → Out) : barrierTurn s w i b since f = f s w := by
  rw [barrierTurn]
  cases hq : b.qsp with
  | false => rfl
  | true => exact if_pos (h hq)

theorem barrierTurn_of_not {s : State} {w : Wave} {i : Issue} {b : BarrierRef} {since : Option Nat} (h : ¬ s.BarrierTurn w i b since)
    (f : State → Wave → Out) :
    barrierTurn s w i b since f = .next (s.setWave (w.presents i.arm (some (b.key, since.getD s.now)))).stall := by
  obtain ⟨hq, hbank⟩ := Classical.not_imp.mp h
  rw [barrierTurn, hq]
  exact if_neg hbank

/-- A barrier word that reaches its barrier does its own part there. -/
theorem barrierWord_of {s s1 : State} {w0 w : Wave} {i : Issue} {x : Instr} {k : BitVec 5} {q : BitVec 1} {r : Option (BitVec 6)}
    {kind : AccKind} {b : BarrierRef} (hlegal : s.Legal w0 i x) (hb : s.Reaches w0 w i k q kind b s1)
    (hclean : (r.map fun y => w.sPoison y.toNat).getD false = false) (f : State → Wave → Issue → BarrierRef → Option Nat → Out) :
    barrierWord s x k q r kind f = f s1 w i b (w0.presentedSince i b) := by
  obtain ⟨hbase, rfl, hnames, hclear, hreach, hwave⟩ := hb
  have hpair (n : Nat) : w0.sPair n = (w0.presents i.arm none).sPair n := by
    simp only [Wave.sPair, Wave.s, Wave.presents, Wave.setUnit_sregs]
  rw [barrierWord, baseAccess_of hlegal hbase]
  simp only [hclean, hpair, hnames, hclear, hreach, State.again_of hwave, Bool.false_eq_true, if_false, if_true]
  rfl

/-- The barrier is not poisoned, and belongs to the partition (05 R139). -/
def State.Owned (s : State) (part : Nat) (b : BarrierRef) : Prop :=
  s.barrierPoison part b = false ∧ tbOwner (s.peekNat b.key 16) = ownerOf part

/-- A barrier that is not poisoned, and of the wave's partition, is what the word acts on. -/
theorem checkedBarrier_of {s : State} {w : Wave} {b : BarrierRef} (h : s.Owned w.part b) (i : Issue) (f : Nat → Out) :
    checkedBarrier s w i b f = f (s.peekNat b.key 16) := by
  obtain ⟨hpoison, howner⟩ := h
  rw [checkedBarrier, hpoison, howner]
  simp only [Bool.false_eq_true, if_false, ne_eq, not_true_eq_false]

theorem updateBarrier_of {s s1 : State} {w : Wave} {b : BarrierRef} {y : Nat}
    (hwrite : s.barrierWrite (coreQuad w.core) w.part b y = (s1, true)) (i : Issue) (sc : BitVec 3) :
    updateBarrier s w i b sc (some y) = .next ((s1.barrierDone (s1.again w) i sc).barrierChanged b.key) := by
  rw [updateBarrier, hwrite]
  rfl

/-! ### TBINIT to TBQUERY (05 R140, R141; 12 R298 to R300) -/

/-- What TBINIT writes (05 R140): the reserved bits stay, or become 0 when they are poisoned. -/
def State.freshBarrier (s : State) (part : Nat) (b : BarrierRef) (a : Nat) : Nat :=
  tbInit (if s.anyPoison (b.key + 14) 2 then 0 else s.peekNat (b.key + 14) 2) s.now48 part a

section
variable {s s1 s2 : State} {w0 w : Wave} {i : Issue} {k : BitVec 5} {q : BitVec 1} {sc : BitVec 3} {r : BitVec 6} {b : BarrierRef}
variable (h : s.Latched w0 i) (hsc : sc ≠ 7)
include h hsc

section
variable (hb : s.Reaches w0 w i k q .write b s1) (hclean : w.sPoison r.toNat = false)
include hb hclean

theorem execTbinit_turn (hcount : (w.s r.toNat).toNat < 2 ^ 20) (hturn : s1.BarrierTurn w i b (w0.presentedSince i b))
    (hwrite : s1.barrierWrite (coreQuad w.core) w.part b (s1.freshBarrier w.part b (w.s r.toNat).toNat) = (s2, true)) :
    execTbinit k q sc r s = .next ((s2.clearPoison b.key).barrierDone ((s2.clearPoison b.key).again w) i sc) := by
  refine (barrierWord_of (r := some r) (State.legal_of_scope h hsc (illegal_tbinit ..)) hb hclean _).trans ?_
  rw [State.freshBarrier] at hwrite
  rw [if_neg (by omega), barrierTurn_of hturn]
  simp only [hwrite, Bool.not_true, Bool.false_eq_true, if_false]
  rfl

theorem execTbinit_waits (hcount : (w.s r.toNat).toNat < 2 ^ 20) (hturn : ¬ s1.BarrierTurn w i b (w0.presentedSince i b)) :
    execTbinit k q sc r s
      = .next (s1.setWave (w.presents i.arm (some (b.key, (w0.presentedSince i b).getD s1.now)))).stall := by
  refine (barrierWord_of (r := some r) (State.legal_of_scope h hsc (illegal_tbinit ..)) hb hclean _).trans ?_
  rw [if_neg (by omega), barrierTurn_of_not hturn]

variable {y : Nat} (hdone : w.apertureDone = true)
include hdone

theorem execTbarrive_of {s3 : State} (hrel : s1.releaseAt w i.arm (s1.clamped w sc) = (s2, true))
    (hw : s2.wave? w.seq w.wid = some w) (hturn : s2.BarrierTurn w i b (w0.presentedSince i b)) (howned : s2.Owned w.part b)
    (hy : tbArrive (s2.peekNat b.key 16) (w.s r.toNat).toNat = some y)
    (hwrite : s2.barrierWrite (coreQuad w.core) w.part b y = (s3, true)) :
    execTbarrive k q sc r s = .next ((s3.barrierDone (s3.again w) i sc).barrierChanged b.key) := by
  refine (barrierWord_of (r := some r) (State.legal_of_scope h hsc (illegal_tbarrive ..)) hb hclean _).trans ?_
  simp only [hdone, hrel, Bool.not_true, Bool.false_eq_true, if_false]
  rw [State.again_of hw, barrierTurn_of hturn, checkedBarrier_of howned, hy, updateBarrier_of hwrite]

theorem execTbexpect_of (hturn : s1.BarrierTurn w i b (w0.presentedSince i b)) (howned : s1.Owned w.part b)
    (hy : tbExpect (s1.peekNat b.key 16) (w.s r.toNat).toNat = some y)
    (hwrite : s1.barrierWrite (coreQuad w.core) w.part b y = (s2, true)) :
    execTbexpect k q sc r s = .next ((s2.barrierDone (s2.again w) i sc).barrierChanged b.key) := by
  refine (barrierWord_of (r := some r) (State.legal_of_scope h hsc (illegal_tbexpect ..)) hb hclean _).trans ?_
  simp only [hdone, Bool.not_true, Bool.false_eq_true, if_false]
  rw [barrierTurn_of hturn, checkedBarrier_of howned, hy, updateBarrier_of hwrite]

end

section
variable (hb : s.Reaches w0 w i k q .read b s1) (hturn : s1.BarrierTurn w i b (w0.presentedSince i b)) (howned : s1.Owned w.part b)
include hb hturn howned

section
variable (hclean : w.sPoison r.toNat = false)
include hclean

theorem execTbwait_returns (hphase : tbPhase (s1.peekNat b.key 16) ≠ (w.s r.toNat).toNat % 16)
    (hacq : s1.acquireAt w (s1.clamped w sc) = (s2, true)) :
    execTbwait k q sc r s = .next (s2.barrierDone (s2.again w).progressed i sc) := by
  refine (barrierWord_of (r := some r) (State.legal_of_scope h hsc (illegal_tbwait ..)) hb hclean _).trans ?_
  rw [barrierTurn_of hturn, checkedBarrier_of howned]
  simp only [if_pos hphase, hacq, if_true]
  rfl

theorem execTbwait_sleeps (hphase : tbPhase (s1.peekNat b.key 16) = (w.s r.toNat).toNat % 16)
    (hkept : s1.promiseMissed w (s1.peekNat b.key 16) = false) :
    execTbwait k q sc r s = (s1.clampScope w.part (scopeOf sc)).1.slept w i
      (.tbar b ((w.s r.toNat).toNat % 16) (s1.clamped w sc) i.trapPc i.second) := by
  refine (barrierWord_of (r := some r) (State.legal_of_scope h hsc (illegal_tbwait ..)) hb hclean _).trans ?_
  rw [barrierTurn_of hturn, checkedBarrier_of howned]
  simp only [hphase, hkept, ne_eq, not_true_eq_false, Bool.false_eq_true, if_false]
  exact sleepWith_eq _ w i _

end

theorem execTbquery_of (hr : r.toNat % 4 = 0) : execTbquery k q sc r s = .next ((s1.clampScope w.part (scopeOf sc)).1.after
    (((w.setPair r.toNat (tbPromise (s1.peekNat b.key 16)) false).setS (r.toNat + 2)
      (BitVec.ofNat 32 (s1.peekNat b.key 16 % 2 ^ 24)) false).setS (r.toNat + 3)
        (BitVec.ofNat 32 (tbSectors (s1.peekNat b.key 16))) false) i) := by
  have hlegal : s.Legal w0 i (.tbquery k q sc r) := ⟨h, by simp [badScope_of_ne hsc, hr]⟩
  refine (barrierWord_of hlegal hb rfl _).trans ?_
  rw [barrierTurn_of hturn, checkedBarrier_of howned, finishBarrier_eq]
  simp only [State.barrierDone, Wave.setS_part, Wave.setPair]

end
end

theorem transactionBarriers : Claims.TransactionBarriers := by
  intro s w0 i k q sc r b s1 h hsc hbase w s0 hclear hreach hwave va x sc1 owned a age turn reached
  have hage (t : State) : age t = (w0.presentedSince i b).getD t.now := by
    simp only [age, Wave.presentedSince, Wave.issuing]
    rcases (w0.unit i.arm).atBank with _ | ⟨key, n⟩
    · rfl
    · by_cases hkey : key = b.key
      · simp [hkey, Option.filter]
      · simp [hkey, Option.filter]
  have hturn (t : State) : turn t ↔ t.BarrierTurn w i b (w0.presentedSince i b) := by
    simp only [turn, hage]
    rfl
  have hb {kind : AccKind} (hat : reached kind) : s.Reaches w0 w i k q kind b s1 := ⟨hbase, rfl, hat, hclear, hreach, hwave⟩
  have hphase (n : Nat) : tbPhase n = n % 16 := tbPhase_eq n
  simp only [hturn, hage]
  refine ⟨fun hclean => ⟨fun s2 hat hcount ht hwrite => ?_, fun hat hcount ht => ?_,
    fun s2 s3 y hat hdone hrel hw ht hp ho hy hwrite => ?_, fun s2 y hat hdone ht howned hy hwrite => ?_,
    fun hat ht howned => ⟨fun s2 hne hacq => ?_, fun heq hkept => ?_⟩⟩, fun hr hat ht howned => ?_⟩
  · exact execTbinit_turn h hsc (hb hat) hclean hcount ht hwrite
  · exact execTbinit_waits h hsc (hb hat) hclean hcount ht
  · exact execTbarrive_of h hsc (hb hat) hclean hdone hrel hw ht ⟨hp, ho⟩ hy hwrite
  · exact execTbexpect_of h hsc (hb hat) hclean hdone ht howned hy hwrite
  · exact execTbwait_returns h hsc (hb hat) ht howned hclean ((hphase x).trans_ne hne) hacq
  · exact execTbwait_sleeps h hsc (hb hat) ht howned hclean ((hphase x).trans heq) hkept
  · exact execTbquery_of h hsc (hb hat) ht howned hr

/-! ### Scoped barriers (12 R301 to R303) -/

/-- An arrival completes its generation at the latched count, and only then does the generation's number change. -/
theorem Bar.arrive_gen (b : Bar) (n : Nat) : (b.arrive n).gen ≠ b.gen ↔ (if b.total = 0 then n else b.count) ≤ b.total + 1 := by
  by_cases hlast : (if b.total = 0 then n else b.count) ≤ b.total + 1
  · simp only [Bar.arrive, hlast, if_true, iff_true]
    omega
  · simp only [Bar.arrive, hlast, if_false, ne_eq, not_true_eq_false]

theorem Bar.completed_iff (b : Bar) (g : Nat) : b.completed g = true
    ↔ 1 ≤ (b.gen + 65536 - g % 65536) % 65536 ∧ (b.gen + 65536 - g % 65536) % 65536 ≤ 32768 := by
  simp [Bar.completed]

/-- The fields of a scoped-barrier word are legal: its scope, which is not WAVE (12 R301). -/
theorem scopedFields_legal {sc : BitVec 3} (hwave : sc ≠ 0) (hsc : sc ≠ 7) : illegalIf (badScope sc || sc = 0) = none := by
  rw [badScope_of_ne hsc, decide_eq_false hwave]
  rfl

section
variable {s s1 s2 : State} {w : Wave} {i : Issue} {sc : BitVec 3} {id : BitVec 4} {r : BitVec 6} (hclean : w.sPoison r.toNat = false)
include hclean

section
variable (hn : 1 ≤ (w.s r.toNat).toNat) (hmax : (w.s r.toNat).toNat ≤ 65535)
  (hrel : s.releaseAt w i.arm (s.clamped w sc) = (s1, true)) (hw : s1.wave? w.seq w.wid = some w)
include hn hmax hrel hw

/-- A legal scoped-barrier word whose release has performed arrives at its barrier. -/
theorem barArrival_of {x : Instr} (hlegal : s.Legal w i x) (f : State → Wave → Issue → BarKey → Bool → Nat → Out) :
    barArrival s x sc id r f = f s1 w i (s1.barKey w (s.clamped w sc))
      (decide (((s1.bar (s1.barKey w (s.clamped w sc)) id.toNat).arrive (w.s r.toNat).toNat).gen
        ≠ (s1.bar (s1.barKey w (s.clamped w sc)) id.toNat).gen))
      (s1.bar (s1.barKey w (s.clamped w sc)) id.toNat).gen := by
  refine (whenLegal_of hlegal _).trans ?_
  have hcount : (decide ((w.s r.toNat).toNat = 0) || decide (65535 < (w.s r.toNat).toNat)) = false := by
    simp only [Bool.or_eq_false_iff, decide_eq_false_iff_not]
    omega
  simp only [hclean, hcount, hrel, State.again_of hw, Bool.not_true, Bool.false_eq_true, if_false]

variable (h : s.Latched w i) (hwave : sc ≠ 0) (hsc : sc ≠ 7)
include h hwave hsc

theorem execBararrive_of (d : BitVec 6) : execBararrive sc id r d s
    = .next (((s1.clampScope w.part (scopeOf sc)).1.after
        (w.setS d.toNat (BitVec.ofNat 32 (s1.bar (s1.barKey w (s.clamped w sc)) id.toNat).gen) false) i).arriveBar w
          (s1.barKey w (s.clamped w sc)) id.toNat (w.s r.toNat).toNat) := by
  have hlegal : s.Legal w i (.bararrive sc id r d) := ⟨h, scopedFields_legal hwave hsc⟩
  refine (barArrival_of hclean hn hmax hrel hw hlegal _).trans ?_
  simp only [finishBarrier_eq, State.barrierDone, Wave.setS_part]

/-- A BARSYNC that does not complete its generation waits for it. -/
theorem execBarsync_waits
    (hmore : ¬ (if (s1.bar (s1.barKey w (s.clamped w sc)) id.toNat).total = 0 then (w.s r.toNat).toNat
      else (s1.bar (s1.barKey w (s.clamped w sc)) id.toNat).count) ≤ (s1.bar (s1.barKey w (s.clamped w sc)) id.toNat).total + 1) :
    execBarsync sc id r s = .next (((s1.clampScope w.part (scopeOf sc)).1.setWave (w.setUnit i.arm
      { w.unit i.arm with
        pc := nextWord i.pc, refusals := [], looked := false, table := [], atBank := none, hidden := [],
        wait := .bar (s1.barKey w (s.clamped w sc)) id.toNat (s1.bar (s1.barKey w (s.clamped w sc)) id.toNat).gen
          (s1.clamped w sc) })).arriveBar w (s1.barKey w (s.clamped w sc)) id.toNat (w.s r.toNat).toNat) := by
  have hlegal : s.Legal w i (.barsync sc id r) := ⟨h, scopedFields_legal hwave hsc⟩
  refine (barArrival_of hclean hn hmax hrel hw hlegal _).trans ?_
  simp only [Bar.arrive_gen, hmore, decide_false, Bool.false_eq_true, if_false, sleepWith_eq, State.slept]

/-- A BARSYNC that completes its generation goes on once its acquire has performed. -/
theorem execBarsync_last
    (hlast : (if (s1.bar (s1.barKey w (s.clamped w sc)) id.toNat).total = 0 then (w.s r.toNat).toNat
      else (s1.bar (s1.barKey w (s.clamped w sc)) id.toNat).count) ≤ (s1.bar (s1.barKey w (s.clamped w sc)) id.toNat).total + 1)
    (hacq : s1.acquireAt w (s1.clamped w sc) = (s2, true)) :
    execBarsync sc id r s = .next ((s2.barrierDone (s2.again w).progressed i sc).arriveBar w
      (s1.barKey w (s.clamped w sc)) id.toNat (w.s r.toNat).toNat) := by
  have hlegal : s.Legal w i (.barsync sc id r) := ⟨h, scopedFields_legal hwave hsc⟩
  refine (barArrival_of hclean hn hmax hrel hw hlegal _).trans ?_
  simp only [Bar.arrive_gen, hlast, decide_true, hacq, Bool.not_true, Bool.false_eq_true, if_false, if_true, finishBarrier_eq]

end

variable (h : s.Latched w i) (hwave : sc ≠ 0) (hsc : sc ≠ 7)
include h hwave hsc

theorem execBarwait_done
    (hdone : (s.bar (s.barKey w (s.clamped w sc)) id.toNat).completed ((w.s r.toNat).toNat % 2 ^ 16) = true)
    (hacq : s.acquireAt w (s.clamped w sc) = (s2, true)) :
    execBarwait sc id r s = .next (s2.barrierDone (s2.again w).progressed i sc) := by
  have hlegal : s.Legal w i (.barwait sc id r) := ⟨h, scopedFields_legal hwave hsc⟩
  refine (whenLegal_of hlegal _).trans ?_
  simp only [hclean, hdone, hacq, Bool.false_eq_true, if_false, if_true, finishBarrier_eq]

theorem execBarwait_sleeps
    (hmore : ¬ (s.bar (s.barKey w (s.clamped w sc)) id.toNat).completed ((w.s r.toNat).toNat % 2 ^ 16) = true) :
    execBarwait sc id r s = (s.clampScope w.part (scopeOf sc)).1.slept w i
      (.bar (s.barKey w (s.clamped w sc)) id.toNat ((w.s r.toNat).toNat % 2 ^ 16) (s.clamped w sc)) := by
  have hlegal : s.Legal w i (.barwait sc id r) := ⟨h, scopedFields_legal hwave hsc⟩
  refine (whenLegal_of hlegal _).trans ?_
  simp only [hclean, hmore, Bool.false_eq_true, if_false, sleepWith_eq]

end

theorem scopedBarriers : Claims.ScopedBarriers := by
  intro s w i sc id r d s1 h hwave hsc hclean n sc0 key bar last
  refine ⟨fun hn hmax hrel hw => ⟨execBararrive_of hclean hn hmax hrel hw h hwave hsc d,
    execBarsync_waits hclean hn hmax hrel hw h hwave hsc, fun s2 => execBarsync_last hclean hn hmax hrel hw h hwave hsc⟩, ?_⟩
  intro g b0 done
  have hdone : done ↔ b0.completed g = true := by
    have hg : g % 65536 = g := Nat.mod_mod _ _
    rw [Bar.completed_iff, hg]
  exact ⟨fun s2 hd => execBarwait_done hclean h hwave hsc (hdone.mp hd), fun hd => execBarwait_sleeps hclean h hwave hsc (hdone.not.mp hd)⟩

/-- Settles O41: the barrier's arithmetic, the words on transaction barriers, and those on scoped barriers. -/
theorem barrierWords : Obligations.BarrierWords := ⟨barrierArithmetic, transactionBarriers, scopedBarriers⟩

end Sys2Proof.Machine
end

section
/-!
PROOFS. O53: a Ladle channel. The doorbell at its head comes to the checks of R134 once its pages are there (`State.acceptDoor_checked`),
these come to the acceptance (`State.checkDoor_accepts`), and that to the copy (`State.acceptCopy_taken`); each refusal and each wait on the
way has a lemma of its own. A landing is its sectors, then its land on the barrier (`State.landCopy_of`).
-/
namespace Sys2Proof.Machine

/-! ### The doorbell at a channel's head (05 R133, R134) -/

/-- The shape of the copy that a doorbell asks its channel for. -/
def Chan.shapeOf (c : Chan) (d : Doorbell) : CopyShape := copyShape (c.tmpl.getD (bitsAt d.desc 0 5) 0).toNat d.desc

/-- The source sectors of a doorbell, as its channel resolves them. -/
def State.doorSources (s : State) (c : Chan) (d : Doorbell) (w : Wave) (p : Part) : List SectorGot :=
  (c.shapeOf d).sources.map (s.sectorAt c d w p (c.shapeOf d).srcQsp 64 .read)

/-- The destination sectors of a doorbell, as its channel resolves them. -/
def State.doorDests (s : State) (c : Chan) (d : Doorbell) (w : Wave) (p : Part) : List SectorGot :=
  (c.shapeOf d).dests.map (s.sectorAt c d w p (c.shapeOf d).dstQsp 64 .write)

/-- The pages that a doorbell has to have walked. -/
def State.doorMisses (s : State) (c : Chan) (d : Doorbell) (w : Wave) (p : Part) : List Nat :=
  missedPages (s.doorSources c d w p ++ s.doorDests c d w p ++ ((s.copyBarrier c d w p).map Prod.snd).toList)

theorem execCopyAccept_head {s : State} {die ch : Nat} {d : Doorbell} {rest : List Doorbell} {w : Wave} {p : Part}
    (hc : s.call = .copyAccept die ch) (hd : (s.chan die ch).doors = d :: rest) (hw : s.wave? d.seq d.wid = some w)
    (hp : s.part? w.part = some p) : execCopyAccept s = .next (s.acceptDoor (s.chan die ch) w p d) := by
  rw [execCopyAccept, hc]
  simp only [hd, hw, hp]

section
variable {s : State} {c : Chan} {w : Wave} {p : Part} {d : Doorbell}

theorem State.acceptDoor_malformed (h : d.malformed = true) : s.acceptDoor c w p d = s.refuseDoor c d 1 := if_pos h

variable (hok : d.malformed = false)
include hok

theorem State.acceptDoor_badShape
    (h : (c.shapeOf d).bad = true ∨ (((c.shapeOf d).srcQsp = true ∨ (c.shapeOf d).dstQsp = true) ∧ c.die ≠ coreDie w.core)) :
    s.acceptDoor c w p d = s.refuseDoor c d 2 := by
  have hbad : ((c.shapeOf d).bad || (((c.shapeOf d).srcQsp || (c.shapeOf d).dstQsp) && decide (c.die ≠ coreDie w.core))) = true := by
    simpa using h
  rw [State.acceptDoor, hok]
  exact if_pos hbad

variable (hshape : (c.shapeOf d).bad = false)
  (hdie : (c.shapeOf d).srcQsp = false ∧ (c.shapeOf d).dstQsp = false ∨ c.die = coreDie w.core)
include hshape hdie

/-- A well-formed doorbell, in its ranges, is checked once no page is to be walked. -/
theorem State.acceptDoor_shaped : s.acceptDoor c w p d
    = if s.doorMisses c d w p = [] then
        s.checkDoor c w d (c.shapeOf d).count (s.doorSources c d w p) (s.doorDests c d w p) (s.copyBarrier c d w p)
      else (s.chanWalks c w (s.doorMisses c d w p)).presentDoor c.die c.ch none := by
  have hfits : ¬ ((c.shapeOf d).bad || (((c.shapeOf d).srcQsp || (c.shapeOf d).dstQsp) && decide (c.die ≠ coreDie w.core))) = true := by
    obtain ⟨hsrc, hdst⟩ | hsame := hdie
    · simp [hshape, hsrc, hdst]
    · simp [hshape, hsame]
  rw [State.acceptDoor, hok]
  exact if_neg hfits

theorem State.acceptDoor_walks (h : s.doorMisses c d w p ≠ []) :
    s.acceptDoor c w p d = (s.chanWalks c w (s.doorMisses c d w p)).presentDoor c.die c.ch none :=
  (State.acceptDoor_shaped hok hshape hdie).trans (if_neg h)

theorem State.acceptDoor_checked (h : s.doorMisses c d w p = []) : s.acceptDoor c w p d
    = s.checkDoor c w d (c.shapeOf d).count (s.doorSources c d w p) (s.doorDests c d w p) (s.copyBarrier c d w p) :=
  (State.acceptDoor_shaped hok hshape hdie).trans (if_pos h)

end

/-! ### The checks, in the order of their subcodes (05 R134) -/

section
variable {s : State} {c : Chan} {w : Wave} {d : Doorbell} {count : Nat} {x y : List SectorGot} {z : Option (BarrierRef × SectorGot)}

theorem State.checkDoor_badTier (h : ∃ g ∈ x ++ y, g = .badTier) : s.checkDoor c w d count x y z = s.refuseDoor c d 2 := by
  obtain ⟨g, hg, rfl⟩ := h
  exact if_pos (List.any_eq_true.mpr ⟨_, hg, decide_eq_true rfl⟩)

variable (htiers : ∀ g ∈ x ++ y, g ≠ .badTier)
include htiers

theorem any_badTier_eq_false : ((x ++ y).any fun g => g = .badTier) = false :=
  List.any_eq_false.mpr fun g hg => by simpa using htiers g hg

theorem State.checkDoor_source {r : Nat × Option (Nat × Nat)} (h : firstRefused x = some r) :
    s.checkDoor c w d count x y z = (s.logEngine c w .read r).refuseDoor c d 3 := by
  rw [State.checkDoor, any_badTier_eq_false htiers, h]
  simp only [Bool.false_eq_true, if_false]

variable (hsrc : firstRefused x = none)
include hsrc

theorem State.checkDoor_dest {r : Nat × Option (Nat × Nat)} (h : firstRefused y = some r) :
    s.checkDoor c w d count x y z = (s.logEngine c w .write r).refuseDoor c d 4 := by
  rw [State.checkDoor, any_badTier_eq_false htiers, hsrc, h]
  simp only [Bool.false_eq_true, if_false]

variable (hdst : firstRefused y = none)
include hdst

theorem State.checkDoor_tooLarge
    (h : 16384 < (dedup ((resolved y).map fun a => lineKey a.key)).length ∨ 32768 < count) :
    s.checkDoor c w d count x y z = s.refuseDoor c d 5 := by
  have hlarge : (decide (16384 < (dedup ((resolved y).map fun a => lineKey a.key)).length) || decide (32768 < count)) = true := by
    simpa using h
  rw [State.checkDoor, any_badTier_eq_false htiers, hsrc, hdst]
  simp only [hlarge, Bool.false_eq_true, if_false, if_true]

variable (hlines : (dedup ((resolved y).map fun a => lineKey a.key)).length ≤ 16384) (hcount : count ≤ 32768)
include hlines hcount

omit htiers hsrc hdst in
/-- The copy is within the sizes of subcode 5. -/
theorem copy_inSize :
    (decide (16384 < (dedup ((resolved y).map fun a => lineKey a.key)).length) || decide (32768 < count)) = false := by
  simpa using ⟨hlines, hcount⟩

/-- A doorbell without a barrier that passes every check is accepted. -/
theorem State.checkDoor_accepts :
    s.checkDoor c w d count x y none = s.acceptCopy c w d (resolved x) (resolved y) none := by
  rw [State.checkDoor, any_badTier_eq_false htiers, hsrc, hdst]
  simp only [copy_inSize hlines hcount, Bool.false_eq_true, if_false]

variable {b : BarrierRef × SectorGot}

theorem State.checkDoor_barrierInvalid {r : Nat × Option (Nat × Nat)} (h : s.barrierInvalid w.part b = some r) :
    s.checkDoor c w d count x y (some b) = (s.logEngine c w .write r).refuseDoor c d 6 := by
  rw [State.checkDoor, any_badTier_eq_false htiers, hsrc, hdst]
  simp only [copy_inSize hlines hcount, h, Bool.false_eq_true, if_false]

variable (hvalid : s.barrierInvalid w.part b = none)
include hvalid

theorem State.checkDoor_barrierFull (h : 2 ^ 24 - 1 < tbSectors (s.peekNat b.1.key 16) + (resolved x).length) :
    s.checkDoor c w d count x y (some b) = s.refuseDoor c d 0x0B := by
  rw [State.checkDoor, any_badTier_eq_false htiers, hsrc, hdst]
  simp only [copy_inSize hlines hcount, hvalid, if_pos h, Bool.false_eq_true, if_false]

/-- So is one whose barrier is valid and has room for its sectors. -/
theorem State.checkDoor_accepts_barrier (h : tbSectors (s.peekNat b.1.key 16) + (resolved x).length ≤ 2 ^ 24 - 1) :
    s.checkDoor c w d count x y (some b) = s.acceptCopy c w d (resolved x) (resolved y) (some b.1) := by
  rw [State.checkDoor, any_badTier_eq_false htiers, hsrc, hdst]
  simp only [copy_inSize hlines hcount, hvalid, if_neg (Nat.not_lt.mpr h), Bool.false_eq_true, if_false]

end

/-! ### Acceptance (05 R133) -/

/-- Operations that leave the state wherever they are done leave it when all are done. -/
theorem gotAll_of_done {α : Type} {f : State → α → Got} (hf : ∀ t x, (f t x).2 = true → (f t x).1 = t) {s s1 : State} {l : List α}
    (h : gotAll s l f = (s1, true)) : s1 = s := by
  have hfold : ∀ (l : List α) (g : Got), (l.foldl (fun (g : Got) x => ((f g.1 x).1, g.2 && (f g.1 x).2)) g).2 = true →
      g.2 = true ∧ (l.foldl (fun (g : Got) x => ((f g.1 x).1, g.2 && (f g.1 x).2)) g).1 = g.1 := by
    intro l
    induction l with
    | nil => exact fun g hg => ⟨hg, rfl⟩
    | cons x xs ih =>
      intro g hg
      obtain ⟨hdone, hsame⟩ := ih _ hg
      obtain ⟨hg2, hx⟩ := Bool.and_eq_true_iff.mp hdone
      exact ⟨hg2, hsame.trans (hf g.1 x hx)⟩
  have hsame := (hfold l (s, true) (congrArg Prod.snd h)).2
  exact (congrArg Prod.fst h).symm.trans hsame

/-- A permission that is held asks the module for nothing. -/
theorem State.permitted_of_held {s : State} {die part line : Nat} {own : Bool} (h : (s.permitted die part line own).2 = true) :
    (s.permitted die part line own).1 = s := by
  unfold State.permitted at h ⊢
  split at h
  case isTrue hstack => rw [if_pos hstack]
  case isFalse hmodule =>
    rw [if_neg hmodule]
    split <;> simp_all only [Bool.false_eq_true]

/-- A destination line that can be taken needs no request. -/
theorem State.lineReady_of_done {s : State} {die part : Nat} {x : Nat × Bool} (h : (s.lineReady die part x).2 = true) :
    (s.lineReady die part x).1 = s := by
  by_cases hdown : s.keyDown x.1 = true
  · rw [State.lineReady, if_pos hdown]
  by_cases howned : s.ladleOwns x.1 = true
  · rw [State.lineReady, if_neg hdown, if_pos howned]
  rw [State.lineReady, if_neg hdown, if_neg howned] at h ⊢
  exact State.permitted_of_held h

section
variable {s s1 : State} {c : Chan} {w : Wave} {d : Doorbell} {src dst : List SectorAt}

/-- The channel has room for one more copy, and for its destination lines. -/
def Chan.RoomFor (c : Chan) (dst : List SectorAt) : Prop := c.copies.length < 64 ∧ c.owned + (destLines dst).length ≤ 16384

theorem State.acceptCopy_full (h : ¬ c.RoomFor dst) (b : Option BarrierRef) :
    s.acceptCopy c w d src dst b = s.presentDoor c.die c.ch none := by
  refine if_pos ?_
  rw [Bool.or_eq_true, decide_eq_true_eq, decide_eq_true_eq]
  rw [Chan.RoomFor] at h
  omega

variable (hroom : c.RoomFor dst) (hlines : gotAll s (destLines dst) (fun t x => t.lineReady c.die w.part x) = (s1, true))
include hroom

theorem Chan.RoomFor.not_full : ¬ (decide (64 ≤ c.copies.length) || decide (16384 < c.owned + (destLines dst).length)) = true := by
  obtain ⟨hcopies, howned⟩ := hroom
  simp [hcopies, howned]

include hlines

theorem State.acceptCopy_taken : s.acceptCopy c w d src dst none = s1.putCopy c d w src dst none := by
  rw [State.acceptCopy, if_neg hroom.not_full]
  simp only [hlines, Bool.not_true, Bool.false_eq_true, if_false]

/-- A barrier of memory in its home's reach takes the copy's sectors as the copy is accepted. -/
theorem State.acceptCopy_taken_barrier {s2 : State} {b : BarrierRef} (hqsp : b.qsp = false)
    (hready : s1.chanBarrierReady w.part (s1.chanRequester c.die c.ch w.seq) b = (s2, true)) :
    s.acceptCopy c w d src dst (some b) = s2.putCopy c d w src dst (some b) := by
  obtain rfl : s1 = s := gotAll_of_done (fun _ _ => State.lineReady_of_done) hlines
  rw [State.acceptCopy, if_neg hroom.not_full]
  simp only [hlines, hready, hqsp, Bool.false_and, Bool.not_true, Bool.false_eq_true, if_false, if_true]

end

/-! ### Landing (05 R136, R137, R140) -/

/-- The barrier of a copy in its channel's reach. -/
def State.landReady (s : State) (die ch : Nat) (x : Copy) : Got :=
  match x.barrier with
  | some b => s.chanBarrierReady x.part (s.chanRequester die ch x.seq) b
  | none => (s, true)

/-- The state after a landing, a destination that was lost reported once for the copy. -/
def Landed.reported (r : Landed) (die ch : Nat) (x : Copy) : State :=
  if r.lost = true ∧ x.lost = false then r.state.reportLost die ch x else r.state

/-- The copy after a landing. -/
def Copy.landed (x : Copy) (t : State) (r : Landed) : Copy :=
  { x with sectors := r.sectors, moves := r.moves.map t.turnMove, lost := x.lost || r.lost }

/-- The land of `n` sectors of the copy `x` acts on its barrier, or is presented to the barrier's bank; `y` is the copy then. -/
def State.landActs (s : State) (die ch : Nat) (x y : Copy) (n : Nat) : State × Copy :=
  match x.barrier with
  | none => (s, y)
  | some b =>
    if n = 0 then (s, y)
    else if b.qsp then (s, { y with lands := y.lands ++ [(s.now, n)] })
    else (s.landBarrier die ch x b n, y)

theorem execLand_head {s : State} {die ch k : Nat} {x : Copy} {xs : List Copy} (hc : s.call = .land die ch k)
    (hx : (s.chan die ch).copies = x :: xs) : execLand s = .next (s.landCopy die ch k x) := by
  rw [execLand, hc]
  simp only [hx]

section
variable {s : State} {die ch n : Nat} {x y : Copy}

theorem State.landActs_quiet (h : x.barrier = none ∨ n = 0) : s.landActs die ch x y n = (s, y) := by
  rw [State.landActs]
  obtain hb | rfl := h
  · rw [hb]
  · cases x.barrier <;> rfl

variable {b : BarrierRef} (hb : x.barrier = some b) (hn : n ≠ 0)
include hb hn

theorem State.landActs_home (hqsp : b.qsp = false) : s.landActs die ch x y n = (s.landBarrier die ch x b n, y) := by
  rw [State.landActs, hb]
  simp only [hn, hqsp, Bool.false_eq_true, if_false]

theorem State.landActs_bank (hqsp : b.qsp = true) :
    s.landActs die ch x y n = (s, { y with lands := y.lands ++ [(s.now, n)] }) := by
  rw [State.landActs, hb]
  simp only [hn, hqsp, if_false, if_true]

end

/-- A landing of a copy that has no land waiting at a bank: its sectors, the land on its barrier, and its next sectors. -/
theorem State.landCopy_of {s s1 : State} {die ch k : Nat} {x : Copy} {r : Landed} (hlands : x.lands = [])
    (hready : s.landReady die ch x = (s1, true)) (hr : s1.landSectors die ch x k x.sectors x.moves = r) :
    s.landCopy die ch k x =
      let z := (r.reported die ch x).landActs die ch x (x.landed (r.reported die ch x) r) r.count
      (z.1.nextMoves die ch z.2).releaseDests die x r.sectors := by
  have hpresented : s.landPresented die ch x = (s, x) := by rw [State.landPresented, hlands]
  have hreported : (if (r.lost && !x.lost) = true then r.state.reportLost die ch x else r.state) = r.reported die ch x := by
    simp [Landed.reported]
  rw [State.landReady] at hready
  cases hb : x.barrier with
  | none =>
    obtain rfl : s = s1 := by
      rw [hb] at hready
      exact congrArg Prod.fst hready
    simp only [State.landCopy, hpresented, hb, if_true, hr, hreported, State.landActs, Copy.landed]
  | some b =>
    simp only [hb] at hready
    simp only [State.landCopy, hpresented, hb, hready, if_true, hr, hreported, State.landActs, Copy.landed]

/-- A source of memory that its channel may read gives its bytes and its poison. -/
theorem State.readSource_of {s s1 : State} {die ch key : Nat} {x : Copy} (hup : s.keyDown key = false)
    (hfree : s.sourceFree (s.chan die ch) (lineKey key) = true) (hin : s.beyondModule x.part key 64 = false)
    (hperm : s.permitted (homeDie s.pod (lineKey key)) x.part (lineKey key) false = (s1, true)) :
    s.readSource die ch x key = (s1.chargeFetch x.part key, some (s.peek key 64, s.poisonMask x.part key 64)) := by
  simp only [State.readSource, hup, hfree, hin, hperm, Bool.not_true, Bool.false_eq_true, if_false, if_true]

/-- The last sector of a landing, from memory to memory. -/
theorem State.landSectors_memory {s s1 : State} {die ch src dst bad : Nat} {x : Copy} {bs : List Byte}
    (hsrc : isQspKey src = false) (hdst : isQspKey dst = false) (hread : s.readSource die ch x src = (s1, some (bs, bad))) :
    s.landSectors die ch x 1 [(src, dst)] []
      = { state := s1.writeDest die ch x dst bs bad, sectors := [], moves := [], count := 1, lost := s1.destLost x dst } := by
  simp only [State.landSectors, hsrc, hdst, hread, Bool.or_self, Bool.false_eq_true, if_false, Bool.false_or, Nat.zero_add]

/-! ### LASTERR (05 R135) -/

/-- A number without the bits of another. -/
theorem testBit_sub_and (a b j : Nat) : (a - (a &&& b)).testBit j = (a.testBit j && !b.testBit j) := by
  have hle : a / 2 &&& b / 2 ≤ a / 2 := Nat.and_le_left
  have hhalf : (a &&& b) / 2 = a / 2 &&& b / 2 := Nat.and_div_two
  have hodd : (a &&& b) % 2 = 1 ↔ a % 2 = 1 ∧ b % 2 = 1 := Nat.and_mod_two_eq_one
  induction j generalizing a b with
  | zero =>
    simp only [Nat.testBit_zero]
    rw [Bool.eq_iff_iff]
    simp only [decide_eq_true_eq, Bool.and_eq_true, Bool.not_eq_true', decide_eq_false_iff_not]
    omega
  | succ j ih =>
    have hsub : (a - (a &&& b)) / 2 = a / 2 - (a / 2 &&& b / 2) := by omega
    rw [Nat.testBit_succ, hsub, ih (a / 2) (b / 2) Nat.and_le_left Nat.and_div_two Nat.and_mod_two_eq_one, ← Nat.testBit_succ,
      ← Nat.testBit_succ]

theorem execChstatClear_of {s : State} {die ch bits : Nat} (hc : s.call = .chstatClear die ch bits) :
    execChstatClear s = .next (s.setChan ((s.chan die ch).clearErr bits)) := by
  rw [execChstatClear, hc]

/-! ### The channels -/

/-- Settles O53: the doorbell by the checks above in turn, the landing by its steps, and LASTERR bit by bit. -/
theorem ladleChannels : Obligations.LadleChannels := by
  unfold Obligations.LadleChannels
  intro s die ch c
  refine ⟨fun d rest w p hc hd hw hp => ?_, fun k x xs s1 hc hx hlands hready => ?_,
    fun x src dst s1 hsrc hdst hup hfree hin hperm => ?_, fun x b k => ⟨fun hp => if_pos hp, fun hp => ?_⟩, fun bits hc => ?_⟩
  · have hdoor {t : State} (ht : s.acceptDoor c w p d = t) : exec .copyAccept s = .next t :=
      (execCopyAccept_head hc hd hw hp).trans (congrArg _ ht)
    refine ⟨fun hbad => hdoor (State.acceptDoor_malformed hbad), fun hok => ?_⟩
    intro t sh x y z misses
    refine ⟨fun hbad => hdoor (State.acceptDoor_badShape hok hbad), fun hshape hdie =>
      ⟨fun hmiss => hdoor (State.acceptDoor_walks hok hshape hdie hmiss), fun hmiss htier => ?_, fun hmiss htiers => ?_⟩⟩
    all_goals have hchecked : s.acceptDoor c w p d = s.checkDoor c w d sh.count x y z := State.acceptDoor_checked hok hshape hdie hmiss
    · exact hdoor (hchecked.trans (State.checkDoor_badTier htier))
    · refine ⟨fun r hr => hdoor (hchecked.trans (State.checkDoor_source htiers hr)),
        fun r hx hr => hdoor (hchecked.trans (State.checkDoor_dest htiers hx hr)), fun hx hy => ?_⟩
      intro src dst
      refine ⟨fun hlarge => hdoor (hchecked.trans (State.checkDoor_tooLarge htiers hx hy hlarge)), fun hlines hcount => ?_⟩
      intro room lines
      refine ⟨fun hz hfull => ?_, fun s1 hz hroom hgot => ?_, fun b hz => ⟨fun r hr => ?_, fun hvalid => ⟨fun hover => ?_, fun hfits =>
        ⟨fun hfull => ?_, fun s1 s2 hroom hgot hready hqsp => ?_⟩⟩⟩⟩
      all_goals rw [hz] at hchecked
      · exact hdoor (hchecked.trans ((State.checkDoor_accepts htiers hx hy hlines hcount).trans (State.acceptCopy_full hfull none)))
      · exact hdoor (hchecked.trans ((State.checkDoor_accepts htiers hx hy hlines hcount).trans (State.acceptCopy_taken hroom hgot)))
      · exact hdoor (hchecked.trans (State.checkDoor_barrierInvalid htiers hx hy hlines hcount hr))
      · exact hdoor (hchecked.trans (State.checkDoor_barrierFull htiers hx hy hlines hcount hvalid hover))
      · exact hdoor (hchecked.trans ((State.checkDoor_accepts_barrier htiers hx hy hlines hcount hvalid hfits).trans
          (State.acceptCopy_full hfull _)))
      · exact hdoor (hchecked.trans ((State.checkDoor_accepts_barrier htiers hx hy hlines hcount hvalid hfits).trans
          (State.acceptCopy_taken_barrier hroom hgot hqsp hready)))
  · have hland : exec .land s = .next (s.landCopy die ch k x) := execLand_head hc hx
    have hcopy := State.landCopy_of hlands (s1 := s1) hready rfl (k := k)
    intro r s2 y ends
    simp only [ends, hland, hcopy]
    refine ⟨fun hq => ?_, fun b hb hn => ⟨fun hqsp => ?_, fun hqsp => ?_⟩⟩
    · rw [State.landActs_quiet hq]
      rfl
    · rw [State.landActs_home hb hn hqsp]
      rfl
    · rw [State.landActs_bank hb hn hqsp]
      simp only [Copy.landed, hlands, List.nil_append]
      rfl
  · exact State.landSectors_memory hsrc hdst (State.readSource_of hup hfree hin hperm)
  · rw [State.landBarrier, hp]
    rfl
  · exact ⟨_, execChstatClear_of hc, fun j => testBit_sub_and _ bits j⟩

end Sys2Proof.Machine
end

section
/-!
PROOFS. O45: contexts, the end of a launch, the quantum and the world switch, one lemma for each arm.
-/
namespace Sys2Proof.Machine

/-! ### Contexts (07 R167) -/

section
variable {s : State} {w : Wave} (hw : s.wave? w.seq w.wid = some w) (hc : s.call = .contextTake w.seq w.wid)
  (hturn : (s.contextless w.core).map (fun x => (x.seq, x.wid)) = some (w.seq, w.wid))
include hw hc hturn

theorem execContextTake_free {k : Nat} (hfree : s.freeContext w.core = some k) : exec .contextTake s = .next (s.takeContext w k) := by
  change execContextTake s = _
  simp only [execContextTake, hc, hw, hturn, hfree, ne_eq, not_true_eq_false, if_false]

theorem execContextTake_given {v : Wave} (hfree : s.freeContext w.core = none) (hgiver : s.giver w.core w.readyAt = some v) :
    exec .contextTake s = .next (State.takeContext (s.modWave v.seq v.wid fun y =>
      { y with ctx := none, readyAt := if s.waveReady y then s.now + 1 else y.readyAt }) w (v.ctx.getD 0)) := by
  change execContextTake s = _
  simp only [execContextTake, hc, hw, hturn, hfree, hgiver, ne_eq, not_true_eq_false, if_false]

end

/-! ### The end of a launch (07 R171) -/

theorem State.launchDone_of {s : State} {n : Nat}
    (h : ∀ w ∈ s.waves, w.seq = n → w.status ≠ .running ∧ w.pend = [] ∧ s.engineIdle w = true ∧ w.withdrawn = []) :
    s.launchDone n = true := by
  refine List.all_eq_true.mpr fun w hw => ?_
  obtain ⟨hmem, hseq⟩ := List.mem_filter.mp hw
  obtain ⟨hstatus, hpend, hidle, hwithdrawn⟩ := h w hmem (of_decide_eq_true hseq)
  simp [hstatus, hpend, hidle, hwithdrawn]

/-- An event other than a counter's overflow always joins those that wait. -/
theorem State.postEvent_of_ne (s : State) (p : Nat) {type : Nat} (h : type ≠ 7) (seq : Nat) (body : List Byte) :
    s.postEvent p type seq body = s.modPart p fun x =>
      { x with events := x.events ++ [{ type := type, seq := seq, cyc := s.now, body := body }] } := by
  simp only [State.postEvent, decide_eq_false h, Bool.false_and, Bool.false_eq_true, if_false]

/-- The body of a completion event: how many waves halted, and how many were killed. -/
def State.completionBody (s : State) (n : Nat) : List Byte :=
  natToBytes 4 (s.waves.filter fun w => w.seq = n && w.status = .halted).length
    ++ natToBytes 4 (s.waves.filter fun w => w.seq = n && w.status = .killed).length

theorem execLaunchComplete_of {s : State} {n : Nat} {l : Launch} (hc : s.call = .launchComplete n) (hl : s.launch? n = some l)
    (hdone : s.launchDone n = true) :
    exec .launchComplete s = .next (State.modPart
      { s with waves := s.waves.filter fun w => w.seq ≠ n, launches := s.launches.filter fun x => x.seq ≠ n } l.part fun q =>
        { q with events := q.events ++ [{ type := 6, seq := n, cyc := s.now, body := s.completionBody n }] }) := by
  change execLaunchComplete s = _
  simp only [execLaunchComplete, hc, hl, hdone, Bool.not_true, Bool.false_eq_true, if_false]
  rw [State.postEvent_of_ne _ _ (by decide)]
  simp only [packBytes, List.append_nil, State.completionBody]
  rfl

/-! ### The quantum and the world switch (14 R338, 15 R344) -/

theorem State.quantumOver_of {s : State} {g : SliceSet} {h : Nat} (hholder : g.holder = some h)
    (hover : ∀ p, s.part? h = some p → g.since + p.quantum ≤ s.now) : s.quantumOver g = true := by
  simp only [State.quantumOver, hholder]
  cases hp : s.part? h with
  | none => rfl
  | some p => exact decide_eq_true (hover p hp)

theorem execQuantumExpiry_of {s : State} {g : SliceSet} {h : Nat} (hc : s.call = .quantumExpiry g.num) (hg : s.set? g.num = some g)
    (hholder : g.holder = some h) (hup : s.skolisUp = true) (hnone : ∀ x ∈ s.switches, x.set ≠ g.num)
    (hover : ∀ p, s.part? h = some p → g.since + p.quantum ≤ s.now) :
    exec .quantumExpiry s = match s.nextMember g with
      | none => .next (s.modSet g.num fun y => { y with since := s.now })
      | some m => .next (s.startSwitch
          { set := g.num, out := h, inn := some m, saveOut := s.areaOf h, saveIn := s.areaOf m, cmd := none }) := by
  have hany : (s.switches.any fun x => x.set = g.num) = false := by simpa using hnone
  change execQuantumExpiry s = _
  simp only [execQuantumExpiry, hc, hg, hup, State.quantumOver_of hholder hover, hany, hholder, Bool.not_true, Bool.or_self,
    Bool.false_eq_true, if_false]
  cases s.nextMember g <;> rfl

theorem execSwitchSave_of {s s1 : State} {x : Switch} {g : SliceSet} {p : Part} (hc : s.call = .switchSave x.set)
    (hx : s.switches.find? (fun y => y.set = x.set) = some x) (hg : s.set? x.set = some g) (hdrained : s.drained x.out = true)
    (hl1 : gotAll s (s.setQuads g) (fun t q => t.acquireQuad q) = (s1, true)) (hp : s1.part? x.out = some p)
    (hholder : g.holder = some x.out) :
    let s2 := s1.savePart g p x.saveOut
    exec .switchSave s = .next ((match x.inn with | some m => (s2.nameArea m x.saveIn).restorePart m | none => s2).endSwitch x) := by
  change execSwitchSave s = _
  cases hinn : x.inn <;>
    simp only [execSwitchSave, hc, hx, hg, hdrained, hl1, hp, hholder, hinn, Bool.not_true, Bool.false_eq_true, if_false, if_true]

/-- Settles O45: each arm is said by its own lemma above. -/
theorem contextsLaunchesAndRotation : Obligations.ContextsLaunchesAndRotation := by
  unfold Obligations.ContextsLaunchesAndRotation
  intro s
  refine ⟨fun w hw hc hturn => ⟨fun k => execContextTake_free hw hc hturn, fun v => execContextTake_given hw hc hturn⟩,
    fun l hc hl hstopped => ⟨_, execLaunchComplete_of hc hl (State.launchDone_of hstopped), rfl, rfl, rfl, rfl⟩,
    fun g h hc hg hholder hup hnone hover => ?_,
    fun x g p s1 hc hx hg hdrained hl1 hp hholder => execSwitchSave_of hc hx hg hdrained hl1 hp hholder⟩
  have hexpiry := execQuantumExpiry_of hc hg hholder hup hnone hover
  exact ⟨fun hlast => by rw [hexpiry, hlast], fun m hm => by rw [hexpiry, hm]⟩

end Sys2Proof.Machine
end

section
/-!
PROOFS. O54: Crucible grants and passes, and additions to counters. An addition with the events it posts is one change of one partition's
record (`State.addCounters_eq`); what the statement says of it is then said of that record.
-/
namespace Sys2Proof.Machine

/-! ### Grants and passes (07 R186; 13 R317 to R324) -/

section
variable {s : State} {quad : Nat} {x : EngEntry} {w : Wave} {a : AccSlot}

theorem State.entrySlot_of (hw : s.wave? x.seq x.wid = some w) (ha : w.accs[x.acc]? = some a) : s.entrySlot x = some (w, a) := by
  rw [State.entrySlot, hw, Option.bind_some, ha, Option.map_some]

theorem execEngineGrant_of {again : Bool} (hc : s.call = .engineGrant quad) (hidle : (s.engine quad).running = false)
    (hchoose : Engine.choose { s.engine quad with entries := (s.engine quad).entries.filter fun y => !s.entryStopped y } s.now
      = some (x, again)) (hslot : s.entrySlot x = some (w, a)) :
    exec .engineGrant s = .next (s.setEngine ((s.engine quad).grant x s.now again (passSegs (s.windowOf w).1 x a))) := by
  change execEngineGrant s = _
  simp only [execEngineGrant, hc]
  rw [if_neg (by simp [hidle]), hchoose]
  simp only [hslot]

/-- The entries that stay when a pass has ended the granted one. -/
theorem Engine.passed_ended (e : Engine) : e.passed true =
    { e with running := false, stepsRun := e.stepsRun + 1, segs := [], got := [], entries := e.entries.filter fun y => !y.granted } := by
  have hentries : (e.entries.filterMap fun y => if !y.granted then some y else none) = e.entries.filter fun y => !y.granted := by
    rw [← List.filterMap_eq_filter]
    rfl
  simp only [Engine.passed, Bool.true_or, if_true, hentries]

/-- The entries that stay when a pass has made its step: the granted one with one step less, unless it was its last. -/
theorem Engine.passed_stepped (e : Engine) : e.passed false =
    { e with running := false, stepsRun := e.stepsRun + 1, segs := [], got := [],
             entries := e.entries.filterMap fun y =>
               if y.granted = false then some y else if y.remaining ≤ 1 then none
               else some { y with remaining := y.remaining - 1, nextStep := y.nextStep + 1 } } := by
  simp only [Engine.passed, Bool.false_or, Bool.not_eq_true', decide_eq_true_eq]

theorem Engine.pass_clean {e : Engine} (h : e.got.findSome? SegData.bad = none) (key0 free : Nat) (x : EngEntry) (a : AccSlot) :
    e.pass key0 free x a = passOf (gotMemory e.got) key0 free x a := by
  rw [Engine.pass, h]

theorem Engine.pass_poisoned {e : Engine} {k : Nat} (h : e.got.findSome? SegData.bad = some k) (key0 free : Nat) (x : EngEntry)
    (a : AccSlot) : e.pass key0 free x a = .late 6 0 ((k - key0 : Nat) : Int) { a with poison := true, faulted := true } := by
  rw [Engine.pass, h]
  rfl

variable (hc : s.call = .passComplete quad) (hrun : (s.engine quad).running = true)
  (hgranted : (s.engine quad).entries.find? EngEntry.granted = some x) (hslot : s.entrySlot x = some (w, a))
include hc hrun hgranted hslot

theorem execPassComplete_waits (hsegs : (s.engine quad).segs ≠ []) : exec .passComplete s = .next s := by
  change execPassComplete s = _
  simp only [execPassComplete, hc, hrun, hgranted, hslot, Bool.not_true, Bool.false_eq_true, if_false, if_pos hsegs]

theorem execPassComplete_done {b : AccSlot} {n : Nat} (hsegs : (s.engine quad).segs = [])
    (hpass : (s.engine quad).pass (s.windowOf w).1 s.free x a = .done b n) :
    let s0 := s.charge w.part 0x010 1
    exec .passComplete s = .next ((State.setEngine { s0 with free := s0.free + n } ((s.engine quad).passed false)).setWave
      ((s0.again w).setAcc x.acc b)) := by
  change execPassComplete s = _
  simp only [execPassComplete, hc, hrun, hgranted, hslot, hsegs, hpass, Bool.not_true, Bool.false_eq_true, ne_eq, not_true_eq_false,
    if_false]

theorem execPassComplete_late {b : AccSlot} {cause sub : Nat} {addr : Int} (hsegs : (s.engine quad).segs = [])
    (hpass : (s.engine quad).pass (s.windowOf w).1 s.free x a = .late cause sub addr b) :
    let s0 := s.charge w.part 0x010 1
    exec .passComplete s = .next (((s0.setEngine ((s.engine quad).passed true)).setWave ((s0.again w).setAcc x.acc b)).lateError
      w.seq w.wid cause sub (wrap addr 64)) := by
  change execPassComplete s = _
  simp only [execPassComplete, hc, hrun, hgranted, hslot, hsegs, hpass, Bool.not_true, Bool.false_eq_true, ne_eq, not_true_eq_false,
    if_false]

end

theorem cruciblePasses : Claims.CruciblePasses := by
  intro s quad e
  refine ⟨fun x w a again hc hidle hchoose hw ha => execEngineGrant_of hc hidle hchoose (State.entrySlot_of hw ha),
    fun x w a hc hrun hgranted hw ha => ?_⟩
  have hslot := State.entrySlot_of hw ha
  have hlate := fun cause sub addr b => execPassComplete_late (cause := cause) (sub := sub) (addr := addr) (b := b) hc hrun hgranted hslot
  simp only [Engine.passed_ended] at hlate
  refine ⟨execPassComplete_waits hc hrun hgranted hslot, fun b n hsegs hgood hpass => ?_, fun cause sub addr b hsegs hgood hpass => ?_,
    fun k hsegs hbad => ?_⟩
  · rw [execPassComplete_done hc hrun hgranted hslot hsegs ((Engine.pass_clean hgood _ _ x a).trans hpass), Engine.passed_stepped]
  · exact hlate cause sub addr b hsegs ((Engine.pass_clean hgood _ _ x a).trans hpass)
  · exact hlate 6 0 _ _ hsegs (Engine.pass_poisoned hbad _ _ x a)

/-! ### Partitions changed -/

/-- A partition's record after one record has been changed under its name. -/
theorem State.part?_modPart {f : Part → Part} (hf : ∀ x, (f x).num = x.num) (s : State) (p q : Nat) :
    (s.modPart p f).part? q = (s.part? q).map fun x => if x.num = p then f x else x := by
  unfold State.part? State.modPart mapWhere
  rw [List.find?_map]
  have hnum : ∀ x : Part, (if x.num = p then f x else x).num = x.num := fun x => by split <;> simp [hf]
  simp only [Function.comp_def, decide_eq_true_eq, hnum]

theorem State.part?_num {s : State} {p : Nat} {x : Part} (h : s.part? p = some x) : x.num = p := by
  simpa using List.find?_some h

theorem State.modPart_modPart {f : Part → Part} (hf : ∀ x, (f x).num = x.num) (g : Part → Part) (s : State) (p : Nat) :
    (s.modPart p f).modPart p g = s.modPart p fun x => g (f x) := by
  simp only [State.modPart, mapWhere, List.map_map]
  congr 1
  refine List.map_congr_left fun x _ => ?_
  by_cases hx : x.num = p
  · simp [hx, hf]
  · simp [hx]

/-- A change of a partition that changes nothing of its record leaves the state. -/
theorem State.modPart_id (s : State) (p : Nat) : (s.modPart p fun x => x) = s := by
  simp [State.modPart, mapWhere]

/-! ### Additions to counters (13 R327, 15 R357) -/

/-- A partition with the overflow event of a counter posted, unless one of that counter's waits already. -/
def Part.postOverflow (now : Nat) (x : Part) (i : Nat) : Part :=
  if x.events.any (fun y => y.type = 7 && y.body.take 1 == (overflowBody i).take 1) then x
  else { x with events := x.events ++ [{ type := 7, seq := 0, cyc := now, body := overflowBody i }] }

/-- A partition with an addition made to the counters of a mask. -/
def Part.counted (x : Part) (mask n : Nat) : Part :=
  { x with counters := x.counters.mapIdx fun i c => if mask.testBit i then c.add n else c }

/-- The counters of a mask whose OVF an addition sets with IE. -/
def Part.overflowing (x : Part) (mask n : Nat) : List Nat :=
  (List.range 16).filter fun i => mask.testBit i && (((x.counters[i]?).map fun c => c.overflows n).getD false)

theorem Part.postOverflow_num (now : Nat) (x : Part) (i : Nat) : (x.postOverflow now i).num = x.num := by
  unfold Part.postOverflow
  split <;> rfl

theorem Part.postOverflow_counters (now : Nat) (x : Part) (i : Nat) : (x.postOverflow now i).counters = x.counters := by
  unfold Part.postOverflow
  split <;> rfl

theorem Part.foldl_postOverflow_num (now : Nat) : ∀ (l : List Nat) (x : Part), (l.foldl (Part.postOverflow now) x).num = x.num
  | [], _ => rfl
  | i :: l, x => (Part.foldl_postOverflow_num now l _).trans (x.postOverflow_num now i)

theorem Part.foldl_postOverflow_counters (now : Nat) :
    ∀ (l : List Nat) (x : Part), (l.foldl (Part.postOverflow now) x).counters = x.counters
  | [], _ => rfl
  | i :: l, x => (Part.foldl_postOverflow_counters now l _).trans (x.postOverflow_counters now i)

/-- A partition `y` with an addition made, and the overflows posted that it brings to the counters of `x`. -/
def Part.withAddition (now mask n : Nat) (x y : Part) : Part := (x.overflowing mask n).foldl (Part.postOverflow now) (y.counted mask n)

theorem Part.withAddition_num (now mask n : Nat) (x y : Part) : (Part.withAddition now mask n x y).num = y.num :=
  Part.foldl_postOverflow_num now _ _

theorem Part.withAddition_counters (now mask n : Nat) (x y : Part) :
    (Part.withAddition now mask n x y).counters = (y.counted mask n).counters := Part.foldl_postOverflow_counters now _ _

theorem State.postEvent_overflow (s : State) (p i : Nat) :
    s.postEvent p 7 0 (overflowBody i) = s.modPart p fun x => x.postOverflow s.now i := by
  simp only [State.postEvent, decide_true, Bool.true_and]
  rfl

theorem State.foldl_postEvent_overflow (p : Nat) : ∀ (l : List Nat) (s : State),
    l.foldl (fun (t : State) i => t.postEvent p 7 0 (overflowBody i)) s = s.modPart p fun x => l.foldl (Part.postOverflow s.now) x
  | [], s => (s.modPart_id p).symm
  | i :: l, s => by
    rw [List.foldl_cons, State.foldl_postEvent_overflow p l, State.postEvent_overflow,
      State.modPart_modPart fun x => x.postOverflow_num _ i]
    rfl

/-- An addition changes one partition's record: its counters, then its events. -/
theorem State.addCounters_eq {s : State} {p : Nat} {x : Part} (hp : s.part? p = some x) (mask n : Nat) :
    s.addCounters p mask n = s.modPart p (Part.withAddition s.now mask n x) := by
  simp only [State.addCounters, hp]
  rw [State.foldl_postEvent_overflow]
  exact State.modPart_modPart (f := fun y => y.counted mask n) (fun _ => rfl) _ s p

theorem Part.counted_counter {x : Part} {i : Nat} {c : Counter} (h : x.counters[i]? = some c) (mask n : Nat) :
    (x.counted mask n).counters[i]? = some (if mask.testBit i = true
      then { c with value := (c.value + n) % 2 ^ 48, ovf := c.ovf || decide (2 ^ 48 ≤ c.value + n) } else c) := by
  rw [Part.counted, Vector.getElem?_mapIdx, h]
  rfl

theorem Counter.overflows_iff (c : Counter) (n : Nat) :
    c.overflows n = true ↔ c.ie = true ∧ c.ovf = false ∧ 2 ^ 48 ≤ c.value + n := by
  cases hovf : c.ovf <;> simp [Counter.overflows, Counter.add, hovf]

theorem Part.mem_overflowing (x : Part) (mask n i : Nat) : i ∈ x.overflowing mask n
    ↔ mask.testBit i = true ∧ ∃ c, x.counters[i]? = some c ∧ c.ie = true ∧ c.ovf = false ∧ 2 ^ 48 ≤ c.value + n := by
  simp only [Part.overflowing, List.mem_filter, List.mem_range, Bool.and_eq_true]
  cases hc : x.counters[i]? with
  | none => simp
  | some c =>
    have hi : i < 16 := by
      by_contra hge
      simp [Vector.getElem?_eq_none (Nat.not_lt.mp hge)] at hc
    simp [hi, Counter.overflows_iff]

theorem Part.overflowing_none {x : Part} {mask n : Nat} (h : ∀ i c, x.counters[i]? = some c → mask.testBit i = true →
    c.ie = true → c.ovf = false → c.value + n < 2 ^ 48) : x.overflowing mask n = [] := by
  refine List.eq_nil_iff_forall_not_mem.mpr fun i hi => ?_
  obtain ⟨hmask, c, hc, hie, hovf, hwrap⟩ := (x.mem_overflowing mask n i).mp hi
  exact Nat.not_le.mpr (h i c hc hmask hie hovf) hwrap

/-- A mask of one counter that overflows: it alone posts its event. -/
theorem Part.overflowing_one {x : Part} {i n : Nat} {c : Counter} (hc : x.counters[i]? = some c) (hie : c.ie = true)
    (hovf : c.ovf = false) (hwrap : 2 ^ 48 ≤ c.value + n) : x.overflowing (2 ^ i) n = [i] := by
  have hmem : ∀ j, j ∈ x.overflowing (2 ^ i) n ↔ j = i := fun j => by
    rw [Part.mem_overflowing, Nat.testBit_two_pow]
    refine ⟨fun h => (of_decide_eq_true h.1).symm, fun h => ?_⟩
    subst h
    exact ⟨decide_eq_true rfl, c, hc, hie, hovf, hwrap⟩
  have hnodup : (x.overflowing (2 ^ i) n).Nodup := List.nodup_range.filter _
  exact List.perm_singleton.mp ((List.perm_ext_iff_of_nodup hnodup (List.nodup_singleton i)).mpr fun j => by simp [hmem])

theorem Part.postOverflow_first {x : Part} (h : x.events = []) (now i : Nat) :
    (x.postOverflow now i).events = [{ type := 7, seq := 0, cyc := now, body := natToBytes 4 i }] := by
  simp [Part.postOverflow, h, overflowBody, packBytes]

theorem execCounterAdd_none {s : State} {p mask n : Nat} (hc : s.call = .counterAdd p mask n)
    (h : ∀ c ∈ s.charges, ¬ (c.part = p ∧ c.mask = mask ∧ c.n = n)) : exec .counterAdd s = .next s := by
  have hfind : (s.charges.find? fun c => c.part = p && c.mask = mask && c.n = n) = none :=
    List.find?_eq_none.mpr fun c hm => by simpa [and_assoc] using h c hm
  change execCounterAdd s = _
  simp only [execCounterAdd, hc, hfind]

theorem execCounterAdd_some {s : State} {p mask n : Nat} (hc : s.call = .counterAdd p mask n)
    (h : ∃ c ∈ s.charges, c.part = p ∧ c.mask = mask ∧ c.n = n) :
    ∃ c ∈ s.charges, exec .counterAdd s = .next (State.addCounters { s with charges := s.charges.erase c } p mask n) := by
  obtain ⟨c, hm, heq⟩ := h
  obtain ⟨d, hd⟩ := Option.isSome_iff_exists.mp (List.find?_isSome (p := fun c : Charge => c.part = p && c.mask = mask && c.n = n)
    |>.mpr ⟨c, hm, by simp [heq]⟩)
  refine ⟨d, List.mem_of_find?_eq_some hd, ?_⟩
  change execCounterAdd s = _
  simp only [execCounterAdd, hc, hd]

theorem counterAdditions : Claims.CounterAdditions := by
  intro s p mask n x hp hc
  refine ⟨execCounterAdd_none hc, fun hcharged => ?_⟩
  obtain ⟨d, hd, hexec⟩ := execCounterAdd_some hc hcharged
  rw [State.addCounters_eq (s := { s with charges := s.charges.erase d }) hp] at hexec
  have hparts := State.part?_modPart (Part.withAddition_num s.now mask n x) { s with charges := s.charges.erase d } p
  refine ⟨_, Part.withAddition s.now mask n x x, hexec, ?_, rfl, rfl, ?_, fun q hq => ?_, fun i c hi => ?_, fun hnone => ?_,
    fun i c hevents hi hmask hie hovf hwrap => ?_⟩
  · refine (hparts p).trans ?_
    change (s.part? p).map _ = _
    rw [hp, Option.map_some, if_pos (State.part?_num hp)]
  · exact Nat.succ_pred_eq_of_pos (List.length_pos_of_mem hd) ▸ congrArg Nat.succ (List.length_erase_of_mem hd)
  · refine (hparts q).trans ?_
    change (s.part? q).map _ = _
    cases hx : s.part? q with
    | none => rfl
    | some y => rw [Option.map_some, if_neg (State.part?_num hx ▸ hq)]
  · rw [Part.withAddition_counters]
    exact Part.counted_counter hi mask n
  · simp only [Part.withAddition, Part.overflowing_none hnone, List.foldl_nil]
    rfl
  · subst hmask
    simp only [Part.withAddition, Part.overflowing_one hi hie hovf hwrap, List.foldl_cons, List.foldl_nil]
    exact Part.postOverflow_first (x := x.counted (2 ^ i) n) hevents s.now i

/-- Settles O54, clause by clause. -/
theorem passesAndCounterAdditions : Obligations.PassesAndCounterAdditions := ⟨cruciblePasses, counterAdditions⟩

end Sys2Proof.Machine
end

section
/-!
PROOFS. O59: LAUNCH, WSWITCH, REPLAY, FATAL, ERRLOG, HQSET, REGREG and REGREVOKE. What every command checks first is said once
(`devCmd_of`, `partCmd_of`); each command's arm is then what it does past those checks.
-/
namespace Sys2Proof.Machine

/-! ### What every command checks first (15 R354) -/

theorem devCmd_of {s : State} {c : Cmd} {h : Bool} {stage : Nat} (hacts : s.acts c h stage) (f : State → Done) :
    devCmd s c h stage f = finishCmd s c (f s) := by
  obtain ⟨hup, hadmin, hstage⟩ := hacts
  have hmay : (h && !s.mayAdmin c.mbx) = false := by
    cases h with
    | false => rfl
    | true => simp [hadmin rfl]
  rw [devCmd, hup, hmay, if_neg (Nat.not_lt.mpr hstage)]
  simp

theorem partCmd_of {s : State} {c : Cmd} {h : Bool} {p : Part} (hacts : s.actsOn c h p) (f : State → Part → Done) :
    partCmd s c h f = finishCmd s c (f s p) := by
  obtain ⟨hacts, hpart, hmid⟩ := hacts
  simp only [partCmd, hpart, hmid, Bool.false_and, Bool.false_eq_true, if_false, devCmd_of hacts]

/-- A check that passes hands on; one that fails answers its status. -/
theorem need_of {b : Bool} (h : b = true) (st : CmdStatus) (r : Done) : need b st r = r := if_pos h

theorem need_fails {b : Bool} (h : b = false) (st : CmdStatus) (r : Done) : need b st r = .error st := if_neg (by simp [h])

theorem needFeature_of {s : State} {bit : Nat} (h : s.feature bit = true) (r : Done) : needFeature s bit r = r := if_pos h

theorem needFeature_fails {s : State} {bit : Nat} (h : s.feature bit = false) (r : Done) : needFeature s bit r = .error .nofeat :=
  if_neg (by simp [h])

theorem finishCmd_ok (s t : State) (c : Cmd) (rs : List Byte) : finishCmd s c (.ok (t, rs)) = t.didCmd c rs := rfl

theorem finishCmd_error (s : State) (c : Cmd) (st : CmdStatus) : finishCmd s c (.error st) = s.refusedCmd c st := rfl

/-- A command whose one check on its arguments decides between what it does and BADARG. -/
theorem finishCmd_need (s t : State) (c : Cmd) (b : Prop) [Decidable b] (rs : List Byte) :
    finishCmd s c (need b .badarg (.ok (t, rs))) = if b then t.didCmd c rs else s.refusedCmd c .badarg := by
  by_cases h : b
  · rw [if_pos h, need_of (decide_eq_true h), finishCmd_ok]
  · rw [if_neg h, need_fails (decide_eq_false h), finishCmd_error]

/-! ### LAUNCH (07 R168 to R170) -/

section
variable {s : State} {c : Cmd} {p : Part} {pa key : Nat}

theorem execLaunch_badarg (hc : s.call = .launch c pa) (hacts : s.actsOn c false p) (hkey : keyOfPa s.pod pa = some key)
    (hbad : p.granted pa 192 = false ∨ (LaunchRec.ofNat (s.peekNat key 192)).ok p = false) :
    exec .launch s = s.refusedCmd c .badarg := by
  change execLaunch s = _
  simp only [execLaunch, hc, partCmd_of hacts, hkey]
  rw [need_fails _, finishCmd_error]
  obtain hgrant | hok := hbad
  · simp [hgrant]
  · simp [hok]

theorem execLaunch_starts (hc : s.call = .launch c pa) (hacts : s.actsOn c false p) (hkey : keyOfPa s.pod pa = some key)
    (hgrant : p.granted pa 192 = true) (hok : (LaunchRec.ofNat (s.peekNat key 192)).ok p = true)
    (hquads : s.launchQuads p (LaunchRec.ofNat (s.peekNat key 192)).slices ≠ []) :
    exec .launch s = match s.startLaunch p (LaunchRec.ofNat (s.peekNat key 192)) with
      | some t => t.didCmd c (natToBytes 4 s.nextSeq)
      | none => s.refusedCmd c .nores := by
  change execLaunch s = _
  simp only [execLaunch, hc, partCmd_of hacts, hkey]
  rw [need_of (by simp [hgrant, hok, hquads])]
  cases s.startLaunch p (LaunchRec.ofNat (s.peekNat key 192)) <;> rfl

end

/-! ### WSWITCH (14 R338) -/

section
variable {s : State} {c : Cmd} {p : Part} {out inn slices a b : Nat} {g : SliceSet}

theorem execWswitch_of (hc : s.call = .wswitch c out inn slices a b) (hacts : s.acts c true 4) (hout : s.midSwitch out = false)
    (hinn : s.midSwitch inn = false) (hp : s.part? out = some p) (hg : s.setOf out = some g) :
    exec .wswitch s = match s.switchRefusal p inn slices a b with
      | some st => s.refusedCmd c st
      | none => .next (s.startSwitch { set := g.num, out := out, inn := if inn = 0xFF then none else some inn, saveOut := a,
                                       saveIn := b, cmd := some c }) := by
  obtain ⟨hup, hadmin, hstage⟩ := hacts
  change execWswitch s = _
  simp only [execWswitch, hc, hup, hadmin rfl, hout, hinn, hp, hg, Bool.not_true, Bool.or_self, Bool.false_eq_true, if_false]
  rw [if_neg (Nat.not_lt.mpr hstage)]
  cases s.switchRefusal p inn slices a b with
  | none => rfl
  | some st => exact finishCmd_error s c st

end

/-! ### REPLAY and FATAL (01 R38, 03 R90) -/

section
variable {s : State} {c : Cmd} {p : Part} {tag : Nat}

theorem State.answerFault_wave {n ans : Nat} {w : Wave} (h : s.faultWave n tag = some w) :
    s.answerFault n tag ans = .ok (s.answerWave w tag ans, []) := by
  rw [State.answerFault, h]

theorem State.answerFault_stream {n ans : Nat} {x : CtxId × Nat × Packet} (hw : s.faultWave n tag = none)
    (h : s.faultStream n tag = some x) :
    s.answerFault n tag ans = .ok (if ans = 1 then s.replayStream x else s.fatalStream x, []) := by
  simp only [State.answerFault, hw, h]

theorem State.answerFault_none {n ans : Nat} (hw : s.faultWave n tag = none) (h : s.faultStream n tag = none) :
    s.answerFault n tag ans = .error .notfound := by
  simp only [State.answerFault, hw, h]

theorem execReplay_of (hc : s.call = .replay c tag) (hacts : s.actsOn c false p) :
    exec .replay s = finishCmd s c (s.answerFault p.num tag 1) := by
  change execReplay s = _
  simp only [execReplay, hc, partCmd_of hacts]

theorem execFatal_of (hc : s.call = .fatal c tag) (hacts : s.actsOn c false p) :
    exec .fatal s = finishCmd s c (s.answerFault p.num tag 2) := by
  change execFatal s = _
  simp only [execFatal, hc, partCmd_of hacts]

end

/-! ### ERRLOG and HQSET (01 R34, 02 R70, 15 R357) -/

section
variable {s : State} {c : Cmd} {p : Part}

theorem execErrlogSetRing_of {base n : Nat} (hc : s.call = .errlogSetRing c base n) (hacts : s.actsOn c false p) :
    exec .errlogSetRing s = if n ≤ 16
      then (s.setPart { p with elBase := some base, elLog2 := n }).didCmd c (natToBytes 4 p.dropped)
      else s.refusedCmd c .badarg := by
  change execErrlogSetRing s = _
  simp only [execErrlogSetRing, hc, partCmd_of hacts, finishCmd_need]

theorem execHqset_of {base : Nat} (hc : s.call = .hqset c base) (hacts : s.actsOn c false p) :
    exec .hqset s = (s.setPart { p with hqBase := some base }).didCmd c [] := by
  change execHqset s = _
  simp only [execHqset, hc, partCmd_of hacts, putPart, finishCmd_ok]

theorem execErrlogReadRas_of {d : Nat} {l : StackLink} (hc : s.call = .errlogReadRas c d) (hacts : s.acts c false 2)
    (hl : s.links[d]? = some l) :
    exec .errlogReadRas s = s.didCmd c (packBytes (l.registers.map fun x => (8, x))) := by
  change execErrlogReadRas s = _
  simp only [execErrlogReadRas, hc, devCmd_of hacts, hl, finishCmd_ok]

theorem StackLink.registers_bytes (l : StackLink) : packBytes (l.registers.map fun x => (8, x))
    = natToBytes 8 (l.retrainCount % 2 ^ 8 * 2 ^ 40 + l.replayCount % 2 ^ 32 * 2 ^ 8 + (if l.down then 1 else 0))
      ++ natToBytes 8 (l.corr % 2 ^ 32 * 2 ^ 32 + l.uncorr % 2 ^ 24 * 2 ^ 8) ++ natToBytes 8 (l.addr / 32 * 32 % 2 ^ 52) := by
  simp only [StackLink.registers, List.map_cons, List.map_nil, packBytes, List.append_nil, List.append_assoc, bitOf]

theorem execErrlogClearRas_of {d : Nat} {l : StackLink} (hc : s.call = .errlogClearRas c d) (hacts : s.acts c false 2)
    (hd : d < 8) (hl : s.links[d]? = some l) :
    exec .errlogClearRas s = State.didCmd
      { s with links := s.links.set d { l with retrainCount := 0, replayCount := 0, corr := 0, uncorr := 0 } } c [] := by
  change execErrlogClearRas s = _
  simp only [execErrlogClearRas, hc, devCmd_of hacts, need_of (decide_eq_true hd), State.modLink, hl, finishCmd_ok]

end

/-! ### REGREG, REGREVOKE and the end of a revocation (01 R31, R32) -/

section
variable {s : State} {c : Cmd} {p : Part}

theorem execRegreg_nofeat {asid rights base len peers : Nat} (hc : s.call = .regreg c asid rights base len peers)
    (hacts : s.actsOn c false p) (hfeat : s.feature 0 = false) : exec .regreg s = s.refusedCmd c .nofeat := by
  change execRegreg s = _
  simp only [execRegreg, hc, partCmd_of hacts, needFeature_fails hfeat, finishCmd_error]

theorem execRegreg_grants {asid rights base len peers : Nat} (hc : s.call = .regreg c asid rights base len peers)
    (hacts : s.actsOn c false p) (hfeat : s.feature 0 = true) (hasid : asid < p.asidCount) (hrights : rights < 8)
    (hbase : base % 4096 = 0) (hlen : len % 4096 = 0) (hend : base + len ≤ 2 ^ 64) :
    exec .regreg s = match p.freeGrant with
      | none => s.refusedCmd c .nores
      | some i => (s.setPart { p with grants := p.grants ++
          [{ idx := i, asid := asid, base := base, len := len, rights := rights, peers := peers, revoked := false,
             revoker := none }] }).didCmd c (natToBytes 4 i) := by
  change execRegreg s = _
  simp only [execRegreg, hc, partCmd_of hacts, needFeature_of hfeat]
  rw [need_of (by simpa [hasid, hrights, hbase, hlen] using hend)]
  cases p.freeGrant <;> rfl

theorem execRegrevoke_of {i : Nat} (hc : s.call = .regrevoke c i) (hup : s.skolisUp = true) (hpart : s.cmdPart false c = some p)
    (hmid : s.midSwitch p.num = false) (hfeat : s.feature 0 = true) :
    exec .regrevoke s = if (p.grants.any fun g => g.idx = i && !g.revoked) then
        .next (s.setPart { p with grants := mapWhere p.grants (fun g => g.idx = i && !g.revoked) fun g =>
          { g with revoked := true, revoker := some c } })
      else s.refusedCmd c .notfound := by
  change execRegrevoke s = _
  simp only [execRegrevoke, hc, hpart, hup, hmid, hfeat, Bool.not_true, Bool.false_eq_true, if_false]
  cases p.grants.any fun g => g.idx = i && !g.revoked <;> rfl

theorem execRevokeComplete_of {i : Nat} {g : Grant} (hc : s.call = .revokeComplete p.num i) (hp : s.part? p.num = some p)
    (hg : p.grants.find? (fun g => g.idx = i && g.revoked && g.revoker.isSome) = some g) (hidle : s.grantBusy p.num g = false) :
    let s1 := s.setPart { p with grants := mapWhere p.grants (fun x => x = g) fun x => { x with revoker := none } }
    exec .revokeComplete s = match g.revoker with | some c => s1.didCmd c [] | none => .next s1 := by
  change execRevokeComplete s = _
  simp only [execRevokeComplete, hc, hp, hg, hidle, Bool.false_eq_true, if_false]
  cases g.revoker <;> rfl

end

/-- Settles O59: each command is said by its own lemma above. -/
theorem runningCommands : Obligations.RunningCommands := by
  unfold Obligations.RunningCommands
  intro s c p
  refine ⟨fun pa key hacts hc hkey => ⟨execLaunch_badarg hc hacts hkey, fun hgrant hok hquads => ?_⟩,
    fun out inn slices a b g hacts hc hout hinn hp hg => ?_, fun tag hacts => ⟨fun hw hx => ?_, fun w hw => ?_, fun x hw hx => ?_⟩,
    fun base n hacts => ⟨fun hc => execErrlogSetRing_of hc hacts, fun hc => execHqset_of hc hacts⟩,
    fun d l hacts hl => ⟨fun hc => ?_, fun hc hd => execErrlogClearRas_of hc hacts hd hl⟩,
    fun asid rights base len peers i hacts hc => ⟨execRegreg_nofeat hc hacts, fun hfeat hasid hrights hbase hlen hend => ?_⟩,
    fun i hup hpart hmid hfeat hc => ?_, fun i g hc hp hg hidle => execRevokeComplete_of hc hp hg hidle⟩
  · have hlaunch := execLaunch_starts hc hacts hkey hgrant hok hquads
    exact ⟨fun hnone => by rw [hlaunch, hnone], fun t ht => by rw [hlaunch, ht]⟩
  · have hswitch := execWswitch_of hc hacts hout hinn hp hg
    exact ⟨fun st hst => by rw [hswitch, hst], fun hnone => by rw [hswitch, hnone]⟩
  · have hnone := fun ans => State.answerFault_none (ans := ans) hw hx
    exact ⟨fun hc => by rw [execReplay_of hc hacts, hnone, finishCmd_error],
      fun hc => by rw [execFatal_of hc hacts, hnone, finishCmd_error]⟩
  · have hwave := fun ans => State.answerFault_wave (ans := ans) hw
    exact ⟨fun hc => by rw [execReplay_of hc hacts, hwave, finishCmd_ok],
      fun hc => by rw [execFatal_of hc hacts, hwave, finishCmd_ok]⟩
  · have hstream := fun ans => State.answerFault_stream (ans := ans) hw hx
    exact ⟨fun hc => by rw [execReplay_of hc hacts, hstream, finishCmd_ok, if_pos rfl],
      fun hc => by rw [execFatal_of hc hacts, hstream, finishCmd_ok, if_neg (by decide)]⟩
  · rw [execErrlogReadRas_of hc hacts hl, StackLink.registers_bytes]
  · have hregreg := execRegreg_grants hc hacts hfeat hasid hrights hbase hlen hend
    exact ⟨fun hnone => by rw [hregreg, hnone], fun hfree => by rw [hregreg, hfree]⟩
  · have hrevoke := execRegrevoke_of hc hup hpart hmid hfeat
    refine ⟨fun hall => ?_, fun ⟨g, hg, hi, hr⟩ => ?_⟩
    · rw [hrevoke, if_neg (by simpa using hall)]
    · rw [hrevoke, if_pos (List.any_eq_true.mpr ⟨g, hg, by simp [hi, hr]⟩)]

end Sys2Proof.Machine
end

section
/-!
PROOFS. O43: the engine words, tile descriptors and counters. The engine words share how an entry enters the quad's table
(`enterEngine_enters`, `enterOrdered_enters`); the descriptor words share how a field of a number reads bit by bit.
-/
namespace Sys2Proof.Machine

/-! ### Legal words (09 R217, R218) -/

theorem gated_legal {s : State} {f : Feature} {c : Prop} [Decidable c] (h : c → s.feature f.bit = true) :
    (if c then needs s f else none) = none := by
  by_cases hc : c
  · rw [if_pos hc, needs, if_pos (h hc)]
  · rw [if_neg hc]

@[simp] theorem firstOf_none (b : Option Nat) : firstOf none b = b := rfl

theorem badAcc_of_lt {w : Wave} {a : BitVec 3} (h : a.toNat < w.accs.length) : badAcc w a = false :=
  decide_eq_false (Nat.not_le.mpr h)

theorem odd_of_even {d : BitVec 6} (h : d.toNat % 2 = 0) : odd d = false := by
  simp [odd, h]

section
variable {s : State} {w : Wave} {i : Issue} (h : s.Latched w i)
include h

theorem State.legal_mloop {a : BitVec 3} {t u : BitVec 4} {sp : BitVec 1} {n : BitVec 11} (hacc : a.toNat < w.accs.length)
    (hn : n ≠ 0) (hsparse : sp = 1 → s.feature 3 = true)
    (hox4 : tileFmt (w.tile t.toNat) = 4 ∨ tileFmt (w.tile u.toNat) = 4 → s.feature 2 = true) (o p : BitVec 1) :
    s.Legal w i (.mloop a t u o p sp n) := by
  refine ⟨h, ?_⟩
  rw [illegal_mloop, gated_legal (f := .ox4) (fun hc => hox4 (by simpa using hc)), firstOf_none, gated_legal (f := .sparse48) hsparse,
    firstOf_none, badAcc_of_lt hacc, decide_eq_false hn]
  rfl

theorem State.legal_mload {a : BitVec 3} {t : BitVec 4} (hacc : a.toNat < w.accs.length)
    (hox4 : tileFmt (w.tile t.toNat) = 4 → s.feature 2 = true) : s.Legal w i (.mload a t) := by
  refine ⟨h, ?_⟩
  rw [illegal_mload, gated_legal (f := .ox4) hox4, firstOf_none, badAcc_of_lt hacc]
  rfl

theorem State.legal_mzero {a : BitVec 3} (hacc : a.toNat < w.accs.length) : s.Legal w i (.mzero a) :=
  ⟨h, by rw [illegal_mzero, badAcc_of_lt hacc, illegalIf_false]⟩

theorem State.legal_mwait {a : BitVec 3} (hacc : a.toNat < w.accs.length) : s.Legal w i (.mwait a) :=
  ⟨h, by rw [illegal_mwait, badAcc_of_lt hacc, illegalIf_false]⟩

theorem State.legal_mqry {a : BitVec 3} {d : BitVec 6} (hacc : a.toNat < w.accs.length) (hd : d.toNat % 2 = 0) :
    s.Legal w i (.mqry a d) :=
  ⟨h, by rw [illegal_mqry, badAcc_of_lt hacc, odd_of_even hd, Bool.or_false, illegalIf_false]⟩

theorem State.legal_tset {a : BitVec 6} (ha : a.toNat % 4 = 0) (t : BitVec 4) : s.Legal w i (.tset t a) :=
  ⟨h, by simp [ha]⟩

theorem State.legal_tget {d : BitVec 6} (hd : d.toNat % 4 = 0) (t : BitVec 4) : s.Legal w i (.tget d t) :=
  ⟨h, by simp [hd]⟩

theorem State.legal_ctrrd {d : BitVec 6} (hd : d.toNat % 2 = 0) (n : BitVec 4) : s.Legal w i (.ctrrd d n) :=
  ⟨h, by rw [illegal_ctrrd, odd_of_even hd, illegalIf_false]⟩

theorem State.legal_ctrctl {d : BitVec 6} (hd : d.toNat % 2 = 0) (a : BitVec 6) : s.Legal w i (.ctrctl d a) :=
  ⟨h, by rw [illegal_ctrctl, odd_of_even hd, illegalIf_false]⟩

end

/-! ### Entering the quad's table (07 R185; 13 R325) -/

/-- The word's operation has entered the quad's table as its youngest, or the full table has stalled the word. -/
def State.Enters (s : State) (w : Wave) (i : Issue) (x : EngEntry) (out : Out) : Prop :=
  let e := s.engine (coreQuad w.core)
  (e.entries.length < 16 → out = .next
      ((s.setEngine { e with entries := e.entries ++ [{ x with id := e.nextId }], nextId := e.nextId + 1 }).after w i))
  ∧ (16 ≤ e.entries.length → out = .next (s.charge w.part 0x013 1).stall)

theorem enterEngine_enters (s : State) (w : Wave) (i : Issue) (x : EngEntry) : s.Enters w i x (enterEngine s w i x) := by
  refine ⟨fun hroom => ?_, fun hfull => ?_⟩
  · rw [enterEngine, if_neg (Nat.not_le.mpr hroom)]
    rfl
  · rw [enterEngine, if_pos hfull]
    rfl

/-- An operation that reads or writes the QSP waits for the wave's accesses before it. -/
theorem enterOrdered_enters (s : State) (w : Wave) (i : Issue) (x : EngEntry) :
    (w.qspOpen = false → s.Enters w i x (enterOrdered s w i x)) ∧ (w.qspOpen = true → enterOrdered s w i x = .next s.stall) := by
  refine ⟨fun hserved => ?_, fun hopen => ?_⟩
  · rw [enterOrdered, hserved, if_neg Bool.false_ne_true]
    exact enterEngine_enters s w i x
  · rw [enterOrdered, hopen]
    rfl

/-! ### The engine words (13 R312 to R325) -/

section
variable {s : State} {w : Wave} {i : Issue} {a : BitVec 3}

theorem execMloop_enters {t u : BitVec 4} {o p sp : BitVec 1} {n : BitVec 11} (hlegal : s.Legal w i (.mloop a t u o p sp n)) :
    let x := { s.newEntry w (w.issuing i) i .mloop a (.mloop a t u o p sp n) n.toNat with
      d1 := w.tile t.toNat, d2 := w.tile u.toNat }
    let l := loopOf x.d1 x.d2 x.word x.lit
    l.accepted = true → (∀ c, c < n.toNat → l.stepFault (s.windowOf w).2 c = none) →
      exec (.mloop a t u o p sp n) s = enterOrdered s w i x := by
  intro x l haccepted hsteps
  have hnone : (List.range n.toNat).findSome? (l.stepFault (s.windowOf w).2) = none :=
    List.findSome?_eq_none_iff.mpr fun c hc => hsteps c (List.mem_range.mp hc)
  change execMloop a t u o p sp n s = _
  rw [execMloop, whenLegal_of hlegal]
  change (if !l.accepted then engineFault s w i 9 0 else
    match (List.range n.toNat).findSome? (l.stepFault (s.windowOf w).2) with
    | some at' => engineFault s w i 8 at'
    | none => enterOrdered s w i x) = _
  rw [haccepted, hnone]
  rfl

theorem execMstep_enters {v v2 : BitVec 6} {f g : BitVec 2} {ti tj : BitVec 3} (hlegal : s.Legal w i (.mstep a v v2 f ti tj g))
    (hv : ((w.groupPoison (w.winBase + v.toNat) 2).take (fragmentBytes f.toNat / 4)).any id = false)
    (hv2 : ((w.groupPoison (w.winBase + v2.toNat) 2).take (fragmentBytes f.toNat / 4)).any id = false) :
    exec (.mstep a v v2 f ti tj g) s = enterEngine s w i
      { s.newEntry w (w.issuing i) i .mstep a (.mstep a v v2 f ti tj g) 1 with
        regs := (w.groupBytes (w.winBase + v.toNat) 2).take (fragmentBytes f.toNat)
          ++ (w.groupBytes (w.winBase + v2.toNat) 2).take (fragmentBytes f.toNat) } := by
  change execMstep a v v2 f ti tj g s = _
  rw [execMstep, whenLegal_of hlegal]
  simp only [hv, hv2, Bool.or_self, Bool.false_eq_true, if_false]

theorem execMdrain_enters {t u : BitVec 4} {r z : BitVec 1} (hlegal : s.Legal w i (.mdrain a t u r z)) :
    let x := { s.newEntry w (w.issuing i) i .mdrain a (.mdrain a t u r z) 1 with
      d1 := w.tile t.toNat, d2 := if r = 1 then w.tile u.toNat else 0 }
    targetFault (s.windowOf w).2 (tileOf x.d1 :: (if r = 1 then [tileOf x.d2] else [])) = none →
      exec (.mdrain a t u r z) s = enterOrdered s w i x := by
  intro x hinside
  change execMdrain a t u r z s = _
  rw [execMdrain, whenLegal_of hlegal]
  simp only [x] at hinside
  simp only [hinside, x]

theorem execMload_enters {t : BitVec 4} (hlegal : s.Legal w i (.mload a t))
    (hinside : targetFault (s.windowOf w).2 [tileOf (w.tile t.toNat)] = none) :
    exec (.mload a t) s
      = enterOrdered s w i { s.newEntry w (w.issuing i) i .mload a (.mload a t) 1 with d1 := w.tile t.toNat } := by
  change execMload a t s = _
  rw [execMload, whenLegal_of hlegal]
  simp only [hinside]

theorem execMzero_enters (hlegal : s.Legal w i (.mzero a)) :
    exec (.mzero a) s = enterEngine s w i (s.newEntry w (w.issuing i) i .mzero a (.mzero a) 1) := by
  change execMzero a s = _
  rw [execMzero, whenLegal_of hlegal]

theorem execMwait_of (hlegal : s.Legal w i (.mwait a)) :
    exec (.mwait a) s = if s.slotEntries w a.toNat = [] then .next (s.after w i) else .next s.stall := by
  change execMwait a s = _
  rw [execMwait, whenLegal_of hlegal]
  rfl

theorem execMqry_of {d : BitVec 6} (hlegal : s.Legal w i (.mqry a d)) :
    exec (.mqry a d) s = .next (s.after (w.setPair d.toNat
      (((s.slotEntries w a.toNat).map EngEntry.remaining).sum + 2 ^ 32 * s.slotStatus w a.toNat) false) i) := by
  change execMqry a d s = _
  rw [execMqry, whenLegal_of hlegal]
  rfl

end

theorem engineWords : Claims.EngineWords := by
  intro s w i a t u o p sp r z n v v2 d f g ti tj h hacc e entry size enters ordered
  refine ⟨fun hn hsparse hox4 haccepted hsteps => ?_, fun hlegal hv hv2 => ?_, fun hlegal hinside => ?_, ?_, fun hox4 hinside => ?_,
    fun hnone => ?_, fun hsome => ?_, fun hd => ?_⟩
  · have hexec := execMloop_enters (State.legal_mloop h hacc hn hsparse hox4 o p) haccepted hsteps
    simp only [ordered, enters, hexec]
    exact enterOrdered_enters s w i _
  · simp only [enters, execMstep_enters ⟨h, hlegal⟩ hv hv2]
    exact enterEngine_enters s w i _
  · simp only [ordered, enters, execMdrain_enters ⟨h, hlegal⟩ hinside]
    exact enterOrdered_enters s w i _
  · simp only [enters, execMzero_enters (State.legal_mzero h hacc)]
    exact enterEngine_enters s w i _
  · simp only [ordered, enters, execMload_enters (State.legal_mload h hacc hox4) hinside]
    exact enterOrdered_enters s w i _
  · rw [execMwait_of (State.legal_mwait h hacc), if_pos hnone]
  · rw [execMwait_of (State.legal_mwait h hacc), if_neg hsome]
  · exact execMqry_of (State.legal_mqry h hacc hd)

/-! ### Numbers bit by bit -/

theorem testBit_add_two_pow_mul {x i : Nat} (hx : x < 2 ^ i) (y k : Nat) :
    (x + 2 ^ i * y).testBit k = if k < i then x.testBit k else y.testBit (k - i) := by
  rw [Nat.add_comm, Nat.testBit_two_pow_mul_add _ hx]

/-- A number with a field written reads as the field where the field stands, and as before elsewhere. -/
theorem testBit_setBits (x lo n v k : Nat) : (setBits x lo n v).testBit k
    = if k < lo then x.testBit k else if k < lo + n then v.testBit (k - lo) else x.testBit k := by
  by_cases hlo : k < lo
  · have hread (y : Nat) : y.testBit k = (y % 2 ^ lo).testBit k := by simp [Nat.testBit_mod_two_pow, hlo]
    rw [if_pos hlo, hread, setBits_mod, ← hread]
  · obtain ⟨j, rfl⟩ := Nat.exists_eq_add_of_le (Nat.not_lt.mp hlo)
    have hread (y : Nat) : y.testBit (lo + j) = (y / 2 ^ lo).testBit j := by rw [Nat.testBit_div_two_pow, Nat.add_comm]
    rw [if_neg hlo, Nat.add_sub_cancel_left, hread (setBits x lo n v), setBits_div,
      testBit_add_two_pow_mul (Nat.mod_lt _ (Nat.two_pow_pos n))]
    by_cases hj : j < n
    · simp [hj, Nat.testBit_mod_two_pow]
    · have hsplit : j - n + (lo + n) = lo + j := by omega
      simp [hj, Nat.testBit_div_two_pow, hsplit]

/-! ### Tile descriptors (13 R308, R311) -/

theorem Wave.sPair_lt (w : Wave) (n : Nat) : w.sPair n < 2 ^ 64 := by
  have hlow := (w.s n).isLt
  have hhigh := (w.s (n + 1)).isLt
  simp only [Wave.sPair]
  omega

theorem Wave.testBit_sPair (w : Wave) (n : Nat) {k : Nat} (hk : k < 64) :
    (w.sPair n).testBit k = (w.s (n + k / 32)).getLsbD (k % 32) := by
  rw [Wave.sPair, testBit_add_two_pow_mul (w.s n).isLt]
  by_cases hlow : k < 32
  · rw [if_pos hlow, Nat.div_eq_of_lt hlow, Nat.mod_eq_of_lt hlow]
    rfl
  · have hdiv : k / 32 = 1 := by omega
    have hmod : k % 32 = k - 32 := by omega
    rw [if_neg hlow, hdiv, hmod]
    rfl

/-- Four registers from an even one on, bit by bit. -/
theorem Wave.testBit_sQuad (w : Wave) (n : Nat) {k : Nat} (hk : k < 128) :
    (w.sPair n + 2 ^ 64 * w.sPair (n + 2)).testBit k = (w.s (n + k / 32)).getLsbD (k % 32) := by
  rw [testBit_add_two_pow_mul (w.sPair_lt n)]
  by_cases hlow : k < 64
  · rw [if_pos hlow, w.testBit_sPair n hlow]
  · have hreg : n + 2 + (k - 64) / 32 = n + k / 32 := by omega
    have hbit : (k - 64) % 32 = k % 32 := by omega
    rw [if_neg hlow, w.testBit_sPair (n + 2) (by omega), hreg, hbit]

/-- A descriptor keeps the bits of a number outside [46:21], which are 0. -/
theorem getLsbD_tileMask (x : Nat) {k : Nat} (hk : k < 128) :
    (tileMask x).getLsbD k = (decide (k < 21 ∨ 47 ≤ k) && x.testBit k) := by
  rw [tileMask, BitVec.getLsbD_ofNat, decide_eq_true hk, Bool.true_and, testBit_setBits, Nat.testBit_mod_two_pow, decide_eq_true hk,
    Bool.true_and, Nat.zero_testBit]
  by_cases hlow : k < 21
  · simp [hlow]
  · by_cases hmid : k < 47
    · simp [hlow, hmid]
    · simp [hlow, hmid, Nat.not_lt.mp hmid]

section
variable {s : State} {w : Wave} {i : Issue}

theorem execTset_of {t : BitVec 4} {a : BitVec 6} (hlegal : s.Legal w i (.tset t a))
    (hclean : ∀ j, j < 4 → w.sPoison (a.toNat + j) = false) :
    exec (.tset t a) s
      = .next (s.after (w.setTile t.toNat (tileMask (w.sPair a.toNat + 2 ^ 64 * w.sPair (a.toNat + 2)))) i) := by
  have hlow : w.sPairPoison a.toNat = false := by
    have hfirst := hclean 0 (by decide)
    rw [Nat.add_zero] at hfirst
    rw [Wave.sPairPoison, hclean 1 (by decide), hfirst, Bool.or_self]
  have hhigh : w.sPairPoison (a.toNat + 2) = false := by
    rw [Wave.sPairPoison, hclean 3 (by decide), hclean 2 (by decide)]
    rfl
  change execTset t a s = _
  rw [execTset, whenLegal_of hlegal]
  simp only [hlow, hhigh, Bool.or_self, Bool.false_eq_true, if_false, finish_eq]

theorem execTget_of {d : BitVec 6} {t : BitVec 4} (hlegal : s.Legal w i (.tget d t)) :
    exec (.tget d t) s = .next (s.after (w.setGroup d.toNat 4 (w.tile t.toNat).toNat false) i) := by
  change execTget d t s = _
  rw [execTget, whenLegal_of hlegal, finish_eq]

theorem execTplset_of {t t2 : BitVec 4} {a : BitVec 6} (h : s.Latched w i) (hclean : w.sPoison a.toNat = false) :
    exec (.tplset t t2 a) s = .next (s.after (w.setTile t.toNat
      (BitVec.ofNat 128 (setBits (w.tile t2.toNat).toNat 0 21 (w.s a.toNat).toNat))) i) := by
  change execTplset t t2 a s = _
  rw [execTplset, whenLegal_of ⟨h, illegal_tplset s w _ i.lit t t2 a⟩]
  simp only [hclean, Bool.false_eq_true, if_false, finish_eq]

end

/-! ### Counters (13 R327 to R330) -/

/-- The counters of a partition changed, each as its number says. -/
def State.mapCounters (s : State) (p : Nat) (f : Nat → Counter → Counter) : State :=
  s.modPart p fun y => { y with counters := y.counters.mapIdx f }

/-- A latched word that has changed its wave, in a state with the same waves: the wave goes on with the next word. -/
theorem State.wave?_after {s t : State} {w y : Wave} {i : Issue} (h : s.Latched w i) (hwaves : t.waves = s.waves)
    (hseq : y.seq = w.seq) (hwid : y.wid = w.wid) : (t.after y i).wave? w.seq w.wid = some (y.goto i.arm (nextWord i.pc)) := by
  obtain ⟨-, hw⟩ := h
  obtain ⟨hs, hi⟩ := State.wave?_names hw
  have hfound : t.wave? w.seq w.wid = some w := by rw [State.wave?_of_waves hwaves, hs, hi, hw]
  rw [State.after, State.wave?_setWave, Wave.goto_seq, Wave.goto_wid, hseq, hwid, if_pos ⟨rfl, rfl⟩, hfound, Option.map_some]

section
variable {s : State} {w : Wave} {i : Issue} {a d : BitVec 6} {n : BitVec 4}

theorem execCtrsel_of (h : s.Latched w i) (hclean : w.sPoison a.toNat = false) :
    exec (.ctrsel n a) s = .next (((s.mapCounters w.part fun j c => if j = n.toNat
      then { c with event := (w.s a.toNat).toNat % 2 ^ 12, value := 0, ovf := false } else c).dropCharges w.part n.toNat).after w i) := by
  change execCtrsel n a s = _
  rw [execCtrsel, whenLegal_of ⟨h, illegal_ctrsel s w _ i.lit n a⟩]
  simp only [hclean, Bool.false_eq_true, if_false, finish_eq, State.mapCounters]

theorem execCtrrd_of (hlegal : s.Legal w i (.ctrrd d n)) :
    exec (.ctrrd d n) s = .next (s.after (w.setPair d.toNat (s.counterRead w.part n.toNat) false) i) := by
  change execCtrrd d n s = _
  rw [execCtrrd, whenLegal_of hlegal, finish_eq]

theorem State.counterRead_of {p k : Nat} {q : Part} (hq : s.part? p = some q) :
    let c := (q.counters[k]?).getD Counter.zero
    s.counterRead p k = if 0x050 ≤ c.event ∧ c.event ≤ 0x053 ∧ s.privileged p = false then 0 else c.value := by
  simp only [State.counterRead, State.counter, hq, Option.bind_some, Bool.and_eq_true, decide_eq_true_eq, Bool.not_eq_true', and_assoc]

theorem execCtrctl_of (hlegal : s.Legal w i (.ctrctl d a)) (hclean : w.sPoison a.toNat = false) :
    ∃ st, exec (.ctrctl d a) s = .next ((s.mapCounters w.part
      (Counter.control ((w.s a.toNat).toNat / 2 ^ 30) ((w.s a.toNat).toNat % 2 ^ 16))).after (w.setS d.toNat st false) i) := by
  have hexec : exec (.ctrctl d a) s = execCtrctl d a s := rfl
  rw [hexec, execCtrctl, whenLegal_of hlegal]
  simp only [hclean, Bool.false_eq_true, if_false, finish_eq, State.mapCounters]
  exact ⟨_, rfl⟩

end

/-- CTRCTL's four operations act on the counters that the mask's low 16 bits name. -/
theorem Counter.control_eq (x : Nat) : Counter.control (x / 2 ^ 30) (x % 2 ^ 16) = fun j z => match x / 2 ^ 30 with
    | 0 => if x.testBit j ∧ j < 16 then { z with en := true } else z
    | 1 => if x.testBit j ∧ j < 16 then { z with en := false } else z
    | 2 => if x.testBit j ∧ j < 16 then { z with value := 0, ovf := false } else z
    | _ => { z with ie := decide (x.testBit j ∧ j < 16) } := by
  funext j z
  have hbit : (x % 2 ^ 16).testBit j = decide (x.testBit j = true ∧ j < 16) := by
    rw [Nat.testBit_mod_two_pow, Bool.decide_and, Bool.decide_eq_true, Bool.and_comm]
  generalize x / 2 ^ 30 = op
  match op with
  | 0 | 1 | 2 | _ + 3 => simp only [Counter.control, hbit, decide_eq_true_eq]

theorem tilesAndCounters : Claims.TilesAndCounters := by
  intro s w i t t2 a d n h
  refine ⟨fun ha hclean => ⟨_, execTset_of (State.legal_tset h ha t) hclean, fun k hk => ?_⟩,
    fun hd => execTget_of (State.legal_tget h hd t), fun hclean => ⟨_, execTplset_of h hclean, fun k hk => ?_⟩,
    fun q hq => ⟨fun hclean => ⟨_, execCtrsel_of h hclean, State.wave?_after h rfl rfl rfl, rfl⟩, fun hd => ?_,
      fun hd hclean => ?_⟩⟩
  · rw [getLsbD_tileMask _ hk, w.testBit_sQuad _ hk]
  · rw [BitVec.getLsbD_ofNat, decide_eq_true hk, Bool.true_and, testBit_setBits, if_neg (Nat.not_lt_zero k), Nat.zero_add, Nat.sub_zero]
    rfl
  · rw [execCtrrd_of (State.legal_ctrrd h hd n), State.counterRead_of hq]
  · obtain ⟨st, hst⟩ := execCtrctl_of (State.legal_ctrctl h hd a) hclean
    rw [Counter.control_eq] at hst
    exact ⟨_, st, hst, State.wave?_after h rfl (Wave.setS_seq ..) (Wave.setS_wid ..), rfl⟩

/-- Settles O43, clause by clause. -/
theorem matrixAndCounterWords : Obligations.MatrixAndCounterWords := ⟨engineWords, tilesAndCounters⟩

end Sys2Proof.Machine
end

section
/-!
PROOFS. What reading the dispatch table leaves. The caches and the directory keep the launches (`f_launches`), as they keep the still
waves (`f_still`); so the table's address and what a wave knows of it are after a read what they were before.
-/
namespace Sys2Proof.Machine

theorem foldl_launches {α : Type} {f : State → α → State} (hf : ∀ t x, (f t x).launches = t.launches) (l : List α) (s : State) :
    (l.foldl f s).launches = s.launches := foldl_proj State.launches hf l s

theorem gotAll_launches {α : Type} {f : State → α → Got} (hf : ∀ t x, (f t x).1.launches = t.launches) (s : State) (l : List α) :
    (gotAll s l f).1.launches = s.launches := by
  have hfold : ∀ g : Got, (l.foldl (fun (g : Got) x => let r := f g.1 x; (r.1, g.2 && r.2)) g).1.launches = g.1.launches := by
    induction l with
    | nil => exact fun _ => rfl
    | cons x xs ih => exact fun g => (ih _).trans (hf g.1 x)
  exact hfold (s, true)

/-! ### Records and counters -/

@[simp] theorem State.charge_launches (s : State) (p code n : Nat) : (s.charge p code n).launches = s.launches := by
  grind [State.charge]

@[simp] theorem State.chargeFlits_launches (s : State) (sent : Bool) (bytes : Nat) :
    (s.chargeFlits sent bytes).launches = s.launches := by
  grind [State.chargeFlits, State.chargePod, State.charge_launches]

@[simp] theorem State.clearCovered_launches (s : State) (k n : Nat) : (s.clearCovered k n).launches = s.launches :=
  foldl_launches (fun t i => by dsimp only; split <;> rfl) _ _

@[simp] theorem State.pokeNat_launches (s : State) (k n x : Nat) : (s.pokeNat k n x).launches = s.launches :=
  State.clearCovered_launches s k _

@[simp] theorem State.logAway_launches (s : State) (part : Nat) (r : Requester) (key kind : Nat) :
    (s.logAway part r key kind).launches = s.launches := by
  unfold State.logAway State.logError
  split
  · rfl
  · dsimp only
    split
    · rfl
    · split
      · rw [State.setMbox_launches, State.pokeNat_launches]
      · rfl

@[simp] theorem State.rowAccess_launches (s : State) (key : Nat) : (s.rowAccess key).launches = s.launches := by
  grind [State.rowAccess, State.transferred, State.charge_launches]

/-! ### The L2s, the directory and the modules (02 R51 to R57) -/

@[simp] theorem State.askModule_launches (s : State) (die part line : Nat) (kind : MemKind) :
    (s.askModule die part line kind).launches = s.launches := by
  unfold State.askModule
  split
  · rfl
  · exact State.chargeFlits_launches _ _ _

@[simp] theorem State.permitted_launches (s : State) (die part line : Nat) (own : Bool) :
    (s.permitted die part line own).1.launches = s.launches := by
  unfold State.permitted
  split
  · rfl
  · split <;> simp

@[simp] theorem State.restoreStale_launches (s : State) (line : Nat) : (s.restoreStale line).launches = s.launches := by
  unfold State.restoreStale
  split
  · rfl
  · dsimp only
    split <;> rfl

@[simp] theorem State.setPerm_launches (s : State) (line : Nat) (p : Option Perm) : (s.setPerm line p).launches = s.launches := rfl

@[simp] theorem State.returnLine_launches (s : State) (l : L2Line) : (s.returnLine l).launches = s.launches := by
  grind [State.returnLine, State.cleanLine, State.logAway_launches]

@[simp] theorem State.l2Evict_launches (s : State) (l : L2Line) : (s.l2Evict l).launches = s.launches := by
  grind [State.l2Evict, State.wakeLine, State.rowAccess_launches, State.charge_launches, State.restoreStale_launches,
    State.returnLine_launches, State.setPerm_launches, State.askModule_launches]

@[simp] theorem State.l2Place_launches (s : State) (die key asked : Nat) (st : LineState) :
    (s.l2Place die key asked st).launches = s.launches := by
  grind [State.l2Place, State.fresh, State.l2Evict_launches]

@[simp] theorem State.directoryRoom_launches (s : State) (line : Nat) : (s.directoryRoom line).1.launches = s.launches := by
  have hrecall (t : State) (k : Nat) : (t.recallAll k).launches = t.launches := foldl_launches State.l2Evict_launches _ _
  grind [State.directoryRoom, State.fresh]

@[simp] theorem State.chargeFetch_launches (s : State) (part key : Nat) : (s.chargeFetch part key).launches = s.launches := by
  grind [State.chargeFetch, State.charge_launches, State.rowAccess_launches]

@[simp] theorem State.dirRead_launches (s : State) (die key part : Nat) : (s.dirRead die key part).launches = s.launches := by
  grind [State.dirRead, State.modL2, State.chargeFetch_launches, State.l2Place_launches]

@[simp] theorem State.dirOwn_launches (s : State) (die key part : Nat) : (s.dirOwn die key part).launches = s.launches := by
  grind [State.dirOwn, State.modL2, State.wakeLine, State.chargeFetch_launches, State.l2Place_launches]

@[simp] theorem State.directory_launches (s : State) (die key part : Nat) (own : Bool) :
    (s.directory die key part own).1.launches = s.launches := by
  grind [State.directory, State.filled, State.permitted_launches, State.directoryRoom_launches, State.dirOwn_launches,
    State.dirRead_launches]

@[simp] theorem State.l2Store_launches (s : State) (die key : Nat) (bs : List Byte) (mask : Lanes) :
    (s.l2Store die key bs mask).launches = s.launches := by
  grind [State.l2Store, State.dirtyLine, State.modL2, State.clearPoison, State.wakeLine, State.filled]

@[simp] theorem State.writePast_launches (s : State) (die part line : Nat) (ws : List (Nat × List Byte × Lanes)) (poison : Bool) :
    (s.writePast die part line ws poison).1.launches = s.launches := by
  unfold State.writePast
  split
  · rfl
  · dsimp only
    split
    · simp
    · refine (foldl_launches (fun t x => ?_) _ _).trans ?_
      · grind [State.logAway_launches, State.clearPoison_launches, State.setPoison_launches]
      · grind [State.cleanLine, State.setPerm_launches, State.wakeLine, State.dropCopies, State.restoreStale_launches,
          State.askModule_launches, State.rowAccess_launches, State.permitted_launches]

@[simp] theorem State.l2Write_launches (s : State) (die part key : Nat) (bs : List Byte) (mask : Lanes) (poison noAlloc : Bool) :
    (s.l2Write die part key bs mask poison noAlloc).1.launches = s.launches := by
  grind [State.l2Write, State.logAway_launches, State.setPoison_launches, State.l2Store_launches, State.writePast_launches,
    State.directory_launches]

@[simp] theorem State.l2Read_launches (s : State) (die part key n : Nat) (noAlloc first : Bool) :
    (s.l2Read die part key n noAlloc first).1.launches = s.launches := by
  grind [State.l2Read, State.logAway_launches, State.permitted_launches, State.chargeFetch_launches]

/-! ### A quad's L1 and write queue (02 R47 to R49) -/

@[simp] theorem State.writeBackSector_launches (s : State) (quad line : Nat) (upper : Bool) :
    (s.writeBackSector quad line upper).1.launches = s.launches := by
  grind [State.writeBackSector, State.l1Set, State.l2Write_launches]

@[simp] theorem State.l1Alloc_launches (s : State) (quad line part : Nat) : (s.l1Alloc quad line part).1.launches = s.launches := by
  have hback (t : State) (l : Nat) : (t.writeBackLine quad l).1.launches = t.launches :=
    gotAll_launches (fun u b => u.writeBackSector_launches quad l b) t _
  grind [State.l1Alloc, State.l1Room, State.l1Drop]

@[simp] theorem State.l1Store_launches (s : State) (quad sec part : Nat) (bs : List Byte) (mask : Lanes) (nt : Bool) :
    (s.l1Store quad sec part bs mask nt).1.launches = s.launches := by
  grind [State.l1Store, State.l1Touch, State.l1Set, State.l1Alloc_launches]

@[simp] theorem State.wqFlush_launches (s : State) (quad sec : Nat) : (s.wqFlush quad sec).1.launches = s.launches := by
  grind [State.wqFlush, State.wqMerge, State.l1Store_launches]

@[simp] theorem State.sectorOut_launches (s : State) (quad key : Nat) : (s.sectorOut quad key).1.launches = s.launches := by
  grind [State.sectorOut, State.wqFlush_launches, State.writeBackSector_launches]

/-! ### A read of data (10 R246, 07 R174) -/

@[simp] theorem State.reachSector_launches (s : State) (w : Wave) (key n : Nat) (noAlloc : Bool) :
    (s.reachSector w key n noAlloc).1.launches = s.launches := by
  grind [State.reachSector, State.sectorOut_launches, State.l2Read_launches, State.directory_launches]

@[simp] theorem State.reachSector_still (s : State) (w : Wave) (key n : Nat) (noAlloc : Bool) :
    (s.reachSector w key n noAlloc).1.still = s.still := by
  grind [State.reachSector, State.sectorOut_still, State.l2Read_still, State.directory_still]

/-- A read that gives its data without counting lookups leaves the launches, and the waves still. -/
theorem State.readData_keeps {s s1 : State} {w : Wave} {i : Issue} {u : UnitSt} {va n val key : Nat} {bad : Option Nat} {e : TlbEntry}
    (h : s.readData w i u va n false = .ok s1 val bad key e) : s1.launches = s.launches ∧ s1.still = s.still := by
  unfold State.readData at h
  split at h
  · cases h
  · cases h
  · split at h
    · cases h
    · split at h
      · cases h
        exact ⟨rfl, rfl⟩
      · cases h
        exact ⟨rfl, rfl⟩
      · dsimp only at h
        split at h
        · cases h
        · split at h
          · cases h
          · cases h
            exact ⟨rfl, rfl⟩
      · split at h
        · cases h
        · split at h
          · cases h
          · simp only [Bool.false_and, Bool.false_eq_true, if_false] at h
            split at h
            · cases h
            · split at h
              · cases h
              · cases h
                exact ⟨(gotAll_launches (fun t k => t.reachSector_launches ..) _ _).trans
                  (gotAll_launches (fun t k => t.sectorOut_launches ..) _ _),
                  (gotAll_still (fun t k => t.reachSector_still ..) _ _).trans (gotAll_still (fun t k => t.sectorOut_still ..) _ _)⟩

end Sys2Proof.Machine
end

section
/-!
PROOFS. O34: DISPATCH, PHASEEND and PHASESEL: the relayed reads and writes of a table, the search of the buckets, and the entry that
BUCKET names.
-/
namespace Sys2Proof.Machine

/-! ### Legal words (09 R217, R218) -/

section
variable {s : State} {w : Wave} {i : Issue} (h : s.Latched w i) (hdtab : s.dtab w ≠ 0)
include h hdtab

theorem State.legal_dispatch {a : BitVec 6} (ha : a.toNat ≤ 60) : s.Legal w i (.dispatch a) := by
  refine ⟨h, ?_⟩
  change illegalIf (decide (60 < a.toNat) || decide (s.dtab w = 0)) = none
  rw [decide_eq_false (Nat.not_lt.mpr ha), decide_eq_false hdtab]
  rfl

theorem State.legal_phaseend (hfeat : s.feature 7 = true) (g : BitVec 2) : s.Legal w i (.phaseend g) := by
  refine ⟨h, ?_⟩
  change firstOf (if s.feature 7 then none else some 3) (illegalIf (decide (s.dtab w = 0))) = none
  rw [hfeat, decide_eq_false hdtab]
  rfl

theorem State.legal_phasesel (hfeat : s.feature 7 = true) : s.Legal w i .phasesel := by
  refine ⟨h, ?_⟩
  change firstOf (if s.feature 7 then none else some 3) (illegalIf (decide (s.dtab w = 0))) = none
  rw [hfeat, decide_eq_false hdtab]
  rfl

end

/-- The wave of a latched word is found under its own names. -/
theorem State.Latched.wave {s : State} {w : Wave} {i : Issue} (h : s.Latched w i) : s.wave? w.seq w.wid = some w := by
  obtain ⟨-, hw⟩ := h
  obtain ⟨hseq, hwid⟩ := State.wave?_names hw
  rw [hseq, hwid, hw]

/-! ### Tables in a relay window (01 R21) -/

/-- A range within one sector is one piece. -/
theorem relayPieces_sector {key n : Nat} (hkey : key % 64 = 0) (hpos : 0 < n) (hn : n ≤ 64) : relayPieces key n = [(key, n)] := by
  have hone : (key % 64 + n + 63) / 64 = 1 := by omega
  have hsector : sectorKey key = key := by rw [sectorKey]; omega
  simp [relayPieces, sectorsOf, hone, hsector, hn]

theorem moduleKey_sector {x : Nat} (hx : x % 128 = 0) (m : Nat) : moduleKey m x % 64 = 0 := by
  rw [moduleKey]
  omega

/-- The one part of an operation that asks for a range of one sector, or writes it. -/
def relayOne (s : State) (va key n : Nat) (act : PartAct) : List OpPart := [relayPiece s va key act 0 (key, n)]

theorem relayOne_eq (s : State) (va key n : Nat) (act : PartAct) : relayOne s va key n act =
    [{ lane := 0, key := key, va := va, size := n, act := act, route := .runner, age := s.now, noAlloc := false, na := false,
       nt := false, col := false, done := false, val := 0, poison := false }] := by
  simp [relayOne, relayPiece]

theorem relayAsk_sector {s : State} {w : Wave} {u : UnitSt} {va key n : Nat} (hkey : key % 64 = 0) (hpos : 0 < n) (hn : n ≤ 64)
    (hunsent : u.tableAt (key, n) = none) (hroom : w.outst < 63) (hstalls : s.relayStalls w (relayOne s va key n .read) = false)
    (i : Issue) :
    let w1 := w.addOp (newOp w i .load .pkg true (relayOne s va key n .read) .table)
    let w2 := w1.setUnit i.arm { w1.unit i.arm with wait := .op w.nextOp }
    relayAsk s w i u va key n = .next ((s.setWave w2).relayParts w2 i.arm w.nextOp (relayOne s va key n .read)).stall := by
  have hparts : ((relayPieces key n).filter fun x => (u.tableAt x).isNone).mapIdx (relayPiece s va key .read)
      = relayOne s va key n .read := by
    simp [relayPieces_sector hkey hpos hn, hunsent, relayOne]
  have hstall : (decide (Config.outstMax ≤ w.outst) || s.relayStalls w (relayOne s va key n .read)) = false := by
    rw [hstalls, decide_eq_false (Nat.not_le.mpr hroom)]
    rfl
  rw [relayAsk, hparts, hstall]
  rfl

theorem State.readData_relayed {s : State} {w : Wave} {i : Issue} {u : UnitSt} {va n pa m x : Nat} {e : TlbEntry} {lookups : Bool}
    (hx : s.waveXlate w u va n .read = .ok pa e) (htier : e.tier = .relay) (hplace : physPlace pa = .relay m x)
    (hclear : w.overlaps (moduleKey m x) n false = false)
    (hunsent : ∃ y ∈ relayPieces (moduleKey m x) n, u.tableAt y = none) :
    s.readData w i u va n lookups = .out (relayAsk s w i u va (moduleKey m x) n) := by
  obtain ⟨y, hy, hnone⟩ := hunsent
  have hany : ((relayPieces (moduleKey m x) n).any fun y => (u.tableAt y).isNone) = true :=
    List.any_eq_true.mpr ⟨y, hy, by rw [hnone]; rfl⟩
  have hno : ¬ (Tier.relay = Tier.aperture) := by decide
  simp only [State.readData, hx, htier, hplace, hclear, hany, hno, decide_false, Bool.false_and, Bool.false_eq_true, if_false, if_true]

theorem relayedTable : Claims.RelayedTable := by
  intro s w i a pa m x e h ha hdtab hx htier hplace halign key ps o w1 w2 hclear htable hroom hstalls
  have hkey : key % 64 = 0 := moduleKey_sector halign m
  have hunsent : (w.issuing i).tableAt (key, 4) = none :=
    List.find?_eq_none.mpr fun t ht => by simpa using htable t ht
  have hps : relayOne s (s.dtab w) key 4 .read = ps := relayOne_eq s _ key 4 .read
  have hread := State.readData_relayed (i := i) (lookups := false) hx htier hplace hclear
    ⟨(key, 4), by rw [relayPieces_sector hkey (by decide) (by decide)]; exact List.mem_singleton_self _, hunsent⟩
  have hask := relayAsk_sector hkey (by decide) (by decide) hunsent hroom (hps ▸ hstalls) i
  rw [hps] at hask
  change execDispatch a s = _
  rw [execDispatch, whenLegal_of (State.legal_dispatch h hdtab ha)]
  simp only [hread]
  exact hask

/-! ### DISPATCH (07 R172 to R174) -/

theorem headerDims_eq (h : Nat) : headerDims h = if h / 2 ^ 16 % 256 = 0 then 1 else min (h / 2 ^ 16 % 256) 4 := rfl

theorem headerBuckets_eq (h : Nat) : headerBuckets h = if 1 ≤ h % 2 ^ 16 ∧ h % 2 ^ 16 ≤ 256 then h % 2 ^ 16 else 0 := by
  simp [headerBuckets, bitsAt]

theorem bucketMatches_iff (e ndim : Nat) (shape : List Nat) : bucketMatches e ndim shape = true
    ↔ ∀ d, d < ndim → e / 2 ^ (64 * d) % 2 ^ 32 ≤ shape.getD d 0 ∧ shape.getD d 0 ≤ e / 2 ^ (64 * d + 32) % 2 ^ 32 := by
  simp [bucketMatches, bitsAt]

/-- The read of a bucket's entry leaves the state and gives `e`, without poison. -/
def State.ReadsBucket (s : State) (w : Wave) (i : Issue) (b e : Nat) : Prop :=
  ∃ key tlb, s.readData w i (w.issuing i) (addAddr (s.dtab w) (128 * (b + 1))) 84 false = .ok s e none key tlb

section
variable {s : State} {w : Wave} {i : Issue} {ndim : Nat} {shape : List Nat} {ent : Nat → Nat} (hw : s.wave? w.seq w.wid = some w)
include hw

theorem dispatchFrom_step {b e : Nat} (hread : s.ReadsBucket w i b e) (n : Nat) :
    dispatchFrom s w i (w.issuing i) ndim shape b (n + 1) = if bucketMatches e ndim shape then
        s.wentTo { w with bucket := BitVec.ofNat 32 b, bounds := [0, 1, 2, 3].flatMap (boundPair e ndim shape) } i
          (16 * (e / 2 ^ 640 % 2 ^ 32))
      else dispatchFrom s w i (w.issuing i) ndim shape (b + 1) n := by
  obtain ⟨key, tlb, hread⟩ := hread
  rw [dispatchFrom]
  simp only [hread, State.again_of hw]
  rfl

/-- The search passes over the buckets that do not hold the shape. -/
theorem dispatchFrom_skip (n : Nat) : ∀ (k b : Nat),
    (∀ c, b ≤ c → c < b + k → s.ReadsBucket w i c (ent c) ∧ bucketMatches (ent c) ndim shape = false) →
    dispatchFrom s w i (w.issuing i) ndim shape b (k + n) = dispatchFrom s w i (w.issuing i) ndim shape (b + k) n
  | 0, b, _ => by rw [Nat.zero_add, Nat.add_zero]
  | k + 1, b, hskip => by
    obtain ⟨hread, hmiss⟩ := hskip b (Nat.le_refl b) (by omega)
    rw [Nat.add_right_comm, dispatchFrom_step hw hread, hmiss, if_neg Bool.false_ne_true,
      dispatchFrom_skip n k (b + 1) fun c hb hc => hskip c (by omega) (by omega), Nat.add_assoc, Nat.add_comm 1 k]

end

theorem execDispatch_of {s : State} {w : Wave} {i : Issue} {a : BitVec 6} {h key0 : Nat} {e0 : TlbEntry}
    (hlegal : s.Legal w i (.dispatch a)) (hread : s.readData w i (w.issuing i) (s.dtab w) 4 false = .ok s h none key0 e0)
    (hclean : ∀ d, d < headerDims h → w.sPoison (a.toNat + d) = false) :
    exec (.dispatch a) s = dispatchFrom s w i (w.issuing i) (headerDims h)
      ((List.range 4).map fun d => (w.s (a.toNat + d)).toNat) 0 (headerBuckets h) := by
  have hpoison : ((List.range (headerDims h)).any fun d => w.sPoison (a.toNat + d)) = false :=
    List.any_eq_false.mpr fun d hd => by simp [hclean d (List.mem_range.mp hd)]
  change execDispatch a s = _
  rw [execDispatch, whenLegal_of hlegal]
  simp only [hread, State.again_of hlegal.1.wave, hpoison, Bool.false_eq_true, if_false]

theorem dispatch : Claims.Dispatch := by
  intro s w i a h key0 e0 ent hl ha hdtab u ndim nb shape holds hhead hclean hreads
  have hexec := execDispatch_of (State.legal_dispatch hl hdtab ha) hhead hclean
  rw [headerBuckets_eq] at hexec
  have hmiss : ∀ b, ¬ holds b → bucketMatches (ent b) ndim shape = false := fun b hb =>
    Bool.eq_false_iff.mpr fun hm => hb ((bucketMatches_iff _ _ _).mp hm)
  refine ⟨fun hnone => ?_, fun b hb hholds hfirst => ?_⟩
  · have hskip := dispatchFrom_skip (ent := ent) hl.wave 0 nb 0 fun c _ hc =>
      ⟨hreads c (by omega), hmiss c (hnone c (by omega))⟩
    exact hexec.trans hskip
  · obtain ⟨n, hn⟩ := Nat.exists_eq_add_of_lt hb
    have hskip := dispatchFrom_skip (ent := ent) hl.wave (n + 1) b 0 fun c _ hc =>
      ⟨hreads c (by omega), hmiss c (hfirst c (by omega))⟩
    have hstep := dispatchFrom_step (ndim := ndim) (shape := shape) hl.wave (hreads b hb) n
    rw [if_pos ((bucketMatches_iff _ _ _).mpr hholds)] at hstep
    rw [Nat.zero_add] at hskip
    have hnb : nb = b + (n + 1) := by omega
    exact hexec.trans ((congrArg (dispatchFrom s w i u ndim shape 0) hnb).trans (hskip.trans hstep))

/-! ### The entry that BUCKET names (07 R176, R177) -/

section
variable {s s1 s2 : State} {w : Wave} {i : Issue} {u : UnitSt} {h key0 e key : Nat} {e0 tlb : TlbEntry}
  (hhead : s.readData w i u (s.dtab w) 4 false = .ok s1 h none key0 e0)
include hhead

theorem withEntry_beyond (hb : h % 2 ^ 16 ≤ w.bucket.toNat) (none' : State → Wave → Out)
    (f : State → Wave → Nat → Nat → TlbEntry → Out) : withEntry s w i u none' f = none' s1 (s1.again w) := by
  have hle : bitsAt h 0 16 ≤ w.bucket.toNat := by simpa [bitsAt] using hb
  simp only [withEntry, hhead, if_pos hle]

theorem withEntry_of (hb : w.bucket.toNat < h % 2 ^ 16)
    (hentry : s1.readData (s1.again w) i u (addAddr (s.dtab w) (128 * (w.bucket.toNat + 1) + 64)) 64 false = .ok s2 e none key tlb)
    (hclear : w.overlaps key 64 true = false) (none' : State → Wave → Out) (f : State → Wave → Nat → Nat → TlbEntry → Out) :
    withEntry s w i u none' f = f s2 (s2.again w) e key tlb := by
  have hlt : ¬ bitsAt h 0 16 ≤ w.bucket.toNat := by simpa [bitsAt] using hb
  simp only [withEntry, hhead, if_neg hlt, hentry, hclear, Bool.false_eq_true, if_false]

end

theorem writeEntry_home {s t : State} {w : Wave} {i : Issue} {key e : Nat} {tlb : TlbEntry} (haperture : tlb.tier ≠ .aperture)
    (hrelay : tlb.tier ≠ .relay) (hput : s.unitWrite (coreQuad w.core) w.part key (natToBytes 64 e) false = (t, true))
    (f : Wave → Wave) : writeEntry s w i key e tlb f = .next (t.after (f (t.again w)) i) := by
  unfold writeEntry
  split
  case h_1 htier => exact absurd htier haperture
  case h_2 htier => exact absurd htier hrelay
  case h_3 =>
    rw [hput]
    rfl

theorem writeEntry_relayed {s : State} {w : Wave} {i : Issue} {key e : Nat} {tlb : TlbEntry} (htier : tlb.tier = .relay)
    (f : Wave → Wave) : writeEntry s w i key e tlb f = relayWrite s (f w) i key e := by
  simp only [writeEntry, htier]

theorem relayWrite_sector {s : State} {w : Wave} {va key e : Nat} (hkey : key % 64 = 0)
    (hva : addAddr (s.dtab w) (128 * (w.bucket.toNat + 1) + 64) = va) (hroom : w.outst < 63)
    (hstalls : s.relayStalls w (relayOne s va key 64 (.write (e % 2 ^ 512))) = false) (i : Issue) :
    let ps := relayOne s va key 64 (.write (e % 2 ^ 512))
    let z := (w.addOp (newOp w i .store .pkg false ps .none)).goto i.arm (nextWord i.pc)
    relayWrite s w i key e = .next ((s.setWave z).relayParts z i.arm w.nextOp ps) := by
  have hparts : ((relayPieces key 64).mapIdx fun k x =>
      relayPiece s (addAddr (s.dtab w) (128 * (w.bucket.toNat + 1) + 64)) key (.write (e / 2 ^ (8 * (x.1 - key)) % 2 ^ (8 * x.2))) k x)
      = relayOne s va key 64 (.write (e % 2 ^ 512)) := by
    rw [relayPieces_sector hkey (by decide) (Nat.le_refl 64), hva]
    simp only [List.mapIdx_cons, List.mapIdx_nil, relayOne, Nat.sub_self, Nat.mul_zero, Nat.pow_zero, Nat.div_one]
  have hstall : (decide (Config.outstMax ≤ w.outst) || s.relayStalls w (relayOne s va key 64 (.write (e % 2 ^ 512)))) = false := by
    rw [hstalls, decide_eq_false (Nat.not_le.mpr hroom)]
    rfl
  rw [relayWrite, hparts, hstall]
  rfl

/-- After reads that leave the launches and keep the waves still, the table and the bucket of a wave are what they were. -/
theorem State.entryAddr_of_keeps {s t : State} (hkeep : t.launches = s.launches ∧ t.still = s.still) {w : Wave}
    (hw : s.wave? w.seq w.wid = some w) :
    addAddr (t.dtab (t.again w)) (128 * ((t.again w).bucket.toNat + 1) + 64)
      = addAddr (s.dtab w) (128 * (w.bucket.toNat + 1) + 64) := by
  obtain ⟨hlaunches, hstill⟩ := hkeep
  obtain ⟨v, hv, hvw⟩ := State.wave?_of_still hstill hw
  have hagain : t.again w = v := by rw [State.again, hv, Option.getD_some]
  have hseq : v.seq = w.seq := congrArg (fun x => x.1.seq) hvw
  have hbucket : v.bucket = w.bucket := congrArg (fun x => x.1.bucket) hvw
  have hdtab : t.dtab v = s.dtab w := by rw [State.dtab, State.dtab, State.launch?, State.launch?, hlaunches, hseq]
  rw [hagain, hdtab, hbucket]

/-! ### PHASEEND and PHASESEL (07 R176, R177; 10 R250) -/

/-- An entry with the cycles since the phase start added to the count of a group, saturating. -/
def State.countedEntry (s : State) (w : Wave) (e g : Nat) : Nat :=
  setBits e (320 + 48 * g) 48 (min (e / 2 ^ (320 + 48 * g) % 2 ^ 48 + (s.now + 2 ^ 64 - w.phaseStart) % 2 ^ 64) (2 ^ 48 - 1))

/-- A wave with the phase of a PHASEVAR started. -/
def Wave.startPhase (w : Wave) (now : Nat) (v : Word) : Wave := { w with phaseVar := v, phaseStart := now }

section
variable {s : State} {w : Wave} {i : Issue} {g : BitVec 2}

theorem execPhaseend_none (hlegal : s.Legal w i (.phaseend g)) (hb : w.bucket = 0xFFFFFFFF) :
    exec (.phaseend g) s = .next (s.after w i) := by
  change execPhaseend g s = _
  rw [execPhaseend, whenLegal_of hlegal, if_pos hb, finish_eq]

theorem execPhaseend_of (hlegal : s.Legal w i (.phaseend g)) (hb : w.bucket ≠ 0xFFFFFFFF) :
    exec (.phaseend g) s = withEntry s w i (w.issuing i) (fun t x => finish t x i) fun t x e key tlb =>
      writeEntry t x i key (s.countedEntry x e g.toNat) tlb id := by
  change execPhaseend g s = _
  rw [execPhaseend, whenLegal_of hlegal, if_neg hb]
  rfl

theorem execPhasesel_of (hlegal : s.Legal w i .phasesel) :
    exec .phasesel s = withEntry s w i (w.issuing i) (fun t x => finish t (x.startPhase s.now 0) i) fun t x e key tlb =>
      writeEntry t x i key (phaseselEntry e (w.phaseVar.toNat / 65536)) tlb fun y =>
        y.startPhase s.now (phaseVarOf (phaseselEntry e (w.phaseVar.toNat / 65536))) := by
  change execPhasesel s = _
  rw [execPhasesel, whenLegal_of hlegal]
  rfl

end

theorem phases : Claims.Phases := by
  intro s w i g hl hfeat hdtab
  have hlegalEnd := State.legal_phaseend hl hdtab hfeat g
  have hlegalSel := State.legal_phasesel hl hdtab hfeat
  refine ⟨execPhaseend_none hlegalEnd, fun s1 s2 s3 h e key k0 t0 tlb hb hhead => ⟨fun hbeyond => ?_, ?_⟩⟩
  · rw [execPhasesel_of hlegalSel, execPhaseend_of hlegalEnd hb, withEntry_beyond hhead hbeyond, withEntry_beyond hhead hbeyond]
    exact ⟨rfl, rfl⟩
  · intro hbelow va hentry w2 cnt eEnd eSel started
    have hkeeps1 := State.readData_keeps hhead
    have hkeeps2 := State.readData_keeps hentry
    have hva := State.entryAddr_of_keeps ⟨hkeeps2.1.trans hkeeps1.1, hkeeps2.2.trans hkeeps1.2⟩ hl.wave
    have hend (hclear : w.overlaps key 64 true = false) : exec (.phaseend g) s = writeEntry s2 w2 i key eEnd tlb id := by
      rw [execPhaseend_of hlegalEnd hb, withEntry_of hhead hbelow hentry hclear]
      rfl
    have hsel (hclear : w.overlaps key 64 true = false) : exec .phasesel s = writeEntry s2 w2 i key eSel tlb started := by
      rw [execPhasesel_of hlegalSel, withEntry_of hhead hbelow hentry hclear]
      rfl
    refine ⟨fun haperture hrelay hclear => ⟨fun hput => ?_, fun hput => ?_⟩, fun htier hkey hclear => ?_⟩
    · exact (hend hclear).trans (writeEntry_home haperture hrelay hput id)
    · exact (hsel hclear).trans (writeEntry_home haperture hrelay hput started)
    · intro ps sends
      have hps (x : Nat) : relayOne s2 va key 64 (.write (x % 2 ^ 512)) = ps x := relayOne_eq s2 va key 64 _
      refine ⟨fun hroom hstalls => ?_, fun hroom hstalls => ?_⟩
      · have hwrite := relayWrite_sector (w := w2) (e := eEnd) hkey hva hroom (hps eEnd ▸ hstalls) i
        rw [hps] at hwrite
        exact (hend hclear).trans ((writeEntry_relayed htier id).trans hwrite)
      · have hwrite := relayWrite_sector (w := started w2) (e := eSel) hkey hva hroom (hps eSel ▸ hstalls) i
        rw [hps] at hwrite
        exact (hsel hclear).trans ((writeEntry_relayed htier started).trans hwrite)

/-- Settles O34, clause by clause. -/
theorem shapesAndPhases : Obligations.ShapesAndPhases := ⟨dispatch, relayedTable, phases⟩

end Sys2Proof.Machine
end

section
/-! PROOFS. O3: decoding an encoded well-formed instruction gives it back, and what decodes is well formed (09 R205 to R217).
An encoding is fixed bits plus fields that are put apart from each other; each such field then reads as it was put. -/

namespace Sys2Proof

/-! ### The fields of an encoded word (09 R212) -/

/-- A field of a word: its width, its value and the place of its lowest bit. -/
structure PutField where
  n : Nat
  x : BitVec n
  lo : Nat

/-- The `n` bits from bit `lo` up are none of a field's. -/
def PutField.apart (lo n : Nat) (fs : List PutField) : Bool :=
  fs.all fun f => decide (f.lo + f.n ≤ lo) || decide (lo + n ≤ f.lo)

/-- The fields are apart, and the fixed bits are zero where they stand. -/
def PutField.fit (F : Nat) : List PutField → Bool
  | [] => true
  | ⟨n, _, lo⟩ :: fs => decide (fieldNat F lo n = 0) && apart lo n fs && fit F fs

/-- The word of fixed bits and fields. -/
def PutField.word (F : Nat) (fs : List PutField) : Nat := wordOf F (fs.map fun f => put f.x f.lo)

/-- The word reads each field of a list as it was put. -/
def PutField.Read (w : Nat) : List PutField → Prop
  | [] => True
  | ⟨n, x, lo⟩ :: fs => field w lo n = x ∧ Read w fs

/-- A field as a bit vector and as a number. -/
theorem field_eq_iff {w lo n : Nat} {x : BitVec n} : field w lo n = x ↔ fieldNat w lo n = x.toNat := by
  rw [BitVec.toNat_eq, field, BitVec.toNat_ofNat, fieldNat]

/-- A field above one that is put into zero bits reads as before. -/
theorem fieldNat_put_above {m : Nat} (x : BitVec m) {b r lo n : Nat} (h : fieldNat r b m = 0) (hle : b + m ≤ lo) :
    fieldNat (put x b + r) lo n = fieldNat r lo n := by
  have hlow : put x b + r % 2 ^ (b + m) < 2 ^ (b + m) := by
    rw [pow_add, Nat.mod_mul, ← fieldNat, h, put]
    calc x.toNat * 2 ^ b + (r % 2 ^ b + 2 ^ b * 0) < (x.toNat + 1) * 2 ^ b := by
          have := Nat.mod_lt r (Nat.two_pow_pos b)
          rw [Nat.add_mul]; omega
      _ ≤ 2 ^ m * 2 ^ b := Nat.mul_le_mul_right _ x.isLt
      _ = 2 ^ b * 2 ^ m := Nat.mul_comm _ _
  have hdiv : (put x b + r) / 2 ^ (b + m) = r / 2 ^ (b + m) := by
    conv_lhs =>
      rw [← Nat.mod_add_div r (2 ^ (b + m)), ← Nat.add_assoc,
        Nat.add_mul_div_left _ _ (Nat.two_pow_pos _), Nat.div_eq_of_lt hlow, Nat.zero_add]
  rw [fieldNat, fieldNat, ← Nat.add_sub_cancel' hle, pow_add, ← Nat.div_div_eq_div_mul, hdiv, Nat.div_div_eq_div_mul]

/-- A field below one that is put reads as before. -/
theorem fieldNat_put_below {m : Nat} (x : BitVec m) {b r lo n : Nat} (hle : lo + n ≤ b) :
    fieldNat (put x b + r) lo n = fieldNat r lo n := by
  have hput : put x b = 2 ^ lo * (2 ^ n * (x.toNat * 2 ^ (b - (lo + n)))) := by
    rw [put, ← Nat.mul_assoc, ← pow_add, Nat.mul_left_comm, ← pow_add, Nat.add_sub_cancel' hle]
  rw [fieldNat, fieldNat, hput, Nat.mul_add_div (Nat.two_pow_pos lo), Nat.mul_add_mod]

/-- A field that is put into zero bits reads as it was put. -/
theorem fieldNat_put_same {m : Nat} (x : BitVec m) {b r : Nat} (h : fieldNat r b m = 0) : fieldNat (put x b + r) b m = x.toNat := by
  rw [fieldNat, put, Nat.mul_comm, Nat.mul_add_div (Nat.two_pow_pos b), Nat.add_mod, ← fieldNat, h, Nat.add_zero, Nat.mod_mod,
    Nat.mod_eq_of_lt x.isLt]

/-- A field apart from one that is put into zero bits reads as before. -/
theorem fieldNat_put_apart {f : PutField} {r lo n : Nat} (h : fieldNat r f.lo f.n = 0)
    (hap : (decide (f.lo + f.n ≤ lo) || decide (lo + n ≤ f.lo)) = true) : fieldNat (put f.x f.lo + r) lo n = fieldNat r lo n := by
  rcases Bool.or_eq_true_iff.mp hap with hab | hbe
  · exact fieldNat_put_above f.x h (of_decide_eq_true hab)
  · exact fieldNat_put_below f.x (of_decide_eq_true hbe)

theorem PutField.read_put {f : PutField} {r : Nat} (h : fieldNat r f.lo f.n = 0) : ∀ {fs : List PutField},
    apart f.lo f.n fs = true → Read r fs → Read (put f.x f.lo + r) fs
  | [], _, h => h
  | g :: gs, hap, ⟨hg, hgs⟩ => by
    obtain ⟨hfirst, hrest⟩ := Bool.and_eq_true_iff.mp hap
    exact ⟨field_eq_iff.mpr ((fieldNat_put_apart h (by rwa [Bool.or_comm])).trans (field_eq_iff.mp hg)), read_put h hrest hgs⟩

/-- Fields that fit read as they were put, and apart from them the fixed bits are as they were. -/
theorem PutField.read_word {F : Nat} : ∀ {fs : List PutField}, fit F fs = true →
    (∀ lo n, apart lo n fs = true → fieldNat (word F fs) lo n = fieldNat F lo n) ∧ Read (word F fs) fs
  | [], _ => ⟨fun _ _ _ => rfl, trivial⟩
  | f :: fs, hfit => by
    obtain ⟨hhead, hrest⟩ := Bool.and_eq_true_iff.mp hfit
    obtain ⟨hzero, hap⟩ := Bool.and_eq_true_iff.mp hhead
    obtain ⟨hfixed, hread⟩ := read_word hrest
    have hclear := (hfixed _ _ hap).trans (of_decide_eq_true hzero)
    refine ⟨fun lo n h => ?_, field_eq_iff.mpr (fieldNat_put_same f.x hclear), read_put hclear hap hread⟩
    obtain ⟨hfirst, hothers⟩ := Bool.and_eq_true_iff.mp h
    exact (fieldNat_put_apart hclear hfirst).trans (hfixed lo n hothers)

/-- A word decodes by its fixed bits and its fields. -/
theorem decodeWord_word {F : Nat} (fs : List PutField) {i : Instr} (hfit : PutField.fit F fs = true)
    (h : ∀ w, (∀ lo n, PutField.apart lo n fs = true → fieldNat w lo n = fieldNat F lo n) → PutField.Read w fs →
      decodeWord w = .ok i) : decodeWord (PutField.word F fs) = .ok i :=
  have ⟨hfixed, hread⟩ := PutField.read_word hfit
  h _ hfixed hread

theorem encode_lt {i : Instr} {x : Nat} (h : encode i = some x) : x < 2 ^ 32 := by
  cases i <;> cases h <;> (simp only [wordOf, put]; omega)

theorem toNat_field (w lo n : Nat) : (field w lo n).toNat = fieldNat w lo n := by
  rw [field, BitVec.toNat_ofNat, fieldNat]

/-- Each word by the decoder of its major. -/
theorem decodeWord_of_encode {i : Instr} {x : Nat} (hwf : i.wf = true) (h : encode i = some x) : decodeWord x = .ok i := by
  cases i <;> cases h
  case nop => rfl
  case uadd | usub | umul | umulh | umulhu | uand | uor | uxor | ushl | ushr | usar | umin | umax | uminu | umaxu =>
    exact decodeWord_word [⟨_, _, _⟩, ⟨_, _, _⟩, ⟨_, _, _⟩, ⟨_, _, _⟩] rfl fun w hF ⟨h1, h2, h3, h4, _⟩ => by
      rw [decodeWord, majorOf, hF 25 6 rfl]; change decodeUalu w = _; rw [decodeUalu, hF 21 4 rfl, h1, h2, h3, h4]; rfl
  case umov =>
    exact decodeWord_word [⟨_, _, _⟩, ⟨_, _, _⟩, ⟨_, _, _⟩] rfl fun w hF ⟨h1, h2, h3, _⟩ => by
      rw [decodeWord, majorOf, hF 25 6 rfl]; change decodeUalu w = _; rw [decodeUalu, hF 21 4 rfl, h1, h2, h3]; rfl
  case uaddi | umuli | uandi | uori | uxori | ushli | ushri | usari =>
    exact decodeWord_word [⟨_, _, _⟩, ⟨_, _, _⟩, ⟨_, _, _⟩] rfl fun w hF ⟨h1, h2, h3, _⟩ => by
      rw [decodeWord, majorOf, hF 25 6 rfl]; change decodeUalui w = _; rw [decodeUalui, hF 22 3 rfl, h1, h2, h3]; rfl
  case ucmp =>
    exact decodeWord_word [⟨_, _, _⟩, ⟨_, _, _⟩, ⟨_, _, _⟩, ⟨_, _, _⟩, ⟨_, _, _⟩] rfl
      fun w hF ⟨rfl, rfl, rfl, rfl, rfl, _⟩ => by
      rw [decodeWord, majorOf, hF 25 6 rfl]; exact if_pos (of_decide_eq_true (toNat_field w _ _ ▸ hwf))
  case ucmpi =>
    exact decodeWord_word [⟨_, _, _⟩, ⟨_, _, _⟩, ⟨_, _, _⟩, ⟨_, _, _⟩] rfl fun w hF ⟨rfl, rfl, rfl, rfl, _⟩ => by
      rw [decodeWord, majorOf, hF 25 6 rfl]; exact if_pos (of_decide_eq_true (toNat_field w _ _ ▸ hwf))
  case uclz | upopc | ubrev =>
    exact decodeWord_word [⟨_, _, _⟩, ⟨_, _, _⟩, ⟨_, _, _⟩] rfl fun w hF ⟨h1, h2, h3, _⟩ => by
      rw [decodeWord, majorOf, hF 25 6 rfl]; change decodeUbit w = _; rw [decodeUbit, hF 21 4 rfl, h1, h2, h3]; rfl
  case ubfx | ubfi | usel | uqop =>
    exact decodeWord_word [⟨_, _, _⟩, ⟨_, _, _⟩, ⟨_, _, _⟩, ⟨_, _, _⟩] rfl fun w hF ⟨h1, h2, h3, h4, _⟩ => by
      rw [decodeWord, majorOf, hF 25 6 rfl]; change decodeUbit w = _; rw [decodeUbit, hF 21 4 rfl, h1, h2, h3, h4]; rfl
  case uqmovTos | uqmovFroms =>
    exact decodeWord_word [⟨_, _, _⟩] rfl fun w hF ⟨h1, _⟩ => by
      rw [decodeWord, majorOf, hF 25 6 rfl]; change decodeUbit w = _; rw [decodeUbit, hF 21 4 rfl, hF 0 3 rfl, h1]; rfl
  case uld32 | uld64 | ust32 | ust64 =>
    exact decodeWord_word [⟨_, _, _⟩, ⟨_, _, _⟩, ⟨_, _, _⟩] rfl fun w hF ⟨h1, h2, h3, _⟩ => by
      rw [decodeWord, majorOf, hF 25 6 rfl]; change decodeUldst w = _; rw [decodeUldst, hF 22 3 rfl, h1, h2, h3]; rfl
  case urds | uwrs | setfmt =>
    exact decodeWord_word [⟨_, _, _⟩, ⟨_, _, _⟩] rfl fun w hF ⟨h1, h2, _⟩ => by
      rw [decodeWord, majorOf, hF 25 6 rfl]; change decodeSreg w = _; rw [decodeSreg, hF 22 3 rfl, h1, h2]; rfl
  case bra | bran | call | jmpi | calli =>
    exact decodeWord_word [⟨_, _, _⟩, ⟨_, _, _⟩] rfl fun w hF ⟨h1, h2, _⟩ => by
      rw [decodeWord, majorOf, hF 25 6 rfl]; change decodeBranch w = _; rw [decodeBranch, hF 22 3 rfl, h1, h2]; rfl
  case ret =>
    exact decodeWord_word [⟨_, _, _⟩] rfl fun w hF ⟨h1, _⟩ => by
      rw [decodeWord, majorOf, hF 25 6 rfl]; change decodeBranch w = _; rw [decodeBranch, hF 22 3 rfl, h1]; rfl
  case split | anyp | allp =>
    exact decodeWord_word [⟨_, _, _⟩, ⟨_, _, _⟩] rfl fun w hF ⟨h1, h2, _⟩ => by
      rw [decodeWord, majorOf, hF 25 6 rfl]; change decodeDiverge w = _; rw [decodeDiverge, hF 22 3 rfl, h1, h2]; rfl
  case join =>
    exact decodeWord_word [] rfl fun w hF _ => by
      rw [decodeWord, majorOf, hF 25 6 rfl]; change decodeDiverge w = _; rw [decodeDiverge, hF 22 3 rfl]; rfl
  case brkp | pmask =>
    exact decodeWord_word [⟨_, _, _⟩] rfl fun w hF ⟨h1, _⟩ => by
      rw [decodeWord, majorOf, hF 25 6 rfl]; change decodeDiverge w = _; rw [decodeDiverge, hF 22 3 rfl, h1]; rfl
  case halt | yield | rte =>
    exact decodeWord_word [] rfl fun w hF _ => by
      rw [decodeWord, majorOf, hF 25 6 rfl]; change decodeWavectl w = _; rw [decodeWavectl, hF 22 3 rfl]; rfl
  case sleepuntil | trap | bkpt =>
    exact decodeWord_word [⟨_, _, _⟩] rfl fun w hF ⟨h1, _⟩ => by
      rw [decodeWord, majorOf, hF 25 6 rfl]; change decodeWavectl w = _; rw [decodeWavectl, hF 22 3 rfl, h1]; rfl
  case waitline =>
    exact decodeWord_word [⟨_, _, _⟩, ⟨_, _, _⟩, ⟨_, _, _⟩] rfl fun w hF ⟨h1, h2, h3, _⟩ => by
      rw [decodeWord, majorOf, hF 25 6 rfl]; change decodeWavectl w = _; rw [decodeWavectl, hF 22 3 rfl, h1, h2, h3]; rfl
  case dispatch | phaseend =>
    exact decodeWord_word [⟨_, _, _⟩] rfl fun w hF ⟨h1, _⟩ => by
      rw [decodeWord, majorOf, hF 25 6 rfl]; change decodeLaunchctl w = _; rw [decodeLaunchctl, hF 22 3 rfl, h1]; rfl
  case phasesel =>
    exact decodeWord_word [] rfl fun w hF _ => by
      rw [decodeWord, majorOf, hF 25 6 rfl]; change decodeLaunchctl w = _; rw [decodeLaunchctl, hF 22 3 rfl]; rfl
  case vadd | vsub | vmul | vmulh | vmulhu | vmin | vmax | vminu =>
    exact decodeWord_word [⟨_, _, _⟩, ⟨_, _, _⟩, ⟨_, _, _⟩, ⟨_, _, _⟩, ⟨_, _, _⟩] rfl
      fun w hF ⟨h1, h2, h3, h4, h5, _⟩ => by
      rw [decodeWord, majorOf, hF 25 6 rfl]; change decodeViadd w = _; rw [decodeViadd, hF 21 3 rfl, h1, h2, h3, h4, h5]; rfl
  case vand | vor | vxor | vshl | vshr | vsar | vmaxu | vabsd =>
    exact decodeWord_word [⟨_, _, _⟩, ⟨_, _, _⟩, ⟨_, _, _⟩, ⟨_, _, _⟩, ⟨_, _, _⟩] rfl
      fun w hF ⟨h1, h2, h3, h4, h5, _⟩ => by
      rw [decodeWord, majorOf, hF 25 6 rfl]; change decodeVilog w = _; rw [decodeVilog, hF 21 3 rfl, h1, h2, h3, h4, h5]; rfl
  case vaddi | vmuli | vandi | vori | vxori | vshli | vshri | vsari =>
    exact decodeWord_word [⟨_, _, _⟩, ⟨_, _, _⟩, ⟨_, _, _⟩] rfl fun w hF ⟨h1, h2, h3, _⟩ => by
      rw [decodeWord, majorOf, hF 25 6 rfl]; change decodeVialui w = _; rw [decodeVialui, hF 22 3 rfl, h1, h2, h3]; rfl
  case vicmp =>
    exact decodeWord_word [⟨_, _, _⟩, ⟨_, _, _⟩, ⟨_, _, _⟩, ⟨_, _, _⟩, ⟨_, _, _⟩, ⟨_, _, _⟩] rfl
      fun w hF ⟨rfl, rfl, rfl, rfl, rfl, rfl, _⟩ => by
      rw [decodeWord, majorOf, hF 25 6 rfl]; exact if_pos (of_decide_eq_true (toNat_field w _ _ ▸ hwf))
  case vicmpi =>
    exact decodeWord_word [⟨_, _, _⟩, ⟨_, _, _⟩, ⟨_, _, _⟩, ⟨_, _, _⟩] rfl fun w hF ⟨rfl, rfl, rfl, rfl, _⟩ => by
      rw [decodeWord, majorOf, hF 25 6 rfl]; exact if_pos (of_decide_eq_true (toNat_field w _ _ ▸ hwf))
  case vclz | vpopc | vbrev =>
    exact decodeWord_word [⟨_, _, _⟩, ⟨_, _, _⟩, ⟨_, _, _⟩, ⟨_, _, _⟩] rfl fun w hF ⟨h1, h2, h3, h4, _⟩ => by
      rw [decodeWord, majorOf, hF 25 6 rfl]; change decodeVimisc w = _; rw [decodeVimisc, hF 21 3 rfl, h1, h2, h3, h4]; rfl
  case vbfx | vbfi | vsel | vmad =>
    exact decodeWord_word [⟨_, _, _⟩, ⟨_, _, _⟩, ⟨_, _, _⟩, ⟨_, _, _⟩, ⟨_, _, _⟩] rfl
      fun w hF ⟨h1, h2, h3, h4, h5, _⟩ => by
      rw [decodeWord, majorOf, hF 25 6 rfl]; change decodeVimisc w = _; rw [decodeVimisc, hF 21 3 rfl, h1, h2, h3, h4, h5]; rfl
  case vlane =>
    exact decodeWord_word [⟨_, _, _⟩, ⟨_, _, _⟩, ⟨_, _, _⟩] rfl fun w hF ⟨h1, h2, h3, _⟩ => by
      rw [decodeWord, majorOf, hF 25 6 rfl]; change decodeVimisc w = _; rw [decodeVimisc, hF 21 3 rfl, h1, h2, h3]; rfl
  case vmov | vmovs =>
    exact decodeWord_word [⟨_, _, _⟩, ⟨_, _, _⟩, ⟨_, _, _⟩] rfl fun w hF ⟨h1, h2, h3, _⟩ => by
      rw [decodeWord, majorOf, hF 25 6 rfl]; change decodeVmov w = _; rw [decodeVmov, hF 21 4 rfl, h1, h2, h3]; rfl
  case vtos | vfroms =>
    exact decodeWord_word [⟨_, _, _⟩, ⟨_, _, _⟩, ⟨_, _, _⟩, ⟨_, _, _⟩] rfl fun w hF ⟨h1, h2, h3, h4, _⟩ => by
      rw [decodeWord, majorOf, hF 25 6 rfl]; change decodeVmov w = _; rw [decodeVmov, hF 21 4 rfl, h1, h2, h3, h4]; rfl
  case fadd | fsub | fmul | ffma | ffnma | fmin | fmax =>
    exact decodeWord_word [⟨_, _, _⟩, ⟨_, _, _⟩, ⟨_, _, _⟩, ⟨_, _, _⟩, ⟨_, _, _⟩] rfl
      fun w hF ⟨h1, h2, h3, h4, h5, _⟩ => by
      rw [decodeWord, majorOf, hF 25 6 rfl]; change decodeVfarith w = _; rw [decodeVfarith, hF 21 3 rfl, h1, h2, h3, h4, h5]; rfl
  case fabs =>
    exact decodeWord_word [⟨_, _, _⟩, ⟨_, _, _⟩, ⟨_, _, _⟩, ⟨_, _, _⟩] rfl fun w hF ⟨h1, h2, h3, h4, _⟩ => by
      rw [decodeWord, majorOf, hF 25 6 rfl]; change decodeVfarith w = _; rw [decodeVfarith, hF 21 3 rfl, h1, h2, h3, h4]; rfl
  case vfcmp =>
    exact decodeWord_word [⟨_, _, _⟩, ⟨_, _, _⟩, ⟨_, _, _⟩, ⟨_, _, _⟩, ⟨_, _, _⟩, ⟨_, _, _⟩] rfl
      fun w hF ⟨h1, h2, h3, h4, h5, h6, _⟩ => by
      rw [decodeWord, majorOf, hF 25 6 rfl, ← h1, ← h2, ← h3, ← h4, ← h5, ← h6]; rfl
  case frcp | frsq | fsqrt | fex2 | flg2 | frint | fclass =>
    exact decodeWord_word [⟨_, _, _⟩, ⟨_, _, _⟩, ⟨_, _, _⟩, ⟨_, _, _⟩] rfl fun w hF ⟨h1, h2, h3, h4, _⟩ => by
      rw [decodeWord, majorOf, hF 25 6 rfl]; change decodeVfspec w = _; rw [decodeVfspec, hF 21 3 rfl, h1, h2, h3, h4]; rfl
  case fdiv =>
    exact decodeWord_word [⟨_, _, _⟩, ⟨_, _, _⟩, ⟨_, _, _⟩, ⟨_, _, _⟩, ⟨_, _, _⟩] rfl
      fun w hF ⟨h1, h2, h3, h4, h5, _⟩ => by
      rw [decodeWord, majorOf, hF 25 6 rfl]; change decodeVfspec w = _; rw [decodeVfspec, hF 21 3 rfl, h1, h2, h3, h4, h5]; rfl
  case b2add | b2sub | b2mul | b2fma | b2max | b2min =>
    exact decodeWord_word [⟨_, _, _⟩, ⟨_, _, _⟩, ⟨_, _, _⟩, ⟨_, _, _⟩, ⟨_, _, _⟩] rfl
      fun w hF ⟨h1, h2, h3, h4, h5, _⟩ => by
      rw [decodeWord, majorOf, hF 25 6 rfl]; change decodeVbpack w = _; rw [decodeVbpack, hF 21 3 rfl, h1, h2, h3, h4, h5]; rfl
  case fcvt | icvt =>
    exact decodeWord_word [⟨_, _, _⟩, ⟨_, _, _⟩, ⟨_, _, _⟩, ⟨_, _, _⟩, ⟨_, _, _⟩] rfl
      fun w hF ⟨h1, h2, h3, h4, h5, _⟩ => by
      rw [decodeWord, majorOf, hF 25 6 rfl]; change decodeVcvt w = _; rw [decodeVcvt, hF 21 4 rfl, h1, h2, h3, h4, h5]; rfl
  case qpk | qunpk =>
    exact decodeWord_word [⟨_, _, _⟩, ⟨_, _, _⟩, ⟨_, _, _⟩, ⟨_, _, _⟩] rfl fun w hF ⟨h1, h2, h3, h4, _⟩ => by
      rw [decodeWord, majorOf, hF 25 6 rfl]; change decodeVcvt w = _; rw [decodeVcvt, hF 21 4 rfl, h1, h2, h3, h4]; rfl
  case shfl | shflx | shflup | shfldn | lanebc | vredf | vredi | vscanf =>
    exact decodeWord_word [⟨_, _, _⟩, ⟨_, _, _⟩, ⟨_, _, _⟩, ⟨_, _, _⟩] rfl fun w hF ⟨h1, h2, h3, h4, _⟩ => by
      rw [decodeWord, majorOf, hF 25 6 rfl]; change decodeVxlane w = _; rw [decodeVxlane, hF 21 4 rfl, h1, h2, h3, h4]; rfl
  case vldx | vstx =>
    exact decodeWord_word [⟨_, _, _⟩, ⟨_, _, _⟩, ⟨_, _, _⟩] rfl fun w hF ⟨h1, h2, h3, _⟩ => by
      rw [decodeWord, majorOf, hF 25 6 rfl]; change decodeVix w = _; rw [decodeVix, hF 22 3 rfl, h1, h2, h3]; rfl
  case pand | por | pxor | pandn =>
    exact decodeWord_word [⟨_, _, _⟩, ⟨_, _, _⟩, ⟨_, _, _⟩, ⟨_, _, _⟩] rfl fun w hF ⟨h1, h2, h3, h4, _⟩ => by
      rw [decodeWord, majorOf, hF 25 6 rfl]; change decodePredop w = _; rw [decodePredop, hF 21 4 rfl, h1, h2, h3, h4]; rfl
  case pnot | pmov | pset | vballot | vmcnt =>
    exact decodeWord_word [⟨_, _, _⟩, ⟨_, _, _⟩, ⟨_, _, _⟩] rfl fun w hF ⟨h1, h2, h3, _⟩ => by
      rw [decodeWord, majorOf, hF 25 6 rfl]; change decodePredop w = _; rw [decodePredop, hF 21 4 rfl, h1, h2, h3]; rfl
  case ldg | stg | ldq | stq | gather | scatter | atomg | atomq =>
    exact decodeWord_word [⟨_, _, _⟩, ⟨_, _, _⟩, ⟨_, _, _⟩, ⟨_, _, _⟩, ⟨_, _, _⟩, ⟨_, _, _⟩, ⟨_, _, _⟩] rfl
      fun w hF ⟨h1, h2, h3, h4, h5, h6, h7, _⟩ => by
      rw [decodeWord, majorOf, hF 25 6 rfl, ← h1, ← h2, ← h3, ← h4, ← h5, ← h6, ← h7]; rfl
  case fence | fenceacq | fencerel | fenceeng =>
    exact decodeWord_word [⟨_, _, _⟩] rfl fun w hF ⟨h1, _⟩ => by
      rw [decodeWord, majorOf, hF 25 6 rfl]; change decodeFence w = _; rw [decodeFence, hF 22 3 rfl, h1]; rfl
  case pref | wbl | invl | flushl =>
    exact decodeWord_word [⟨_, _, _⟩, ⟨_, _, _⟩, ⟨_, _, _⟩] rfl fun w hF ⟨h1, h2, h3, _⟩ => by
      rw [decodeWord, majorOf, hF 25 6 rfl]; change decodeCacheop w = _; rw [decodeCacheop, hF 23 2 rfl, h1, h2, h3]; rfl
  case rowpin | rowunpin | rowqry =>
    exact decodeWord_word [⟨_, _, _⟩, ⟨_, _, _⟩] rfl fun w hF ⟨h1, h2, _⟩ => by
      rw [decodeWord, majorOf, hF 25 6 rfl]; change decodeRowop w = _; rw [decodeRowop, hF 22 3 rfl, h1, h2]; rfl
  case mqput | mqget | mred | mredrd =>
    exact decodeWord_word [⟨_, _, _⟩, ⟨_, _, _⟩, ⟨_, _, _⟩] rfl fun w hF ⟨h1, h2, h3, _⟩ => by
      rw [decodeWord, majorOf, hF 25 6 rfl]; change decodeModsvc w = _; rw [decodeModsvc, hF 22 3 rfl, h1, h2, h3]; rfl
  case matom =>
    exact decodeWord_word [⟨_, _, _⟩, ⟨_, _, _⟩, ⟨_, _, _⟩, ⟨_, _, _⟩, ⟨_, _, _⟩] rfl
      fun w hF ⟨h1, h2, h3, h4, h5, _⟩ => by
      rw [decodeWord, majorOf, hF 25 6 rfl]; change decodeModsvc w = _; rw [decodeModsvc, hF 22 3 rfl, h1, h2, h3, h4, h5]; rfl
  case rwri | rrd | ratom =>
    exact decodeWord_word [⟨_, _, _⟩, ⟨_, _, _⟩, ⟨_, _, _⟩] rfl fun w hF ⟨h1, h2, h3, _⟩ => by
      rw [decodeWord, majorOf, hF 25 6 rfl]; change decodeRelay w = _; rw [decodeRelay, hF 22 3 rfl, h1, h2, h3]; rfl
  case nqwait =>
    exact decodeWord_word [⟨_, _, _⟩, ⟨_, _, _⟩] rfl fun w hF ⟨h1, h2, _⟩ => by
      rw [decodeWord, majorOf, hF 25 6 rfl]; change decodeRelay w = _; rw [decodeRelay, hF 22 3 rfl, h1, h2]; rfl
  case tbinit | tbarrive | tbexpect | tbwait | tbquery =>
    exact decodeWord_word [⟨_, _, _⟩, ⟨_, _, _⟩, ⟨_, _, _⟩, ⟨_, _, _⟩] rfl fun w hF ⟨h1, h2, h3, h4, _⟩ => by
      rw [decodeWord, majorOf, hF 25 6 rfl]; change decodeTbar w = _; rw [decodeTbar, hF 22 3 rfl, h1, h2, h3, h4]; rfl
  case barsync | barwait =>
    exact decodeWord_word [⟨_, _, _⟩, ⟨_, _, _⟩, ⟨_, _, _⟩] rfl fun w hF ⟨h1, h2, h3, _⟩ => by
      rw [decodeWord, majorOf, hF 25 6 rfl]; change decodeBar w = _; rw [decodeBar, hF 22 3 rfl, h1, h2, h3]; rfl
  case bararrive =>
    exact decodeWord_word [⟨_, _, _⟩, ⟨_, _, _⟩, ⟨_, _, _⟩, ⟨_, _, _⟩] rfl fun w hF ⟨h1, h2, h3, h4, _⟩ => by
      rw [decodeWord, majorOf, hF 25 6 rfl]; change decodeBar w = _; rw [decodeBar, hF 22 3 rfl, h1, h2, h3, h4]; rfl
  case gatepost | gatepoll =>
    exact decodeWord_word [⟨_, _, _⟩, ⟨_, _, _⟩] rfl fun w hF ⟨h1, h2, _⟩ => by
      rw [decodeWord, majorOf, hF 25 6 rfl]; change decodeGate w = _; rw [decodeGate, hF 22 3 rfl, h1, h2]; rfl
  case gatetake =>
    exact decodeWord_word [⟨_, _, _⟩, ⟨_, _, _⟩, ⟨_, _, _⟩] rfl fun w hF ⟨h1, h2, h3, _⟩ => by
      rw [decodeWord, majorOf, hF 25 6 rfl]; change decodeGate w = _; rw [decodeGate, hF 22 3 rfl, h1, h2, h3]; rfl
  case mloop =>
    exact decodeWord_word [⟨_, _, _⟩, ⟨_, _, _⟩, ⟨_, _, _⟩, ⟨_, _, _⟩, ⟨_, _, _⟩, ⟨_, _, _⟩, ⟨_, _, _⟩] rfl
      fun w hF ⟨h1, h2, h3, h4, h5, h6, h7, _⟩ => by
      rw [decodeWord, majorOf, hF 25 6 rfl, ← h1, ← h2, ← h3, ← h4, ← h5, ← h6, ← h7]; rfl
  case mstep =>
    exact decodeWord_word [⟨_, _, _⟩, ⟨_, _, _⟩, ⟨_, _, _⟩, ⟨_, _, _⟩, ⟨_, _, _⟩, ⟨_, _, _⟩, ⟨_, _, _⟩] rfl
      fun w hF ⟨h1, h2, h3, h4, h5, h6, h7, _⟩ => by
      rw [decodeWord, majorOf, hF 25 6 rfl, ← h1, ← h2, ← h3, ← h4, ← h5, ← h6, ← h7]; rfl
  case mdrain =>
    exact decodeWord_word [⟨_, _, _⟩, ⟨_, _, _⟩, ⟨_, _, _⟩, ⟨_, _, _⟩, ⟨_, _, _⟩] rfl
      fun w hF ⟨h1, h2, h3, h4, h5, _⟩ => by
      rw [decodeWord, majorOf, hF 25 6 rfl, ← h1, ← h2, ← h3, ← h4, ← h5]; rfl
  case mzero | mwait =>
    exact decodeWord_word [⟨_, _, _⟩] rfl fun w hF ⟨h1, _⟩ => by
      rw [decodeWord, majorOf, hF 25 6 rfl]; change decodeMacc w = _; rw [decodeMacc, hF 22 3 rfl, h1]; rfl
  case mload | mqry =>
    exact decodeWord_word [⟨_, _, _⟩, ⟨_, _, _⟩] rfl fun w hF ⟨h1, h2, _⟩ => by
      rw [decodeWord, majorOf, hF 25 6 rfl]; change decodeMacc w = _; rw [decodeMacc, hF 22 3 rfl, h1, h2]; rfl
  case tset | tget =>
    exact decodeWord_word [⟨_, _, _⟩, ⟨_, _, _⟩] rfl fun w hF ⟨h1, h2, _⟩ => by
      rw [decodeWord, majorOf, hF 25 6 rfl]; change decodeTdesc w = _; rw [decodeTdesc, hF 22 3 rfl, h1, h2]; rfl
  case tplset =>
    exact decodeWord_word [⟨_, _, _⟩, ⟨_, _, _⟩, ⟨_, _, _⟩] rfl fun w hF ⟨h1, h2, h3, _⟩ => by
      rw [decodeWord, majorOf, hF 25 6 rfl]; change decodeTdesc w = _; rw [decodeTdesc, hF 22 3 rfl, h1, h2, h3]; rfl
  case ctrsel | ctrrd | ctrctl =>
    exact decodeWord_word [⟨_, _, _⟩, ⟨_, _, _⟩] rfl fun w hF ⟨h1, h2, _⟩ => by
      rw [decodeWord, majorOf, hF 25 6 rfl]; change decodePerfctr w = _; rw [decodePerfctr, hF 22 3 rfl, h1, h2]; rfl

/-! ### What decodes is well formed (09 R205 to R216) -/

/-- A condition code that `ifAssigned` lets through is assigned. -/
theorem ifAssigned_ok {cc : Nat} {i j : Instr} (h : ifAssigned cc i = .ok j) : cc < 6 ∧ i = j := by
  rw [ifAssigned] at h
  split at h
  case isTrue hcc => exact ⟨hcc, Except.ok.inj h⟩
  case isFalse => cases h

/-- Every word by its major, and then by its function. -/
theorem wf_of_decodeWord {w : Nat} {i : Instr} (h : decodeWord w = .ok i) : i.wf = true ∧ (encode i).isSome = true := by
  rw [decodeWord] at h
  split at h
  case h_1 | h_2 | h_22 | h_29 | h_30 | h_31 | h_32 | h_33 | h_34 | h_35 | h_36 | h_45 | h_46 | h_47 =>
    cases h
    exact ⟨rfl, rfl⟩
  case h_5 | h_6 | h_17 | h_18 =>
    obtain ⟨hcc, rfl⟩ := ifAssigned_ok h
    exact ⟨decide_eq_true (toNat_field w _ _ ▸ hcc), rfl⟩
  case h_3 => rw [decodeUalu] at h; split at h <;> cases h <;> exact ⟨rfl, rfl⟩
  case h_4 => rw [decodeUalui] at h; split at h <;> cases h <;> exact ⟨rfl, rfl⟩
  case h_7 =>
    rw [decodeUbit] at h
    split at h
    case h_8 => split at h <;> cases h <;> exact ⟨rfl, rfl⟩
    all_goals cases h <;> exact ⟨rfl, rfl⟩
  case h_8 => rw [decodeUldst] at h; split at h <;> cases h <;> exact ⟨rfl, rfl⟩
  case h_9 => rw [decodeSreg] at h; split at h <;> cases h <;> exact ⟨rfl, rfl⟩
  case h_10 => rw [decodeBranch] at h; split at h <;> cases h <;> exact ⟨rfl, rfl⟩
  case h_11 => rw [decodeDiverge] at h; split at h <;> cases h <;> exact ⟨rfl, rfl⟩
  case h_12 => rw [decodeWavectl] at h; split at h <;> cases h <;> exact ⟨rfl, rfl⟩
  case h_13 => rw [decodeLaunchctl] at h; split at h <;> cases h <;> exact ⟨rfl, rfl⟩
  case h_14 => rw [decodeViadd] at h; split at h <;> cases h <;> exact ⟨rfl, rfl⟩
  case h_15 => rw [decodeVilog] at h; split at h <;> cases h <;> exact ⟨rfl, rfl⟩
  case h_16 => rw [decodeVialui] at h; split at h <;> cases h <;> exact ⟨rfl, rfl⟩
  case h_19 => rw [decodeVimisc] at h; split at h <;> cases h <;> exact ⟨rfl, rfl⟩
  case h_20 => rw [decodeVmov] at h; split at h <;> cases h <;> exact ⟨rfl, rfl⟩
  case h_21 => rw [decodeVfarith] at h; split at h <;> cases h <;> exact ⟨rfl, rfl⟩
  case h_23 => rw [decodeVfspec] at h; split at h <;> cases h <;> exact ⟨rfl, rfl⟩
  case h_24 => rw [decodeVbpack] at h; split at h <;> cases h <;> exact ⟨rfl, rfl⟩
  case h_25 => rw [decodeVcvt] at h; split at h <;> cases h <;> exact ⟨rfl, rfl⟩
  case h_26 => rw [decodeVxlane] at h; split at h <;> cases h <;> exact ⟨rfl, rfl⟩
  case h_27 => rw [decodeVix] at h; split at h <;> cases h <;> exact ⟨rfl, rfl⟩
  case h_28 => rw [decodePredop] at h; split at h <;> cases h <;> exact ⟨rfl, rfl⟩
  case h_37 => rw [decodeFence] at h; split at h <;> cases h <;> exact ⟨rfl, rfl⟩
  case h_38 => rw [decodeCacheop] at h; split at h <;> cases h <;> exact ⟨rfl, rfl⟩
  case h_39 => rw [decodeRowop] at h; split at h <;> cases h <;> exact ⟨rfl, rfl⟩
  case h_40 => rw [decodeModsvc] at h; split at h <;> cases h <;> exact ⟨rfl, rfl⟩
  case h_41 => rw [decodeRelay] at h; split at h <;> cases h <;> exact ⟨rfl, rfl⟩
  case h_42 => rw [decodeTbar] at h; split at h <;> cases h <;> exact ⟨rfl, rfl⟩
  case h_43 => rw [decodeBar] at h; split at h <;> cases h <;> exact ⟨rfl, rfl⟩
  case h_44 => rw [decodeGate] at h; split at h <;> cases h <;> exact ⟨rfl, rfl⟩
  case h_48 => rw [decodeMacc] at h; split at h <;> cases h <;> exact ⟨rfl, rfl⟩
  case h_49 => rw [decodeTdesc] at h; split at h <;> cases h <;> exact ⟨rfl, rfl⟩
  case h_50 => rw [decodePerfctr] at h; split at h <;> cases h <;> exact ⟨rfl, rfl⟩
  case h_51 => cases h

/-- Settles O3: the encoding of each word as its fields, and the decoder of each major. -/
theorem decodeAndEncodeAgree : Obligations.DecodeAndEncodeAgree :=
  ⟨fun _ _ hwf h => ⟨encode_lt h, decodeWord_of_encode hwf h⟩, fun _ _ _ h => wf_of_decodeWord h⟩

end Sys2Proof
end

section
/-! PROOFS. O2 and O5: the spec's example words decode as they should, and the pipe class of every major (09 R209, R212). -/

namespace Sys2Proof

/-- Settles O2, by decoding each word. -/
theorem exampleWordsDecode : Obligations.ExampleWordsDecode := by
  refine ⟨?_, ?_, ?_, ?_, ?_, ?_, ?_, ?_, ?_, ?_⟩ <;> rfl

end Sys2Proof
end

section
/-! PROOFS. O5: the pipe class of every major (09 R209). -/

namespace Sys2Proof.Machine

/-- Settles O5, major by major. -/
theorem pipeClasses : Obligations.PipeClasses := by
  refine ⟨fun m hle => ?hint, fun m hge hle => ?uniform, fun m hge hle => ?control, fun m h => ?vector, fun m h => ?memory,
    fun m hge hle => ?engine⟩
  case hint | uniform | control | engine => interval_cases m <;> rfl
  case vector => obtain ⟨hge, hle⟩ | ⟨hge, hle⟩ | ⟨hge, hle⟩ := h <;> interval_cases m <;> rfl
  case memory =>
    obtain rfl | ⟨hge, hle⟩ := h
    · rfl
    · interval_cases m <;> rfl

end Sys2Proof.Machine
end

section
/-! PROOFS. O8 and O13: an instruction of a latched wave, and an event in every state, answers a next state; an illegal word takes
Illegal Instruction (09 R217; 14 R331). Every word but the hint performs under `whenLegal`, which is both obligations' one reason. -/

namespace Sys2Proof.Machine

/-! ### What answers a next state -/

/-- The word or event answers a next state. -/
def Answers (r : Out) : Prop := ∃ t, r = .next t

@[simp] theorem answers_next (s : State) : Answers (.next s) := ⟨s, rfl⟩

@[simp] theorem answers_finish (s : State) (w : Wave) (i : Issue) : Answers (finish s w i) := answers_next _

theorem answers_ite {c : Prop} [Decidable c] {a b : Out} (ha : Answers a) (hb : Answers b) : Answers (if c then a else b) := by
  split
  · exact ha
  · exact hb

@[simp] theorem answers_stallWord (s : State) : Answers (stallWord s) := answers_next _

@[simp] theorem answers_takeTrap (s : State) (w : Wave) (i : Issue) (cause sub addr : Nat) :
    Answers (takeTrap s w i cause sub addr) :=
  answers_next _

@[simp] theorem answers_poisonTrap (s : State) (w : Wave) (i : Issue) : Answers (poisonTrap s w i) := answers_takeTrap _ _ _ _ _ _

@[simp] theorem answers_issueAccess (s : State) (w : Wave) (i : Issue) (x : Access) (sc : Scope) (ps : List OpPart) (lowest : Nat) :
    Answers (issueAccess s w i x sc ps lowest) := by
  grind [issueAccess, answers_next, answers_stallWord, answers_finish]

@[simp] theorem answers_memAccess (s : State) (w : Wave) (i : Issue) (x : Access) : Answers (memAccess s w i x) := by
  grind [memAccess, answers_next, answers_stallWord, answers_finish, answers_poisonTrap, answers_takeTrap, answers_issueAccess]

@[simp] theorem answers_branchTo (s : State) (w : Wave) (i : Issue) (pc : Nat) : Answers (branchTo s w i pc) := by
  grind [branchTo, answers_next, answers_takeTrap]

@[simp] theorem answers_spillTrap (s : State) (w : Wave) (i : Issue) (f : SpillFail) (write : Bool) :
    Answers (spillTrap s w i f write) := by
  grind [spillTrap, answers_next, answers_stallWord, answers_takeTrap]

@[simp] theorem answers_takeCall (s : State) (w : Wave) (i : Issue) (u : UnitSt) (step target : Nat) :
    Answers (takeCall s w i u step target) := by
  grind [takeCall, answers_next, answers_stallWord, answers_takeTrap, answers_spillTrap, answers_branchTo]

@[simp] theorem answers_takeRet (s : State) (w : Wave) (i : Issue) : Answers (takeRet s w i) := by
  grind [takeRet, answers_next, answers_stallWord, answers_takeTrap, answers_spillTrap, answers_branchTo]

@[simp] theorem answers_arriveAtJoin (s : State) (w : Wave) (i : Issue) : Answers (arriveAtJoin s w i) := by
  grind [arriveAtJoin, answers_next, answers_stallWord, answers_takeTrap, answers_spillTrap, answers_branchTo, answers_finish]

@[simp] theorem answers_sleepWith (s : State) (w : Wave) (i : Issue) (x : Wait) : Answers (sleepWith s w i x) := by
  grind [sleepWith, answers_next]

@[simp] theorem answers_qspAccess (s : State) (w : Wave) (i : Issue) (x : Access) (col : Bool) :
    Answers (qspAccess s w i x col) := by
  grind [qspAccess, answers_next, answers_stallWord, answers_finish, answers_poisonTrap, answers_takeTrap, answers_issueAccess]

@[simp] theorem answers_fenceDone (g : Got) (w : Wave) (i : Issue) (sc : Scope) (acquire : Bool) :
    Answers (fenceDone g w i sc acquire) := by
  grind [fenceDone, answers_next, answers_stallWord, answers_finish]

@[simp] theorem answers_rowWord (s : State) (w : Wave) (i : Issue) (d : BitVec 6) (wide : Bool) (val : Nat) :
    Answers (rowWord s w i d wide val) := by
  grind [rowWord, answers_finish]

@[simp] theorem answers_relayAsk (s : State) (w : Wave) (i : Issue) (u : UnitSt) (va key n : Nat) :
    Answers (relayAsk s w i u va key n) := by
  grind [relayAsk, answers_next, answers_stallWord]

/-- A read that gives no data answers a next state instead. -/
def DataAnswers : DataGot → Prop
  | .ok _ _ _ _ _ => True
  | .out o => Answers o

@[simp] theorem dataAnswers_ok (s : State) (v : Nat) (bad : Option Nat) (k : Nat) (e : TlbEntry) : DataAnswers (.ok s v bad k e) :=
  trivial

@[simp] theorem dataAnswers_out {o : Out} : DataAnswers (.out o) ↔ Answers o := Iff.rfl

theorem dataAnswers_ite {c : Prop} [Decidable c] {a b : DataGot} (ha : DataAnswers a) (hb : DataAnswers b) :
    DataAnswers (if c then a else b) := by
  split
  · exact ha
  · exact hb

theorem State.dataAnswers_readData (s : State) (w : Wave) (i : Issue) (u : UnitSt) (va n : Nat) (lookups : Bool) :
    DataAnswers (s.readData w i u va n lookups) := by
  have hstall (t : State) : DataAnswers (.out (stallWord t)) := answers_stallWord t
  unfold State.readData
  split
  · exact answers_next _
  · exact answers_next _
  · refine dataAnswers_ite (hstall s) ?_
    split
    · trivial
    · trivial
    · exact dataAnswers_ite (hstall s) (dataAnswers_ite (answers_relayAsk _ _ _ _ _ _ _) trivial)
    · split
      · exact answers_next _
      · exact dataAnswers_ite (hstall s) (dataAnswers_ite (hstall _) (dataAnswers_ite (hstall _) trivial))

theorem State.answers_readData {s : State} {w : Wave} {i : Issue} {u : UnitSt} {va n : Nat} {lookups : Bool} {o : Out}
    (h : s.readData w i u va n lookups = .out o) : Answers o :=
  dataAnswers_out.mp (h ▸ s.dataAnswers_readData w i u va n lookups)

@[simp] theorem answers_dispatchFrom (i : Issue) (u : UnitSt) (ndim : Nat) (shape : List Nat) :
    ∀ (n b : Nat) (s : State) (w : Wave), Answers (dispatchFrom s w i u ndim shape b n)
  | 0, _, _, _ => answers_branchTo _ _ _ _
  | n + 1, b, s, w => by
    unfold dispatchFrom
    grind [answers_dispatchFrom i u ndim shape n, State.answers_readData, answers_takeTrap, answers_branchTo]

theorem answers_withEntry {s : State} {w : Wave} {i : Issue} {u : UnitSt} {none' : State → Wave → Out}
    {f : State → Wave → Nat → Nat → TlbEntry → Out} (hn : ∀ t w, Answers (none' t w)) (hf : ∀ t w k n e, Answers (f t w k n e)) :
    Answers (withEntry s w i u none' f) := by
  unfold withEntry
  split
  next e => exact State.answers_readData e
  · split
    · exact answers_takeTrap _ _ _ _ _ _
    · refine answers_ite (hn _ _) ?_
      split
      next e => exact State.answers_readData e
      · split
        · exact answers_takeTrap _ _ _ _ _ _
        · exact answers_ite (answers_stallWord _) (hf _ _ _ _ _)

@[simp] theorem answers_relayWrite (s : State) (w : Wave) (i : Issue) (key e : Nat) : Answers (relayWrite s w i key e) := by
  grind [relayWrite, answers_next, answers_stallWord]

@[simp] theorem answers_writeEntry (s : State) (w : Wave) (i : Issue) (key e : Nat) (tlb : TlbEntry) (w' : Wave → Wave) :
    Answers (writeEntry s w i key e tlb w') := by
  unfold writeEntry
  grind [answers_next, answers_relayWrite, answers_finish, answers_stallWord]

@[simp] theorem answers_serveKweut (s : State) (r : KReq) (n : Nat) (queue : Bool) (f : State → KReq → State × KAns) :
    Answers (serveKweut s r n queue f) := answers_ite (answers_next _) (answers_ite (answers_next _) (answers_next _))

@[simp] theorem answers_sendRemote (s : State) (w : Wave) (i : Issue) (id : CtxId) (stream va : Nat) (x : Remote) :
    Answers (sendRemote s w i id stream va x) := answers_next _

@[simp] theorem answers_onAnswer (s : State) (p : Packet) (f : State → Rctx → State) : Answers (onAnswer s p f) := by
  grind [onAnswer, answers_next]

theorem answers_barrierTurn {s : State} {w : Wave} {i : Issue} {b : BarrierRef} {since : Option Nat} {f : State → Wave → Out}
    (hf : ∀ t x, Answers (f t x)) : Answers (barrierTurn s w i b since f) := by
  grind [barrierTurn, answers_next, answers_stallWord]

theorem answers_checkedBarrier {s : State} {w : Wave} {i : Issue} {b : BarrierRef} {f : Nat → Out} (hf : ∀ n, Answers (f n)) :
    Answers (checkedBarrier s w i b f) := by
  grind [checkedBarrier, answers_takeTrap, answers_next, answers_stallWord]

@[simp] theorem answers_finishBarrier (s : State) (w : Wave) (i : Issue) (sc : BitVec 3) : Answers (finishBarrier s w i sc) := by
  grind [finishBarrier, answers_finish, answers_stallWord]

@[simp] theorem answers_updateBarrier (s : State) (w : Wave) (i : Issue) (b : BarrierRef) (sc : BitVec 3) :
    ∀ x : Option Nat, Answers (updateBarrier s w i b sc x)
  | none => answers_takeTrap _ _ _ _ _ _
  | some _ => answers_ite (answers_stallWord _) (answers_next _)

@[simp] theorem answers_gateFault (s : State) (w : Wave) (i : Issue) (handle sub kind : Nat) :
    Answers (gateFault s w i handle sub kind) := by
  grind [gateFault, answers_takeTrap, answers_next]

@[simp] theorem answers_finishCmd (s : State) (c : Cmd) : ∀ r : Done, Answers (finishCmd s c r)
  | .ok _ => answers_next _
  | .error _ => answers_next _

@[simp] theorem answers_devCmd (s : State) (c : Cmd) (h : Bool) (stage : Nat) (f : State → Done) :
    Answers (devCmd s c h stage f) := by
  grind [devCmd, answers_finishCmd, answers_next]

@[simp] theorem answers_partCmd (s : State) (c : Cmd) (h : Bool) (f : State → Part → Done) : Answers (partCmd s c h f) := by
  grind [partCmd, answers_devCmd, answers_finishCmd, answers_next]

@[simp] theorem answers_fabricCmd (s : State) (f : State → State) : Answers (fabricCmd s f) := by
  grind [fabricCmd, answers_next]

@[simp] theorem answers_enterEngine (s : State) (w : Wave) (i : Issue) (x : EngEntry) : Answers (enterEngine s w i x) := by
  grind [enterEngine, answers_finish, answers_stallWord]

@[simp] theorem answers_enterOrdered (s : State) (w : Wave) (i : Issue) (x : EngEntry) : Answers (enterOrdered s w i x) := by
  grind [enterOrdered, answers_enterEngine, answers_stallWord]

@[simp] theorem answers_engineFault (s : State) (w : Wave) (i : Issue) (sub : Nat) (addr : Int) :
    Answers (engineFault s w i sub addr) := by
  grind [engineFault, answers_takeTrap]

@[simp] theorem answers_gateCmd (s : State) (c : Cmd) (f : State → Done) : Answers (gateCmd s c f) :=
  answers_devCmd _ _ _ _ _

@[simp] theorem answers_gateHandleCmd (s : State) (c : Cmd) (handle : Nat) (f : State → Gate → Done) :
    Answers (gateHandleCmd s c handle f) :=
  answers_gateCmd _ _ _

@[simp] theorem answers_podCmd (s : State) (c : Cmd) (f : State → Done) : Answers (podCmd s c f) :=
  answers_devCmd _ _ _ _ _

@[simp] theorem answers_attCmd (s : State) (c : Cmd) (att : Nat) (f : State → Att → Done) : Answers (attCmd s c att f) :=
  answers_devCmd _ _ _ _ _

@[simp] theorem answers_dbgWave (s : State) (c : Cmd) (seq wid : Nat) (f : State → Wave → Done) :
    Answers (dbgWave s c seq wid f) :=
  answers_partCmd _ _ _ _

@[simp] theorem answers_dbgOn (s : State) (c : Cmd) (seq wid unit : Nat) (f : State → Wave → Option Arm → Done) :
    Answers (dbgOn s c seq wid unit f) :=
  answers_dbgWave _ _ _ _ _

@[simp] theorem answers_dbgCore (s : State) (c : Cmd) (core : Nat) (f : State → Part → Nat → Done) :
    Answers (dbgCore s c core f) :=
  answers_partCmd _ _ _ _

/-! ### Words that perform when they are legal (09 R217) -/

/-- The word performs under `whenLegal`, and what it performs answers a next state. -/
def LegalWord (s : State) (x : Instr) (r : Out) : Prop := ∃ f, r = whenLegal s x f ∧ ∀ w i u, Answers (f w i u)

section
variable {s : State} {x : Instr} {r : Out}

theorem legalWord_whenLegal {f : Wave → Issue → UnitSt → Out} (hf : ∀ w i u, Answers (f w i u)) :
    LegalWord s x (whenLegal s x f) :=
  ⟨f, rfl, hf⟩

theorem LegalWord.illegal {w : Wave} {i : Issue} {sub : Nat} (h : LegalWord s x r) (hl : s.Latched w i)
    (hi : illegalSub s w ((w.issuing i).at i) i.lit x = some sub) : r = takeTrap s w i 1 sub 0 := by
  obtain ⟨f, rfl, -⟩ := h
  exact whenLegal_illegal hl hi f

theorem LegalWord.answers {w : Wave} {i : Issue} (h : LegalWord s x r) (hl : s.Latched w i) : Answers r := by
  cases hi : illegalSub s w ((w.issuing i).at i) i.lit x with
  | some sub => exact h.illegal hl hi ▸ answers_takeTrap _ _ _ _ _ _
  | none =>
    obtain ⟨f, rfl, hf⟩ := h
    exact whenLegal_of ⟨hl, hi⟩ f ▸ hf _ _ _

theorem legalWord_uGuarded {g : BitVec 3} {f : Wave → Wave} : LegalWord s x (uGuarded s x g f) :=
  legalWord_whenLegal fun _ _ _ => answers_ite (answers_poisonTrap _ _ _) (answers_finish _ _ _)

theorem legalWord_uImm {f : Word → Word → Word} {d a : BitVec 6} {imm : BitVec 10} : LegalWord s x (uImm s x f d a imm) :=
  legalWord_whenLegal fun _ _ _ => answers_finish _ _ _

theorem legalWord_vGuarded {g : BitVec 3} {f : Wave → Lanes → Wave} : LegalWord s x (vGuarded s x g f) :=
  legalWord_whenLegal fun _ _ _ => answers_ite (answers_poisonTrap _ _ _) (answers_finish _ _ _)

theorem legalWord_vImm {f : Word → Word → Word} {d a : BitVec 6} {imm : BitVec 10} : LegalWord s x (vImm s x f d a imm) :=
  legalWord_whenLegal fun _ _ _ => answers_finish _ _ _

theorem legalWord_vIndirect {a : BitVec 6} {imm : BitVec 10} {f : Wave → UnitSt → Word → Wave} :
    LegalWord s x (vIndirect s x a imm f) :=
  legalWord_whenLegal fun _ _ _ => answers_ite (answers_poisonTrap _ _ _) (answers_finish _ _ _)

theorem legalWord_fBin {op : Rm → Bool → Word → Word → Word × Flags} {u : BitVec 1} {d a b : BitVec 6} {g : BitVec 3} :
    LegalWord s x (fBin s x op u d a b g) :=
  legalWord_whenLegal fun _ _ _ => answers_ite (answers_poisonTrap _ _ _) (answers_finish _ _ _)

theorem legalWord_fUn {op : BitVec 8 → Word → Word × Flags} {d a : BitVec 6} {g : BitVec 3} : LegalWord s x (fUn s x op d a g) :=
  legalWord_whenLegal fun _ _ _ => answers_ite (answers_poisonTrap _ _ _) (answers_finish _ _ _)

theorem legalWord_fTer {op : Rm → Bool → Word → Word → Word → Word × Flags} {u : BitVec 1} {d a b : BitVec 6} {g : BitVec 3} :
    LegalWord s x (fTer s x op u d a b g) :=
  legalWord_whenLegal fun _ _ _ => answers_ite (answers_poisonTrap _ _ _) (answers_finish _ _ _)

theorem legalWord_condBranch {q : BitVec 3} {neg : Bool} {o : BitVec 19} : LegalWord s x (condBranch s x q neg o) :=
  legalWord_whenLegal fun _ _ _ =>
    answers_ite (answers_poisonTrap _ _ _) (answers_ite (answers_branchTo _ _ _ _) (answers_finish _ _ _))

theorem legalWord_uniformAccess {a : BitVec 6} {imm : BitVec 10} {size : Nat} {store : Option (BitVec 6)} {dest : Dest} :
    LegalWord s x (uniformAccess s x a imm size store dest) :=
  legalWord_whenLegal fun _ _ _ => answers_ite (answers_poisonTrap _ _ _) (answers_memAccess _ _ _ _)

theorem legalWord_baseAccess {k : Nat} {f : Wave → Issue → UnitSt → Nat → Out} (hf : ∀ w i u va, Answers (f w i u va)) :
    LegalWord s x (baseAccess s x k f) :=
  legalWord_whenLegal fun _ _ _ => answers_ite (answers_poisonTrap _ _ _) (hf _ _ _ _)

theorem legalWord_lineWord {o : BitVec 6} {k : BitVec 5} {op : LineOp} : LegalWord s x (lineWord s x o k op) :=
  legalWord_baseAccess fun w i u va => by grind [answers_poisonTrap, answers_next, answers_stallWord, answers_finish]

theorem legalWord_serviceWord {k : BitVec 5} {f : Wave → Service} : LegalWord s x (serviceWord s x k f) :=
  legalWord_baseAccess fun w i u va => by
    grind [answers_poisonTrap, answers_next, answers_stallWord, answers_finish, answers_takeTrap]

theorem legalWord_remoteWord {k ctl : BitVec 5} {f : Wave → Nat → Nat → Remote} : LegalWord s x (remoteWord s x k ctl f) :=
  legalWord_whenLegal fun w i u => by
    grind [answers_poisonTrap, answers_next, answers_stallWord, answers_finish, answers_takeTrap, answers_sendRemote]

theorem legalWord_barrierWord {k : BitVec 5} {q : BitVec 1} {ro : Option (BitVec 6)} {kind : AccKind}
    {f : State → Wave → Issue → BarrierRef → Option Nat → Out} (hf : ∀ t w i b n, Answers (f t w i b n)) :
    LegalWord s x (barrierWord s x k q ro kind f) :=
  legalWord_baseAccess fun w i u va => by
    grind [answers_poisonTrap, answers_next, answers_stallWord, barrierAt, answers_takeTrap]

theorem legalWord_barArrival {sc : BitVec 3} {id : BitVec 4} {ro : BitVec 6} {f : State → Wave → Issue → BarKey → Bool → Nat → Out}
    (hf : ∀ t w i b n m, Answers (f t w i b n m)) : LegalWord s x (barArrival s x sc id ro f) :=
  legalWord_whenLegal fun w i u => by
    grind [answers_poisonTrap, answers_next, answers_stallWord, answers_takeTrap]

theorem legalWord_gateWord {a : BitVec 6} {y : Option (BitVec 6)} {ok : Gate → Nat → Option Nat} {kind : Nat}
    {f : Wave → Issue → Gate → Out} (hf : ∀ w i g, Answers (f w i g)) : LegalWord s x (gateWord s x a y ok kind f) :=
  legalWord_whenLegal fun w i u => by
    grind [answers_poisonTrap, answers_gateFault, answers_takeTrap]

end

theorem legalWord_execSleepuntil (k : BitVec 5) (s : State) : LegalWord s (.sleepuntil k) (execSleepuntil k s) :=
  legalWord_whenLegal fun _ _ _ =>
    answers_ite (answers_poisonTrap _ _ _) (answers_ite (answers_finish _ _ _) (answers_sleepWith _ _ _ _))

theorem legalWord_execTbwait (k : BitVec 5) (q : BitVec 1) (sc : BitVec 3) (r : BitVec 6) (s : State) :
    LegalWord s (.tbwait k q sc r) (execTbwait k q sc r s) :=
  legalWord_barrierWord fun _ _ _ _ _ => answers_barrierTurn fun _ _ => answers_checkedBarrier fun _ =>
    answers_ite (answers_ite (answers_finishBarrier _ _ _ _) (answers_stallWord _))
      (answers_ite (answers_next _) (answers_sleepWith _ _ _ _))

/-- Every word but the hint performs under `whenLegal`. -/
theorem legalWord_exec {i : Instr} (hword : (encode i).isSome = true) (hnop : i ≠ .nop) (s : State) :
    LegalWord s i (exec i s) := by
  cases i
  case nop => exact absurd rfl hnop
  case uadd | usub | umul | umulh | umulhu | uand | uor | uxor | ushl | ushr | usar | umin | umax | uminu | umaxu | umov | ucmp |
      uclz | upopc | ubrev | ubfx | ubfi =>
    simp only [exec, execUadd, execUsub, execUmul, execUmulh, execUmulhu, execUand, execUor, execUxor, execUshl, execUshr,
      execUsar, execUmin, execUmax, execUminu, execUmaxu, execUmov, execUcmp, execUclz, execUpopc, execUbrev, execUbfx, execUbfi]
    exact legalWord_uGuarded
  case uaddi | umuli | uandi | uori | uxori | ushli | ushri | usari =>
    simp only [exec, execUaddi, execUmuli, execUandi, execUori, execUxori, execUshli, execUshri, execUsari]
    exact legalWord_uImm
  case uld32 | uld64 | ust32 | ust64 =>
    simp only [exec, execUld32, execUld64, execUst32, execUst64]
    exact legalWord_uniformAccess
  case bra | bran =>
    simp only [exec, execBra, execBran]
    exact legalWord_condBranch
  case vadd | vsub | vmul | vmulh | vmulhu | vmin | vmax | vminu | vand | vor | vxor | vshl | vshr | vsar | vmaxu | vabsd | vicmp
      | vclz | vpopc | vbrev | vbfx | vbfi | vmad | vlane | vmov | vmovs | vfroms | shfl | shflx | shflup | shfldn | lanebc |
      vredi | pand | por | pxor | pandn | pnot | pmov | pset | vballot | vmcnt =>
    simp only [exec, execVadd, execVsub, execVmul, execVmulh, execVmulhu, execVmin, execVmax, execVminu, execVand, execVor,
      execVxor, execVshl, execVshr, execVsar, execVmaxu, execVabsd, execVicmp, execVclz, execVpopc, execVbrev, execVbfx, execVbfi,
      execVmad, execVlane, execVmov, execVmovs, execVfroms, execShfl, execShflx, execShflup, execShfldn, execLanebc, execVredi,
      execPand, execPor, execPxor, execPandn, execPnot, execPmov, execPset, execVballot, execVmcnt]
    exact legalWord_vGuarded
  case vaddi | vmuli | vandi | vori | vxori | vshli | vshri | vsari =>
    simp only [exec, execVaddi, execVmuli, execVandi, execVori, execVxori, execVshli, execVshri, execVsari]
    exact legalWord_vImm
  case vldx | vstx =>
    simp only [exec, execVldx, execVstx]
    exact legalWord_vIndirect
  case fadd | fsub | fmul | fmin | fmax | fdiv | b2add | b2sub | b2mul | b2max | b2min =>
    simp only [exec, execFadd, execFsub, execFmul, execFmin, execFmax, execFdiv, execB2add, execB2sub, execB2mul, execB2max,
      execB2min]
    exact legalWord_fBin
  case ffma | ffnma | b2fma =>
    simp only [exec, execFfma, execFfnma, execB2fma]
    exact legalWord_fTer
  case fabs | frcp | frsq | fsqrt | fex2 | flg2 | frint | fclass | fcvt | icvt =>
    simp only [exec, execFabs, execFrcp, execFrsq, execFsqrt, execFex2, execFlg2, execFrint, execFclass, execFcvt, execIcvt]
    exact legalWord_fUn
  case wbl | invl | flushl =>
    simp only [exec, execWbl, execInvl, execFlushl]
    exact legalWord_lineWord
  case mqput | mqget | mred | mredrd | matom =>
    simp only [exec, execMqput, execMqget, execMred, execMredrd, execMatom]
    exact legalWord_serviceWord
  case rwri | rrd | ratom =>
    simp only [exec, execRwri, execRrd, execRatom]
    exact legalWord_remoteWord
  case waitline =>
    simp only [exec, execWaitline]
    exact legalWord_baseAccess fun w i u va => by grind [answers_next, answers_finish, answers_takeTrap, answers_poisonTrap,
      answers_sleepWith, State.answers_readData]
  case ldg | stg | gather | scatter | atomg =>
    simp only [exec, execLdg, execStg, execGather, execScatter, execAtomg]
    exact legalWord_baseAccess fun w i u va => by grind [answers_memAccess]
  case ldq | stq | atomq =>
    simp only [exec, execLdq, execStq, execAtomq]
    exact legalWord_baseAccess fun w i u va => by grind [answers_qspAccess]
  case pref =>
    simp only [exec, execPref]
    exact legalWord_baseAccess fun w i u va => by grind [answers_next, answers_finish, answers_stallWord, answers_poisonTrap]
  case rowpin =>
    simp only [exec, execRowpin]
    exact legalWord_baseAccess fun w i u va => by grind [answers_next, answers_stallWord, answers_rowWord]
  case tbinit | tbarrive | tbexpect | tbquery =>
    simp only [exec, execTbinit, execTbarrive, execTbexpect, execTbquery]
    exact legalWord_barrierWord fun t w i b n => by grind [answers_stallWord, answers_takeTrap, answers_barrierTurn,
      answers_finishBarrier, answers_checkedBarrier, answers_updateBarrier]
  case barsync | bararrive =>
    simp only [exec, execBarsync, execBararrive]
    exact legalWord_barArrival fun t w i b n m => by grind [answers_next, answers_stallWord, answers_sleepWith,
      answers_finishBarrier]
  case gatepost | gatetake | gatepoll =>
    simp only [exec, execGatepost, execGatetake, execGatepoll]
    exact legalWord_gateWord fun w i g => by grind [answers_next, answers_finish, answers_stallWord, answers_sleepWith]
  case ucmpi | usel | uqop | uqmovTos | uqmovFroms | setfmt | pmask | anyp | allp | yield | vicmpi | vsel | vtos | qpk |
      qunpk | mqry | tget | ctrrd =>
    simp only [exec, execUcmpi, execUsel, execUqop, execUqmovTos, execUqmovFroms, execSetfmt, execPmask, execAnyp,
      execAllp, execYield, execVicmpi, execVsel, execVtos, execQpk, execQunpk, execMqry, execTget, execCtrrd]
    exact legalWord_whenLegal fun _ _ _ => answers_finish _ _ _
  case urds | uwrs | vfcmp | vredf | vscanf | tset | tplset | ctrsel | ctrctl =>
    simp only [exec, execUrds, execUwrs, execVfcmp, execVredf, execVscanf, execTset, execTplset, execCtrsel, execCtrctl]
    exact legalWord_whenLegal fun w i u => by grind [answers_finish, answers_poisonTrap]
  case call | ret | jmpi | calli | split | join | brkp | halt =>
    simp only [exec, execCall, execRet, execJmpi, execCalli, execSplit, execJoin, execBrkp, execHalt]
    exact legalWord_whenLegal fun w i u => by grind [answers_finish, answers_poisonTrap, answers_takeCall, answers_takeRet,
      answers_takeTrap, answers_branchTo, answers_next, answers_spillTrap, answers_arriveAtJoin]
  case trap | bkpt | rte =>
    simp only [exec, execTrap, execBkpt, execRte]
    exact legalWord_whenLegal fun w i u => by grind [answers_takeTrap, answers_next]
  case dispatch | phasesel | phaseend =>
    simp only [exec, execDispatch, execPhasesel, execPhaseend]
    exact legalWord_whenLegal fun w i u => by grind [answers_takeTrap, answers_poisonTrap, State.answers_readData,
      answers_dispatchFrom, answers_finish, answers_withEntry, answers_writeEntry]
  case fence | fenceacq | fencerel | fenceeng =>
    simp only [exec, execFence, execFenceacq, execFencerel, execFenceeng]
    exact legalWord_whenLegal fun w i u => by grind [answers_fenceDone, answers_stallWord]
  case rowunpin | rowqry =>
    simp only [exec, execRowunpin, execRowqry]
    exact legalWord_whenLegal fun w i u => by grind [answers_stallWord, answers_poisonTrap, answers_rowWord]
  case nqwait | barwait =>
    simp only [exec, execNqwait, execBarwait]
    exact legalWord_whenLegal fun w i u => by grind [answers_finish, answers_stallWord, answers_poisonTrap, answers_sleepWith,
      answers_finishBarrier]
  case mloop | mstep | mdrain | mzero | mwait | mload =>
    simp only [exec, execMloop, execMstep, execMdrain, execMzero, execMwait, execMload]
    exact legalWord_whenLegal fun w i u => by grind [answers_enterOrdered, answers_engineFault, answers_poisonTrap,
      answers_enterEngine, answers_finish, answers_stallWord]
  case sleepuntil => exact legalWord_execSleepuntil _ s
  case tbwait => exact legalWord_execTbwait _ _ _ _ s
  all_goals cases hword

/-! ### Events -/

theorem answers_execContextTake (s : State) : Answers (execContextTake s) := by
  unfold execContextTake
  repeat' split
  all_goals exact answers_next _

theorem answers_execRelayContextFetch (s : State) : Answers (execRelayContextFetch s) := by
  unfold execRelayContextFetch
  repeat' split
  all_goals exact answers_next _

theorem answers_execCopyAccept (s : State) : Answers (execCopyAccept s) := by
  unfold execCopyAccept
  dsimp only
  repeat' split
  all_goals exact answers_next _

theorem answers_execPassComplete (s : State) : Answers (execPassComplete s) := by
  unfold execPassComplete
  dsimp only
  repeat' split
  all_goals exact answers_next _

theorem answers_execIllegalInstruction {s : State} (hnone : s.issue = none) : Answers (execIllegalInstruction s) := by
  grind [execIllegalInstruction, answers_next]

/-- An event answers in every state; the Illegal Instruction that a word raises is for a latched one. -/
theorem answers_event {i : Instr} {s : State} (hevent : encode i = none) (hill : i = .illegalInstruction → s.issue = none) :
    Answers (exec i s) := by
  cases i
  case illegalInstruction => exact answers_execIllegalInstruction (hill rfl)
  case contextTake => exact answers_execContextTake s
  case relayContextFetch => exact answers_execRelayContextFetch s
  case copyAccept => exact answers_execCopyAccept s
  case passComplete => exact answers_execPassComplete s
  case sleepuntilWake | waitlineWake | waitlineTimeout | nqwaitWake | nqwaitTimeout | gatetakeWake | gatetakeTimeout |
      missedPromise | watchdog | lateError =>
    simp only [exec]
    grind [execSleepuntilWake, execWaitlineWake, execWaitlineTimeout, execNqwaitWake, execNqwaitTimeout, execGatetakeWake,
      execGatetakeTimeout, execMissedPromise, execWatchdog, execLateError, answers_next]
  case launchComplete | quantumExpiry | switchSave | spillComplete =>
    simp only [exec]
    grind [execLaunchComplete, execQuantumExpiry, execSwitchSave, execSpillComplete, answers_next]
  case accessComplete | qspBankService | writeQueueMerge | pageWalk | walkComplete | directoryRequest | atomicUnitOp |
      gatherPacket | memCompletion | wayMove | refresh =>
    simp only [exec]
    grind [execAccessComplete, execQspBankService, execWriteQueueMerge, execPageWalk, execWalkComplete, execDirectoryRequest,
      execAtomicUnitOp, execGatherPacket, execMemCompletion, execWayMove, execRefresh, answers_next]
  case bisnpinv | bisnpdata | bisnpcur | biconflictack | linkCrcFailure | retrainComplete =>
    simp only [exec]
    grind [execBisnpinv, execBisnpdata, execBisnpcur, execBiconflictack, execLinkCrcFailure, execRetrainComplete, answers_next]
  case kweutResponse | moduleCompletionTimeout | qput | qget | atom | red | redrd | qputRetry | headGroupLost =>
    simp only [exec]
    grind [execKweutResponse, execModuleCompletionTimeout, execQput, execQget, execAtom, execRed, execRedrd, execQputRetry,
      execHeadGroupLost, answers_next, answers_serveKweut]
  case rwriPacket | rrdPacket | ratomPacket | relayedRead | relayedWrite | relayedAtomic | relayTimeout | ackInterval |
      busyNakResend | packetForward =>
    simp only [exec]
    grind [execRwriPacket, execRrdPacket, execRatomPacket, execRelayedRead, execRelayedWrite, execRelayedAtomic, execRelayTimeout,
      execAckInterval, execBusyNakResend, execPacketForward, answers_next]
  case ack | nak | fault | resume | resp =>
    simp only [exec]
    grind [execAck, execNak, execFault, execResume, execResp, answers_next, answers_onAnswer]
  case portDown | viral | attachmentUp =>
    simp only [exec]
    grind [execPortDown, execViral, execAttachmentUp, answers_next]
  case land | chstatClear | engineGrant | counterAdd =>
    simp only [exec]
    grind [execLand, execChstatClear, execEngineGrant, execCounterAdd, answers_next]
  case hostQueuePost | hostMemRead | hostMemWrite | registerWrite | rlyctxsizeTakesEffect | xltinvcPage | xltinvcAsid |
      xltinvcPartition | xltinvcComplete | mailboxDoorbell | revokeComplete =>
    simp only [exec]
    grind [execHostQueuePost, execHostMemRead, execHostMemWrite, execRegisterWrite, execRlyctxsizeTakesEffect, execXltinvcPage,
      execXltinvcAsid, execXltinvcPartition, execXltinvcComplete, execMailboxDoorbell, execRevokeComplete, answers_next]
  case resetRelease | stageAdvance | thermalThrottle | thermalShutdown =>
    simp only [exec]
    grind [execResetRelease, execStageAdvance, execThermalThrottle, execThermalShutdown, answers_next]
  case getLdInfo | getLdAllocations | setLdAllocations | getQosControl | setQosControl | getQosStatus | bindVppb | unbindVppb =>
    simp only [exec]
    grind [execGetLdInfo, execGetLdAllocations, execSetLdAllocations, execGetQosControl, execSetQosControl, execGetQosStatus,
      execBindVppb, execUnbindVppb, answers_next, answers_fabricCmd]
  case ident | attest | featget | featset | partcreate | partdestroy | errlogReadRas | errlogClearRas =>
    simp only [exec]
    grind [execIdent, execAttest, execFeatget, execFeatset, execPartcreate, execPartdestroy, execErrlogReadRas,
      execErrlogClearRas, answers_devCmd, answers_next]
  case partsetHoldPolicy | partsetWatchdog | partsetQuantum | partsetWays | partsetQuota | partsetGrant | launch | replay | fatal
      | errlogSetRing | hqset | regreg | podctlClearDeadpeer | dbgopenOpen | dbgopenClose | ctrwrite =>
    simp only [exec]
    grind [execPartsetHoldPolicy, execPartsetWatchdog, execPartsetQuantum, execPartsetWays, execPartsetQuota, execPartsetGrant,
      execLaunch, execReplay, execFatal, execErrlogSetRing, execHqset, execRegreg, execPodctlClearDeadpeer, execDbgopenOpen,
      execDbgopenClose, execCtrwrite, answers_partCmd, answers_next]
  case wswitch | regrevoke =>
    simp only [exec]
    grind [execWswitch, execRegrevoke, answers_devCmd, answers_finishCmd, answers_next]
  case gatecreate | gateimport | gatefreeze | gateexport | gatethaw | gatedestroy =>
    simp only [exec]
    grind [execGatecreate, execGateimport, execGatefreeze, execGateexport, execGatethaw, execGatedestroy, answers_gateCmd,
      answers_gateHandleCmd, answers_next]
  case podconfigGroups | podconfigPrivilege | podconfigTimeouts | podconfigRoutes | podconfigCapacities | podctlDown |
      podctlRetrain =>
    simp only [exec]
    grind [execPodconfigGroups, execPodconfigPrivilege, execPodconfigTimeouts, execPodconfigRoutes, execPodconfigCapacities,
      execPodctlDown, execPodctlRetrain, answers_podCmd, answers_attCmd, answers_next]
  case dbgctlStop | dbgctlStep | dbgctlResume | dbgctlCoreStop | dbgctlCoreResume =>
    simp only [exec]
    grind [execDbgctlStop, execDbgctlStep, execDbgctlResume, execDbgctlCoreStop, execDbgctlCoreResume, answers_dbgOn,
      answers_dbgCore, answers_next]
  all_goals cases hevent

/-! ### The obligations -/

theorem answers_execNop {s : State} {w : Wave} {i : Issue} (hl : s.Latched w i) : Answers (execNop s) := by
  obtain ⟨hissue, hwave⟩ := hl
  simp [execNop, onUnit, hissue, hwave]

theorem answers_execIllegalInstruction_of_latched {s : State} {w : Wave} {i : Issue} (hl : s.Latched w i) :
    Answers (execIllegalInstruction s) := by
  obtain ⟨hissue, hwave⟩ := hl
  grind [execIllegalInstruction, onUnit, answers_next, answers_takeTrap]

/-- An instruction of a latched wave: the hint, another word, or an event. -/
theorem answers_exec_of_latched {s : State} {w : Wave} {is : Issue} (hl : s.Latched w is) (i : Instr) : Answers (exec i s) := by
  by_cases hnop : i = .nop
  · exact hnop ▸ answers_execNop hl
  by_cases hill : i = .illegalInstruction
  · exact hill ▸ answers_execIllegalInstruction_of_latched hl
  cases henc : encode i with
  | some x => exact (legalWord_exec (henc ▸ rfl) hnop s).answers hl
  | none => exact answers_event henc fun h => absurd h hill

/-- Settles O8: a latched wave's instruction by its kind, and an event by `answers_event`. -/
theorem latchedInstructionsAnswer : Obligations.LatchedInstructionsAnswer := fun _ _ _ i =>
  ⟨fun hl => answers_exec_of_latched hl i, fun hevent hill => answers_event hevent hill⟩

/-- Settles O13: a word that has an encoding and is illegal is no hint, and the others perform under `whenLegal`. -/
theorem illegalWordsTrap : Obligations.IllegalWordsTrap := by
  intro s w is i x sub hl henc hi
  have hnop : i ≠ .nop := by
    rintro rfl
    cases hi
  exact (legalWord_exec (henc ▸ rfl) hnop s).illegal hl hi

end Sys2Proof.Machine
end

section
/-! PROOFS. O4: every word of the hint region is the no-operation, which goes on with the next word (09 R216). -/

namespace Sys2Proof.Machine

theorem decodeWord_hint {x : Nat} (h : majorOf x ≤ 1) : decodeWord x = .ok .nop := by
  rw [decodeWord]
  interval_cases majorOf x <;> rfl

theorem execNop_of_latched {s : State} {w : Wave} {i : Issue} (hl : s.Latched w i) : execNop s = .next (s.after w i) := by
  obtain ⟨hissue, hwave⟩ := hl
  simp only [execNop, onUnit, hissue, hwave, finish_eq]

/-- Settles O4: the hint majors decode to the no-operation, and it ends as a word that is done. -/
theorem hintWords : Obligations.HintWords :=
  ⟨rfl, fun _ _ hmajor => decodeWord_hint hmajor, fun _ _ _ hl => execNop_of_latched hl⟩

end Sys2Proof.Machine
end

section
/-! PROOFS. O9: a register holds what is written to it, and s0, p0 and q0 discard writes (09 R224; 10 R226, R233). -/

namespace Sys2Proof.Machine

/-- A bit of an 8-bit mask after one bit is set. -/
theorem getLsbD_setBit8 (m : BitVec 8) {n : Nat} (j : Nat) (b : Bool) (hn : n < 8) :
    (setBit8 m n b).getLsbD j = if j = n then b else m.getLsbD j := by
  have hone : (BitVec.ofNat 8 (2 ^ n)).getLsbD j = decide (n = j) := by
    rw [BitVec.getLsbD_ofNat, Nat.testBit_two_pow]
    by_cases h : n = j <;> simp [h]
    omega
  unfold setBit8
  cases b with
  | false => grind
  | true => grind

section
variable (w : Wave) {n : Nat} (j : Nat)

theorem Wave.q_setQ (x p : Bool) (hn : n < 8) (h0 : n ≠ 0) : (w.setQ n x p).q j = if j = n then x else w.q j := by
  simp only [Wave.setQ, if_neg h0, Wave.q, getLsbD_setBit8 _ _ _ hn]
  by_cases hj : j = n <;> simp [hj, h0]

theorem Wave.qPoison_setQ (x p : Bool) (hn : n < 8) (h0 : n ≠ 0) :
    (w.setQ n x p).qPoison j = if j = n then p else w.qPoison j := by
  simp only [Wave.setQ, if_neg h0, Wave.qPoison, getLsbD_setBit8 _ _ _ hn]
  by_cases hj : j = n <;> simp [hj, h0]

theorem Wave.p_setP_other (m x b : Lanes) (hj : j ≠ n) : (w.setP n m x b).p j = w.p j := by
  unfold Wave.setP
  split
  · rfl
  · simp [Wave.p, Ne.symm hj]

theorem Wave.p_setP_same (m x b : Lanes) (hn : n < 64) (h0 : n ≠ 0) :
    (w.setP n m x b).p n
      = { bits := ((w.p n).bits &&& ~~~m) ||| (x &&& m), poison := ((w.p n).poison &&& ~~~m) ||| (b &&& m) } := by
  rw [Wave.setP, if_neg h0]
  simp [Wave.p, h0, hn]

end

/-- A lane of a mask whose lanes are taken from another under a mask. -/
theorem getLsbD_under (old new m : Lanes) {l : Nat} (hl : l < 64) :
    ((old &&& ~~~m) ||| (new &&& m)).getLsbD l = if m.getLsbD l = true then new.getLsbD l else old.getLsbD l := by
  simp only [BitVec.getLsbD_or, BitVec.getLsbD_and, BitVec.getLsbD_not, hl, decide_true, Bool.true_and]
  cases m.getLsbD l <;> simp

/-- Registers of the window that stand in one place hold the same. -/
theorem Wave.v_eq_of_physV {w : Wave} {j k : Nat} (h : w.physV (w.winBase + j) = w.physV (w.winBase + k)) : w.v j = w.v k := by
  rw [Wave.v, Wave.v, Wave.logV, Wave.logV, h]

theorem Wave.elem_v_writeV (w : Wave) (k j : Nat) (m : Lanes) (f : Nat → Elem) {l : Nat} (hl : l < 64) :
    ((w.writeV k m (laneNumbers.map f)).v j).elem l
      = if w.vregs ≠ [] ∧ w.physV (w.winBase + j) = w.physV (w.winBase + k) ∧ m.getLsbD l = true then f l
        else (w.v j).elem l := by
  rw [Wave.v_writeV]
  split
  case isTrue h =>
    rw [VReg.elem_merge _ _ _ _ hl, getD_lanes, if_pos hl, ← Wave.v_eq_of_physV h.2]
    simp [Wave.physV, h]
  case isFalse h => exact (if_neg fun hc => h ⟨hc.1, hc.2.1⟩).symm

/-- No two registers of the window are one register of a file of 64 or more. -/
theorem Wave.physV_inj {w : Wave} {j k : Nat} (hfile : 64 ≤ w.vregs.length) (hk : k < 64) (hj : j < 64)
    (h : w.physV (w.winBase + j) = w.physV (w.winBase + k)) : j = k := by
  have hmod : j ≡ k [MOD w.vregs.length] := Nat.ModEq.add_left_cancel' _ h
  exact hmod.eq_of_lt_of_lt (hj.trans_le hfile) (hk.trans_le hfile)

/-- Settles O9, register file by register file. -/
theorem registersHoldWhatIsWritten : Obligations.RegistersHoldWhatIsWritten := by
  intro w k j
  refine ⟨rfl, rfl, rfl, rfl, rfl, rfl, fun _ _ => rfl, fun _ _ => rfl, fun _ _ _ => rfl, fun x b hk h0 => ⟨?_, ?_⟩,
    fun x b hk h0 => ⟨w.q_setQ j x b hk h0, w.qPoison_setQ j x b hk h0⟩, fun m x b l hk h0 hl => ?_,
    fun m f l hl => w.elem_v_writeV k j m f hl, fun hfile hk hj h => Wave.physV_inj hfile hk hj h⟩
  · simp [Wave.s_setS, hk, h0]
  · simp [Wave.sPoison_setS, hk, h0]
  · by_cases hj : j = k
    · subst hj
      simp only [w.p_setP_same m x b hk h0, getLsbD_under _ _ _ hl, true_and, and_self]
    · simp only [w.p_setP_other j m x b hj, hj, false_and, if_false, and_self]

end Sys2Proof.Machine
end

section
/-! PROOFS. O18 and O19: reads and writes of the special registers, SETFMT, and the capture of CYC (09 R216, R219 to R223; 10
R231). -/

namespace Sys2Proof.Machine

section
variable {s : State} {w : Wave} {i : Issue} {d a : BitVec 6} {n : BitVec 10}

theorem State.legal_urds (hl : s.Latched w i) (hn : specialReadable n.toNat = true) : s.Legal w i (.urds d n) :=
  ⟨hl, by simp [hn]⟩

theorem State.legal_uwrs (hl : s.Latched w i) (hn : specialWritable n.toNat = true) : s.Legal w i (.uwrs a n) :=
  ⟨hl, by simp [hn]⟩

theorem exec_cyclo (hl : s.Latched w i) :
    exec (.urds d 0) s = .next (s.after ({ w with cycCapture := s.cyc }.setS d.toNat (lowWord s.cyc) false) i) := by
  change execUrds d 0 s = _
  rw [execUrds, whenLegal_of (State.legal_urds hl rfl)]
  rfl

theorem exec_cychi (hl : s.Latched w i) :
    exec (.urds d 1) s = .next (s.after (w.setS d.toNat (highWord w.cycCapture) false) i) := by
  change execUrds d 1 s = _
  rw [execUrds, whenLegal_of (State.legal_urds hl rfl)]
  rfl

/-- A word without a guard writes its register. -/
theorem State.wroteS_unguarded (x : Word) (p : Bool) : s.wroteS w i 0 d x p = .next (s.after (w.setS d.toNat x p) i) := rfl

/-- A read of any register but CYCLO and CYCHI. -/
theorem exec_urds (hl : s.Latched w i) (hread : specialReadable n.toNat = true) (hge : 2 ≤ n.toNat) :
    exec (.urds d n) s = s.wroteS w i 0 d (s.special w (w.issuing i) n.toNat) false := by
  change execUrds d n s = _
  rw [execUrds, whenLegal_of (State.legal_urds hl hread), State.wroteS_unguarded]
  split
  case h_1 h0 => omega
  case h_2 h1 => omega
  case h_3 => rfl

theorem exec_uwrs (hl : s.Latched w i) (hwrite : specialWritable n.toNat = true) (hclean : w.sPoison a.toNat = false) :
    exec (.uwrs a n) s = .next (s.after (w.setSpecial i.arm n.toNat (w.s a.toNat)) i) := by
  change execUwrs a n s = _
  rw [execUwrs, whenLegal_of (State.legal_uwrs hl hwrite)]
  simp [hclean, finish_eq]

theorem exec_setfmt (hl : s.Latched w i) (m v : BitVec 8) :
    exec (.setfmt m v) s
      = .next (s.after (w.setUnit i.arm { w.issuing i with fmt := ((w.issuing i).fmt &&& ~~~m) ||| (v &&& m) }) i) := by
  change execSetfmt m v s = _
  rw [execSetfmt, whenLegal_of ⟨hl, illegal_setfmt s w _ i.lit m v⟩]
  rfl

/-- The argument registers (09 R219). -/
theorem State.special_arg {u : UnitSt} {l : Launch} {k : Nat} (hlaunch : s.launch? w.seq = some l) (hk : k < 32) :
    s.special w u (0x020 + k) = l.args.getD k 0 := by
  unfold State.special
  split
  case h_21 => simp [hlaunch, show 0x020 + k ≤ 0x03F by omega]; omega
  all_goals omega

/-- The bounds of the bucket (09 R219). -/
theorem State.special_bound {u : UnitSt} {k : Nat} (hk : k < 8) : s.special w u (0x015 + k) = w.bounds.getD k 0 := by
  unfold State.special
  split
  case h_21 => simp [show 0x015 + k ≤ 0x01C by omega]
  all_goals omega

theorem Wave.setSpecial_bound {arm : Arm} {k : Nat} {x : Word} (hk : k < 8) :
    w.setSpecial arm (0x015 + k) x = { w with bounds := w.bounds.set k x } := by
  unfold Wave.setSpecial
  split
  case h_9 => simp [show 0x015 + k ≤ 0x01C by omega]
  all_goals omega

end

theorem toNat_special {b k : Nat} (h : b + k < 1024) : (BitVec.ofNat 10 (b + k)).toNat = b + k :=
  Nat.mod_eq_of_lt h

theorem specialReads : Claims.SpecialReads := by
  intro s w i d hl
  refine ⟨execNop_of_latched hl, exec_cyclo hl, fun p hp => ?_, fun k hk => ?_, fun l k hlaunch hk => ⟨?_, ?_⟩, fun p hpart => ?_⟩
  · simp only [List.mem_cons, List.not_mem_nil, or_false] at hp
    obtain rfl | hp := hp
    · exact exec_cychi hl
    · rcases hp with rfl | rfl | rfl | rfl | rfl | rfl | rfl | rfl | rfl | rfl | rfl | rfl | rfl | rfl | rfl <;>
        exact exec_urds hl rfl (Nat.le_of_ble_eq_true rfl)
  · have hn := toNat_special (b := 0x015) (k := k) (by omega)
    rw [exec_urds hl (by simp [hn, specialReadable]; omega) (by omega), hn, State.special_bound hk]
  · have hn := toNat_special (b := 0x020) (k := k) (by omega)
    rw [exec_urds hl (by simp [hn, specialReadable]; omega) (by omega), hn, State.special_arg hlaunch hk]
  · rw [exec_urds hl rfl (by decide)]
    simp [State.special, hlaunch]
  · refine ⟨?_, ?_, ?_, ?_⟩ <;> rw [exec_urds hl rfl (by decide)] <;> simp [State.special, hpart]

theorem specialWrites : Claims.SpecialWrites := by
  intro s w i a m v hl x
  refine ⟨fun hclean => ⟨fun p hp => ?_, fun k hk => ?_⟩, exec_setfmt hl m v⟩
  · simp only [List.mem_cons, List.not_mem_nil, or_false] at hp
    rcases hp with rfl | rfl | rfl | rfl | rfl | rfl | rfl | rfl <;> exact exec_uwrs hl rfl hclean
  · have hn := toNat_special (b := 0x015) (k := k) (by omega)
    rw [exec_uwrs hl (by simp [hn, specialWritable]; omega) hclean, hn, Wave.setSpecial_bound hk]

/-- Settles O18, register by register. -/
theorem specialRegisters : Obligations.SpecialRegisters := ⟨specialReads, specialWrites⟩

/-- The half that a read of CYCHI gives (09 R220). -/
theorem toNat_highWord (x : DWord) : (highWord x).toNat = x.toNat / 2 ^ 32 := by
  simp only [highWord, BitVec.extractLsb'_toNat, Nat.shiftRight_eq_div_pow]
  omega

theorem highWord_eq (x : DWord) : highWord x = BitVec.ofNat 32 (x.toNat / 2 ^ 32) :=
  BitVec.eq_of_toNat_eq (by rw [toNat_highWord, BitVec.toNat_ofNat]; omega)

/-- A read of CYCHI leaves the wave with the captured half in the register. -/
theorem cychi_reads_capture {s : State} {w : Wave} {i : Issue} (d : BitVec 6) (hl : s.Latched w i) :
    ∃ y z, exec (.urds d 1) s = .next y ∧ y.wave? w.seq w.wid = some z
      ∧ (d ≠ 0 → (z.s d.toNat).toNat = w.cycCapture.toNat / 2 ^ 32) := by
  refine ⟨_, _, exec_cychi hl, State.wave?_after hl rfl (by simp) (by simp), fun hd => ?_⟩
  have hd0 : d.toNat ≠ 0 := fun h => hd (BitVec.eq_of_toNat_eq h)
  rw [Wave.s, Wave.goto_sregs, ← Wave.s, Wave.s_setS, if_pos ⟨rfl, hd0, d.isLt⟩, toNat_highWord]

/-- Settles O19: CYCLO captures, CYCHI reads the capture of the wave as it then is. -/
theorem cycleCounterReads : Obligations.CycleCounterReads := by
  intro s w i d hl
  refine ⟨exec_cyclo hl, highWord_eq w.cycCapture ▸ exec_cychi hl, fun _ _ _ _ _ _ => rfl, fun t u j ht hu => ?_⟩
  have hcapture : u.cycCapture = s.cyc := by
    obtain rfl := Host.Outcome.next.inj ((exec_cyclo hl).symm.trans ht)
    obtain rfl := Option.some.inj ((State.wave?_after hl rfl (by simp) (by simp)).symm.trans hu)
    simp
  refine ⟨hcapture, fun hseq hwid v => ?_⟩
  have hl2 : State.Latched { t with issue := some j, cyc := v } u j := ⟨rfl, by rw [hseq, hwid]; exact hu⟩
  obtain ⟨hs, hw⟩ := State.wave?_names hu
  have hreads := cychi_reads_capture d hl2
  rwa [hs, hw, hcapture] at hreads

end Sys2Proof.Machine
end

section
/-! PROOFS. O1: a step with the turn of a unit that may issue is `exec` of what its word, or its chained pair, decodes to (09 R205 to
R211, R217; 07 R183). -/

namespace Sys2Proof.Machine

/-! ### The end of a word -/

theorem mapNext_mapNext (r : Out) (f g : State → State) : mapNext (mapNext r f) g = mapNext r fun t => g (f t) := by
  cases r <;> rfl

/-- Two ends of a word that agree wherever it ends. -/
theorem mapNext_congr {r : Out} {f g : State → State} (h : ∀ t, r = .next t → f t = g t) : mapNext r f = mapNext r g := by
  cases r with
  | next t => exact congrArg Host.Outcome.next (h t rfl)
  | fault e => rfl
  | refused e => rfl

@[simp] theorem State.charge_issue (s : State) (p code n : Nat) : (s.charge p code n).issue = s.issue := by
  grind [State.charge]

@[simp] theorem State.hide_issue (s : State) (i : Issue) (fmt : BitVec 8) (j : Instr) : (s.hide i fmt j).issue = s.issue := by
  unfold State.hide
  dsimp only
  split <;> rfl

@[simp] theorem State.chargeWord_issue (s : State) (part major : Nat) : (s.chargeWord part major).issue = s.issue := by
  unfold State.chargeWord
  split <;> simp

@[simp] theorem State.chargeExpansion_issue (s : State) (w : Wave) (u : UnitSt) (lit : Word) (j : Instr) :
    (s.chargeExpansion w u lit j).issue = s.issue := by
  unfold State.chargeExpansion
  dsimp only
  split
  · rfl
  · exact State.charge_issue _ _ _ _

@[simp] theorem State.wordDone_performed (s : State) (w : Wave) (u : UnitSt) (i : Issue) (x : Nat) (j : Instr) :
    (s.wordDone w u i x j).performed = s.performed := by
  simp [State.performed, State.wordDone]

/-- The unit goes on behind a pair whose second word has performed already. -/
def State.pairPassed (s : State) (i : Issue) : State :=
  s.modWave i.seq i.wid fun w => w.setUnit i.arm { w.unit i.arm with pc := nextWord (w.unit i.arm).pc, skip := none }

theorem State.passPair_of_performed {s : State} (i : Issue) (h : s.performed = true) : s.passPair i = s.pairPassed i := by
  simp [State.passPair, State.pairPassed, h]

theorem State.passPair_of_not_performed {s : State} (i : Issue) (h : s.performed = false) : s.passPair i = s := by
  simp [State.passPair, h]

theorem State.passPair_wordDone (t : State) (w : Wave) (u : UnitSt) (i : Issue) (x : Nat) (j : Instr) :
    (if t.performed then t.wordDone w u i x j else t).passPair i
      = if t.performed then (t.wordDone w u i x j).pairPassed i else t := by
  split
  case isTrue hperf => exact State.passPair_of_performed i ((t.wordDone_performed w u i x j).trans hperf)
  case isFalse hperf => exact State.passPair_of_not_performed i (Bool.eq_false_iff.mpr hperf)

theorem State.waiting_performed (s : State) (i : Issue) : (s.waiting i).performed = false := by
  simp [State.waiting, State.performed]

@[simp] theorem State.enterTrap_issue (s : State) (w : Wave) (arm : Arm) (pc cause sub addr : Nat) (second : Bool) (wait : Wait) :
    (s.enterTrap w arm pc cause sub addr second wait).issue = s.issue := by
  unfold State.enterTrap
  dsimp only
  split
  · rfl
  · split <;> rfl

/-- An illegal word traps, and so has not performed. -/
theorem illegalWord_not_performed {s t : State} {i : Issue} {e : DecodeErr} (h : illegalWord s i e = .next t) :
    t.performed = false := by
  change execIllegalInstruction { s with issue := some i, call := .illegalInstruction e.subcode } = .next t at h
  simp only [execIllegalInstruction, onUnit] at h
  split at h
  · cases h
  · obtain rfl := Host.Outcome.next.inj h
    simp [State.performed, State.trapped]

/-! ### One word on its own -/

section
variable {s : State} {w : Wave} {i : Issue} {x : Nat} {j : Instr}

theorem issueOne_decoded (hx : decodeWord x = .ok j) (hacq : (w.acquiring i.arm && accesses (majorOf x)) = false) :
    issueOne s w i x
      = mapNext (exec j (s.latch i)) fun t => if t.performed then t.wordDone w (w.unit i.arm) i x j else t := by
  simp only [issueOne, hx, hacq, Bool.false_eq_true, if_false]
  cases exec j (s.latch i) <;> rfl

theorem issueOne_acquiring (hx : decodeWord x = .ok j) (hacq : (w.acquiring i.arm && accesses (majorOf x)) = true) :
    issueOne s w i x = .next (s.waiting i) := by
  simp only [issueOne, hx, hacq, if_true]

theorem issueOne_undecoded {e : DecodeErr} (hx : decodeWord x = .error e) : issueOne s w i x = illegalWord (s.latch i) i e := by
  simp only [issueOne, hx]

end

/-! ### The words of a fetched packet -/

/-- The word of a packet at an index. -/
def FetchedPacket.wordAt (p : FetchedPacket) (k : Nat) : Nat := (p.words.getD k 0).toNat

/-- The latch of the word at a unit's pc. -/
def Wave.latching (w : Wave) (a : Arm) (p : FetchedPacket) : Issue :=
  { seq := w.seq, wid := w.wid, arm := a, off := p.off, idx := (w.unit a).pc % 16 / 4, lit := p.words.getD 3 0, second := false,
    trapped := false, stalled := false }

/-- C joins the word at an index to the next (09 R208). -/
def FetchedPacket.chained (p : FetchedPacket) (k : Nat) : Bool :=
  k < 2 && chainBit (p.wordAt k) && !isHint (p.wordAt k) && !isHint (p.wordAt (k + 1))

theorem FetchedPacket.chained_iff {p : FetchedPacket} {k : Nat} : p.chained k = true ↔
    k < 2 ∧ chainBit (p.wordAt k) = true ∧ isHint (p.wordAt k) = false ∧ isHint (p.wordAt (k + 1)) = false := by
  simp [FetchedPacket.chained, and_assoc]

/-- Words 0 and 1 of the packet are both chained. -/
def FetchedPacket.bothChained (p : FetchedPacket) : Bool :=
  chainBit (p.wordAt 0) && chainBit (p.wordAt 1) && !isHint (p.wordAt 0) && !isHint (p.wordAt 1)

section
variable {s : State} {w : Wave} {a : Arm} {p : FetchedPacket}

/-- The word at the pc has its registers, where it decodes. -/
def Wave.wordReady (w : Wave) (a : Arm) (x : Nat) : Prop := ∀ j, decodeWord x = .ok j → w.sourcesReady a (w.unit a).fmt j = true

theorem Wave.wordReady_of_ready {x : Nat} {j : Instr} (hx : decodeWord x = .ok j) (h : w.sourcesReady a (w.unit a).fmt j = true) :
    w.wordReady a x := fun _ hj => Except.ok.inj (hx.symm.trans hj) ▸ h

theorem Wave.wordReady_of_undecoded {x : Nat} {e : DecodeErr} (hx : decodeWord x = .error e) : w.wordReady a x :=
  fun _ hj => nomatch hx.symm.trans hj

theorem issueFrom_not_ready {j : Instr} (hx : decodeWord (p.wordAt (w.latching a p).idx) = .ok j)
    (hready : w.sourcesReady a (w.unit a).fmt j = false) : issueFrom s w a p = .next (s.waiting (w.latching a p)) := by
  unfold FetchedPacket.wordAt Wave.latching at hx
  simp only [issueFrom, wordIndex, hx, hready, Bool.not_false, if_true]
  rfl

/-- A word that has its registers: passed over behind a pair, or with the word it is chained to, or alone. -/
theorem issueFrom_ready (hready : w.wordReady a (p.wordAt (w.latching a p).idx)) :
    issueFrom s w a p
      = mapNext
          (if (w.unit a).skip = some (w.unit a).pc then
            mapNext (issueOne s w (w.latching a p) (p.wordAt (w.latching a p).idx)) fun t => t.passPair (w.latching a p)
          else if p.chained (w.latching a p).idx then
            issuePair s (w.latching a p) { w.latching a p with idx := (w.latching a p).idx + 1, second := true } p.bothChained
              (p.wordAt (w.latching a p).idx) (p.wordAt ((w.latching a p).idx + 1))
          else issueOne s w (w.latching a p) (p.wordAt (w.latching a p).idx))
          (s.unlatch (w.latching a p)) := by
  refine (if_neg ?_).trans rfl
  rw [Bool.not_eq_true', Bool.not_eq_false]
  split
  next j hx => exact hready j hx
  next => rfl

/-- A word that passes a pair over, or is alone, performs on its own. -/
theorem issueFrom_one (hready : w.wordReady a (p.wordAt (w.latching a p).idx))
    (halone : p.chained (w.latching a p).idx = false ∨ (w.unit a).skip = some (w.unit a).pc) :
    issueFrom s w a p
      = mapNext (issueOne s w (w.latching a p) (p.wordAt (w.latching a p).idx)) fun t =>
          s.unlatch (w.latching a p) (if (w.unit a).skip = some (w.unit a).pc then t.passPair (w.latching a p) else t) := by
  rw [issueFrom_ready hready]
  by_cases hskip : (w.unit a).skip = some (w.unit a).pc
  · simp only [if_pos hskip, mapNext_mapNext]
  · simp only [if_neg hskip, halone.resolve_right hskip, Bool.false_eq_true, if_false]

theorem issueFrom_pair (hready : w.wordReady a (p.wordAt (w.latching a p).idx)) (hskip : (w.unit a).skip ≠ some (w.unit a).pc)
    (hchained : p.chained (w.latching a p).idx = true) :
    issueFrom s w a p
      = mapNext (issuePair s (w.latching a p) { w.latching a p with idx := (w.latching a p).idx + 1, second := true } p.bothChained
            (p.wordAt (w.latching a p).idx) (p.wordAt ((w.latching a p).idx + 1)))
          (s.unlatch (w.latching a p)) := by
  rw [issueFrom_ready hready, if_neg hskip, if_pos hchained]

end

/-! ### A chained pair -/

/-- A legal pair is checked, and both of its words would perform (09 R206, R208, R210). -/
structure PairPerforms (s : State) (w : Wave) (i1 i2 : Issue) (both : Bool) (x y : Nat) (j j2 : Instr) (t1 t2 : State) : Prop where
  first : decodeWord x = .ok j
  second : decodeWord y = .ok j2
  latched : (s.latch i1).Latched w i1
  legal1 : illegalSub s w ((w.unit i1.arm).at i1) i1.lit j = none
  legal2 : illegalSub s w ((w.unit i1.arm).at i2) i2.lit j2 = none
  legalPair : chainSub (w.unit i1.arm).fmt (majorOf x) (majorOf y) j j2 both = none
  ready : w.sourcesReady i1.arm (w.unit i1.arm).fmt j2 = true
  mayAccess : (w.acquiring i1.arm && (accesses (majorOf x) || accesses (majorOf y))) = false
  exec1 : exec j (s.latch i1) = .next t1
  performed1 : t1.performed = true
  exec2 : exec j2 { s.latch i1 with issue := some i2 } = .next t2
  performed2 : t2.performed = true

section
variable {s : State} {w : Wave} {i1 i2 : Issue} {both : Bool} {x y : Nat} {j j2 : Instr} {t1 t2 : State}

theorem issuePair_performs (h : PairPerforms s w i1 i2 both x y j j2 t1 t2) :
    issuePair s i1 i2 both x y
      = if t2.sleepsInPair i2 then .next (t2.wordDone w (w.unit i1.arm) i2 y j2)
        else if t1.sleepsInPair i1 then .next (t1.wordDone w (w.unit i1.arm) i1 x j)
        else mapNext (exec j2 { t1 with issue := some i2 }) fun t3 =>
          (t3.wordDone w (w.unit i1.arm) i1 x j).wordDone w (w.unit i1.arm) i2 y j2 := by
  obtain ⟨hissue, hwave⟩ := h.latched
  simp only [issuePair, h.first, h.second, onUnit, hissue, hwave, h.legal1, h.legal2, h.legalPair, h.ready, h.mayAccess, h.exec1,
    h.performed1, h.exec2, h.performed2, Bool.not_true, Bool.or_false, Bool.false_eq_true, if_false]
  split
  · rfl
  · split
    · rfl
    · cases exec j2 { t1 with issue := some i2 } <;> rfl

end

/-! ### A step with a unit's turn -/

section
variable {s : State} {rest : List Turn} {a : Arm} {w w1 : Wave} {s1 : State} {p : FetchedPacket}

/-- The step of a unit that may issue and whose packet has been fetched. -/
theorem step_unit {s0 : State} (hs0 : s0 = { s with turn := rest, issue := none, call := .none })
    (hturn : s.turn = .unit w.seq w.wid a :: rest) (hwave : s0.wave? w.seq w.wid = some w) (hmay : s0.mayIssue w a = true)
    (hdog : s0.watchdogDue w = false) (hlate : w.late = [] ∨ w.handler ≠ none)
    (hfetch : ({ s0 with issue := some (w.fetching a) } : State).fetch w (w.fetching a) (w.unit a) = .packet s1 p)
    (hwave1 : s1.wave? w.seq w.wid = some w1) :
    step s = mapNext (issueFrom s1 w1 a p) fun t => (t.endSingleStep w.seq w.wid).endStep := by
  have hlater : (decide (w.late ≠ []) && w.handler.isNone) = false := by
    rcases hlate with hnone | hhandler
    · simp [hnone]
    · simp [Option.isNone_eq_false_iff, Option.isSome_iff_ne_none, hhandler]
  have hnext : performNext { s with issue := none, call := .none } = issueTurn s0 w a := by
    subst hs0
    simp only [performNext, hturn, performTurn, issueUnit, hwave, hmay, if_true]
  rw [step, hnext]
  simp only [issueTurn, hdog, hlater, Bool.false_eq_true, if_false, hfetch, hwave1, mapNext_mapNext]

end

/-- Settles O1: the step is `issueFrom`, which performs the word alone, or passes a pair over, or performs the pair. -/
theorem stepRunsDecodedInstruction : Obligations.StepRunsDecodedInstruction := by
  intro s rest a w w1 s1 p hturn s0 i0 hwave hmay hdog hlate hfetch hwave1 k x y i i2 ends chained passing passed
  have hstep : step s = mapNext (issueFrom s1 w1 a p) ends := step_unit rfl hturn hwave hmay hdog hlate hfetch hwave1
  have hone (hready : w1.wordReady a x) (halone : ¬ chained ∨ passing) :
      step s = mapNext (issueOne s1 w1 i x) fun t => ends (s1.unlatch i (if passing then t.passPair i else t)) := by
    have halone' : p.chained k = false ∨ passing :=
      halone.imp_left fun h => Bool.eq_false_iff.mpr fun hc => h (FetchedPacket.chained_iff.mp hc)
    rw [hstep, issueFrom_one hready halone', mapNext_mapNext]
    rfl
  refine ⟨fun j hx hready halone => ⟨fun hacq => ⟨fun hnot => ?performs, fun hpass => ?passes⟩, fun hacq => ?waits⟩,
    fun j hx hready => ?notReady, fun e hx halone => ?undecoded,
    fun j j2 wl t1 t2 t3 hx hy hchained hnot hready hlatched hlegal1 hlegal2 hpair hready2 hacq hexec1 hperf1 hexec2 hperf2 => ?pair⟩
  case performs =>
    rw [hone (Wave.wordReady_of_ready hx hready) halone, issueOne_decoded hx hacq, mapNext_mapNext]
    simp only [if_neg hnot]
    rfl
  case passes =>
    rw [hone (Wave.wordReady_of_ready hx hready) halone, issueOne_decoded hx hacq, mapNext_mapNext]
    simp only [if_pos hpass, State.passPair_wordDone]
    rfl
  case waits =>
    rw [hone (Wave.wordReady_of_ready hx hready) halone, issueOne_acquiring hx hacq]
    have hwaits := State.passPair_of_not_performed i (s1.waiting_performed i)
    simp only [mapNext, hwaits, ite_self]
  case notReady =>
    rw [hstep, issueFrom_not_ready hx hready]
    rfl
  case undecoded =>
    rw [hone (Wave.wordReady_of_undecoded hx) halone, issueOne_undecoded hx]
    refine mapNext_congr fun t ht => congrArg (fun u => ends (s1.unlatch i u)) ?_
    rw [State.passPair_of_not_performed i (illegalWord_not_performed ht), ite_self]
  case pair =>
    have hperforms : PairPerforms s1 wl i i2 p.bothChained x y j j2 t1 t2 :=
      ⟨hx, hy, hlatched, hlegal1, hlegal2, hpair, hready2, hacq, hexec1, hperf1, hexec2, hperf2⟩
    have hpairStep : step s = mapNext (issuePair s1 i i2 p.bothChained x y) fun t => ends (s1.unlatch i t) := by
      rw [hstep, issueFrom_pair (Wave.wordReady_of_ready hx hready) hnot
        (FetchedPacket.chained_iff.mpr hchained), mapNext_mapNext]
      rfl
    rw [hpairStep, issuePair_performs hperforms]
    refine ⟨fun hsleeps2 => ?_, fun hsleeps2 hsleeps1 => ?_, fun hsleeps2 hsleeps1 hexec3 => ?_⟩
    · rw [if_pos hsleeps2]
      rfl
    · rw [if_neg (Bool.eq_false_iff.mp hsleeps2), if_pos hsleeps1]
      rfl
    · rw [if_neg (Bool.eq_false_iff.mp hsleeps2), if_neg (Bool.eq_false_iff.mp hsleeps1), hexec3]
      rfl

end Sys2Proof.Machine
end

section
/-! PROOFS. O16: each uniform arithmetic word writes what its operation gives, said in the numbers that the words hold (09 R211; 10
R227). -/

namespace Sys2Proof.Machine
-- One proof at a time: the whole text is compiled in one process of bounded memory.
set_option Elab.async false

/-! ### Operations on words (10 R227) -/

/-- The high half of a product, read modulo 2^64 of the values' product. -/
theorem mulHigh_eq (x y : Word) : mulHigh x y = BitVec.ofInt 32 (x.toInt * y.toInt / 2 ^ 32) := by
  have hprod : x.signExtend 64 * y.signExtend 64 = BitVec.ofInt 64 (x.toInt * y.toInt) := (BitVec.ofInt_mul ..).symm
  apply BitVec.eq_of_toNat_eq
  rw [mulHigh, hprod]
  simp only [BitVec.extractLsb'_toNat, BitVec.toNat_ofInt, Nat.shiftRight_eq_div_pow]
  omega

theorem mulHighU_eq (x y : Word) : mulHighU x y = BitVec.ofNat 32 (x.toNat * y.toNat / 2 ^ 32) := by
  have hprod : x.setWidth 64 * y.setWidth 64 = BitVec.ofNat 64 (x.toNat * y.toNat) := by
    rw [BitVec.ofNat_mul, BitVec.ofNat_toNat, BitVec.ofNat_toNat]
  apply BitVec.eq_of_toNat_eq
  rw [mulHighU, hprod]
  simp only [BitVec.extractLsb'_toNat, BitVec.toNat_ofNat, Nat.shiftRight_eq_div_pow]
  omega

theorem minS_eq (x y : Word) : minS x y = if x.toInt ≤ y.toInt then x else y := by
  simp only [minS, BitVec.sle, decide_eq_true_eq]

theorem maxS_eq (x y : Word) : maxS x y = if x.toInt ≤ y.toInt then y else x := by
  simp only [maxS, BitVec.sle, decide_eq_true_eq]

theorem minU_eq (x y : Word) : minU x y = if x.toNat ≤ y.toNat then x else y := by
  simp only [minU, BitVec.ule, decide_eq_true_eq]

theorem maxU_eq (x y : Word) : maxU x y = if x.toNat ≤ y.toNat then y else x := by
  simp only [maxU, BitVec.ule, decide_eq_true_eq]

/-- The escape of a UI word is the field that stands for −512 (09 R211). -/
theorem immediate_eq (imm : BitVec 10) (lit : Word) :
    immediate imm lit = if imm.toInt = -512 then lit else BitVec.ofInt 32 imm.toInt := by
  have hescape : imm = 0x200 ↔ imm.toInt = -512 := by
    rw [← BitVec.toInt_inj]
    rfl
  simp only [immediate, hescape]
  rfl

/-! ### Words that write an s register (10 R226) -/

section
variable {s : State} {w : Wave} {i : Issue} {x : Instr} {d a b : BitVec 6} {g : BitVec 3}

/-- A legal word of two sources writes what its operation gives. -/
theorem exec_uBin {f : Word → Word → Word} {r : Word} (hexec : exec x s = uGuarded s x g fun v => v.uBin f d a b)
    (hlegal : s.Legal w i x) (hq : w.qPoison g.toNat = false) (hr : f (w.s a.toNat) (w.s b.toNat) = r) :
    exec x s = s.wroteS w i g d r (w.sPoison a.toNat || w.sPoison b.toNat) := by
  rw [hexec, uGuarded_of hlegal hq, State.wroteS, ← hr]
  rfl

/-- A legal word of one source writes what its operation gives. -/
theorem exec_uUn {f : Word → Word} {r : Word} (hexec : exec x s = uGuarded s x g fun v => v.uUn f d a)
    (hlegal : s.Legal w i x) (hq : w.qPoison g.toNat = false) (hr : f (w.s a.toNat) = r) :
    exec x s = s.wroteS w i g d r (w.sPoison a.toNat) := by
  rw [hexec, uGuarded_of hlegal hq, State.wroteS, ← hr]
  rfl

/-- A legal word with an immediate. -/
theorem exec_uImm {f : Word → Word → Word} {imm : BitVec 10} (hexec : exec x s = uImm s x f d a imm) (hlegal : s.Legal w i x) :
    exec x s = s.wroteS w i 0 d (f (w.s a.toNat) (if imm.toInt = -512 then i.lit else BitVec.ofInt 32 imm.toInt))
      (w.sPoison a.toNat) := by
  rw [hexec, uImm_of hlegal, ← immediate_eq]
  rfl

end

theorem uniformArithmetic : Claims.UniformArithmetic := by
  intro s w i d a b g hl hq
  refine ⟨fun p hp => ?_, exec_uUn rfl ⟨hl, rfl⟩ hq rfl⟩
  have hword : ∃ f, exec p.1 s = uGuarded s p.1 g (fun v => v.uBin f d a b) ∧ s.Legal w i p.1 ∧ ∀ y z, f y z = p.2 y z := by
    simp only [List.mem_cons, List.not_mem_nil, or_false] at hp
    obtain rfl | rfl | rfl | rfl | rfl | rfl | rfl | rfl | rfl | rfl | rfl | rfl | rfl | rfl | rfl := hp
    case inr.inr.inr.inl => exact ⟨_, rfl, ⟨hl, rfl⟩, mulHigh_eq⟩
    case inr.inr.inr.inr.inl => exact ⟨_, rfl, ⟨hl, rfl⟩, mulHighU_eq⟩
    case inr.inr.inr.inr.inr.inr.inr.inr.inr.inr.inr.inl => exact ⟨_, rfl, ⟨hl, rfl⟩, minS_eq⟩
    case inr.inr.inr.inr.inr.inr.inr.inr.inr.inr.inr.inr.inl => exact ⟨_, rfl, ⟨hl, rfl⟩, maxS_eq⟩
    case inr.inr.inr.inr.inr.inr.inr.inr.inr.inr.inr.inr.inr.inl => exact ⟨_, rfl, ⟨hl, rfl⟩, minU_eq⟩
    case inr.inr.inr.inr.inr.inr.inr.inr.inr.inr.inr.inr.inr.inr => exact ⟨_, rfl, ⟨hl, rfl⟩, maxU_eq⟩
    all_goals exact ⟨_, rfl, ⟨hl, rfl⟩, fun _ _ => rfl⟩
  obtain ⟨f, hexec, hlegal, hf⟩ := hword
  exact exec_uBin hexec hlegal hq (hf _ _)

theorem uniformImmediate : Claims.UniformImmediate := by
  intro s w i d a imm hl p hp
  simp only [List.mem_cons, List.not_mem_nil, or_false] at hp
  rcases hp with rfl | rfl | rfl | rfl | rfl | rfl | rfl | rfl <;> exact exec_uImm rfl ⟨hl, rfl⟩

/-- Settles O16: each word writes what its operation gives (`exec_uBin`, `exec_uImm`). -/
theorem uniformArithmeticWords : Obligations.UniformArithmeticWords := ⟨uniformArithmetic, uniformImmediate⟩

end Sys2Proof.Machine
end

section
/-! PROOFS. O17: counts, fields, conditions and uniform predicates, bit by bit (10 R228, R229). -/

namespace Sys2Proof.Machine
set_option Elab.async false

/-! ### Counts (10 R229) -/

theorem clzFrom_eq (a : Nat) : ∀ n, a < 2 ^ n → clzFrom a n = if a = 0 then n else n - 1 - Nat.log2 a
  | 0, h => by
    obtain rfl : a = 0 := by omega
    rfl
  | n + 1, h => by
    rw [clzFrom]
    split
    case isTrue htop =>
      have hge : 2 ^ n ≤ a := Nat.ge_two_pow_of_testBit htop
      have hpos : a ≠ 0 := by have := Nat.two_pow_pos n; omega
      have hlog : Nat.log2 a = n := (Nat.log2_eq_iff hpos).mpr ⟨hge, h⟩
      rw [if_neg hpos, hlog]
      omega
    case isFalse htop =>
      have hlt : a < 2 ^ n := by
        by_contra hge
        exact htop (Nat.testBit_of_two_pow_le_and_two_pow_add_one_gt (by omega) h)
      rw [clzFrom_eq a n hlt]
      split
      · omega
      · next hpos =>
        have := (Nat.log2_lt hpos).mpr hlt
        omega

theorem clz_eq (x : Word) : clz x = BitVec.ofNat 32 (if x = 0 then 32 else 31 - Nat.log2 x.toNat) := by
  have hzero : x.toNat = 0 ↔ x = 0 := BitVec.toNat_inj (y := 0)
  rw [clz, clzFrom_eq _ _ x.isLt]
  simp only [hzero, Nat.reduceSub]

theorem popFrom_eq (a : Nat) : ∀ n, popFrom a n = ((List.range n).filter fun k => a.testBit k).length
  | 0 => rfl
  | n + 1 => by
    rw [popFrom, popFrom_eq a n, List.range_succ, List.filter_append, List.length_append]
    cases h : a.testBit n <;> simp [h, bitOf, Nat.add_comm]

theorem popc_eq (x : Word) : popc x = BitVec.ofNat 32 ((List.range 32).filter fun k => x.getLsbD k).length := by
  rw [popc, popFrom_eq]
  rfl

theorem getLsbD_brev (x : Word) {k : Nat} (hk : k < 32) : (brev x).getLsbD k = x.getLsbD (31 - k) := by
  rw [brev, BitVec.getLsbD_reverse, BitVec.getMsbD_eq_getLsbD]
  simp [hk]

/-! ### Fields (10 R229) -/

theorem fieldPos_eq (c : Word) : fieldPos c = c.toNat % 32 := by
  simp [fieldPos, bitsAt]

theorem fieldWidth_eq (c : Word) : fieldWidth c = min (c.toNat / 256 % 64) 32 := rfl

theorem getLsbD_fieldMask (c : Word) {k : Nat} (hk : k < 32) :
    (fieldMask c).getLsbD k = decide (fieldPos c ≤ k ∧ k < fieldPos c + fieldWidth c) := by
  rw [fieldMask, BitVec.getLsbD_ofNat, Nat.testBit_mul_two_pow, Nat.testBit_two_pow_sub_one]
  simp only [hk, decide_true, Bool.true_and, ← Bool.decide_and]
  apply decide_eq_decide.mpr
  omega

/-- A word below 2^n less 2^n has every bit from n up. -/
theorem getLsbD_sub_two_pow {f : Word} {n k : Nat} (hn : n ≤ 32) (hf : f.toNat < 2 ^ n) (hk : k < 32) :
    (f - BitVec.ofNat 32 (2 ^ n)).getLsbD k = (if k < n then f.getLsbD k else true) := by
  have hsum : (f - BitVec.ofNat 32 (2 ^ n)).toNat = f.toNat + 2 ^ n * (2 ^ (32 - n) - 1) := by
    have hpow : 2 ^ n * 2 ^ (32 - n) = 2 ^ 32 := by rw [← Nat.pow_add]; congr 1; omega
    have hle : 2 ^ n ≤ 2 ^ 32 := Nat.pow_le_pow_right (by decide) hn
    rw [BitVec.toNat_sub, BitVec.toNat_ofNat, Nat.mul_sub, hpow]
    obtain hlt | heq := hle.lt_or_eq
    · rw [Nat.mod_eq_of_lt hlt]; omega
    · rw [heq]; omega
  rw [BitVec.getLsbD, hsum, testBit_add_two_pow_mul hf, Nat.testBit_two_pow_sub_one]
  split
  · rfl
  · exact decide_eq_true (by omega)

section
variable (a c : Word)

/-- The field before its sign is extended: WIDTH bits from POS up, and none above. -/
theorem getLsbD_unsignedField (k : Nat) : ((a &&& fieldMask c) >>> fieldPos c).getLsbD k
    = (decide (k < fieldWidth c) && decide (fieldPos c + k < 32) && a.getLsbD (fieldPos c + k)) := by
  rw [BitVec.getLsbD_ushiftRight, BitVec.getLsbD_and]
  by_cases hk : fieldPos c + k < 32
  · rw [getLsbD_fieldMask c hk]
    simp [hk, Bool.and_comm]
  · simp [hk, BitVec.getLsbD_of_ge a _ (Nat.not_lt.mp hk)]

theorem unsignedField_lt : ((a &&& fieldMask c) >>> fieldPos c).toNat < 2 ^ fieldWidth c := by
  refine Nat.lt_pow_two_of_testBit _ fun k hk => ?_
  have hbit := getLsbD_unsignedField a c k
  rw [decide_eq_false (Nat.not_lt.mpr hk)] at hbit
  exact hbit

/-- Whether the field's sign is extended: SIGN asks for it, the field lies in the word, and its top bit is 1. -/
theorem extends_eq : (c.getLsbD 16 && decide (0 < fieldWidth c) && decide (fieldPos c + fieldWidth c ≤ 32)
      && ((a &&& fieldMask c) >>> fieldPos c).getLsbD (fieldWidth c - 1))
    = (c.getLsbD 16 && decide (0 < fieldWidth c ∧ fieldPos c + fieldWidth c ≤ 32)
      && a.getLsbD (fieldPos c + fieldWidth c - 1)) := by
  rw [getLsbD_unsignedField, Bool.and_assoc (c.getLsbD 16), ← Bool.decide_and]
  by_cases hfits : 0 < fieldWidth c ∧ fieldPos c + fieldWidth c ≤ 32
  · have hlast : fieldPos c + (fieldWidth c - 1) = fieldPos c + fieldWidth c - 1 := by omega
    simp [hfits, hlast, show fieldPos c + fieldWidth c - 1 < 32 by omega]
  · simp only [decide_eq_false hfits, Bool.and_false, Bool.false_and]

theorem getLsbD_bfx {k : Nat} (hk : k < 32) : (bfx a c).getLsbD k =
    (if k < fieldWidth c then decide (fieldPos c + k < 32) && a.getLsbD (fieldPos c + k)
     else c.getLsbD 16 && decide (0 < fieldWidth c ∧ fieldPos c + fieldWidth c ≤ 32)
       && a.getLsbD (fieldPos c + fieldWidth c - 1)) := by
  have hwidth : fieldWidth c ≤ 32 := Nat.min_le_right _ _
  dsimp only [bfx]
  rw [extends_eq]
  split
  case isTrue hs =>
    rw [getLsbD_sub_two_pow hwidth (unsignedField_lt a c) hk, getLsbD_unsignedField, hs]
    split
    case isTrue hin => simp [hin]
    case isFalse => rfl
  case isFalse hs =>
    rw [getLsbD_unsignedField, Bool.eq_false_iff.mpr hs]
    by_cases hin : k < fieldWidth c <;> simp [hin]

theorem getLsbD_bfi (d : Word) {k : Nat} (hk : k < 32) : (bfi d a c).getLsbD k =
    (if fieldPos c ≤ k ∧ k < fieldPos c + fieldWidth c then a.getLsbD (k - fieldPos c) else d.getLsbD k) := by
  simp only [bfi, BitVec.getLsbD_or, BitVec.getLsbD_and, BitVec.getLsbD_not, BitVec.getLsbD_shiftLeft,
    getLsbD_fieldMask c hk, hk, decide_true, Bool.true_and]
  by_cases hin : fieldPos c ≤ k ∧ k < fieldPos c + fieldWidth c <;> simp [hin]

end

theorem uniformBits : Claims.UniformBits := by
  intro s w i d a b g hl hq
  refine ⟨exec_uUn rfl ⟨hl, rfl⟩ hq (clz_eq _), exec_uUn rfl ⟨hl, rfl⟩ hq (popc_eq _),
    ⟨brev (w.s a.toNat), fun k => getLsbD_brev _, exec_uUn rfl ⟨hl, rfl⟩ hq rfl⟩,
    ⟨bfx (w.s a.toNat) (w.s b.toNat), fun k hk => ?_, exec_uBin rfl ⟨hl, rfl⟩ hq rfl⟩,
    ⟨bfi (w.s d.toNat) (w.s a.toNat) (w.s b.toNat), fun k hk => ?_, ?_⟩⟩
  · rw [getLsbD_bfx _ _ hk, fieldPos_eq, fieldWidth_eq]
  · rw [getLsbD_bfi _ _ _ hk, fieldPos_eq, fieldWidth_eq]
  · change execUbfi d a b g s = _
    rw [execUbfi, uGuarded_of ⟨hl, illegal_ubfi s w _ i.lit d a b g⟩ hq]
    rfl

/-! ### Conditions (10 R228) -/

theorem badQ_of_le {q : BitVec 6} (h : q.toNat ≤ 7) : badQ q = false := decide_eq_false (Nat.not_lt.mpr h)

section
variable {s : State} {w : Wave} {i : Issue} {q a b : BitVec 6} {f : Word → Word → Bool}

theorem exec_ucmp {cc : BitVec 4} {g : BitVec 3} (hl : s.Latched w i) (hreg : q.toNat ≤ 7) (hcc : condition cc.toNat = f)
    (hq : w.qPoison g.toNat = false) : exec (.ucmp cc q a b g) s
      = s.wroteQ w i g q (f (w.s a.toNat) (w.s b.toNat)) (w.sPoison a.toNat || w.sPoison b.toNat) := by
  change execUcmp cc q a b g s = _
  rw [execUcmp, uGuarded_of ⟨hl, by simp [badQ_of_le hreg]⟩ hq, hcc]
  rfl

theorem exec_ucmpi {cc : BitVec 3} {imm : BitVec 10} (hl : s.Latched w i) (hreg : q.toNat ≤ 7) (hcc : condition cc.toNat = f) :
    exec (.ucmpi cc q a imm) s
      = s.wroteQ w i 0 q (f (w.s a.toNat) (if imm.toInt = -512 then i.lit else BitVec.ofInt 32 imm.toInt)) (w.sPoison a.toNat) := by
  change execUcmpi cc q a imm s = _
  rw [execUcmpi, whenLegal_of ⟨hl, by simp [badQ_of_le hreg]⟩, hcc, immediate_eq]
  rfl

end

theorem uniformCompare : Claims.UniformCompare := by
  intro s w i q a b g imm hl hreg p hp
  simp only [List.mem_cons, List.not_mem_nil, or_false] at hp
  rcases hp with rfl | rfl | rfl | rfl | rfl | rfl <;> exact ⟨exec_ucmp hl hreg rfl, exec_ucmpi hl hreg rfl⟩

/-! ### Uniform predicates (10 R229) -/

/-- Bits as a number: bit k is the k-th. -/
theorem sum_bits (b : Nat → Bool) : ∀ n, ((List.range n).map fun i => bitOf (b i) * 2 ^ i).sum < 2 ^ n
    ∧ ∀ k, (((List.range n).map fun i => bitOf (b i) * 2 ^ i).sum).testBit k = (decide (k < n) && b k)
  | 0 => by simp
  | n + 1 => by
    obtain ⟨hlt, hbits⟩ := sum_bits b n
    rw [List.range_succ, List.map_append, List.sum_append, List.map_singleton, List.sum_singleton, Nat.mul_comm]
    refine ⟨?_, fun k => ?_⟩
    · have hbit : bitOf (b n) ≤ 1 := by cases b n <;> decide
      have htop := Nat.mul_le_mul_left (2 ^ n) hbit
      omega
    · rw [testBit_add_two_pow_mul hlt, hbits]
      obtain hk | rfl | hk := Nat.lt_trichotomy k n
      · simp [hk, hk.trans (Nat.lt_succ_self n)]
      · cases h : b k <;> simp [bitOf]
      · obtain ⟨j, rfl⟩ := Nat.exists_eq_add_of_lt hk
        have hin : ¬ n + j + 1 < n := by omega
        have hj : n + j + 1 - n = j + 1 := by omega
        cases b n <;> simp [bitOf, hin, hj, Nat.testBit_succ]

/-- The q registers that a list names, each written with its own bit and one poison. -/
def Wave.setQs (w : Wave) (v : Nat → Bool) (p : Bool) (l : List Nat) : Wave := l.foldl (fun x i => x.setQ i (v i) p) w

theorem Wave.setQ_frame (w : Wave) (n : Nat) (x p : Bool) : ∃ r z, w.setQ n x p = { w with qregs := r, qpoison := z } := by
  unfold Wave.setQ
  split
  · exact ⟨w.qregs, w.qpoison, rfl⟩
  · exact ⟨_, _, rfl⟩

section
variable (v : Nat → Bool) (p : Bool)

theorem Wave.setQs_frame : ∀ (l : List Nat) (w : Wave), ∃ r z, w.setQs v p l = { w with qregs := r, qpoison := z }
  | [], w => ⟨w.qregs, w.qpoison, rfl⟩
  | n :: l, w => by
    obtain ⟨r, z, hfirst⟩ := w.setQ_frame n (v n) p
    obtain ⟨r', z', hrest⟩ := Wave.setQs_frame l (w.setQ n (v n) p)
    refine ⟨r', z', hrest.trans ?_⟩
    rw [hfirst]

theorem Wave.q_setQs {n : Nat} (hn : n ≠ 0) : ∀ {l : List Nat} (w : Wave), (∀ k ∈ l, k < 8) →
    (w.setQs v p l).q n = (if n ∈ l then v n else w.q n)
    ∧ (w.setQs v p l).qPoison n = (if n ∈ l then p else w.qPoison n)
  | [], w, _ => by simp [Wave.setQs]
  | k :: l, w, hl => by
    obtain ⟨hbit, hpoison⟩ := Wave.q_setQs hn (w.setQ k (v k) p) fun j hj => hl j (List.mem_cons_of_mem _ hj)
    change ((w.setQ k (v k) p).setQs v p l).q n = _ ∧ ((w.setQ k (v k) p).setQs v p l).qPoison n = _
    rw [hbit, hpoison]
    by_cases h0 : k = 0
    · subst h0
      simp [hn, Wave.setQ]
    · rw [Wave.q_setQ _ _ _ _ (hl k List.mem_cons_self) h0, Wave.qPoison_setQ _ _ _ _ (hl k List.mem_cons_self) h0]
      by_cases hk : n = k
      · subst hk
        simp
      · simp [hk]

end

theorem uniformPredicates : Claims.UniformPredicates := by
  intro s w i d a b q hl
  refine ⟨?_, fun hd ha hb p hp => ?_, ⟨BitVec.ofNat 32 ((List.range 8).map fun i => bitOf (w.q i) * 2 ^ i).sum, fun k hk => ?_, ?_⟩,
    ⟨w.setQs (fun k => (w.s a.toNat).getLsbD k) (w.sPoison a.toNat) (List.range 8), ?_, fun n hn => ?_, ?_⟩⟩
  · change execUsel d a b q s = _
    rw [execUsel, whenLegal_of ⟨hl, illegal_usel s w _ i.lit d a b q⟩]
    cases w.q q.toNat <;> rfl
  · simp only [List.mem_cons, List.not_mem_nil, or_false] at hp
    have hlegal (o : BitVec 3) : s.Legal w i (.uqop d a b o) := ⟨hl, by simp [badQ_of_le, hd, ha, hb]⟩
    have hexec (o : BitVec 3) : exec (.uqop d a b o) s = s.wroteQ w i 0 d (qop o.toNat (w.q a.toNat) (w.q b.toNat))
        (w.qPoison a.toNat || (o ≠ 4 && w.qPoison b.toNat)) := by
      change execUqop d a b o s = _
      rw [execUqop, whenLegal_of (hlegal o)]
      rfl
    rcases hp with rfl | rfl | rfl | rfl | rfl | rfl | rfl | rfl <;> exact hexec _
  · rw [BitVec.getLsbD_ofNat, (sum_bits _ 8).2, decide_eq_true hk, Bool.true_and]
  · change execUqmovTos d s = _
    rw [execUqmovTos, whenLegal_of ⟨hl, illegal_uqmovTos s w _ i.lit d⟩]
    rfl
  · obtain ⟨r, z, hframe⟩ := Wave.setQs_frame (fun k => (w.s a.toNat).getLsbD k) (w.sPoison a.toNat) (List.range 8) w
    rw [hframe]
  · by_cases h0 : n = 0
    · subst h0
      exact ⟨rfl, rfl⟩
    · obtain ⟨hbit, hpoison⟩ := Wave.q_setQs (fun k => (w.s a.toNat).getLsbD k) (w.sPoison a.toNat) h0 w
        (l := List.range 8) fun k => List.mem_range.mp
      rw [hbit, hpoison]
      simp [hn, h0]
  · change execUqmovFroms a s = _
    rw [execUqmovFroms, whenLegal_of ⟨hl, illegal_uqmovFroms s w _ i.lit a⟩]
    rfl

/-- Settles O17: the bits of the results, the conditions, and the uniform predicates. -/
theorem uniformBitAndPredicateWords : Obligations.UniformBitAndPredicateWords := ⟨uniformBits, uniformCompare, uniformPredicates⟩

end Sys2Proof.Machine
end

section
/-! PROOFS. O28: branches taken and not (10 R232). -/

namespace Sys2Proof.Machine
set_option Elab.async false

section
variable {s : State} {w : Wave} {i : Issue} {q : BitVec 3} {a : BitVec 6} (hl : s.Latched w i) (hq : w.qPoison q.toNat = false)
include hl hq

/-- A conditional branch goes when its q register holds the value that it asks for. -/
theorem condBranch_of {x : Instr} {o : BitVec 19} (hlegal : illegalSub s w ((w.issuing i).at i) i.lit x = none) (neg : Bool) :
    condBranch s x q neg o = if w.q q.toNat = !neg then s.wentTo w i (i.target o.toInt) else .next (s.after w i) := by
  rw [condBranch, whenLegal_of ⟨hl, hlegal⟩]
  simp only [hq, Bool.false_eq_true, if_false, beq_iff_eq, finish_eq]
  rfl

/-- JMPI with its registers clean. -/
theorem exec_jmpi (ha : w.sPoison a.toNat = false) : exec (.jmpi q a) s
    = if w.q q.toNat = false then .next (s.after w i)
      else if (w.s a.toNat).toNat % 16 ≠ 0 then takeTrap s w i 3 0 (s.codeVa w (w.s a.toNat).toNat)
      else s.wentTo w i (w.s a.toNat).toNat := by
  change execJmpi q a s = _
  rw [execJmpi, whenLegal_of ⟨hl, illegal_jmpi s w _ i.lit q a⟩]
  simp only [hq, ha, Bool.or_self, Bool.false_eq_true, if_false, Bool.not_eq_true', finish_eq]
  rfl

end

/-- Settles O28: the two conditional branches by `condBranch_of`, and the jump by its cases. -/
theorem branches : Obligations.Branches := by
  intro s w i q o a hl hq
  refine ⟨?_, ?_, fun ha => ⟨fun h0 => ?_, fun h1 hin => ?_, fun h1 hoff htrap => ?_⟩⟩
  · exact condBranch_of hl hq (illegal_bra s w _ i.lit q o) false
  · refine (condBranch_of hl hq (illegal_bran s w _ i.lit q o) true).trans ?_
    cases w.q q.toNat <;> rfl
  · rw [exec_jmpi hl hq ha, if_pos h0]
  · rw [exec_jmpi hl hq ha, if_neg (by simp [h1]), if_neg (not_not.mpr hin)]
  · rw [exec_jmpi hl hq ha, if_neg (by simp [h1]), if_pos hoff, takeTrap_of_canTrap htrap]

end Sys2Proof.Machine
end

section
/-! PROOFS. O32: the words that may sleep (10 R245, R246). -/

namespace Sys2Proof.Machine
set_option Elab.async false

/-- A time has passed when CYC is past it by less than half of its range (05 R143). -/
theorem State.passed_eq (s : State) {t : Nat} (ht : t < 2 ^ 48) :
    s.passed t = decide (1 ≤ (s.now48 + 2 ^ 48 - t) % 2 ^ 48 ∧ (s.now48 + 2 ^ 48 - t) % 2 ^ 48 < 2 ^ 47) := by
  have hnow : s.now48 < 2 ^ 48 := Nat.mod_lt _ (by decide)
  simp only [State.passed, later48, Nat.mod_eq_of_lt ht, ← Bool.decide_and]
  by_cases hpast : 1 ≤ (s.now48 + 2 ^ 48 - t) % 2 ^ 48 ∧ (s.now48 + 2 ^ 48 - t) % 2 ^ 48 < 2 ^ 47
  · have hne : t ≠ s.now48 := by
      rintro rfl
      omega
    simp [hne]
  · rw [if_neg (by simpa using hpast), decide_eq_false hpast]
    by_cases he : t = s.now48 <;> simp [he]

section
variable {s : State} {w : Wave} {i : Issue} {k : BitVec 5} (hl : s.Latched w i) (hpair : w.sPairPoison (2 * k.toNat) = false)
include hl hpair

theorem exec_sleepuntil : exec (.sleepuntil k) s
    = if s.passed (w.sPair (2 * k.toNat) % 2 ^ 48) = true then .next (s.after w i)
      else s.slept w i (.sleepUntil (w.sPair (2 * k.toNat) % 2 ^ 48)) := by
  change execSleepuntil k s = _
  rw [execSleepuntil, whenLegal_of ⟨hl, illegal_sleepuntil s w _ i.lit k⟩]
  simp only [hpair, Bool.false_eq_true, if_false, finish_eq, sleepWith_eq]

/-- WAITLINE of a line that it may wait on, whose word it has read. -/
theorem exec_waitline {sx sy : BitVec 6} {pa val key : Nat} {e e1 : TlbEntry} {s1 : State} (hx : w.sPoison sx.toNat = false)
    (hy : w.sPoison sy.toNat = false) (haligned : w.sPair (2 * k.toNat) % 4 = 0)
    (hxlate : s.waveXlate w (w.issuing i) (w.sPair (2 * k.toNat)) 4 .read = .ok pa e) (hrelay : e.tier ≠ .relay)
    (haperture : e.tier ≠ .aperture) (hread : s.readData w i (w.issuing i) (w.sPair (2 * k.toNat)) 4 true = .ok s1 val none key e1) :
    exec (.waitline k sx sy) s = if val ≠ (w.s sx.toNat).toNat then .next (s1.after (s1.again w) i)
      else s1.slept (s1.again w) i
        (.line (lineKey key) (if (w.s sy.toNat).toNat = 0 then 0 else s.now + (w.s sy.toNat).toNat) false) := by
  change execWaitline k sx sy s = _
  rw [execWaitline, baseAccess_of ⟨hl, illegal_waitline s w _ i.lit k sx sy⟩ hpair]
  simp only [hx, hy, haligned, hxlate, hrelay, haperture, hread, Bool.or_self, decide_false, Bool.false_eq_true, if_false, ne_eq,
    not_true, finish_eq, sleepWith_eq]

end

/-- Settles O32: both words by the lemmas above. -/
theorem sleeps : Obligations.Sleeps := by
  intro s w i k sx sy hl hpair
  refine ⟨?_, fun pa e e1 s1 val key hx hy haligned hxlate hrelay haperture hread =>
    exec_waitline hl hpair hx hy haligned hxlate hrelay haperture hread⟩
  rw [exec_sleepuntil hl hpair, State.passed_eq s (Nat.mod_lt _ (by decide))]
  simp only [decide_eq_true_eq]

end Sys2Proof.Machine
end

section
/-! PROOFS. O33: the traps of TRAP and BKPT, and the return from a handler (10 R247; 14 R331 to R333, R337). -/

namespace Sys2Proof.Machine
set_option Elab.async false

/-! ### Waves replaced one after the other -/

theorem State.setWave_setWave {s : State} {y z : Wave} (hseq : z.seq = y.seq) (hwid : z.wid = y.wid) :
    (s.setWave y).setWave z = s.setWave z := by
  simp only [State.setWave, mapWhere, List.map_map]
  congr 1
  apply List.map_congr_left
  intro x _
  by_cases hx : x.seq = y.seq ∧ x.wid = y.wid <;> simp [hx, hseq, hwid]

/-- A wave that has taken the place of one of its names is the wave of these names. -/
theorem State.wave?_setWave_same {s : State} {w y : Wave} (hw : s.wave? w.seq w.wid = some w) (hseq : y.seq = w.seq)
    (hwid : y.wid = w.wid) : (s.setWave y).wave? y.seq y.wid = some y := by
  rw [State.wave?_setWave, if_pos ⟨rfl, rfl⟩, hseq, hwid, hw]
  rfl

/-! ### The handler entered, and left (14 R331 to R333) -/

theorem State.enterTrap_of_canTrap {w : Wave} (h : w.canTrap) (s : State) (a : Arm) (pc cause sub addr : Nat) (second : Bool)
    (x : Wait) : s.enterTrap w a pc cause sub addr second x = s.setWave (w.entered a pc cause sub addr second x) := by
  obtain ⟨hbase, hhandler⟩ := h
  have hnone : ¬ w.handler.isSome = true := by simp [hhandler]
  simp only [State.enterTrap, if_neg hnone, if_neg hbase]
  rfl

theorem State.watchdogDue_of_noWatchdog {s : State} {w : Wave} (h : s.noWatchdog w) : s.watchdogDue w = false := by
  unfold State.watchdogDue
  split
  case h_1 => rfl
  case h_2 p hp =>
    obtain h0 | hlt := h p hp
    · simp [h0]
    · simp [Nat.not_le.mpr hlt]

/-- The wave as its handler's RTE leaves it, before another unit is looked at. -/
def Wave.returned (w : Wave) (a : Arm) (h : HandlerSt) : Wave :=
  Wave.setUnit { w with handler := none } a
    { w.unit a with
      pc := if w.trapPc.toNat % 16 = 12 then w.trapPc.toNat + 4 else w.trapPc.toNat, fmt := w.savedFmt,
      wait := h.wait, skip := h.skip, ibuf := none, refusals := [], looked := false, table := [], atBank := none }

section
variable (w : Wave) (a : Arm) (h : HandlerSt)

theorem Wave.returned_names : (w.returned a h).seq = w.seq ∧ (w.returned a h).wid = w.wid := by
  cases a <;> exact ⟨rfl, rfl⟩

theorem Wave.unit_returned_other : (w.returned a h).unit a.other = w.unit a.other := by
  cases a <;> rfl

theorem Wave.wait_returned : ((w.returned a h).unit a).wait = h.wait := by
  cases a <;> rfl

end

section
variable {s : State} {w : Wave} {i : Issue} {h : HandlerSt} (hl : s.Latched w i)
include hl

theorem exec_trap (n : BitVec 8) : exec (.trap n) s = takeTrap s w i 15 n.toNat 0 := by
  change execTrap n s = _
  rw [execTrap, whenLegal_of ⟨hl, illegal_trap s w _ i.lit n⟩]

theorem exec_bkpt (n : BitVec 8) : exec (.bkpt n) s = if ((s.part? w.part).map Part.debug).getD false = true
    then .next (s.debugStop w 0).trapped else takeTrap s w i 14 n.toNat 0 := by
  change execBkpt n s = _
  rw [execBkpt, whenLegal_of ⟨hl, illegal_bkpt s w _ i.lit n⟩]

variable (hhandler : w.handler = some h) (hdepth : (w.issuing i).open ≤ h.depth)
  (hwait : h.wait = .none ∨ ∃ t, h.wait = .sleepUntil t)
include hhandler hdepth hwait

/-- An RTE whose own unit has nothing to be looked at returns, and looks at the fault of the other unit. -/
theorem exec_rte : exec .rte s
    = .next ((s.setWave (w.returned i.arm h)).resumeOther (w.returned i.arm h) i.arm.other) := by
  obtain ⟨hseq, hwid⟩ := w.returned_names i.arm h
  have hreturn : s.returnFromTrap w i.arm h = s.setWave (w.returned i.arm h) := rfl
  have hown : (s.setWave (w.returned i.arm h)).resumeWait (w.returned i.arm h) i.arm = s.setWave (w.returned i.arm h) := by
    rw [State.resumeWait, Wave.wait_returned]
    obtain hn | ⟨t, ht⟩ := hwait
    · rw [hn]
    · rw [ht]
  have hagain : (s.setWave (w.returned i.arm h)).again w = w.returned i.arm h := by
    rw [State.again, ← hseq, ← hwid, State.wave?_setWave_same hl.wave hseq hwid]
    rfl
  have hagain' : (s.setWave (w.returned i.arm h)).again (w.returned i.arm h) = w.returned i.arm h :=
    State.again_of (State.wave?_setWave_same hl.wave hseq hwid)
  change execRte s = _
  rw [execRte, whenLegal_of ⟨hl, by simp [hhandler]⟩]
  simp only [hhandler, Nat.not_lt.mpr hdepth, if_false, hreturn, hagain, hown]

end

/-! ### The other unit's fault (14 R337) -/

section
variable {s : State} {y : Wave} {a : Arm} {tag va asid sub at' : Nat} {kind : AccKind} {posted c : Bool}

/-- A unit at no fault with an answer is left as it is. -/
theorem State.resumeOther_unanswered
    (hfatal : ∀ tag va asid sub kind posted at2 c, (y.unit a).wait ≠ .fault tag va asid sub kind posted 2 at2 c)
    (hreplay : ∀ tag va asid sub kind posted at2 c, (y.unit a).wait ≠ .fault tag va asid sub kind posted 1 at2 c) :
    s.resumeOther y a = s := by
  rw [State.resumeOther]
  split
  case h_2 => rfl
  case h_1 tag va asid sub kind posted answer at2 c hfault =>
    have h1 : answer ≠ 1 := by
      rintro rfl
      exact hreplay _ _ _ _ _ _ _ _ hfault
    have h2 : answer ≠ 2 := by
      rintro rfl
      exact hfatal _ _ _ _ _ _ _ _ hfault
    simp only [State.resumeWait, hfault, if_neg h1, if_neg h2]

theorem State.resumeOther_replayed (h : (y.unit a).wait = .fault tag va asid sub kind posted 1 at' c) :
    s.resumeOther y a = s.setWave (y.setUnit a { y.unit a with wait := .none, ready := s.now }) := by
  simp only [State.resumeOther, State.resumeWait, h, if_true]

/-- A fault answered FATAL enters the handler, when no trap that is due comes first (R333). -/
theorem State.resumeOther_fatal (h : (y.unit a).wait = .fault tag va asid sub kind posted 2 at' c) (htrap : y.canTrap)
    (hwatchdog : s.noWatchdog y) (hlate : y.late = []) (hstep : y.dbgStep = none) (hy : s.wave? y.seq y.wid = some y) :
    s.resumeOther y a = s.setWave (y.entered a at' (refusalCause sub) sub va c .none) := by
  have hkeeps : (s.setWave (y.entered a at' (refusalCause sub) sub va c .none)).stopStep y.seq y.wid
      = s.setWave (y.entered a at' (refusalCause sub) sub va c .none) := by
    have hentered : (y.entered a at' (refusalCause sub) sub va c .none).seq = y.seq
        ∧ (y.entered a at' (refusalCause sub) sub va c .none).wid = y.wid
        ∧ (y.entered a at' (refusalCause sub) sub va c .none).dbgStep = y.dbgStep := by
      cases a <;> exact ⟨rfl, rfl, rfl⟩
    obtain ⟨hseq, hwid, hdbg⟩ := hentered
    have hfound := State.wave?_setWave_same hy hseq hwid
    rw [hseq, hwid] at hfound
    simp only [State.stopStep, hfound, hdbg, hstep, Option.isSome_none, Bool.false_eq_true, if_false]
  simp only [State.resumeOther, State.resumeWait, h, State.fatalTrap, State.watchdogDue_of_noWatchdog hwatchdog, hlate,
    State.enterTrap_of_canTrap htrap, hkeeps, ite_self, Bool.false_eq_true, if_false, if_true]
  rfl

end

/-- Settles O33: the traps by `takeTrap`, and the return by what the other unit's fault has been answered. -/
theorem trapsAndReturn : Obligations.TrapsAndReturn := by
  intro s w i n hl
  refine ⟨fun htrap => ?_, fun htrap hclosed => ?_, fun hopen => ?_, fun h hhandler hdepth hwait => ⟨fun hfatal hreplay => ?_,
    fun tag va asid sub kind posted at2 c hfault => ?_,
    fun tag va asid sub kind posted at2 c hfault hbase hwatchdog hlate hstep => ?_⟩⟩
  · rw [exec_trap hl, takeTrap_of_canTrap htrap]
  · rw [exec_bkpt hl, if_neg (by simp [hclosed]), takeTrap_of_canTrap htrap]
  · rw [exec_bkpt hl, if_pos hopen]
  all_goals
    rw [exec_rte hl hhandler hdepth hwait]
    obtain ⟨hseq, hwid⟩ := w.returned_names i.arm h
    have hother := w.unit_returned_other i.arm h
  · rw [State.resumeOther_unanswered (by rwa [hother]) (by rwa [hother])]
    rfl
  · rw [State.resumeOther_replayed (by rwa [hother]), State.setWave_setWave (by simp) (by simp), hother]
    rfl
  · have hkept : (w.returned i.arm h).trapBase = w.trapBase ∧ (w.returned i.arm h).handler = none
        ∧ (w.returned i.arm h).late = w.late ∧ (w.returned i.arm h).dbgStep = w.dbgStep
        ∧ (w.returned i.arm h).part = w.part ∧ (w.returned i.arm h).progress = w.progress := by
      cases i.arm <;> exact ⟨rfl, rfl, rfl, rfl, rfl, rfl⟩
    obtain ⟨hbase', hhandler', hlate', hstep', hpart', hprogress'⟩ := hkept
    have hwatchdog' : (s.setWave (w.returned i.arm h)).noWatchdog (w.returned i.arm h) := by
      intro p hp
      rw [hpart'] at hp
      rw [hprogress']
      exact hwatchdog p hp
    rw [State.resumeOther_fatal (by rwa [hother]) ⟨hbase'.symm ▸ hbase, hhandler'⟩ hwatchdog' (hlate'.trans hlate)
      (hstep'.trans hstep) (State.wave?_setWave_same hl.wave hseq hwid)]
    rw [State.setWave_setWave (by simp [Wave.entered]) (by simp [Wave.entered])]
    rfl

end Sys2Proof.Machine
end

section
/-! PROOFS. O35: a memory word whose lanes pass issues its one operation. Each word makes its access (`State.Accesses`), and an access
that goes through issues, which is said once, of `memAccess` (10 R230; 12 R275 to R282). -/

namespace Sys2Proof.Machine
set_option Elab.async false

theorem memAccess_of_admits {s s2 : State} {w w2 : Wave} {i : Issue} {x : Access} {ls : List LaneReq} {ps : List OpPart}
    (h : s.admits w i x s2 w2 ls ps) : memAccess s w i x = s.didIssue w i x s2 w2 ls ps := by
  obtain ⟨hroom, hlanes, s1, placed, hrel, hplace, rfl, hclear, hstore, hrelay, hordered, hflush, rfl⟩ := h
  have hclear' : ((s1.laneParts x placed).any fun p => !p.tier3 && (s1.again w).overlaps p.key p.size x.acc.writes) = false := by
    refine List.any_eq_false.mpr fun p hp => ?_
    cases hp3 : p.tier3 with
    | true => simp
    | false => simp [hclear p hp hp3]
  have hordered' : ((s1.laneParts x placed).any OpPart.tier3
      && (s1.again w).pend.any fun o => o.kind = .aperture && !o.answered) = false := by
    obtain hnone | hanswered := hordered
    · rw [List.any_eq_false.mpr fun p hp => by simp [hnone p hp], Bool.false_and]
    · have hfree : ((s1.again w).pend.any fun o => o.kind = .aperture && !o.answered) = false :=
        List.any_eq_false.mpr fun o ho => by simpa [or_iff_not_imp_left] using hanswered o ho
      rw [hfree, Bool.and_false]
  rw [memAccess, if_neg (Nat.not_le.mpr hroom)]
  simp only [hrel, hlanes, hplace, hclear', hstore, hrelay, hordered', hflush, Bool.not_true, Bool.false_eq_true, if_false]
  rfl

section
variable {s : State} {w : Wave} {i : Issue} {ev : Instr}

/-- A word that makes an access that goes through issues its operation. -/
theorem State.Accesses.issues {pair : Nat} {x : Access} (hword : s.Accesses w i ev pair x) (hpair : w.sPairPoison pair = false)
    {s2 : State} {w2 : Wave} {ls : List LaneReq} {ps : List OpPart} (h : s.admits w i x s2 w2 ls ps) :
    exec ev s = s.didIssue w i x s2 w2 ls ps :=
  (hword.2 hpair).trans (memAccess_of_admits h)

/-! ### Uniform words (10 R230) -/

/-- What a uniform load, or a store of s(store), asks for. -/
def Wave.uniformReq (w : Wave) (i : Issue) (a : BitVec 6) (imm : BitVec 10) (size : Nat) (store : Option (BitVec 6)) (dest : Dest) :
    Access :=
  let d := (store.map BitVec.toNat).getD 0
  let addr := addAddr (w.sPair a.toNat) ((immediate imm i.lit).signExtend 64).toNat
  { kind := if store.isSome then .store else .load, acc := if store.isSome then .write else .read, size := size, scope := .wave,
    order := 0,
    lanes := if addr % size ≠ 0 then .misaligned addr
      else .ok [{ lane := 0, addr := addr, a := if size = 8 then w.sPair d else (w.s d).toNat, b := 0 }],
    dest := dest, act := fun l => if store.isSome then .write l.a else .read, route := fun _ => .cache, tierOk := fun _ => true,
    noAlloc := false, nt := false }

/-- A legal uniform word whose datum, if it stores one, is clean makes its access. -/
theorem State.Accesses.of_uniform {a : BitVec 6} {imm : BitVec 10} {size : Nat} {store : Option (BitVec 6)} {dest : Dest}
    (hexec : exec ev s = uniformAccess s ev a imm size store dest) (hlegal : s.Legal w i ev)
    (hdatum : (store.isSome && (w.sPoison ((store.map BitVec.toNat).getD 0)
      || (size = 8 && w.sPoison ((store.map BitVec.toNat).getD 0 + 1)))) = false) :
    s.Accesses w i ev a.toNat (w.uniformReq i a imm size store dest) := by
  refine ⟨fun hp => ?_, fun hp => ?_⟩ <;> rw [hexec, uniformAccess, whenLegal_of hlegal]
  · simp only [hp, Bool.true_or, if_true]
  · simp only [hp, hdatum, Bool.or_self, Bool.false_eq_true, if_false]
    rfl

variable {d a : BitVec 6} (hl : s.Latched w i) (ha : a.toNat % 2 = 0) (imm : BitVec 10)
include hl ha

theorem uld32_accesses : s.Accesses w i (.uld32 d a imm) a.toNat (w.uniformReq i a imm 4 none (.uni d.toNat false)) :=
  .of_uniform rfl ⟨hl, by simp [odd_of_even ha]⟩ rfl

theorem uld64_accesses (hd : d.toNat % 2 = 0) :
    s.Accesses w i (.uld64 d a imm) a.toNat (w.uniformReq i a imm 8 none (.uni d.toNat true)) :=
  .of_uniform rfl ⟨hl, by simp [odd_of_even ha, odd_of_even hd]⟩ rfl

theorem ust32_accesses (hclean : w.sPoison d.toNat = false) :
    s.Accesses w i (.ust32 d a imm) a.toNat (w.uniformReq i a imm 4 (some d) .none) :=
  .of_uniform rfl ⟨hl, by simp [odd_of_even ha]⟩ (by simp [hclean])

theorem ust64_accesses (hd : d.toNat % 2 = 0) (hclean : w.sPairPoison d.toNat = false) :
    s.Accesses w i (.ust64 d a imm) a.toNat (w.uniformReq i a imm 8 (some d) .none) :=
  .of_uniform rfl ⟨hl, by simp [odd_of_even ha, odd_of_even hd]⟩ (by simpa [Wave.sPairPoison] using hclean)

end

/-- Settles O35: each word makes its access, whose operation issues (`State.Accesses.issues`). -/
theorem memoryAccesses : Obligations.MemoryAccesses := by
  intro s w i d o s2 w2 ls ps hl
  refine ⟨fun imm ho hpair => ⟨?_, fun hd => ?_, fun hclean => ?_, fun hd hclean => ?_⟩,
    fun z sc r k n hsc hz hpair => ⟨?_, ?_, fun hfeat => ?_, fun hfeat => ?_⟩, fun p w64 sc r k hsc hd hpair => ?_⟩
  · exact (uld32_accesses hl ho imm).issues hpair
  · exact (uld64_accesses hl ho imm hd).issues hpair
  · exact (ust32_accesses hl ho imm hclean).issues hpair
  · exact (ust64_accesses hl ho imm hd hclean).issues hpair
  · have hexec : exec (.ldg z sc r d o k n) s = execLdg z sc r d o k n s := rfl
    exact (State.Accesses.of_base hexec ⟨hl, laneFields_legal hsc hz⟩).issues hpair
  · have hexec : exec (.stg z sc r d o k n) s = execStg z sc r d o k n s := rfl
    exact (State.Accesses.of_base hexec ⟨hl, laneFields_legal hsc hz⟩).issues hpair
  · have hexec : exec (.gather z sc r d o k n) s = execGather z sc r d o k n s := rfl
    exact (State.Accesses.of_base hexec ⟨hl, gatherFields_legal hfeat hsc hz⟩).issues hpair
  · have hexec : exec (.scatter z sc r d o k n) s = execScatter z sc r d o k n s := rfl
    exact (State.Accesses.of_base hexec ⟨hl, gatherFields_legal hfeat hsc hz⟩).issues hpair
  · have hexec : exec (.atomg p w64 sc r d o k) s = execAtomg p w64 sc r d o k s := rfl
    exact (State.Accesses.of_base hexec ⟨hl, atomicFields_legal hsc hd⟩).issues hpair

end Sys2Proof.Machine
end

section
/-! PROOFS. O44: how each sleep ends (07 R180, R187; 09 R206; 10 R236, R245, R246; 12 R296, R297, R305). -/

namespace Sys2Proof.Machine
set_option Elab.async false

/-! ### The end of a sleep -/

theorem State.wave?_endSleep {s : State} {w : Wave} (hw : s.wave? w.seq w.wid = some w) (a : Arm) {f : Wave → Wave}
    (hf : ∀ x, (f x).seq = x.seq ∧ (f x).wid = x.wid) : (s.endSleep w.seq w.wid a f).wave? w.seq w.wid
      = some ((f w).progressed.setUnit a { ((f w).unit a).waited with wait := .none, ready := s.now, hidden := [] }) := by
  have hunit (x : Wave) : x.progressed.unit a = x.unit a := by cases a <;> rfl
  rw [State.endSleep, State.wave?_modWave (fun x => by simpa [Wave.progressed] using hf x), hw]
  simp only [Option.map_some, hunit]

theorem State.deadlineReached_of {s : State} {dl : Nat} (h0 : dl ≠ 0) (hdl : dl ≤ s.now) : s.deadlineReached dl = true := by
  simp [State.deadlineReached, h0, hdl]

section
variable {s : State} {w : Wave} {e : Bool} (hw : s.wave? w.seq w.wid = some w) (hres : w.saved = false)
include hw hres

/-! ### SLEEPUNTIL and WAITLINE (10 R245, R246) -/

theorem exec_sleepuntilWake {t : Nat} (hc : s.call = .sleepuntilWake w.seq w.wid e) (hwait : (w.unit (armOf e)).wait = .sleepUntil t)
    (hpassed : s.passed t = true) : exec .sleepuntilWake s = s.woke w e id := by
  change execSleepuntilWake s = _
  simp only [execSleepuntilWake, hc, hw, hwait, hres, hpassed, Bool.not_true, Bool.or_self, Bool.false_eq_true, if_false]
  rfl

theorem exec_waitlineWake {l dl : Nat} (hc : s.call = .waitlineWake w.seq w.wid e)
    (hwait : (w.unit (armOf e)).wait = .line l dl true) : exec .waitlineWake s = s.woke w e id := by
  change execWaitlineWake s = _
  simp only [execWaitlineWake, hc, hw, hwait, hres, Bool.not_true, Bool.or_self, Bool.false_eq_true, if_false]
  rfl

theorem exec_waitlineTimeout {l dl : Nat} {k : Bool} (hc : s.call = .waitlineTimeout w.seq w.wid e)
    (hwait : (w.unit (armOf e)).wait = .line l dl k) (hdl : s.deadlineReached dl = true) :
    exec .waitlineTimeout s = s.woke w e id := by
  change execWaitlineTimeout s = _
  simp only [execWaitlineTimeout, hc, hw, hwait, hres, hdl, Bool.not_true, Bool.or_self, Bool.false_eq_true, if_false]
  rfl

/-! ### NQWAIT and GATETAKE (12 R296, R297, R305) -/

theorem exec_nqwaitTimeout {desc sd dl b : Nat} (hc : s.call = .nqwaitTimeout w.seq w.wid e)
    (hwait : (w.unit (armOf e)).wait = .nq desc sd dl b false) (hdl : s.deadlineReached dl = true) :
    exec .nqwaitTimeout s = .next (s.endSleepPair w.seq w.wid (armOf e) sd noRecord false) := by
  change execNqwaitTimeout s = _
  simp only [execNqwaitTimeout, hc, hw, hwait, hres, hdl, Bool.not_true, Bool.or_self, Bool.false_eq_true, if_false]

theorem exec_nqwaitWake (hc : s.call = .nqwaitWake w.seq w.wid e) : exec .nqwaitWake s = .next (s.retryNq w (armOf e)) := by
  change execNqwaitWake s = _
  simp only [execNqwaitWake, hc, hw, hres, Bool.false_eq_true, if_false]

theorem exec_gatetakeTimeout {h sd dl b pc : Nat} {c : Bool} (hc : s.call = .gatetakeTimeout w.seq w.wid e)
    (hwait : (w.unit (armOf e)).wait = .gate h sd dl b false pc c) (hdl : s.deadlineReached dl = true) :
    exec .gatetakeTimeout s = s.woke w e fun x => x.setWaited (armOf e) sd 3 false := by
  change execGatetakeTimeout s = _
  simp only [execGatetakeTimeout, hc, hw, hwait, hres, hdl, Bool.not_true, Bool.or_self, Bool.false_eq_true, if_false]
  rfl

end

theorem exec_gatetakeWake {s : State} {w : Wave} {a : Arm} {n since : Nat} (hc : s.call = .gatetakeWake n)
    (hold : oldestSleeper ((s.sleepers (gateWoken n)).filter fun x => !x.1.saved) = some (w, a, since)) :
    exec .gatetakeWake s = .next (s.retryTake w a) := by
  change execGatetakeWake s = _
  simp only [execGatetakeWake, hc, hold]

/-! ### A woken NQWAIT tries again (12 R297) -/

section
variable {s : State} {w : Wave} {desc : Nat}

theorem State.takeRecord_empty (h : s.nqTail desc = s.nqHead desc) : s.takeRecord w desc = ((s, true), none) := by
  simp [State.takeRecord, h]

theorem State.takeRecord_takes {s1 s2 : State} (henabled : s.nqEnabled desc = true) (h : s.nqTail desc ≠ s.nqHead desc)
    (hacquire : s.acquireQuad (coreQuad w.core) = (s1, true))
    (hwrite : s1.unitWrite (coreQuad w.core) w.part (desc + 8) (natToBytes 4 (s.nqHead desc + 1)) false = (s2, true)) :
    s.takeRecord w desc = ((s2, true), some (s.peekNat (s.nqRing desc + 8 * (s.nqHead desc % s.nqSize desc)) 8,
      s.anyPoison (s.nqRing desc + 8 * (s.nqHead desc % s.nqSize desc)) 8
        || s.keyDown (s.nqRing desc + 8 * (s.nqHead desc % s.nqSize desc)))) := by
  simp [State.takeRecord, henabled, h, hacquire, hwrite]

variable {a : Arm} {sd dl b : Nat} (hwait : (w.unit a).wait = .nq desc sd dl b true)
include hwait

theorem State.retryNq_disabled (h : s.nqEnabled desc = false) : s.retryNq w a = s.endSleepPair w.seq w.wid a sd noRecord false := by
  simp only [State.retryNq, hwait, h, Bool.not_false, if_true]

theorem State.retryNq_empty (henabled : s.nqEnabled desc = true) (h : s.nqTail desc = s.nqHead desc) :
    s.retryNq w a = s.modWave w.seq w.wid fun x => x.setUnit a { x.unit a with wait := .nq desc sd dl b false } := by
  simp only [State.retryNq, hwait, henabled, State.takeRecord_empty h, Bool.not_true, Bool.false_eq_true, if_false]

theorem State.retryNq_takes {s1 : State} {r : Nat × Bool} (henabled : s.nqEnabled desc = true)
    (h : s.takeRecord w desc = ((s1, true), some r)) : s.retryNq w a = s1.endSleepPair w.seq w.wid a sd r.1 r.2 := by
  simp only [State.retryNq, hwait, henabled, h, Bool.not_true, Bool.false_eq_true, if_false]

end

/-! ### A woken GATETAKE tries again (12 R305) -/

section
variable {s : State} {w : Wave} {a : Arm} {h sd dl b pc : Nat} {k c : Bool} {g : Gate}
  (hwait : (w.unit a).wait = .gate h sd dl b k pc c) (hgate : s.gateOf h = some g)
include hwait hgate

theorem State.retryTake_frozen (hstate : g.state ≠ .live) :
    s.retryTake w a = s.endSleep w.seq w.wid a fun x => x.setWaited a sd 2 false := by
  simp only [State.retryTake, hwait, hgate, if_pos hstate]

theorem State.retryTake_empty (hstate : g.state = .live) (hcount : g.counter = 0) : s.retryTake w a
    = s.modWave w.seq w.wid fun x => x.setUnit a { x.unit a with wait := .gate h sd dl b false pc c } := by
  simp only [State.retryTake, hwait, hgate, hstate, hcount, ne_eq, not_true, if_false, if_true]

theorem State.retryTake_takes {s1 : State} (hstate : g.state = .live) (hcount : g.counter ≠ 0)
    (hacquire : s.acquireAt w .part = (s1, true)) : s.retryTake w a
      = (s1.setGate { g with counter := g.counter - 1 }).endSleep w.seq w.wid a fun x => x.setWaited a sd 0 false := by
  simp only [State.retryTake, hwait, hgate, hstate, if_neg hcount, hacquire, ne_eq, not_true, if_false, Bool.not_true,
    Bool.false_eq_true]

end

/-! ### The spill engine (10 R236) -/

theorem exec_spillComplete {s : State} {w : Wave} (hw : s.wave? w.seq w.wid = some w) (hc : s.call = .spillComplete w.seq w.wid)
    (hheld : s.stackHeld w.spillBase = false) : exec .spillComplete s = .next (s.setWave
      { w with
        unitT := { w.unitT with wait := if w.unitT.wait = .spill then .none else w.unitT.wait },
        unitE := { w.unitE with wait := if w.unitE.wait = .spill then .none else w.unitE.wait } }) := by
  have hclear (u : UnitSt) : (if u.wait = .spill then { u with wait := .none } else u)
      = { u with wait := if u.wait = .spill then .none else u.wait } := by
    split <;> rfl
  change execSpillComplete s = _
  simp only [execSpillComplete, hc, hw, hheld, Bool.false_eq_true, if_false, hclear]

/-- Settles O44: each event ends its sleep by the lemma above, and a woken sleeper by its retry. -/
theorem sleepEnds : Obligations.SleepEnds := by
  intro s w e hw
  refine ⟨fun f hf => ⟨_, rfl, rfl, State.wave?_endSleep hw (armOf e) hf⟩, fun t hwait hres ht hc hge hlt => ?_,
    fun l dl k hwait hres => ⟨fun hc hk => ?_, fun hc h0 hdl => ?_⟩,
    fun desc sd dl b k hwait hres => ⟨fun hc hk h0 hdl => ?_, fun hc hk => ⟨fun hoff => ?_, fun hon => ⟨fun hempty => ?_,
      fun s1 s2 hsome hacquire hwrite => ?_⟩⟩⟩,
    fun h sd dl b k pc c hwait hres => ⟨fun hc hk h0 hdl => ?_, fun n since g hc hgate hold => ?_⟩,
    fun hc hheld => exec_spillComplete hw hc hheld⟩
  · refine exec_sleepuntilWake hw hres hc hwait ?_
    rw [State.passed_eq s ht]
    exact decide_eq_true ⟨hge, hlt⟩
  · subst hk
    exact exec_waitlineWake hw hres hc hwait
  · exact exec_waitlineTimeout hw hres hc hwait (State.deadlineReached_of h0 hdl)
  · subst hk
    exact exec_nqwaitTimeout hw hres hc hwait (State.deadlineReached_of h0 hdl)
  · subst hk
    rw [exec_nqwaitWake hw hres hc, State.retryNq_disabled hwait hoff]
    rfl
  · subst hk
    rw [exec_nqwaitWake hw hres hc, State.retryNq_empty hwait hon hempty]
  · subst hk
    rw [exec_nqwaitWake hw hres hc, State.retryNq_takes hwait hon (State.takeRecord_takes hon hsome hacquire hwrite)]
    rfl
  · subst hk
    exact exec_gatetakeTimeout hw hres hc hwait (State.deadlineReached_of h0 hdl)
  · rw [exec_gatetakeWake hc hold]
    refine ⟨fun hstate => ?_, fun hstate hcount => ?_, fun s1 hstate hcount hacquire => ?_⟩
    · rw [State.retryTake_frozen hwait hgate hstate]
      rfl
    · rw [State.retryTake_empty hwait hgate hstate hcount]
    · rw [State.retryTake_takes hwait hgate hstate hcount hacquire]
      rfl

end Sys2Proof.Machine
end

section
/-! PROOFS. O29: calls and returns (10 R236, R237). -/

namespace Sys2Proof.Machine
set_option Elab.async false

/-- A wave whose unit waits for the spill engine under either of two conditions. -/
theorem Wave.spilling_or (w : Wave) (a : Arm) (p q : Prop) [Decidable p] [Decidable q] :
    w.spilling a (decide p || decide q) = if p ∨ q then w.setUnit a { w.unit a with wait := .spill } else w := by
  simp only [Wave.spilling, Bool.or_eq_true, decide_eq_true_eq]

/-! ### Calls -/

/-- The lowest resident register once the window has moved up by a frame step (10 R233, R236). -/
def Wave.loAfterCall (w : Wave) (step : Nat) : Nat :=
  if w.lo + w.vregs.length < w.winBase + step + 64 then w.winBase + step + 64 - w.vregs.length else w.lo

/-- The wave `w` in its new frame; `w2` is what the spill engine and the push of the record made of it. -/
def Wave.called (w w2 : Wave) (i : Issue) (step : Nat) : Wave :=
  let w3 := { w2 with
    lo := w.loAfterCall step, winBase := w.winBase + step,
    callArm := if w.divergent && (w.unit i.arm.other).live && w.callArm.isNone then some (i.arm, w.openCalls) else w2.callArm }
  if w.loAfterCall step ≠ w.lo ∨ 16 ≤ w.calls.length then w3.setUnit i.arm { w3.unit i.arm with wait := .spill } else w3

theorem takeCall_full {w : Wave} (h : 1024 ≤ w.openCalls) (s : State) (i : Issue) (u : UnitSt) (step target : Nat) :
    takeCall s w i u step target = takeTrap s w i 9 1 0 := if_pos h

theorem takeCall_of {s s1 s2 : State} {w w1 w2 : Wave} {i : Issue} {u : UnitSt} {step : Nat} (hroom : w.openCalls < 1024)
    (hspill : s.spillGranules w w.lo ((w.loAfterCall step - w.lo) / 8) = (s1, w1, none))
    (hpush : s1.pushCall w1 { ret := i.pc / 16 * 16 + 16, step := step, ddepth := u.open } = .ok (s2, w2)) (target : Nat) :
    takeCall s w i u step target = s2.wentTo (w.called w2 i step) i target := by
  rw [Wave.loAfterCall] at hspill
  rw [takeCall, if_neg (Nat.not_le.mpr hroom)]
  simp only [hspill, Issue.pkt, hpush, Wave.spilling_or]
  rfl

section
variable {s : State} {w : Wave} {i : Issue} {q : BitVec 3} (hl : s.Latched w i) (hq : w.qPoison q.toNat = false)
include hl hq

theorem exec_ret (hlegal : (w.q q.toNat && !w.qPoison q.toNat && badReturn w ((w.issuing i).at i)) = false) :
    exec (.ret q) s = if w.q q.toNat = true then takeRet s w i else .next (s.after w i) := by
  change execRet q s = _
  rw [execRet, whenLegal_of ⟨hl, by rw [illegal_ret, hlegal]; rfl⟩]
  simp only [hq, Bool.false_eq_true, if_false, finish_eq]

variable (hstep : i.lit.toNat % 8 = 0) (hframe : i.lit.toNat ≤ 64)
include hstep hframe

theorem exec_call (o : BitVec 19) : exec (.call q o) s = if w.q q.toNat = true
    then takeCall s w i (w.issuing i) i.lit.toNat (i.target o.toInt) else .next (s.after w i) := by
  change execCall q o s = _
  rw [execCall, whenLegal_of ⟨hl, by simp [hstep, Nat.not_lt.mpr hframe]⟩]
  simp only [hq, Bool.false_eq_true, if_false, finish_eq]
  rfl

theorem exec_calli {a : BitVec 6} (ha : w.sPoison a.toNat = false) : exec (.calli q a) s = if w.q q.toNat = false
    then .next (s.after w i)
    else if (w.s a.toNat).toNat % 16 ≠ 0 then takeTrap s w i 3 0 (s.codeVa w (w.s a.toNat).toNat)
    else takeCall s w i (w.issuing i) i.lit.toNat (w.s a.toNat).toNat := by
  change execCalli q a s = _
  rw [execCalli, whenLegal_of ⟨hl, by simp [hstep, Nat.not_lt.mpr hframe]⟩]
  simp only [hq, ha, Bool.or_self, Bool.false_eq_true, if_false, Bool.not_eq_true', finish_eq]

end

theorem calls : Claims.Calls := by
  intro s w i q o a hl hq ha hstep hframe
  refine ⟨fun h0 => ⟨?_, ?_⟩, fun h1 hfull htrap => ?_, fun h1 hroom s1 w1 s2 w2 hspill hpush => ⟨?_, fun hin => ?_⟩⟩
  · rw [exec_call hl hq hstep hframe, if_neg (by simp [h0])]
  · rw [exec_calli hl hq hstep hframe ha, if_pos h0]
  · rw [exec_call hl hq hstep hframe, if_pos h1, takeCall_full hfull, takeTrap_of_canTrap htrap]
  · rw [exec_call hl hq hstep hframe, if_pos h1]
    exact takeCall_of hroom hspill hpush _
  · rw [exec_calli hl hq hstep hframe ha, if_neg (by simp [h1]), if_neg (not_not.mpr hin)]
    exact takeCall_of hroom hspill hpush _

/-! ### Returns -/

/-- The wave `w` back in its caller's frame; `w2` is what the spill engine and the pop of the record made of it. -/
def Wave.callReturned (w w2 : Wave) (i : Issue) (step : Nat) : Wave :=
  let w3 := { w2 with
    winBase := w.winBase - step, lo := min w.lo (w.winBase - step),
    callArm := if (w.callArm.map Prod.snd) = some (w.openCalls - 1) then none else w2.callArm }
  if w.winBase - step < w.lo ∨ w.spilledCalls ≠ 0 then w3.setUnit i.arm { w3.unit i.arm with wait := .spill } else w3

theorem takeRet_of {s s1 s2 : State} {w w1 w2 : Wave} {i : Issue} {top : CallRec} {rest : List CallRec} (hcalls : w.calls = top :: rest)
    (hfill : s.fillGranules w (w.winBase - top.step) ((w.lo - (w.winBase - top.step)) / 8) = .ok (s1, w1))
    (hpop : s1.popCall w1 = .ok (s2, w2)) : takeRet s w i = s2.wentTo (w.callReturned w2 i top.step) i top.ret := by
  simp only [takeRet, hcalls, hfill, hpop, Wave.spilling_or]
  rfl

/-- A taken return without a record of its own frame is illegal (10 R236). -/
theorem exec_ret_illegal {s : State} {w : Wave} {i : Issue} {q : BitVec 3} (hl : s.Latched w i) (hq : w.qPoison q.toNat = false)
    (h1 : w.q q.toNat = true) (hbad : badReturn w (w.issuing i) = true) (htrap : w.canTrap) :
    exec (.ret q) s = s.tookTrap w i 1 4 0 := by
  have hat : badReturn w ((w.issuing i).at i) = true := hbad
  change execRet q s = _
  rw [execRet, whenLegal_illegal hl (sub := 4) (by rw [illegal_ret, h1, hq, hat]; rfl), takeTrap_of_canTrap htrap]

theorem returns : Claims.Returns := by
  intro s w i q hl hq
  refine ⟨fun h0 => ?_, fun h1 htrap hnone => ?_, fun top rest h1 hcalls => ⟨fun hopen htrap => ?_,
    fun s1 w1 s2 w2 hclosed hfill hpop => ?_⟩⟩
  · rw [exec_ret hl hq (by simp [h0]), if_neg (by simp [h0])]
  · exact exec_ret_illegal hl hq h1 (by simp [badReturn, hnone]) htrap
  · exact exec_ret_illegal hl hq h1 (by simp [badReturn, hcalls, hopen]) htrap
  · have hlegal : badReturn w ((w.issuing i).at i) = false := by
      simp only [badReturn, hcalls]
      exact decide_eq_false (not_not.mpr hclosed)
    rw [exec_ret hl hq (by simp [hlegal]), if_pos h1]
    exact takeRet_of hcalls hfill hpop

/-- Settles O29: calls, and returns. -/
theorem callsAndReturns : Obligations.CallsAndReturns := ⟨calls, returns⟩

end Sys2Proof.Machine
end

section
/-! PROOFS. O30 and O31: SPLIT and JOIN, and the words on lanes (07 R178 to R183; 10 R239 to R244). JOIN, BRKP and HALT all make their
unit arrive at a JOIN, whose cases are said once (`State.arrives_arriveAtJoin`). -/

namespace Sys2Proof.Machine
set_option Elab.async false

/-! ### Arrivals at a JOIN (10 R240) -/

/-- The lanes that go on when an entry inside an arm closes. -/
def Wave.closingMask (w : Wave) (a : Arm) (e : DivEntry) : Lanes :=
  ((if e.inElse then e.trueLanes else 0) ||| (w.unit a).mask ||| e.brk) &&& ~~~w.haltedLanes

/-- The wave whose unit has closed an entry inside its arm, with `rest` below it. -/
def Wave.closedInner (w : Wave) (a : Arm) (e : DivEntry) (rest : List DivEntry) : Wave :=
  w.setUnit a
    { w.unit a with
      mask := w.closingMask a e, fmt := e.fmt, pc := 16 * e.joinTarget + 4, refusals := [], looked := false, table := [],
      atBank := none, entries := rest }

/-- The wave whose unit waits for the other arm at the outermost JOIN. -/
def Wave.awaitsOther (w : Wave) (a : Arm) (e : DivEntry) : Wave :=
  w.setUnit a
    { w.unit a with
      atJoin := true, pc := 16 * e.joinTarget, refusals := [], looked := false, table := [], atBank := none, wait := .none }

/-- The wave whose unit goes on with the else lanes of an entry inside its arm. -/
def Wave.runsElse (w : Wave) (a : Arm) (e : DivEntry) (rest : List DivEntry) : Wave :=
  w.setUnit a
    { w.unit a with
      mask := e.elseLanes &&& ~~~w.haltedLanes, pc := 16 * e.elseTarget, fmt := e.fmt, refusals := [], looked := false,
      table := [], atBank := none, entries := { e with trueLanes := (w.unit a).mask, inElse := true } :: rest }

/-- `x` is the wave `w` with its arms reunited after the outermost JOIN; without a lane it has halted. -/
structure Wave.Reunited (w x : Wave) (et ee : DivEntry) : Prop where
  converged : x.divergent = false
  halted : x.haltedLanes = w.haltedLanes
  sregs : x.sregs = w.sregs
  qregs : x.qregs = w.qregs
  pregs : x.pregs = w.pregs
  vregs : x.vregs = w.vregs
  entries : x.unitT.entries = []
  mask : x.unitT.mask = (w.unitT.mask ||| w.unitE.mask ||| et.brk ||| ee.brk) &&& ~~~w.haltedLanes
  empty : x.unitT.mask = 0 → x.status = .halted
  goesOn : x.unitT.mask ≠ 0 → x.status = w.status ∧ x.unitT.fmt = et.fmt ∧ x.unitT.pc = 16 * et.joinTarget + 4

theorem Wave.closeOuter_reunited {w : Wave} {et ee : DivEntry} {r1 r2 : List DivEntry} (hT : w.unitT.entries = et :: r1)
    (hE : w.unitE.entries = ee :: r2) (now : Nat) : w.Reunited (w.closeOuter now) et ee := by
  simp only [Wave.closeOuter, hT, hE]
  split
  case isTrue h => exact ⟨rfl, rfl, rfl, rfl, rfl, rfl, rfl, h.symm, fun _ => rfl, fun h0 => absurd rfl h0⟩
  case isFalse h => exact ⟨rfl, rfl, rfl, rfl, rfl, rfl, rfl, rfl, fun h0 => absurd h0 h, fun _ => ⟨rfl, rfl, rfl⟩⟩

theorem Wave.Reunited.of_awaitsOther {w x : Wave} {a : Arm} {e et ee : DivEntry} (h : (w.awaitsOther a e).Reunited x et ee) :
    w.Reunited x et ee := by
  obtain ⟨hconverged, hhalted, hs, hq, hp, hv, hentries, hmask, hempty, hgoes⟩ := h
  cases a <;> exact ⟨hconverged, hhalted, hs, hq, hp, hv, hentries, hmask, hempty, hgoes⟩

theorem Wave.joinReady_setUnit (w : Wave) (a b : Arm) (u : UnitSt) : (w.setUnit a u).joinReady b = w.joinReady b := by
  rw [Wave.joinReady, Wave.setUnit_pend]
  rfl

section
variable {s : State} {w : Wave} {a : Arm} {e : DivEntry} {rest : List DivEntry} (hentries : (w.unit a).entries = e :: rest) (n : Nat)
include hentries

theorem State.arrive_outer (hopen : (w.unit a).open ≤ 1) : s.arrive (n + 1) w a
    = .ok (s, if (w.unit a.other).atJoin then (w.awaitsOther a e).closeOuter s.now else w.awaitsOther a e) := by
  rw [State.arrive]
  simp only
  split
  case h_1 hnil => rw [hnil] at hentries; cases hentries
  case h_2 e' rest' hcons =>
    obtain ⟨rfl, rfl⟩ := List.cons.inj (hcons.symm.trans hentries)
    rw [if_pos hopen, Wave.unit_setUnit_other]
    rfl

theorem State.arrive_else (hopen : 1 < (w.unit a).open) (hin : e.inElse = false) (helse : e.elseLanes &&& ~~~w.haltedLanes ≠ 0) :
    s.arrive (n + 1) w a = .ok (s, w.runsElse a e rest) := by
  simp only [State.arrive, hentries, if_neg (Nat.not_le.mpr hopen), hin, Bool.not_false, Bool.true_and, decide_eq_true_eq,
    if_pos helse]
  rfl

theorem State.arrive_closes (hopen : 1 < (w.unit a).open) (hspilled : (w.unit a).spilled = [])
    (hdone : e.inElse = true ∨ e.elseLanes &&& ~~~w.haltedLanes = 0) : s.arrive (n + 1) w a
      = if w.closingMask a e = 0 then s.arrive n (w.closedInner a e rest) a else .ok (s, w.closedInner a e rest) := by
  have hdone' : ¬ (!e.inElse && decide (e.elseLanes &&& ~~~w.haltedLanes ≠ 0)) = true := by
    obtain h | h := hdone <;> simp [h]
  have hpop : s.popEntry w a = .ok (s, w.setUnit a { w.unit a with entries := rest }) := by
    simp only [State.popEntry, hspilled, hentries, List.drop_succ_cons, List.drop_zero]
  have hclosed : (w.setUnit a { w.unit a with entries := rest }).setUnit a
      { (w.setUnit a { w.unit a with entries := rest }).unit a with
        mask := w.closingMask a e, fmt := e.fmt, pc := targetPc e.joinTarget + 4, refusals := [], looked := false, table := [],
        atBank := none } = w.closedInner a e rest := by
    cases a <;> rfl
  rw [Wave.closingMask] at hclosed ⊢
  simp only [State.arrive, hentries, if_neg (Nat.not_le.mpr hopen), if_neg hdone', hpop, hclosed]

end

/-- The end of a word whose unit has arrived, or has found the spill area out of reach. -/
def arrivalOut (s : State) (i : Issue) : Except SpillFail (State × Wave) → Out
  | .error f =>
    match s.wave? i.seq i.wid with
    | none => .next s
    | some w0 => spillTrap s w0 i f false
  | .ok (s1, w1) => .next (s1.setWave w1)

theorem arriveAtJoin_eq (s : State) (w : Wave) (i : Issue) : arriveAtJoin s w i
    = if ((w.unit i.arm).entries ≠ [] && !w.joinReady i.arm) = true then .next s.stall
      else arrivalOut s i (s.arrive ((w.unit i.arm).open + 1) w i.arm) := rfl

/-- An arrival of a unit whose accesses have performed, entry by entry. -/
theorem State.arrives_arrive (s : State) (i : Issue) : ∀ (n : Nat) (w : Wave) (e : DivEntry) (rest : List DivEntry),
    (w.unit i.arm).entries = e :: rest → w.joinReady i.arm = true → s.arrives i (arrivalOut s i (s.arrive n w i.arm)) n w e rest
  | 0, _, _, _, _, _ => trivial
  | n + 1, w, e, rest, hentries, hready => by
    rw [State.arrives]
    refine ⟨fun hwaits => absurd hready (by simp [hwaits]), fun _ => ⟨fun hopen hother => ?_, fun et ee r1 r2 hopen hother hT hE => ?_,
      fun hopen hin helse => ?_, fun hopen hspilled hdone => ⟨fun hmask => ?_, fun e2 rest2 hmask hrest => ?_⟩⟩⟩
    · rw [State.arrive_outer hentries n hopen, hother]
      rfl
    · rw [State.arrive_outer hentries n hopen, hother]
      have hT' : (w.awaitsOther i.arm e).unitT.entries = et :: r1 := by cases i.arm <;> exact hT
      have hE' : (w.awaitsOther i.arm e).unitE.entries = ee :: r2 := by cases i.arm <;> exact hE
      obtain ⟨hconverged, hhalted, hs, hq, hp, hv, hnone, hlanes, hempty, hgoes⟩ :=
        (Wave.closeOuter_reunited hT' hE' s.now).of_awaitsOther
      exact ⟨_, rfl, hconverged, hhalted, hs, hq, hp, hv, hnone, hlanes, hempty, hgoes⟩
    · rw [State.arrive_else hentries n hopen hin helse]
      rfl
    · rw [State.arrive_closes hentries n hopen hspilled hdone, if_neg (show ¬ w.closingMask i.arm e = 0 from hmask)]
      rfl
    · rw [State.arrive_closes hentries n hopen hspilled hdone, if_pos (show w.closingMask i.arm e = 0 from hmask)]
      refine State.arrives_arrive s i n (w.closedInner i.arm e rest) e2 rest2 ?_ ?_
      · rw [Wave.closedInner, Wave.unit_setUnit, hrest]
      · rw [Wave.closedInner, Wave.joinReady_setUnit, hready]

theorem State.arrives_arriveAtJoin {s : State} {w : Wave} {i : Issue} {e : DivEntry} {rest : List DivEntry}
    (hentries : (w.unit i.arm).entries = e :: rest) :
    s.arrives i (arriveAtJoin s w i) ((w.unit i.arm).open + 1) w e rest := by
  rw [arriveAtJoin_eq]
  cases hready : w.joinReady i.arm with
  | false => exact ⟨fun _ => by simp [hentries], fun h => by simp [hready] at h⟩
  | true =>
    rw [if_neg (by simp)]
    exact State.arrives_arrive s i _ w e rest hentries hready

/-! ### JOIN (10 R240) -/

/-- The innermost entry of a unit that has one open in this call frame. -/
theorem Wave.innermost_of {w : Wave} {u : UnitSt} {e : DivEntry} {rest : List DivEntry} (hentries : u.entries = e :: rest)
    (hframe : w.frameDepth < u.open) : w.innermost u = some e := by
  rw [Wave.innermost, if_pos hframe, hentries]
  rfl

theorem badJoin_of {w : Wave} {u : UnitSt} {e : DivEntry} (h : w.innermost u = some e) :
    badJoin w u = decide (u.pc ≠ 16 * e.joinTarget) := by
  rw [badJoin, h]
  rfl

theorem join : Claims.Join := by
  intro s w i e rest hl u hentries hframe
  have hbad : badJoin w ((w.issuing i).at i) = decide (i.pc ≠ 16 * e.joinTarget) :=
    badJoin_of (Wave.innermost_of (u := (w.issuing i).at i) hentries hframe)
  refine ⟨fun hoff htrap => ?_, fun hat => ?_⟩
  · change execJoin s = _
    rw [execJoin, whenLegal_illegal hl (sub := 4) (by rw [illegal_join, hbad, decide_eq_true hoff]; rfl),
      takeTrap_of_canTrap htrap]
  · have hlegal : s.Legal w i .join := ⟨hl, by rw [illegal_join, hbad, decide_eq_false (not_not.mpr hat)]; rfl⟩
    change s.arrives i (execJoin s) _ w e rest
    rw [execJoin, whenLegal_of hlegal]
    exact State.arrives_arriveAtJoin hentries

/-! ### SPLIT (10 R239) -/

/-- No lane is active when none is on either side. -/
theorem mask_eq_zero_of_sides {m b : Lanes} (ht : m &&& b = 0) (he : m &&& ~~~b = 0) : m = 0 := by
  have hsides : m = (m &&& b) ||| (m &&& ~~~b) := by
    apply BitVec.eq_of_getLsbD_eq
    intro k hk
    simp only [BitVec.getLsbD_or, BitVec.getLsbD_and, BitVec.getLsbD_not, hk, decide_true, Bool.true_and]
    cases m.getLsbD k <;> cases b.getLsbD k <;> rfl
  rw [hsides, ht, he]
  rfl

/-- Two changes of one unit, the second of which sets what the first has set. -/
theorem Wave.setUnit_setUnit (w : Wave) (a : Arm) (u v : UnitSt) : (w.setUnit a u).setUnit a v = w.setUnit a v := by
  cases a <;> rfl

/-- A unit that waits for the spill engine after its change. -/
theorem Wave.spilling_setUnit (w : Wave) (a : Arm) (u : UnitSt) (b : Bool) : (w.setUnit a u).spilling a b
    = w.setUnit a { u with wait := if b then .spill else u.wait } := by
  rw [Wave.spilling, Wave.unit_setUnit]
  cases b
  · rfl
  · exact Wave.setUnit_setUnit w a u _

/-- An offset in packets from the issuing packet. -/
theorem packetOffset_pkt (i : Issue) (o : Int) : packetOffset i.pkt o = i.target o := rfl

theorem split : Claims.Split := by
  intro s w i p e hl u tl el entry hmask hclean hopen
  have hlegal : s.Legal w i (.split p e) := ⟨hl, illegal_split s w _ i.lit p e⟩
  refine ⟨fun hconverged => ?_, fun s1 w1 hdivergent hpush => ?_⟩
  · have hsides : ¬ (decide (tl = 0) && decide (el = 0)) = true := by
      simp only [Bool.and_eq_true, decide_eq_true_eq]
      exact fun h => hmask (mask_eq_zero_of_sides h.1 h.2)
    change execSplit p e s = _
    rw [execSplit, whenLegal_of hlegal, if_neg (not_not.mpr hclean), if_neg (Nat.not_le.mpr hopen)]
    simp only [hconverged, Bool.not_false, if_true]
    rw [if_neg hsides]
    rfl
  · have hpushed : (if tl = 0 then { entry with inElse := true } else entry) = { entry with inElse := decide (tl = 0) } := by
      by_cases h : tl = 0
      · rw [if_pos h, decide_eq_true h]
      · rw [if_neg h, decide_eq_false h]
    change execSplit p e s = _
    rw [execSplit, whenLegal_of hlegal, if_neg (not_not.mpr hclean), if_neg (Nat.not_le.mpr hopen)]
    rw [← hpushed] at hpush
    dsimp only [tl, el, entry, u] at hpush
    simp only [hdivergent, Bool.not_true, Bool.false_eq_true, if_false, packetOffset_pkt, hpush, Wave.spilling_setUnit, decide_eq_true_eq]
    rfl

/-- Settles O30: SPLIT opens an entry, and JOIN is its arrival case by case. -/
theorem divergence : Obligations.Divergence := ⟨split, join⟩

/-! ### The words on lanes (07 R183; 10 R241, R242, R244) -/

/-- A unit with an entry open in its call frame may break lanes out of it. -/
theorem State.legal_brkp {s : State} {w : Wave} {i : Issue} {e : DivEntry} {rest : List DivEntry} (hl : s.Latched w i)
    (hentries : (w.issuing i).entries = e :: rest) (hframe : w.frameDepth < (w.issuing i).open) (p : BitVec 6) :
    s.Legal w i (.brkp p) :=
  ⟨hl, by rw [illegal_brkp, Wave.innermost_of (u := (w.issuing i).at i) hentries hframe]; rfl⟩

/-- The lanes of a mask that leave the unit go into the innermost entry. -/
theorem UnitSt.breakLanes_of {u : UnitSt} {e : DivEntry} {rest : List DivEntry} (hentries : u.entries = e :: rest) (m : Lanes) :
    u.breakLanes m = { u with mask := u.mask &&& ~~~m, entries := { e with brk := e.brk ||| m } :: rest } := by
  rw [UnitSt.breakLanes, hentries]

/-- Two masks meet in no lane. -/
theorem and_eq_zero_iff (m b : Lanes) : m &&& b = 0 ↔ ∀ l < 64, (m.getLsbD l && b.getLsbD l) = false := by
  constructor
  · intro hzero l _
    rw [← BitVec.getLsbD_and, hzero]
    exact BitVec.getLsbD_zero
  · intro hall
    refine BitVec.eq_of_getLsbD_eq fun l hl => ?_
    rw [BitVec.getLsbD_and, hall l hl]
    exact BitVec.getLsbD_zero.symm

/-- Some active lane is on the true side. -/
theorem decide_and_ne_zero (m b : Lanes) :
    decide (m &&& b ≠ 0) = (List.range 64).any fun l => m.getLsbD l && b.getLsbD l := by
  rw [Bool.eq_iff_iff, decide_eq_true_eq, ne_eq, and_eq_zero_iff, List.any_eq_true]
  simp only [not_forall, List.mem_range, exists_prop, Bool.not_eq_false]

/-- Every active lane is on the true side. -/
theorem decide_andNot_eq_zero (m b : Lanes) :
    decide (m &&& ~~~b = 0) = (List.range 64).all fun l => !m.getLsbD l || b.getLsbD l := by
  rw [Bool.eq_iff_iff, decide_eq_true_eq, and_eq_zero_iff, List.all_eq_true]
  simp only [List.mem_range]
  refine forall₂_congr fun l hl => ?_
  rw [BitVec.getLsbD_not, decide_eq_true hl]
  cases m.getLsbD l <;> cases b.getLsbD l <;> decide

section
variable {s : State} {w : Wave} {i : Issue} (hl : s.Latched w i)
include hl

theorem exec_halt : exec .halt s = arriveAtJoin s
    (({ w with progress := 0, watchdogFired := false, haltedLanes := w.haltedLanes ||| (w.issuing i).mask } : Wave).setUnit i.arm
      { w.issuing i with mask := 0 }) i := by
  change execHalt s = _
  rw [execHalt, whenLegal_of ⟨hl, illegal_halt s w _ i.lit⟩]
  rfl

/-- HALT of a converged wave. -/
theorem exec_halt_converged (hnone : (w.issuing i).entries = []) : exec .halt s = .next (s.setWave
    (({ w with progress := 0, watchdogFired := false, haltedLanes := w.haltedLanes ||| (w.issuing i).mask } : Wave).setUnit i.arm
      { w.issuing i with mask := 0 }).halt) := by
  rw [exec_halt hl, arriveAtJoin_eq, Wave.unit_setUnit, State.arrive, Wave.unit_setUnit]
  simp only [hnone, ne_eq, not_true_eq_false, decide_false, Bool.false_and, Bool.false_eq_true, if_false]
  rfl

end

/-- Settles O31: the words on lanes; BRKP and HALT by the cases of an arrival. -/
theorem laneControl : Obligations.LaneControl := by
  intro s w i p d hl u m poison
  refine ⟨fun e rest hentries hframe hclean => ?_, fun htrap hpoison hne hframe => ?_, fun heven => ?_, fun hd => ⟨?_, ?_⟩,
    fun hnone => ?_, fun e rest hentries => ?_, ?_⟩
  · have hexec : exec (.brkp p) s = if (u.breakLanes m).mask = 0 then arriveAtJoin s (w.setUnit i.arm (u.breakLanes m)) i
        else finish s (w.setUnit i.arm (u.breakLanes m)) i := by
      change execBrkp p s = _
      rw [execBrkp, whenLegal_of (State.legal_brkp hl hentries hframe p), if_neg (of_decide_eq_false hclean)]
    rw [hexec, UnitSt.breakLanes_of hentries]
    refine ⟨fun hstays => by rw [if_neg hstays]; rfl, fun hempty => ?_⟩
    rw [if_pos hempty]
    have harrives := State.arrives_arriveAtJoin (s := s) (i := i)
      (w := w.setUnit i.arm { u with mask := u.mask &&& ~~~m, entries := { e with brk := e.brk ||| m } :: rest })
      (by rw [Wave.unit_setUnit])
    rw [Wave.unit_setUnit, UnitSt.open] at harrives
    rwa [UnitSt.open, hentries]
  · obtain ⟨e, rest, hentries⟩ := List.exists_cons_of_ne_nil hne
    change execBrkp p s = _
    rw [execBrkp, whenLegal_of (State.legal_brkp hl hentries hframe p), if_pos (of_decide_eq_true hpoison)]
    exact takeTrap_of_canTrap htrap s i 6 0 _
  · change execPmask d s = _
    rw [execPmask, whenLegal_of ⟨hl, by rw [illegal_pmask, odd_of_even heven]; rfl⟩]
    rfl
  · change execAnyp d p s = _
    rw [execAnyp, whenLegal_of ⟨hl, by rw [illegal_anyp, badQ_of_le hd]; rfl⟩, decide_and_ne_zero]
    rfl
  · change execAllp d p s = _
    rw [execAllp, whenLegal_of ⟨hl, by rw [illegal_allp, badQ_of_le hd]; rfl⟩, decide_andNot_eq_zero]
    rfl
  · refine ⟨_, exec_halt_converged hl hnone, rfl, rfl, rfl, ?_, rfl, ?_, ?_⟩ <;> cases i.arm <;> rfl
  · rw [exec_halt hl]
    have harrives := State.arrives_arriveAtJoin (s := s) (i := i)
      (w := ({ w with progress := 0, watchdogFired := false, haltedLanes := w.haltedLanes ||| u.mask } : Wave).setUnit i.arm
        { u with mask := 0 }) (e := e) (rest := rest) (by rw [Wave.unit_setUnit]; exact hentries)
    rwa [Wave.unit_setUnit] at harrives
  · change execYield s = _
    rw [execYield, whenLegal_of ⟨hl, illegal_yield s w _ i.lit⟩]
    rfl

end Sys2Proof.Machine
end

section
/-! PROOFS. O10: the frame of the words that compute (10 R227 to R229, R242; 11 R252 to R272). Each write operation keeps what it
does not name (`Wave.FramedBy`); each form of word goes on with a framed wave or takes a trap (`State.Computed`); the words are
instances of the forms. -/

namespace Sys2Proof.Machine
set_option Elab.async false

/-! ### A wave changed in named registers only -/

/-- `x` is `w` but for its flags, its units and the registers that `rs` names. -/
structure Wave.FramedBy (rs : List Reg) (w x : Wave) : Prop where
  rest : x = { w with
    sregs := x.sregs, spoison := x.spoison, qregs := x.qregs, qpoison := x.qpoison, pregs := x.pregs, vregs := x.vregs,
    fpFlags := x.fpFlags, unitT := x.unitT, unitE := x.unitE }
  depth : x.vregs.length = w.vregs.length
  uniform : ∀ k, Reg.s k ∉ rs → x.s k = w.s k ∧ x.sPoison k = w.sPoison k
  flag : ∀ k, Reg.q k ∉ rs → x.q k = w.q k ∧ x.qPoison k = w.qPoison k
  predicate : ∀ k, Reg.p k ∉ rs → x.p k = w.p k
  vector : ∀ k, (∀ j, Reg.v j ∈ rs → w.physV (w.winBase + j) ≠ w.physV (w.winBase + k)) → x.v k = w.v k

/-- A bit other than the one set, in a mask of any width. -/
theorem getLsbD_put_ne {z : Nat} (m : BitVec z) {n k : Nat} (b : Bool) (h : k ≠ n) :
    (if b then m ||| BitVec.ofNat z (2 ^ n) else m &&& ~~~(BitVec.ofNat z (2 ^ n))).getLsbD k = m.getLsbD k := by
  have hbit : (BitVec.ofNat z (2 ^ n)).getLsbD k = false := by
    rw [BitVec.getLsbD_ofNat, Nat.testBit_two_pow_of_ne h.symm, Bool.and_false]
  cases b with
  | true => rw [if_pos rfl, BitVec.getLsbD_or, hbit, Bool.or_false]
  | false =>
    rw [if_neg Bool.false_ne_true, BitVec.getLsbD_and, BitVec.getLsbD_not, hbit]
    by_cases hk : k < z
    · simp [hk]
    · simp [BitVec.getLsbD_of_ge m k (Nat.not_lt.mp hk)]

theorem getLsbD_setBit_ne (m : Lanes) {n k : Nat} (b : Bool) (h : k ≠ n) : (setBit m n b).getLsbD k = m.getLsbD k :=
  getLsbD_put_ne m b h

theorem getLsbD_setBit8_ne (m : BitVec 8) {n k : Nat} (b : Bool) (h : k ≠ n) : (setBit8 m n b).getLsbD k = m.getLsbD k :=
  getLsbD_put_ne m b h

section
variable {rs : List Reg} {w x y : Wave}

theorem Wave.FramedBy.refl (w : Wave) : w.FramedBy rs w :=
  ⟨rfl, rfl, fun _ _ => ⟨rfl, rfl⟩, fun _ _ => ⟨rfl, rfl⟩, fun _ _ => rfl, fun _ _ => rfl⟩

theorem Wave.FramedBy.winBase (h : w.FramedBy rs x) : x.winBase = w.winBase := by rw [h.rest]

theorem Wave.FramedBy.names (h : w.FramedBy rs x) : x.seq = w.seq ∧ x.wid = w.wid := by
  rw [h.rest]
  exact ⟨rfl, rfl⟩

theorem Wave.FramedBy.trans (hx : w.FramedBy rs x) (hy : x.FramedBy rs y) : w.FramedBy rs y where
  rest := hy.rest.trans (by rw [hx.rest])
  depth := hy.depth.trans hx.depth
  uniform k hk := ⟨(hy.uniform k hk).1.trans (hx.uniform k hk).1, (hy.uniform k hk).2.trans (hx.uniform k hk).2⟩
  flag k hk := ⟨(hy.flag k hk).1.trans (hx.flag k hk).1, (hy.flag k hk).2.trans (hx.flag k hk).2⟩
  predicate k hk := (hy.predicate k hk).trans (hx.predicate k hk)
  vector k hk := by
    refine (hy.vector k fun j hj => ?_).trans (hx.vector k hk)
    rw [hx.winBase, Wave.physV, Wave.physV, hx.depth]
    exact hk j hj

theorem Wave.FramedBy.ite {c : Prop} [Decidable c] (hx : w.FramedBy rs x) (hy : w.FramedBy rs y) :
    w.FramedBy rs (if c then x else y) := by
  split
  · exact hx
  · exact hy

theorem Wave.FramedBy.goto (h : w.FramedBy rs x) (a : Arm) (pc : Nat) : w.FramedBy rs (x.goto a pc) := by
  refine h.trans ?_
  cases a <;> exact ⟨rfl, rfl, fun _ _ => ⟨rfl, rfl⟩, fun _ _ => ⟨rfl, rfl⟩, fun _ _ => rfl, fun _ _ => rfl⟩

/-! ### One lemma for each write operation -/

theorem Wave.framedBy_raise (w : Wave) (f : Flags) : w.FramedBy rs (w.raise f) :=
  ⟨rfl, rfl, fun _ _ => ⟨rfl, rfl⟩, fun _ _ => ⟨rfl, rfl⟩, fun _ _ => rfl, fun _ _ => rfl⟩

theorem Wave.framedBy_setS {n : Nat} (hn : Reg.s n ∈ rs) (w : Wave) (v : Word) (p : Bool) : w.FramedBy rs (w.setS n v p) := by
  by_cases h0 : n = 0
  · rw [Wave.setS, if_pos h0]
    exact .refl w
  · have hne {k : Nat} (hk : Reg.s k ∉ rs) : k ≠ n := fun h => hk (h ▸ hn)
    have hread (k : Nat) (hk : Reg.s k ∉ rs) : (w.setS n v p).s k = w.s k := by rw [Wave.s_setS, if_neg fun h => hne hk h.1]
    rw [Wave.setS, if_neg h0] at hread ⊢
    refine ⟨rfl, rfl, fun k hk => ⟨hread k hk, ?_⟩, fun _ _ => ⟨rfl, rfl⟩, fun _ _ => rfl, fun _ _ => rfl⟩
    rw [Wave.sPoison, Wave.sPoison, getLsbD_setBit_ne _ _ (hne hk)]

theorem Wave.framedBy_setPair {n : Nat} (hlow : Reg.s n ∈ rs) (hhigh : Reg.s (n + 1) ∈ rs) (w : Wave) (v : Nat) (p : Bool) :
    w.FramedBy rs (w.setPair n v p) :=
  (w.framedBy_setS hlow _ p).trans (Wave.framedBy_setS hhigh _ _ p)

theorem Wave.framedBy_setQ {n : Nat} (hn : n = 0 ∨ Reg.q n ∈ rs) (w : Wave) (v p : Bool) : w.FramedBy rs (w.setQ n v p) := by
  by_cases h0 : n = 0
  · rw [Wave.setQ, if_pos h0]
    exact .refl w
  · rw [Wave.setQ, if_neg h0]
    refine ⟨rfl, rfl, fun _ _ => ⟨rfl, rfl⟩, fun k hk => ?_, fun _ _ => rfl, fun _ _ => rfl⟩
    have hne : k ≠ n := fun h => hk (h ▸ hn.resolve_left h0)
    exact ⟨by rw [Wave.q, Wave.q, getLsbD_setBit8_ne _ _ hne], by rw [Wave.qPoison, Wave.qPoison, getLsbD_setBit8_ne _ _ hne]⟩

theorem Wave.framedBy_setQs {l : List Nat} (v : Nat → Bool) (p : Bool) (hl : ∀ n ∈ l, n = 0 ∨ Reg.q n ∈ rs) (w : Wave) :
    w.FramedBy rs (w.setQs v p l) := by
  induction l generalizing w with
  | nil => exact .refl w
  | cons n l ih =>
    exact (w.framedBy_setQ (hl n List.mem_cons_self) (v n) p).trans (ih (fun k hk => hl k (List.mem_cons_of_mem _ hk)) _)

theorem Wave.framedBy_setP {n : Nat} (hn : Reg.p n ∈ rs) (w : Wave) (m v p : Lanes) : w.FramedBy rs (w.setP n m v p) := by
  by_cases h0 : n = 0
  · rw [Wave.setP, if_pos h0]
    exact .refl w
  · have hother (k : Nat) (hk : Reg.p k ∉ rs) : (w.setP n m v p).p k = w.p k := Wave.p_setP_other _ _ _ _ _ fun h => hk (h ▸ hn)
    rw [Wave.setP, if_neg h0] at hother ⊢
    exact ⟨rfl, rfl, fun _ _ => ⟨rfl, rfl⟩, fun _ _ => ⟨rfl, rfl⟩, hother, fun _ _ => rfl⟩

theorem Wave.framedBy_writeV {n : Nat} (hn : Reg.v n ∈ rs) (w : Wave) (m : Lanes) (es : List Elem) :
    w.FramedBy rs (w.writeV n m es) := by
  refine ⟨rfl, List.length_set, fun _ _ => ⟨rfl, rfl⟩, fun _ _ => ⟨rfl, rfl⟩, fun _ _ => rfl, fun k hk => ?_⟩
  rw [Wave.v_writeV, if_neg fun h => hk n hn h.2.symm]

theorem Wave.framedBy_writeF {d : BitVec 6} (hd : Reg.v d.toNat ∈ rs) (w : Wave) (m : Lanes) (l : List FElem) :
    w.FramedBy rs (w.writeF d m l) :=
  (w.framedBy_writeV hd m _).trans (Wave.framedBy_raise _ _)

theorem Wave.framedBy_setGroupElems {k n : Nat} (hgroup : ∀ j < k, Reg.v (n + j) ∈ rs) (w : Wave) (es : List Elem) :
    w.FramedBy rs (w.setGroupElems (w.winBase + n) k es) := by
  induction k generalizing n w es with
  | zero => exact .refl w
  | succ k ih =>
    have hfirst := w.framedBy_writeV (rs := rs) (hgroup 0 k.succ_pos) allLanes (es.take 64)
    refine hfirst.trans (ih (n := n + 1) (fun j hj => ?_) _ (es.drop 64))
    rw [Nat.add_assoc, Nat.add_comm 1 j]
    exact hgroup (j + 1) (Nat.succ_lt_succ hj)

theorem mem_vGroup {d : BitVec 6} {j k : Nat} (h : j < k) : Reg.v (d.toNat + j) ∈ vGroup d k :=
  List.mem_map.mpr ⟨j, List.mem_range.mpr h, rfl⟩

end

/-! ### The forms of the words -/

/-- The word goes on with a wave changed in `rs` only, or it takes a trap. -/
def State.Computed (s : State) (w : Wave) (i : Issue) (rs : List Reg) (out : Out) : Prop :=
  (∃ x, w.FramedBy rs x ∧ out = finish s x i) ∨ ∃ cause sub addr, out = takeTrap s w i cause sub addr

section
variable {s : State} {w : Wave} {i : Issue} {rs : List Reg}

theorem computed_finish {x : Wave} (h : w.FramedBy rs x) : s.Computed w i rs (finish s x i) := .inl ⟨x, h, rfl⟩

theorem computed_guarded {c : Bool} {out : Out} (h : s.Computed w i rs out) :
    s.Computed w i rs (if c then poisonTrap s w i else out) := by
  cases c
  · exact h
  · exact .inr ⟨_, _, _, rfl⟩

variable (hl : s.Latched w i) {j : Instr}
include hl

theorem computed_whenLegal {f : Wave → Issue → UnitSt → Out} (h : s.Computed w i rs (f w i (w.issuing i))) :
    s.Computed w i rs (whenLegal s j f) := by
  cases hi : illegalSub s w ((w.issuing i).at i) i.lit j with
  | none => rwa [whenLegal_of ⟨hl, hi⟩]
  | some sub =>
    rw [whenLegal_illegal hl hi]
    exact .inr ⟨_, _, _, rfl⟩

theorem computed_uGuarded {g : BitVec 3} {f : Wave → Wave} (h : w.FramedBy rs (f w)) : s.Computed w i rs (uGuarded s j g f) :=
  computed_whenLegal hl (computed_guarded (computed_finish (.ite h (.refl w))))

theorem computed_uBin {g : BitVec 3} {f : Word → Word → Word} {d a b : BitVec 6} (hd : Reg.s d.toNat ∈ rs) :
    s.Computed w i rs (uGuarded s j g fun w => w.uBin f d a b) :=
  computed_uGuarded hl (w.framedBy_setS hd _ _)

theorem computed_uUn {g : BitVec 3} {f : Word → Word} {d a : BitVec 6} (hd : Reg.s d.toNat ∈ rs) :
    s.Computed w i rs (uGuarded s j g fun w => w.uUn f d a) :=
  computed_uGuarded hl (w.framedBy_setS hd _ _)

theorem computed_uImm {f : Word → Word → Word} {d a : BitVec 6} {imm : BitVec 10} (hd : Reg.s d.toNat ∈ rs) :
    s.Computed w i rs (uImm s j f d a imm) :=
  computed_whenLegal hl (computed_finish (w.framedBy_setS hd _ _))

theorem computed_vGuarded {g : BitVec 3} {f : Wave → Lanes → Wave} (h : ∀ m, w.FramedBy rs (f w m)) :
    s.Computed w i rs (vGuarded s j g f) :=
  computed_whenLegal hl (computed_guarded (computed_finish (h _)))

theorem computed_vImm {f : Word → Word → Word} {d a : BitVec 6} {imm : BitVec 10} (hd : Reg.v d.toNat ∈ rs) :
    s.Computed w i rs (vImm s j f d a imm) :=
  computed_whenLegal hl (computed_finish (w.framedBy_writeV hd _ _))

theorem computed_fBin {op : Rm → Bool → Word → Word → Word × Flags} {u : BitVec 1} {d a b : BitVec 6} {g : BitVec 3}
    (hd : Reg.v d.toNat ∈ rs) : s.Computed w i rs (fBin s j op u d a b g) :=
  computed_whenLegal hl (computed_guarded (computed_finish (w.framedBy_writeF hd _ _)))

theorem computed_fUn {op : BitVec 8 → Word → Word × Flags} {d a : BitVec 6} {g : BitVec 3} (hd : Reg.v d.toNat ∈ rs) :
    s.Computed w i rs (fUn s j op d a g) :=
  computed_whenLegal hl (computed_guarded (computed_finish (w.framedBy_writeF hd _ _)))

theorem computed_fTer {op : Rm → Bool → Word → Word → Word → Word × Flags} {u : BitVec 1} {d a b : BitVec 6} {g : BitVec 3}
    (hd : Reg.v d.toNat ∈ rs) : s.Computed w i rs (fTer s j op u d a b g) :=
  computed_whenLegal hl (computed_guarded (computed_finish (w.framedBy_writeF hd _ _)))

end

/-! ### The words -/

/-- Every word that computes goes on with a wave changed in the registers it writes, or takes a trap. -/
theorem computed_exec {s : State} {w : Wave} {i : Issue} (hl : s.Latched w i) {j : Instr} (hcomputes : j.computes = true) :
    s.Computed w i (regsWritten (w.issuing i).fmt j) (exec j s) := by
  cases j
  case uadd | usub | umul | umulh | umulhu | uand | uor | uxor | ushl | ushr | usar | umin | umax | uminu | umaxu | ubfx =>
    dsimp only [exec]
    exact computed_uBin hl List.mem_cons_self
  case umov | uclz | upopc | ubrev =>
    dsimp only [exec]
    exact computed_uUn hl List.mem_cons_self
  case ubfi =>
    dsimp only [exec]
    exact computed_uGuarded hl (w.framedBy_setS List.mem_cons_self _ _)
  case ucmp =>
    dsimp only [exec]
    exact computed_uGuarded hl (w.framedBy_setQ (.inr List.mem_cons_self) _ _)
  case uaddi | umuli | uandi | uori | uxori | ushli | ushri | usari =>
    dsimp only [exec]
    exact computed_uImm hl List.mem_cons_self
  case ucmpi | uqop | anyp | allp =>
    dsimp only [exec]
    exact computed_whenLegal hl (computed_finish (w.framedBy_setQ (.inr List.mem_cons_self) _ _))
  case usel | uqmovTos | vtos =>
    dsimp only [exec]
    exact computed_whenLegal hl (computed_finish (w.framedBy_setS List.mem_cons_self _ _))
  case uqmovFroms a =>
    have hall : ∀ n ∈ List.range 8, n = 0 ∨ Reg.q n ∈ [Reg.q 1, .q 2, .q 3, .q 4, .q 5, .q 6, .q 7] := by decide
    dsimp only [exec]
    exact computed_whenLegal hl (computed_finish (w.framedBy_setQs (fun k => (w.s a.toNat).getLsbD k) _ hall))
  case pmask =>
    dsimp only [exec]
    exact computed_whenLegal hl (computed_finish (w.framedBy_setPair List.mem_cons_self
      (List.mem_cons_of_mem _ List.mem_cons_self) _ _))
  case vballot =>
    dsimp only [exec]
    exact computed_vGuarded hl fun _ => w.framedBy_setPair List.mem_cons_self (List.mem_cons_of_mem _ List.mem_cons_self) _ _
  case vadd | vsub | vmul | vmulh | vmulhu | vmin | vmax | vminu | vand | vor | vxor | vshl | vshr | vsar | vmaxu | vabsd | vclz |
      vpopc | vbrev | vbfx | vbfi | vmad | vlane | vmov | vmovs | vfroms | shfl | shflx | shflup | shfldn | lanebc | vredi |
      vmcnt =>
    dsimp only [exec]
    exact computed_vGuarded hl fun _ => w.framedBy_writeV List.mem_cons_self _ _
  case vicmp | pand | por | pxor | pandn | pnot | pmov | pset =>
    dsimp only [exec]
    exact computed_vGuarded hl fun _ => w.framedBy_setP List.mem_cons_self _ _ _
  case vaddi | vmuli | vandi | vori | vxori | vshli | vshri | vsari =>
    dsimp only [exec]
    exact computed_vImm hl List.mem_cons_self
  case vicmpi =>
    dsimp only [exec]
    exact computed_whenLegal hl (computed_finish (w.framedBy_setP List.mem_cons_self _ _ _))
  case vsel =>
    dsimp only [exec]
    exact computed_whenLegal hl (computed_finish (w.framedBy_writeV List.mem_cons_self _ _))
  case fadd | fsub | fmul | fmin | fmax | fdiv | b2add | b2sub | b2mul | b2max | b2min =>
    dsimp only [exec]
    exact computed_fBin hl List.mem_cons_self
  case ffma | ffnma | b2fma =>
    dsimp only [exec]
    exact computed_fTer hl List.mem_cons_self
  case fabs | frcp | frsq | fsqrt | fex2 | flg2 | frint | fclass | fcvt | icvt =>
    dsimp only [exec]
    exact computed_fUn hl List.mem_cons_self
  case vfcmp =>
    dsimp only [exec]
    exact computed_whenLegal hl (computed_guarded (computed_finish
      ((w.framedBy_setP List.mem_cons_self _ _ _).trans (Wave.framedBy_raise _ _))))
  case vredf | vscanf =>
    dsimp only [exec]
    exact computed_whenLegal hl (computed_guarded (computed_finish
      ((w.framedBy_writeV List.mem_cons_self _ _).trans (Wave.framedBy_raise _ _))))
  case qpk =>
    dsimp only [exec]
    exact computed_whenLegal hl (computed_finish
      (((w.framedBy_setGroupElems (fun _ hk => List.mem_cons_of_mem _ (mem_vGroup hk)) _).trans
        (Wave.framedBy_setS List.mem_cons_self _ _ _)).trans (Wave.framedBy_raise _ _)))
  case qunpk =>
    dsimp only [exec]
    exact computed_whenLegal hl (computed_finish
      ((w.framedBy_setGroupElems (fun _ hk => mem_vGroup hk) _).trans (Wave.framedBy_raise _ _)))
  all_goals exact absurd hcomputes Bool.false_ne_true

/-! ### What both outcomes keep -/

theorem State.setWave_othersKeep (s : State) {w x : Wave} (hx : x.seq = w.seq ∧ x.wid = w.wid) : s.othersKeep (s.setWave x) w := by
  intro seq wid hne
  rw [State.wave?_setWave, hx.1, hx.2, if_neg fun h => hne (Prod.ext h.1 h.2)]

theorem State.enterTrap_othersKeep (s : State) (w : Wave) (a : Arm) (pc cause sub addr : Nat) (second : Bool) (wait : Wait) :
    s.othersKeep (s.enterTrap w a pc cause sub addr second wait) w := by
  unfold State.enterTrap
  dsimp only
  split
  case isTrue => exact s.setWave_othersKeep ⟨rfl, rfl⟩
  case isFalse =>
    split
    case isTrue => exact s.setWave_othersKeep ⟨rfl, rfl⟩
    case isFalse => exact s.setWave_othersKeep ⟨Wave.setUnit_seq _ _ _, Wave.setUnit_wid _ _ _⟩

/-- A word that has trapped has not performed. -/
theorem State.trapped_not_performed {s : State} {i : Issue} (h : s.issue = some i) : s.trapped.performed = false := by
  simp [State.trapped, State.performed, h]

/-- Settles O10: a framed wave goes on and nothing else changes, or a trap keeps memory and the other waves. -/
theorem computeFrame : Obligations.ComputeFrame := by
  intro s t w i j hl hcomputes hexec
  obtain ⟨x, hx, hout⟩ | ⟨cause, sub, addr, hout⟩ := computed_exec hl hcomputes
  · obtain rfl : t = s.after x i := Host.Outcome.next.inj (hexec.symm.trans hout)
    have hafter := hx.goto i.arm (nextWord i.pc)
    obtain ⟨hseq, hwid⟩ := hx.names
    exact ⟨fun _ => rfl, s.setWave_othersKeep hafter.names, fun _ _ => ⟨rfl, _, State.wave?_after hl rfl hseq hwid, hafter.rest,
      hafter.uniform, hafter.flag, hafter.predicate, hafter.vector⟩⟩
  · obtain rfl : t = (s.enterTrap w i.arm i.trapPc cause sub addr i.second .none).trapped :=
      Host.Outcome.next.inj (hexec.symm.trans hout)
    refine ⟨fun k => ?_, fun seq wid hne => ?_, fun hperformed => ?_⟩
    · change State.byteAt (s.enterTrap w i.arm i.trapPc cause sub addr i.second .none) k = s.byteAt k
      rw [State.byteAt, State.enterTrap_mem, State.byteAt]
    · exact s.enterTrap_othersKeep w i.arm i.trapPc cause sub addr i.second .none seq wid hne
    · obtain ⟨hissue, -⟩ := hl
      rw [State.trapped_not_performed ((s.enterTrap_issue w i.arm i.trapPc cause sub addr i.second .none).trans hissue)]
        at hperformed
      cases hperformed

end Sys2Proof.Machine
end
